-- ==== Sys2Proof/Word.lean ====
section
/-!
DEFINITION. The word types of the machine and the plainest arithmetic on them (R1: little-endian; R4: `sext`, `zext`), and the write of a host to
the intake window.
-/
namespace Sys2Proof

/-- One byte, the smallest addressable unit (R1). -/
abbrev Byte := BitVec 8
/-- An x register or a 64-bit configuration register. -/
abbrev Dword := BitVec 64
/-- A 32-bit instruction word or an FP32 bit pattern. -/
abbrev Word32 := BitVec 32
/-- A v register (R132). -/
abbrev Vreg := BitVec 256
/-- An st register, in the STAT128 layout (R132, R171). -/
abbrev Streg := BitVec 128
/-- A register field of an instruction word. -/
abbrev Reg := BitVec 5

/-- `sext(v, w)` of R4 on a field, to 64 bits. -/
abbrev sext64 {n : Nat} (v : BitVec n) : Dword := v.signExtend 64
/-- `zext(v, w)` of R4 on a field, to 64 bits. -/
abbrev zext64 {n : Nat} (v : BitVec n) : Dword := v.zeroExtend 64

/-- A host write to the intake window (R80): its offset in the window, its length in bytes, whether every byte enable is set, and its data. -/
structure IntakeWrite where
  offset : Nat
  len : Nat
  full : Bool
  record : BitVec 512
  deriving DecidableEq, Repr

end Sys2Proof
end

