-- ==== Sys2Proof/Syntax.lean ====
section
/-!
DEFINITION. The steps of the machine: one constructor per row of spec/opcode_table.json, in the table's order. An
instruction carries the fields of its encoding (R191, R196, R199); an event carries plain data that says which packet,
die, entry or command it is about. The docstrings are the table's own summaries, each with its governing rule.
-/
namespace Sys2Proof

/-- The instructions and events of the opcode table. -/
inductive Instr
  /-- LUI: Loads a 20-bit upper immediate into rd. (R191) -/
  | lui (rd : Reg) (imm : BitVec 20)
  /-- AUIPC: Adds a 20-bit upper immediate to the PC and writes rd. (R191) -/
  | auipc (rd : Reg) (imm : BitVec 20)
  /-- JAL: Jumps PC-relative and links the return address in rd. (R191) -/
  | jal (rd : Reg) (off : BitVec 20)
  /-- JALR: Jumps to rs1 plus an offset and links the return address in rd. (R191) -/
  | jalr (rd rs1 : Reg) (imm : BitVec 12)
  /-- BEQ: Branches if the registers are equal. (R191) -/
  | beq (rs1 rs2 : Reg) (off : BitVec 12)
  /-- BNE: Branches if the registers are not equal. (R191) -/
  | bne (rs1 rs2 : Reg) (off : BitVec 12)
  /-- BLT: Branches if rs1 is less than rs2, signed. (R191) -/
  | blt (rs1 rs2 : Reg) (off : BitVec 12)
  /-- BGE: Branches if rs1 is greater than or equal to rs2, signed. (R191) -/
  | bge (rs1 rs2 : Reg) (off : BitVec 12)
  /-- BLTU: Branches if rs1 is less than rs2, unsigned. (R191) -/
  | bltu (rs1 rs2 : Reg) (off : BitVec 12)
  /-- BGEU: Branches if rs1 is greater than or equal to rs2, unsigned. (R191) -/
  | bgeu (rs1 rs2 : Reg) (off : BitVec 12)
  /-- LB: Loads a sign-extended byte; the access is local or remote under the address class. (R192) -/
  | lb (rd rs1 : Reg) (imm : BitVec 12)
  /-- LH: Loads a sign-extended halfword; a misaligned access raises an access fault. (R192) -/
  | lh (rd rs1 : Reg) (imm : BitVec 12)
  /-- LW: Loads a sign-extended word. (R192) -/
  | lw (rd rs1 : Reg) (imm : BitVec 12)
  /-- LD: Loads a doubleword. (R192) -/
  | ld (rd rs1 : Reg) (imm : BitVec 12)
  /-- LBU: Loads a zero-extended byte. (R192) -/
  | lbu (rd rs1 : Reg) (imm : BitVec 12)
  /-- LHU: Loads a zero-extended halfword. (R192) -/
  | lhu (rd rs1 : Reg) (imm : BitVec 12)
  /-- LWU: Loads a zero-extended word. (R192) -/
  | lwu (rd rs1 : Reg) (imm : BitVec 12)
  /-- SB: Stores a byte; a store to a global address is posted. (R177) -/
  | sb (rs1 rs2 : Reg) (imm : BitVec 12)
  /-- SH: Stores a halfword; a store to a global address is posted. (R177) -/
  | sh (rs1 rs2 : Reg) (imm : BitVec 12)
  /-- SW: Stores a word; a store to a global address is posted. (R177) -/
  | sw (rs1 rs2 : Reg) (imm : BitVec 12)
  /-- SD: Stores a doubleword; a store to a global address is posted. (R177) -/
  | sd (rs1 rs2 : Reg) (imm : BitVec 12)
  /-- ADDI: Adds a sign-extended immediate to rs1. (R191) -/
  | addi (rd rs1 : Reg) (imm : BitVec 12)
  /-- SLTI: Sets rd if rs1 is less than the immediate, signed. (R191) -/
  | slti (rd rs1 : Reg) (imm : BitVec 12)
  /-- SLTIU: Sets rd if rs1 is less than the immediate, unsigned. (R191) -/
  | sltiu (rd rs1 : Reg) (imm : BitVec 12)
  /-- XORI: XORs rs1 with the immediate. (R191) -/
  | xori (rd rs1 : Reg) (imm : BitVec 12)
  /-- ORI: ORs rs1 with the immediate. (R191) -/
  | ori (rd rs1 : Reg) (imm : BitVec 12)
  /-- ANDI: ANDs rs1 with the immediate. (R191) -/
  | andi (rd rs1 : Reg) (imm : BitVec 12)
  /-- SLLI: Shifts rs1 left by a 6-bit amount. (R191) -/
  | slli (rd rs1 : Reg) (sh : BitVec 6)
  /-- SRLI: Shifts rs1 right logically by a 6-bit amount. (R191) -/
  | srli (rd rs1 : Reg) (sh : BitVec 6)
  /-- SRAI: Shifts rs1 right arithmetically by a 6-bit amount. (R191) -/
  | srai (rd rs1 : Reg) (sh : BitVec 6)
  /-- ADDIW: Adds an immediate in 32 bits and sign-extends. (R191) -/
  | addiw (rd rs1 : Reg) (imm : BitVec 12)
  /-- SLLIW: Shifts left in 32 bits and sign-extends. (R191) -/
  | slliw (rd rs1 sh : Reg)
  /-- SRLIW: Shifts right logically in 32 bits and sign-extends. (R191) -/
  | srliw (rd rs1 sh : Reg)
  /-- SRAIW: Shifts right arithmetically in 32 bits and sign-extends. (R191) -/
  | sraiw (rd rs1 sh : Reg)
  /-- ADD: Adds two registers. (R191) -/
  | add (rd rs1 rs2 : Reg)
  /-- SLL: Shifts left by a register amount. (R191) -/
  | sll (rd rs1 rs2 : Reg)
  /-- SLT: Sets rd if rs1 is less than rs2, signed. (R191) -/
  | slt (rd rs1 rs2 : Reg)
  /-- SLTU: Sets rd if rs1 is less than rs2, unsigned. (R191) -/
  | sltu (rd rs1 rs2 : Reg)
  /-- XOR: XORs two registers. (R191) -/
  | xor (rd rs1 rs2 : Reg)
  /-- SRL: Shifts right logically by a register amount. (R191) -/
  | srl (rd rs1 rs2 : Reg)
  /-- OR: ORs two registers. (R191) -/
  | or (rd rs1 rs2 : Reg)
  /-- AND: ANDs two registers. (R191) -/
  | and (rd rs1 rs2 : Reg)
  /-- SUB: Subtracts rs2 from rs1. (R191) -/
  | sub (rd rs1 rs2 : Reg)
  /-- SRA: Shifts right arithmetically by a register amount. (R191) -/
  | sra (rd rs1 rs2 : Reg)
  /-- MUL: Multiplies and keeps the low 64 bits. (R191) -/
  | mul (rd rs1 rs2 : Reg)
  /-- MULH: Gives the high 64 bits of a signed product. (R191) -/
  | mulh (rd rs1 rs2 : Reg)
  /-- MULHSU: Gives the high 64 bits of a signed by unsigned product. (R191) -/
  | mulhsu (rd rs1 rs2 : Reg)
  /-- MULHU: Gives the high 64 bits of an unsigned product. (R191) -/
  | mulhu (rd rs1 rs2 : Reg)
  /-- DIV: Divides, signed. (R191) -/
  | div (rd rs1 rs2 : Reg)
  /-- DIVU: Divides, unsigned. (R191) -/
  | divu (rd rs1 rs2 : Reg)
  /-- REM: Gives the signed remainder. (R191) -/
  | rem (rd rs1 rs2 : Reg)
  /-- REMU: Gives the unsigned remainder. (R191) -/
  | remu (rd rs1 rs2 : Reg)
  /-- ADDW: Adds in 32 bits and sign-extends. (R191) -/
  | addw (rd rs1 rs2 : Reg)
  /-- SLLW: Shifts left in 32 bits. (R191) -/
  | sllw (rd rs1 rs2 : Reg)
  /-- SRLW: Shifts right logically in 32 bits. (R191) -/
  | srlw (rd rs1 rs2 : Reg)
  /-- SUBW: Subtracts in 32 bits. (R191) -/
  | subw (rd rs1 rs2 : Reg)
  /-- SRAW: Shifts right arithmetically in 32 bits. (R191) -/
  | sraw (rd rs1 rs2 : Reg)
  /-- MULW: Multiplies in 32 bits. (R191) -/
  | mulw (rd rs1 rs2 : Reg)
  /-- DIVW: Divides in 32 bits, signed. (R191) -/
  | divw (rd rs1 rs2 : Reg)
  /-- DIVUW: Divides in 32 bits, unsigned. (R191) -/
  | divuw (rd rs1 rs2 : Reg)
  /-- REMW: Gives the 32-bit signed remainder. (R191) -/
  | remw (rd rs1 rs2 : Reg)
  /-- REMUW: Gives the 32-bit unsigned remainder. (R191) -/
  | remuw (rd rs1 rs2 : Reg)
  /-- FENCE: Acts as an XFENCE at XMSCOPE when both sets are non-empty; otherwise has no ordering effect. (R180) -/
  | fence (rd rs1 : Reg) (pred succ : BitVec 4)
  /-- FENCE_TSO: Counts as a FENCE with both sets non-empty. (R192) -/
  | fenceTso (rd rs1 : Reg) (pred succ : BitVec 4)
  /-- FENCE_I: Has no effect. (R192) -/
  | fenceI (rd rs1 : Reg) (imm : BitVec 12)
  /-- ECALL: Enters the monitor, which acts on the function number in a7. (R141) -/
  | ecall
  /-- EBREAK: Raises cause 3 to the user trap vector. (R192) -/
  | ebreak
  /-- WFI: Consumes the wake token, or parks with reason WAKE until a BAT.WAKE. (R192) -/
  | wfi
  /-- CSRRW: Atomically swaps a CSR with rs1; illegal on RO or absent CSRs. (R135) -/
  | csrrw (rd rs1 : Reg) (csr : BitVec 12)
  /-- CSRRS: Reads a CSR and sets the bits given in rs1. (R135) -/
  | csrrs (rd rs1 : Reg) (csr : BitVec 12)
  /-- CSRRC: Reads a CSR and clears the bits given in rs1. (R135) -/
  | csrrc (rd rs1 : Reg) (csr : BitVec 12)
  /-- CSRRWI: Swaps a CSR with a 5-bit immediate. (R135) -/
  | csrrwi (rd : Reg) (csr : BitVec 12) (uimm : Reg)
  /-- CSRRSI: Reads a CSR and sets the bits of a 5-bit immediate. (R135) -/
  | csrrsi (rd : Reg) (csr : BitVec 12) (uimm : Reg)
  /-- CSRRCI: Reads a CSR and clears the bits of a 5-bit immediate. (R135) -/
  | csrrci (rd : Reg) (csr : BitVec 12) (uimm : Reg)
  /-- LR: Loads and sets the baton's single reservation on the aligned 8 bytes. (R193) -/
  | lr (rd rs1 : Reg) (aq rl dbl : Bool)
  /-- SC: Stores only if the reservation holds, writes 0 or 1 to rd, and clears the reservation. (R193) -/
  | sc (rd rs1 rs2 : Reg) (aq rl dbl : Bool)
  /-- AMOSWAP: Atomically swaps memory with rs2. (R191) -/
  | amoswap (rd rs1 rs2 : Reg) (aq rl dbl : Bool)
  /-- AMOADD: Atomically adds rs2 to memory. (R191) -/
  | amoadd (rd rs1 rs2 : Reg) (aq rl dbl : Bool)
  /-- AMOXOR: Atomically XORs rs2 into memory. (R191) -/
  | amoxor (rd rs1 rs2 : Reg) (aq rl dbl : Bool)
  /-- AMOAND: Atomically ANDs rs2 into memory. (R191) -/
  | amoand (rd rs1 rs2 : Reg) (aq rl dbl : Bool)
  /-- AMOOR: Atomically ORs rs2 into memory. (R191) -/
  | amoor (rd rs1 rs2 : Reg) (aq rl dbl : Bool)
  /-- AMOMIN: Atomically takes the signed minimum. (R191) -/
  | amomin (rd rs1 rs2 : Reg) (aq rl dbl : Bool)
  /-- AMOMAX: Atomically takes the signed maximum. (R191) -/
  | amomax (rd rs1 rs2 : Reg) (aq rl dbl : Bool)
  /-- AMOMINU: Atomically takes the unsigned minimum. (R191) -/
  | amominu (rd rs1 rs2 : Reg) (aq rl dbl : Bool)
  /-- AMOMAXU: Atomically takes the unsigned maximum. (R191) -/
  | amomaxu (rd rs1 rs2 : Reg) (aq rl dbl : Bool)
  /-- FADD_S: Zfinx FP32 add in x registers. (R191) -/
  | faddS (rd rs1 rs2 : Reg) (rm : BitVec 3)
  /-- FSUB_S: Zfinx FP32 subtract. (R191) -/
  | fsubS (rd rs1 rs2 : Reg) (rm : BitVec 3)
  /-- FMUL_S: Zfinx FP32 multiply. (R191) -/
  | fmulS (rd rs1 rs2 : Reg) (rm : BitVec 3)
  /-- FDIV_S: Zfinx FP32 divide. (R191) -/
  | fdivS (rd rs1 rs2 : Reg) (rm : BitVec 3)
  /-- FSQRT_S: Zfinx FP32 square root. (R191) -/
  | fsqrtS (rd rs1 : Reg) (rm : BitVec 3)
  /-- FSGNJ_S: Zfinx sign injection. (R191) -/
  | fsgnjS (rd rs1 rs2 : Reg)
  /-- FSGNJN_S: Zfinx negated sign injection. (R191) -/
  | fsgnjnS (rd rs1 rs2 : Reg)
  /-- FSGNJX_S: Zfinx XOR sign injection. (R191) -/
  | fsgnjxS (rd rs1 rs2 : Reg)
  /-- FMIN_S: Zfinx FP32 minimum. (R191) -/
  | fminS (rd rs1 rs2 : Reg)
  /-- FMAX_S: Zfinx FP32 maximum. (R191) -/
  | fmaxS (rd rs1 rs2 : Reg)
  /-- FLE_S: Zfinx less-or-equal compare. (R191) -/
  | fleS (rd rs1 rs2 : Reg)
  /-- FLT_S: Zfinx less-than compare. (R191) -/
  | fltS (rd rs1 rs2 : Reg)
  /-- FEQ_S: Zfinx equality compare. (R191) -/
  | feqS (rd rs1 rs2 : Reg)
  /-- FCVT_W_S: Converts FP32 to a signed 32-bit integer. (R191) -/
  | fcvtWS (rd rs1 : Reg) (rm : BitVec 3)
  /-- FCVT_WU_S: Converts FP32 to an unsigned 32-bit integer. (R191) -/
  | fcvtWuS (rd rs1 : Reg) (rm : BitVec 3)
  /-- FCVT_L_S: Converts FP32 to a signed 64-bit integer. (R191) -/
  | fcvtLS (rd rs1 : Reg) (rm : BitVec 3)
  /-- FCVT_LU_S: Converts FP32 to an unsigned 64-bit integer. (R191) -/
  | fcvtLuS (rd rs1 : Reg) (rm : BitVec 3)
  /-- FCVT_S_W: Converts a signed 32-bit integer to FP32. (R191) -/
  | fcvtSW (rd rs1 : Reg) (rm : BitVec 3)
  /-- FCVT_S_WU: Converts an unsigned 32-bit integer to FP32. (R191) -/
  | fcvtSWu (rd rs1 : Reg) (rm : BitVec 3)
  /-- FCVT_S_L: Converts a signed 64-bit integer to FP32. (R191) -/
  | fcvtSL (rd rs1 : Reg) (rm : BitVec 3)
  /-- FCVT_S_LU: Converts an unsigned 64-bit integer to FP32. (R191) -/
  | fcvtSLu (rd rs1 : Reg) (rm : BitVec 3)
  /-- FCLASS_S: Classifies an FP32 value. (R191) -/
  | fclassS (rd rs1 : Reg)
  /-- FMADD_S: Zfinx fused multiply-add. (R191) -/
  | fmaddS (rd rs1 rs2 rs3 : Reg) (rm : BitVec 3)
  /-- FMSUB_S: Zfinx fused multiply-subtract. (R191) -/
  | fmsubS (rd rs1 rs2 rs3 : Reg) (rm : BitVec 3)
  /-- FNMSUB_S: Zfinx negated fused multiply-subtract. (R191) -/
  | fnmsubS (rd rs1 rs2 rs3 : Reg) (rm : BitVec 3)
  /-- FNMADD_S: Zfinx negated fused multiply-add. (R191) -/
  | fnmaddS (rd rs1 rs2 rs3 : Reg) (rm : BitVec 3)
  /-- C_ADDI4SPN: Compressed: adds a scaled immediate to sp. (R191) -/
  | cAddi4spn (rd : BitVec 3) (imm : BitVec 8)
  /-- C_LW: Compressed: loads a word. (R191) -/
  | cLw (rd rs1 : BitVec 3) (imm : Reg)
  /-- C_LD: Compressed: loads a doubleword. (R191) -/
  | cLd (rd rs1 : BitVec 3) (imm : Reg)
  /-- C_SW: Compressed: stores a word. (R191) -/
  | cSw (rs1 rs2 : BitVec 3) (imm : Reg)
  /-- C_SD: Compressed: stores a doubleword. (R191) -/
  | cSd (rs1 rs2 : BitVec 3) (imm : Reg)
  /-- C_ADDI: Compressed: adds an immediate. (R191) -/
  | cAddi (rd : Reg) (imm : BitVec 6)
  /-- C_NOP: Compressed no-op. (R191) -/
  | cNop (imm : BitVec 6)
  /-- C_ADDIW: Compressed: adds an immediate in 32 bits. (R191) -/
  | cAddiw (rd : Reg) (imm : BitVec 6)
  /-- C_LI: Compressed: loads an immediate. (R191) -/
  | cLi (rd : Reg) (imm : BitVec 6)
  /-- C_ADDI16SP: Compressed: adjusts sp by a scaled immediate. (R191) -/
  | cAddi16sp (imm : BitVec 6)
  /-- C_LUI: Compressed: loads an upper immediate. (R191) -/
  | cLui (rd : Reg) (imm : BitVec 6)
  /-- C_SRLI: Compressed: logical right shift by an immediate. (R191) -/
  | cSrli (rd : BitVec 3) (sh : BitVec 6)
  /-- C_SRAI: Compressed: arithmetic right shift by an immediate. (R191) -/
  | cSrai (rd : BitVec 3) (sh : BitVec 6)
  /-- C_ANDI: Compressed: ANDs an immediate. (R191) -/
  | cAndi (rd : BitVec 3) (imm : BitVec 6)
  /-- C_SUB: Compressed subtract. (R191) -/
  | cSub (rd rs2 : BitVec 3)
  /-- C_XOR: Compressed XOR. (R191) -/
  | cXor (rd rs2 : BitVec 3)
  /-- C_OR: Compressed OR. (R191) -/
  | cOr (rd rs2 : BitVec 3)
  /-- C_AND: Compressed AND. (R191) -/
  | cAnd (rd rs2 : BitVec 3)
  /-- C_SUBW: Compressed 32-bit subtract. (R191) -/
  | cSubw (rd rs2 : BitVec 3)
  /-- C_ADDW: Compressed 32-bit add. (R191) -/
  | cAddw (rd rs2 : BitVec 3)
  /-- C_J: Compressed jump. (R191) -/
  | cJ (off : BitVec 11)
  /-- C_BEQZ: Compressed branch if zero. (R191) -/
  | cBeqz (rs1 : BitVec 3) (off : BitVec 8)
  /-- C_BNEZ: Compressed branch if not zero. (R191) -/
  | cBnez (rs1 : BitVec 3) (off : BitVec 8)
  /-- C_SLLI: Compressed left shift by an immediate. (R191) -/
  | cSlli (rd : Reg) (sh : BitVec 6)
  /-- C_LWSP: Compressed word load from the stack. (R191) -/
  | cLwsp (rd : Reg) (imm : BitVec 6)
  /-- C_LDSP: Compressed doubleword load from the stack. (R191) -/
  | cLdsp (rd : Reg) (imm : BitVec 6)
  /-- C_JR: Compressed jump to a register. (R191) -/
  | cJr (rs1 : Reg)
  /-- C_MV: Compressed register move. (R191) -/
  | cMv (rd rs2 : Reg)
  /-- C_EBREAK: Compressed breakpoint; raises cause 3. (R192) -/
  | cEbreak
  /-- C_JALR: Compressed jump to a register with link. (R191) -/
  | cJalr (rs1 : Reg)
  /-- C_ADD: Compressed add. (R191) -/
  | cAdd (rd rs2 : Reg)
  /-- C_SWSP: Compressed word store to the stack. (R191) -/
  | cSwsp (rs2 : Reg) (imm : BitVec 6)
  /-- C_SDSP: Compressed doubleword store to the stack. (R191) -/
  | cSdsp (rs2 : Reg) (imm : BitVec 6)
  /-- ILLEGAL_INSTRUCTION: An unallocated or malformed word traps with cause 2 and no state change. (R200) -/
  | illegalInstruction (word : BitVec 32)
  /-- BAT_SPAWN: Enqueues a new baton from a scratchpad record on the own cluster's ready queue. (R219) -/
  | batSpawn (rd rs1 : Reg)
  /-- BAT_SEND: Places a baton record, or the running baton itself, on a scratchpad slot addressed directly. (R220) -/
  | batSend (rd rs1 rs2 : Reg)
  /-- BAT_SEND_R: Places a baton record on a slot of a rank's cluster, resolving the rank under R43. (R220) -/
  | batSendR (rd rs1 rs2 : Reg)
  /-- BAT_EXIT: Drains the dispatch queue and posted stores, releases the matrix context and sets the baton DONE. (R222) -/
  | batExit
  /-- BAT_YIELD: Saves the baton under a live mask and enqueues it READY at the tail. (R222) -/
  | batYield (rs1 : Reg)
  /-- BAT_PARK: Consumes a wake token, or parks with reason WAKE until a wake or deadline. (R223) -/
  | batPark (rd rs1 rs2 : Reg)
  /-- BAT_WAKE: Satisfies a WAKE wait of the target baton or sets its wake token. (R223) -/
  | batWake (rs1 : Reg)
  /-- BAT_ROLE: Sets the baton's role and returns the old one. (R224) -/
  | batRole (rd rs1 : Reg)
  /-- BAT_SELF: Returns XBATON, CTRL, FVEC or FRAME, selected by opt3. (R224) -/
  | batSelf (rd : Reg) (sel : BitVec 3)
  /-- HD_INIT: Initialises a local hurdle with EXP, mode and WAKE and returns the old GEN. (R228) -/
  | hdInit (rd rs1 rs2 : Reg) (flags : BitVec 3)
  /-- HD_ARRIVE: Arrives on a hurdle, locally or as an ARRIVE packet through the aperture, as a release at its scope. (R226) -/
  | hdArrive (rs1 rs2 : Reg) (scope : BitVec 2)
  /-- HD_ARRIVE_R: Arrives on a hurdle addressed by rank and offset, sent as an ARRIVE packet. (R226) -/
  | hdArriveR (rs1 rs2 : Reg) (scope : BitVec 2)
  /-- HD_WAIT: Waits for the next completion, or for a generation beyond the one given, and returns the hurdle word. (R228) -/
  | hdWait (rd rs1 rs2 : Reg)
  /-- HD_ARRWAIT: Reads GEN and arrives in one operation, then waits for the completion beyond it. (R228) -/
  | hdArrwait (rd rs1 rs2 : Reg) (scope : BitVec 2)
  /-- HD_TEST: Reads a hurdle's fields at one moment, acquiring only when DONE is 1. (R227) -/
  | hdTest (rd rs1 : Reg)
  /-- HD_WITHDRAW: Withdraws a member from a hurdle, lowering EXP, locally or through the aperture. (R100) -/
  | hdWithdraw (rs1 rs2 : Reg) (scope : BitVec 2)
  /-- HD_WITHDRAW_R: Withdraws from a hurdle addressed by rank and offset. (R100) -/
  | hdWithdrawR (rs1 rs2 : Reg) (scope : BitVec 2)
  /-- HD_JOIN: Raises a hurdle's EXP by one, locally or through the aperture. (R100) -/
  | hdJoin (rs1 : Reg)
  /-- HD_JOIN_R: Raises EXP of a hurdle addressed by rank. (R100) -/
  | hdJoinR (rs1 : Reg)
  /-- LAP_END: Switches the level's phase to EXCHANGE, or waits for exchange copies, arrives on the lap hurdle and waits for its completion. (R98) -/
  | lapEnd (rd : Reg) (level : BitVec 2)
  /-- DOM_RD: Returns the lap hurdle operand of a level with phase and form bits. (R229) -/
  | domRd (rd : Reg) (level : BitVec 2)
  /-- WAIT_UNTIL: Parks with reason TIME until the SWC reaches the target and returns the SWC. (R230) -/
  | waitUntil (rd rs1 : Reg)
  /-- WAIT_PROMISE: Waits on a copy handle until completion or promise and traps on a stray, a fault or a missed promise. (R154) -/
  | waitPromise (rs1 : Reg)
  /-- MSG_SEND: Sends a payload as a MSG packet to a rank's queue and parks until the acknowledgement. (R231) -/
  | msgSend (rd rs1 rs2 : Reg)
  /-- MSG_RECV: Takes the oldest message of the baton's track from a queue, parking until one arrives. (R232) -/
  | msgRecv (rd rs1 : Reg) (queue : BitVec 3)
  /-- MSG_POLL: Takes a message if one is present, never waiting. (R232) -/
  | msgPoll (rd rs1 : Reg) (queue : BitVec 3)
  /-- RCT_SET: Writes a rank-to-coordinate entry on every live NI, under the state rules of R43. (R233) -/
  | rctSet (rs1 rs2 : Reg)
  /-- RCT_HOLD: Makes a rank entry IN_TRANSIT so new traffic to it is held. (R43) -/
  | rctHold (rs1 : Reg)
  /-- RCT_RELEASE: Makes an IN_TRANSIT entry VALID, increments EPOCH and sends the held packets. (R43) -/
  | rctRelease (rs1 : Reg)
  /-- LD_AQ: Loads with acquire at an encoded scope and width. (R234) -/
  | ldAq (rd rs1 : Reg) (scope : BitVec 2) (width : BitVec 3) (off : BitVec 7)
  /-- ST_RL: Waits for posted stores within scope, then stores with release and waits for the acknowledgement. (R234) -/
  | stRl (rs1 rs2 : Reg) (scope width : BitVec 2) (off : BitVec 7)
  /-- GANG_LEAD: Opens formation of a gang of the given size over the leader's member set. (R236) -/
  | gangLead (rd : Reg) (log2 : BitVec 3)
  /-- GANG_JOIN: Joins a forming gang of the same size and track, waiting for one if none forms. (R236) -/
  | gangJoin (rd : Reg) (log2 : BitVec 3)
  /-- GANG_END: Disbands the gang once every member has issued it. (R237) -/
  | gangEnd
  /-- RRB_SET: Sets XRRB and returns its old value. (R238) -/
  | rrbSet (rd rs1 : Reg)
  /-- LOOP_ROT: Decrements a counter, steps XRRB down and branches while the counter is non-zero. (R238) -/
  | loopRot (rd : Reg) (off : BitVec 11)
  /-- XURET: Returns to XUEPC and clears XUCAUSE.BUSY. (R239) -/
  | xuret
  /-- CTX_SAVE: Writes a frame image of the slot's registers and any matrix context to memory. (R240) -/
  | ctxSave (rs1 rs2 : Reg)
  /-- CTX_RESTORE: Restores registers, and any matrix context, from a frame image. (R241) -/
  | ctxRestore (rs1 rs2 : Reg)
  /-- STAM_CLAIM: Adds energy to the launch's remainder if the available energy covers it. (R242) -/
  | stamClaim (rd rs1 : Reg)
  /-- STAM_RD: Returns the reservoir, remainder, measured energy or available energy. (R242) -/
  | stamRd (rd : Reg) (sel : BitVec 3)
  /-- IVL_POST: Posts an invalidation record to the B-die and returns its INDEX. (R243) -/
  | ivlPost (rd rs1 : Reg)
  /-- IVL_SYNC: Parks until every live die has applied the log up to an index. (R243) -/
  | ivlSync (rs1 : Reg)
  /-- GR_LAUNCH: Submits a launch record as one intake write and returns its sequence number. (R244) -/
  | grLaunch (rd rs1 : Reg)
  /-- GR_WAIT: Parks until a launch completes and returns its status byte. (R244) -/
  | grWait (rd rs1 : Reg)
  /-- XFENCE: Waits for posted stores within scope, then acts as a full fence at that scope. (R235) -/
  | xfence (scope : BitVec 2)
  /-- VADD_FLOAT: Adds float elements, rounded once to the type. (R253) -/
  | vaddFloat (vd vs1 vs2 : Reg) (ty : BitVec 3)
  /-- VSUB_FLOAT: Subtracts float elements. (R253) -/
  | vsubFloat (vd vs1 vs2 : Reg) (ty : BitVec 3)
  /-- VMUL_FLOAT: Multiplies float elements. (R253) -/
  | vmulFloat (vd vs1 vs2 : Reg) (ty : BitVec 3)
  /-- VMIN_FLOAT: Takes the lesser float element under R159. (R253) -/
  | vminFloat (vd vs1 vs2 : Reg) (ty : BitVec 3)
  /-- VMAX_FLOAT: Takes the greater float element under R159. (R253) -/
  | vmaxFloat (vd vs1 vs2 : Reg) (ty : BitVec 3)
  /-- VABS_FLOAT: Clears the sign of float elements. (R253) -/
  | vabsFloat (vd vs1 : Reg) (ty : BitVec 3)
  /-- VNEG_FLOAT: Inverts the sign of float elements. (R253) -/
  | vnegFloat (vd vs1 : Reg) (ty : BitVec 3)
  /-- VDIV: Divides float elements. (R253) -/
  | vdiv (vd vs1 vs2 : Reg) (ty : BitVec 3)
  /-- VSQRT: Takes the square root of float elements in the encoded rounding mode. (R253) -/
  | vsqrt (vd vs1 : Reg) (ty : BitVec 3) (rm : BitVec 2)
  /-- VRSQ: Takes the reciprocal square root in the encoded rounding mode. (R253) -/
  | vrsq (vd vs1 : Reg) (ty : BitVec 3) (rm : BitVec 2)
  /-- VADD_INT: Adds integer elements modulo 2^w. (R255) -/
  | vaddInt (vd vs1 vs2 : Reg) (ty : BitVec 3)
  /-- VSUB_INT: Subtracts integer elements modulo 2^w. (R255) -/
  | vsubInt (vd vs1 vs2 : Reg) (ty : BitVec 3)
  /-- VMUL_INT: Multiplies integer elements, keeping the low w bits. (R255) -/
  | vmulInt (vd vs1 vs2 : Reg) (ty : BitVec 3)
  /-- VMIN_INT: Takes the lesser integer element in the type's order. (R255) -/
  | vminInt (vd vs1 vs2 : Reg) (ty : BitVec 3)
  /-- VMAX_INT: Takes the greater integer element in the type's order. (R255) -/
  | vmaxInt (vd vs1 vs2 : Reg) (ty : BitVec 3)
  /-- VABS_INT: Takes the absolute value modulo 2^w. (R255) -/
  | vabsInt (vd vs1 : Reg) (ty : BitVec 3)
  /-- VNEG_INT: Negates modulo 2^w. (R255) -/
  | vnegInt (vd vs1 : Reg) (ty : BitVec 3)
  /-- VAND: Bitwise AND of elements. (R255) -/
  | vand (vd vs1 vs2 : Reg) (ty : BitVec 3)
  /-- VOR: Bitwise OR of elements. (R255) -/
  | vor (vd vs1 vs2 : Reg) (ty : BitVec 3)
  /-- VXOR: Bitwise XOR of elements. (R255) -/
  | vxor (vd vs1 vs2 : Reg) (ty : BitVec 3)
  /-- VSHL: Shifts elements left by b mod w. (R255) -/
  | vshl (vd vs1 vs2 : Reg) (ty : BitVec 3)
  /-- VSHR: Shifts elements right logically. (R255) -/
  | vshr (vd vs1 vs2 : Reg) (ty : BitVec 3)
  /-- VSRA: Shifts elements right arithmetically. (R255) -/
  | vsra (vd vs1 vs2 : Reg) (ty : BitVec 3)
  /-- VCMP: Sets each element to all ones or zero by the encoded condition. (R256) -/
  | vcmp (vd vs1 vs2 : Reg) (ty cond : BitVec 3)
  /-- VSEL: Selects vs1 or vs2 per element by the top bit of vd. (R256) -/
  | vsel (vd vs1 vs2 : Reg) (ty : BitVec 3)
  /-- VCVT: Converts elements to a target type in the encoded mode and zeroes the rest. (R257) -/
  | vcvt (vd vs1 : Reg) (ty : BitVec 3) (rm : BitVec 2) (dstTy : BitVec 3)
  /-- VQNT: Quantises a register pair across the gang into AQ8 or AQ4 with a scale record. (R258) -/
  | vqnt (vd : Reg) (vs1 : BitVec 4) (four : Bool)
  /-- VDQNT: Dequantises packed AQ data across the gang into an FP32 register pair. (R259) -/
  | vdqnt (vd : BitVec 4) (vs1 : Reg) (four : Bool)
  /-- VREDSUM: Sums all gang elements in the fixed pairwise tree. (R260) -/
  | vredsum (vd vs1 : Reg) (ty : BitVec 3)
  /-- VREDMAX: Takes the greatest gang element. (R260) -/
  | vredmax (vd vs1 : Reg) (ty : BitVec 3)
  /-- VPERM: Permutes gang elements by an index register. (R261) -/
  | vperm (vd vs1 vs2 : Reg) (ty : BitVec 3)
  /-- VSHUF: Interleaves two registers across the gang. (R261) -/
  | vshuf (vd vs1 vs2 : Reg) (ty : BitVec 3)
  /-- VSLIDE: Slides gang elements by a signed amount, filling with zero. (R261) -/
  | vslide (vd vs1 : Reg) (ty : BitVec 3) (amount : Reg)
  /-- VSPLAT: Writes a scalar to every element of vd. (R262) -/
  | vsplat (vd rs1 : Reg) (ty : BitVec 3)
  /-- VINS: Inserts a scalar at one gang element. (R262) -/
  | vins (vd rs1 rs2 : Reg) (ty : BitVec 3)
  /-- VEXT: Extracts one gang element into an x register in every member. (R262) -/
  | vext (rd rs1 vs2 : Reg) (ty : BitVec 3)
  /-- VLD: Loads contiguous elements; global parts park the baton. (R249) -/
  | vld (vd rs1 : Reg) (ty : BitVec 3)
  /-- VLDS: Loads elements at a register stride. (R249) -/
  | vlds (vd rs1 rs2 : Reg) (ty : BitVec 3)
  /-- VLDX: Loads elements at indexed addresses. (R249) -/
  | vldx (vd rs1 vs2 : Reg) (ty : BitVec 3)
  /-- VLDB: Loads one element and broadcasts it. (R249) -/
  | vldb (vd rs1 : Reg) (ty : BitVec 3)
  /-- VLDQ: Loads AQ8 or AQ4 data with a scale record and dequantises it. (R252) -/
  | vldq (vd rs1 rs2 : Reg) (ty : BitVec 3)
  /-- VST: Stores contiguous elements, never posted. (R251) -/
  | vst (vs rs1 : Reg) (ty : BitVec 3)
  /-- VSTS: Stores elements at a register stride. (R251) -/
  | vsts (vs rs1 rs2 : Reg) (ty : BitVec 3)
  /-- VSTX: Stores elements at indexed addresses. (R251) -/
  | vstx (vs rs1 vs2 : Reg) (ty : BitVec 3)
  /-- VFMA: FP32 fused a×b+c per element. (R254) -/
  | vfma (vd vs1 vs2 vs3 : Reg)
  /-- VFMS: FP32 fused a×b−c per element. (R254) -/
  | vfms (vd vs1 vs2 vs3 : Reg)
  /-- VFNMA: FP32 fused −a×b−c per element. (R254) -/
  | vfnma (vd vs1 vs2 vs3 : Reg)
  /-- VFNMS: FP32 fused −a×b+c per element. (R254) -/
  | vfnms (vd vs1 vs2 vs3 : Reg)
  /-- MM_TILE: Queues a tile multiply of the stream panels into an accumulator, optionally zeroing it first. (R270) -/
  | mmTile (acc pm : BitVec 2) (init : Bool)
  /-- PANEL_STEP: Binds the matrix array at a panel boundary, takes one panel from each port and folds it into the accumulator. (R270) -/
  | panelStep (cid : Nat)
  /-- MM_ZERO: Zeroes the active elements of a tile. (R272) -/
  | mmZero (acc pm : BitVec 2)
  /-- MM_WAIT: Parks until the slot's matrix and stream entries complete, or ends on a stalled entry. (R273) -/
  | mmWait
  /-- MM_DRAIN: Converts the active tile elements to memory, optionally clearing them. (R274) -/
  | mmDrain (rs1 rs2 : Reg) (acc pm : BitVec 2) (clear : Bool) (fmt : BitVec 3)
  /-- MM_LOAD: Loads the active tile elements from memory. (R274) -/
  | mmLoad (rs1 rs2 : Reg) (acc pm : BitVec 2) (fmt : BitVec 3)
  /-- MM_MSET: Sets a mask pair from registers or as prefixes. (R272) -/
  | mmMset (rs1 rs2 : Reg) (pm : BitVec 2) (pre : Bool)
  /-- MM_TOSTRM: Snapshots a tile as two BF16 panels appended to a stream port. (R275) -/
  | mmTostrm (acc pm : BitVec 2) (tp : Bool) (port : BitVec 1)
  /-- ST_BIND: Raises a port's expected-panel count. (R276) -/
  | stBind (rs1 : Reg) (port : BitVec 1)
  /-- ST_FILL: Copies CB64 panels from local memory into a port. (R277) -/
  | stFill (rs1 : Reg) (cnt : BitVec 3) (port : BitVec 1)
  /-- ST_SKIP: Discards panels from the head of a port. (R277) -/
  | stSkip (rd rs1 : Reg) (port : BitVec 1)
  /-- ST_STAT: Returns a port's state at issue. (R278) -/
  | stStat (rd : Reg) (port : BitVec 1)
  /-- ST_FLUSH: Ends a stalled entry, discards the port's panels and clears EXP and OVF. (R278) -/
  | stFlush (port : BitVec 1)
  /-- CP_GET: Issues a copy from any source into local memory. (R284) -/
  | cpGet (rd xg rs2 : Reg)
  /-- CP_PUT: Issues a copy from local memory to any destination. (R284) -/
  | cpPut (rd xg rs2 : Reg)
  /-- CP_XFER: Issues a copy between any two addresses. (R284) -/
  | cpXfer (rd xg rs2 : Reg)
  /-- CP_FEED: Issues a reblocking of a source matrix into CB64 panels for a stream port. (R285) -/
  | cpFeed (rd xg rs2 : Reg)
  /-- CP_MCAST: Issues a multicast of one source to a list of up to 64 destinations. (R286) -/
  | cpMcast (rd xg : Reg)
  /-- CP_FILL: Issues a fill of a destination with an 8-byte pattern. (R284) -/
  | cpFill (rd xg rs2 : Reg)
  /-- CP_GATH: Issues a gather of indexed elements into local memory. (R287) -/
  | cpGath (rd xg rs2 : Reg)
  /-- CP_SCAT: Issues a scatter of local elements to indexed destinations. (R287) -/
  | cpScat (rd xg rs2 : Reg)
  /-- CP_ATOM: Issues a batch of FADD32 or STATMERGE read-modify-writes at the destination. (R288) -/
  | cpAtom (rd xg rs2 : Reg)
  /-- CP_STAT: Reads a command's progress, promise and status without waiting. (R289) -/
  | cpStat (rd xg rs2 : Reg)
  /-- CP_CANCEL: Cancels up to four commands and returns the count. (R290) -/
  | cpCancel (rd xg : Reg)
  /-- BUF_MAP: Sets a window's front and shadow frames. (R291) -/
  | bufMap (rd rs1 rs2 : Reg)
  /-- BUF_UNMAP: Clears a window's VALID and SVALID. (R291) -/
  | bufUnmap (rd rs1 : Reg)
  /-- BUF_SHADOW: Sets a window's shadow frame. (R291) -/
  | bufShadow (rd rs1 rs2 : Reg)
  /-- BUF_PUB: Publishes a window, swapping FRONT and SHADOW and incrementing PUBGEN. (R150) -/
  | bufPub (rd rs1 : Reg)
  /-- STAT_INIT: Sets an st register to the empty code. (R296) -/
  | statInit (std : BitVec 3)
  /-- STAT_UPD: Updates an st register by one value with weight 1. (R172) -/
  | statUpd (std : BitVec 3) (rs1 : Reg)
  /-- STAT_UPDW: Updates an st register by one weighted value. (R172) -/
  | statUpdw (std : BitVec 3) (rs1 rs2 : Reg)
  /-- STAT_MERGE: Merges two st registers, left operand first. (R173) -/
  | statMerge (std st1 st2 : BitVec 3)
  /-- STAT_LD: Loads a STAT128 value and checks it. (R297) -/
  | statLd (std : BitVec 3) (rs1 : Reg)
  /-- STAT_ST: Stores a STAT128 value. (R297) -/
  | statSt (rs1 : Reg) (st2 : BitVec 3)
  /-- VSTAT_UPD: Updates an st register by every element of a vector in order. (R298) -/
  | vstatUpd (std : BitVec 3) (vs1 : Reg) (ty : BitVec 2)
  /-- VSTAT_UPDW: Updates an st register by weighted vector elements in order. (R298) -/
  | vstatUpdw (std : BitVec 3) (vs1 vs2 : Reg) (ty : BitVec 2)
  /-- STAT_DRAIN: Drains an st register to x registers under an option. (R299) -/
  | statDrain (rd : Reg) (st1 : BitVec 3) (rs2 : Reg) (drain : BitVec 3)
  /-- VSTAT_NORM: Normalises vector elements by a drained mean and rstd pair. (R300) -/
  | vstatNorm (vd vs1 : Reg) (ty : BitVec 2) (pair : BitVec 4)
  /-- CYC_OPEN: Reads a descriptor, takes a free record, installs its freezes and returns a handle or failure code. (R305) -/
  | cycOpen (rd rs1 : Reg)
  /-- CYC_FREEZE: Adds one frozen range to an OPEN record. (R306) -/
  | cycFreeze (rd rs1 rs2 : Reg)
  /-- CYC_ITER: Marks the block as working and returns the status word. (R308) -/
  | cycIter (rd rs1 : Reg)
  /-- CYC_RES: Posts a residual contribution of the block for the iteration. (R310) -/
  | cycRes (rs1 : Reg) (st2 : BitVec 3)
  /-- CYC_PASS: Posts the block's passed value for the iteration. (R309) -/
  | cycPass (rs1 rs2 : Reg)
  /-- CYC_TAKE: Returns INIT, ADJ or the predecessor's passed value, waiting for it. (R309) -/
  | cycTake (rd rs1 : Reg)
  /-- CYC_NEXT: Sets the block's NEXT flag and parks until the iteration closes. (R310) -/
  | cycNext (rd rs1 : Reg)
  /-- CYC_BWD: Stores ADJ and moves the record to BACKWARD. (R311) -/
  | cycBwd (rs1 rs2 : Reg)
  /-- CYC_STAT: Returns the status word, RES halves or OUT. (R312) -/
  | cycStat (rd rs1 : Reg) (sel : BitVec 2)
  /-- CYC_CLOSE: Removes the record's freezes and sets it CLOSED. (R313) -/
  | cycClose (rs1 : Reg)
  /-- CYC_ABORT: Removes the freezes, sets ABORTED and traps parked TAKEs and NEXTs. (R313) -/
  | cycAbort (rs1 : Reg)
  /-- CL_LOAD: Loads a plan image into the Relay and returns a handle, or unloads a plan when rs1 is 0. (R316) -/
  | clLoad (rd rs1 rs2 : Reg)
  /-- CL_RUN: Joins the member to the next run of a plan and returns a ticket. (R317) -/
  | clRun (rd rs1 rs2 : Reg)
  /-- CL_WAIT: Parks until a run completes and returns its status. (R318) -/
  | clWait (rd rs1 : Reg)
  /-- CL_CANCEL: Ends a run with CANCELLED. (R318) -/
  | clCancel (rs1 : Reg)
  /-- CL_GRP: Defines or redefines a group and returns its new GEN. (R319) -/
  | clGrp (rd rs1 rs2 : Reg)
  /-- CL_JOIN: Appends a rank to a group through its owner. (R320) -/
  | clJoin (rd rs1 rs2 : Reg)
  /-- CL_LEAVE: Removes a rank from a group, withdrawing it from open runs. (R320) -/
  | clLeave (rd rs1 rs2 : Reg)
  /-- CL_PAUSE: Starts a pause for a rank in every run that binds it. (R321) -/
  | clPause (rs1 : Reg)
  /-- CL_RESUME: Ends a rank's pause. (R321) -/
  | clResume (rs1 : Reg)
  /-- POWER_ON_RESET: Power-on or package reset starts the B-die ROM boot sequence on OS core 0. (R76) -/
  | powerOnReset
  /-- RESET_REQUEST: A package reset request, held during a checkpoint copy, or preceded by a checkpoint with AUTO. (R25) -/
  | resetRequest
  /-- INPUT_UNDERVOLTAGE: An input below 40 V for more than 1 ms resets the package, sparing the far tier. (R17) -/
  | inputUndervoltage
  /-- THERMAL_REPORT: Every 1,024 cycles each die reports its hottest sensor to the B-die. (R17) -/
  | thermalReport (die : Nat) (celsius : Int)
  /-- DIE_RESET: A die enters reset, is marked down and counts as having applied every log record. (R66) -/
  | dieReset (die : Nat)
  /-- DIE_RETURN: A die returns from reset, loads the SWC, maps, tables and freezes and replays its log before its readiness bit is set. (R66) -/
  | dieReturn (die : Nat)
  /-- FAR_MODULE_LOSS: A far-tier module fails; its FARMOD bit clears and accesses to it fail LINK_DOWN. (R19) -/
  | farModuleLoss (modul : Nat)
  /-- RELAY_DOWN: The Relay goes down; open runs end LINK_DOWN and the X-die NI makes pending arrivals with status 5. (R130) -/
  | relayDown (die : Nat)
  /-- LINK_FLIT: A UCIe flit arrives; a CRC failure is replayed and its slot return is applied. (R30) -/
  | linkFlit (link : Nat) (crcOk : Bool) (vc : Option (BitVec 2)) (ret : Option (BitVec 16))
  /-- LINK_RETRAIN: Every 10 ms the B-die retrains a down link. (R30) -/
  | linkRetrain (link : Nat) (ok : Bool)
  /-- SLOT_SYNC_MARKER: Every 65,536 cycles each sender places a SLOT_SYNC marker into every VC. (R36) -/
  | slotSyncMarker (link vc : Nat)
  /-- SLOT_SYNC: A SLOT_SYNC marker or its reply arrives; the receiver answers S and O, and the sender resets F. (R36) -/
  | slotSync (link vc : Nat) (reply : Bool)
  /-- READ: A READ request reaches its home NI and is translated, checked and performed. (R59) -/
  | read (pid : Nat)
  /-- WRITE: A WRITE request reaches its home NI and is translated, checked against freezes and performed. (R59) -/
  | write (pid : Nat)
  /-- AMO: An AMO request reaches its home NI and is performed atomically. (R59) -/
  | amo (pid : Nat)
  /-- READ_REPLY: A read reply reaches the issuing core and ends the baton's remote wait. (R177) -/
  | readReply (pid : Nat)
  /-- WRITE_ACK: A store acknowledgement reaches the issuer, releasing waits on posted stores. (R177) -/
  | writeAck (pid : Nat)
  /-- FAULT_REPLY: A fault reply reaches the issuer as a deferred REMOTE_FAULT or a copy status. (R63) -/
  | faultReply (pid : Nat)
  /-- MSG: A message packet reaches the destination cluster's queue or is answered full or moved. (R231) -/
  | msg (pid : Nat)
  /-- MSG_ACK: A message acknowledgement ends the sender's wait, or a full answer schedules a resend. (R231) -/
  | msgAck (pid : Nat)
  /-- MSG_RESEND: 1,024 cycles after a full acknowledgement the sender resends its message. (R231) -/
  | msgResend (slot : Nat)
  /-- MSG_MOVED: A moved-rank answer puts the packet and later ones back at the head of the hold queue. (R44) -/
  | msgMoved (pid : Nat)
  /-- ARRIVE: An ARRIVE packet applies a hurdle operation at the remote banks. (R226) -/
  | arrive (pid : Nat)
  /-- COPY_DATA: A copy data packet is written at its destination, into the shadow for a window. (R283) -/
  | copyData (pid : Nat)
  /-- COPY_DONE: A copy completion packet is applied, after which the destination NI makes the hurdle arrival. (R34) -/
  | copyDone (pid : Nat)
  /-- MCAST_DATA: Multicast data is replicated at the gateway and switches and written at each branch. (R45) -/
  | mcastData (pid : Nat)
  /-- ATOM_BATCH: An accumulate batch is applied element by element at the destination. (R288) -/
  | atomBatch (pid : Nat)
  /-- CHUNK: A collective chunk moves between the Relay and member memory. (R121) -/
  | chunk (pid : Nat)
  /-- PAUSE: A PAUSE packet stops the stall timers of the member's runs at a Relay. (R129) -/
  | pause (pid : Nat)
  /-- RESUME: A RESUME packet ends a member's pause at a Relay. (R129) -/
  | resume (pid : Nat)
  /-- IVL: An invalidation notice appends a record to a die's log. (R65) -/
  | ivl (pid : Nat)
  /-- RCT_UPD: A rank-table update is applied at an NI. (R42) -/
  | rctUpd (pid : Nat)
  /-- SWC_SYNC: A SWC_SYNC packet is compared with the die's count to set its correction. (R41) -/
  | swcSync (pid : Nat)
  /-- SWC_SYNC_SEND: Every 65,536 cycles the B-die sends its master count to every die. (R41) -/
  | swcSyncSend
  /-- SWC_SLEW: Every 1,024 cycles a die adds or withholds one count to correct its SWC. (R41) -/
  | swcSlew (die : Nat)
  /-- E2E_ACK: An end-to-end acknowledgement frees covered packets from the replay store. (R40) -/
  | e2eAck (pid : Nat)
  /-- E2E_ACK_SEND: After 64 deliveries or 1,024 cycles the destination gateway sends an E2E_ACK. (R40) -/
  | e2eAckSend (stream : Nat)
  /-- GATEWAY_OUTBOUND: The source gateway numbers a packet, sets PREVDIST, stores it for replay and sprays it on a plane. (R38) -/
  | gatewayOutbound (pid : Nat)
  /-- GATEWAY_INBOUND: The destination gateway delivers, holds, discards or drops an arriving packet by its class. (R39) -/
  | gatewayInbound (pid : Nat)
  /-- REPLAY_TIMEOUT: A packet unacknowledged for 65,536 cycles is re-sprayed with its original SEQ. (R40) -/
  | replayTimeout (stream seq : Nat)
  /-- PLANE_IDLE_TIMEOUT: A plane that receives no flit for 4,096 cycles is down and its unacknowledged packets are re-sprayed. (R37) -/
  | planeIdleTimeout (die plane : Nat)
  /-- WALK_DONE: A page walk ends and the held request continues translated or faults NOT_MAPPED. (R56) -/
  | walkDone (die walk : Nat)
  /-- FAULT_ANSWER: A write of ACTION to a fault record retries or refuses the held request. (R62) -/
  | faultAnswer (die index : Nat) (action : BitVec 8)
  /-- FAULT_RECORD_TIMEOUT: A record left PENDING for 1,048,576 cycles is answered FAULT_REPLY TIMEOUT. (R62) -/
  | faultRecordTimeout (die index : Nat)
  /-- LOG_APPLY: A die applies its pending log records in INDEX order when the oldest reaches 65,536 cycles of age, at a context switch or at an acquire. (R65) -/
  | logApply (die : Nat)
  /-- APPLIED_INDEX_REPORT: A die's applied index reaches the B-die and completes IVL.SYNC waits it covers. (R65) -/
  | appliedIndexReport (die : Nat)
  /-- TIER_MOVE: The Vault starts a tier move, setting the entry MIGRATING and copying the data. (R68) -/
  | tierMove (die va track tgt pa : Nat)
  /-- HOME_MOVE: The Vault starts a home move, setting the entry MIGRATING and copying to another die. (R68) -/
  | homeMove (die va track dest tgt pa : Nat)
  /-- VAULT_COPY_DONE: The move's copy ends; the new entry becomes PRESENT, the old FORWARDED, and held requests are released. (R68) -/
  | vaultCopyDone (die move : Nat)
  /-- TRKLOAD: A write makes the B-die reload one track-table entry on every live NI. (R51) -/
  | trkload (value : Dword)
  /-- TRKLOAD_DONE: The track-table reload finishes and TRKSTAT.BUSY clears. (R51) -/
  | trkloadDone
  /-- HOST_APERTURE_ACCESS: A host TLP through BAR4 is routed by the placement map and checked at its home. (R72) -/
  | hostApertureAccess (write : Bool) (addr len data : Nat) (poison : Bool)
  /-- INTAKE_WRITE: A 64-byte intake-window write is taken, validated, and accepted or rejected. (R80) -/
  | intakeWrite (write : IntakeWrite)
  /-- INTAKECOMMIT: An OS core's write submits its staging slot as one intake write. (R75) -/
  | intakecommit (core : Nat) (value : Dword)
  /-- GRDEF: A write starts copying a graph image into the graph store. (R84) -/
  | grdef (value : Dword)
  /-- GRDEF_COPY_DONE: The graph copy ends, makes the current version and sets GRSTAT. (R84) -/
  | grdefCopyDone
  /-- PRECTL_PREEMPT: A PREEMPT request saves every baton of a launch and pauses its collectives. (R112) -/
  | prectlPreempt (value : Dword)
  /-- PRECTL_RESUME: A RESUME request makes a pre-empted launch's batons READY or back to their waits. (R112) -/
  | prectlResume (value : Dword)
  /-- PRESTAT_DONE: A pre-emption or resumption finishes and PRESTAT becomes DONE with its result. (R113) -/
  | prestatDone
  /-- CKCTL_START: Writing START begins quiesce followed by the checkpoint copy. (R23) -/
  | ckctlStart (value : Dword)
  /-- CKCTL_QUIESCE: Writing QUIESCE begins quiesce only. (R23) -/
  | ckctlQuiesce (value : Dword)
  /-- CKCTL_RESTORE: Writing RESTORE starts a restore from the checkpoint region. (R27) -/
  | ckctlRestore (value : Dword)
  /-- QUIESCE_DONE: Quiesce ends and STATE becomes QUIESCED, starting the copy with START. (R24) -/
  | quiesceDone
  /-- CHECKPOINT_COPY_DONE: The copy phase ends with the header and STATE becomes DONE or FAILED. (R23) -/
  | checkpointCopyDone
  /-- RESTORE_DONE: The restore write-back ends, launches resume and STATE becomes DONE. (R27) -/
  | restoreDone
  /-- TFTP_RESEND: A block unacknowledged after 1 s is resent, up to 5 times. (R76) -/
  | tftpResend
  /-- FETCH_RESTART: 10 s after a failed fetch or rejected image the ROM restarts from step 3. (R76) -/
  | fetchRestart
  /-- IMAGE_VERIFY: The fetched image is verified and either started on the OS cores or rejected. (R77) -/
  | imageVerify
  /-- BANK_GATE: Writing 0 to a bank power bit gates the bank after its granted accesses. (R156) -/
  | bankGate (die word bit : Nat)
  /-- BANK_WAKE: Writing 1 to a bank power bit, or an access to a gated bank, starts a wake. (R156) -/
  | bankWake (die word bit : Nat)
  /-- BANK_WAKE_DONE: 3,200 cycles after a wake starts the bank is zero and its stalled accesses are performed. (R156) -/
  | bankWakeDone (die word bit : Nat)
  /-- REGISTER_WRITE: A write to a register without a row of its own sets its writable fields with any stated adjustment. (R2) -/
  | registerWrite (addr : Nat) (value : Dword)
  /-- RESOURCE_REPORT: Every 1,024 cycles, or within 64 cycles of a large change, a cluster's report word is written to the Starter. (R87) -/
  | resourceReport (pcl : Nat)
  /-- LAUNCH_ADMIT: The head of the admission queue is admitted when the available energy covers its claim. (R86) -/
  | launchAdmit
  /-- ADMISSION_DEADLINE: The SWC exceeds WTIME before admission and the launch completes DEADLINE. (R82) -/
  | admissionDeadline (seq : Nat)
  /-- LAUNCH_PLACE: The Starter places an admitted launch's first baton on a qualifying cluster, at most one every 16 cycles. (R88) -/
  | launchPlace
  /-- PLACEMENT_TIMEOUT: A PLACE 0xFFFF launch without a cluster for 1,048,576 cycles completes NO_PLACEMENT. (R88) -/
  | placementTimeout (seq : Nat)
  /-- ENERGY_MEASURE: Every 1,024 cycles a die debits measured energy from the reservoir and attributes it to launches. (R86) -/
  | energyMeasure (die energy : Nat)
  /-- BATON_DISPATCH: The dispatcher dequeues a ready baton to the core with the most free slots and restores it. (R91) -/
  | batonDispatch (pcl : Nat)
  /-- AGE_TICK: At every SWC multiple of 1,024 the age of every READY baton increments. (R91) -/
  | ageTick
  /-- SLOT_PROMOTION: A slot eligible and unchosen for XAGE cycles is promoted. (R103) -/
  | slotPromotion (cid : Nat)
  /-- PACER_BIND: The Pacer binds a dispatch-queue head to a lane group or the matrix array at an opportunity. (R104) -/
  | pacerBind (quad : Nat)
  /-- BATON_EVICT: A long-parked baton is saved and made WAITING to free a slot for a ready baton. (R95) -/
  | batonEvict (cid slot : Nat)
  /-- WAIT_DEADLINE: A wait's WTIME deadline passes and the waiting instruction completes with its timeout result. (R223) -/
  | waitDeadline (cid slot : Nat)
  /-- GANG_FORMATION_TIMEOUT: A gang not formed within 65,536 cycles makes each member take GANG_DISBAND. (R106) -/
  | gangFormationTimeout (cid slot : Nat)
  /-- DEFERRED_FAULT_DELIVERY: A deferred fault is delivered to the baton at its next instruction boundary after arrival or resumption. (R138) -/
  | deferredFaultDelivery (cid slot : Nat)
  /-- PROMISE_MISSED: The SWC passes a command's promise during WAIT.PROMISE and the wait traps once. (R154) -/
  | promiseMissed (cid slot : Nat)
  /-- COPY_COMPLETE: All pieces of a copy command end and the engine makes its hurdle arrival with the status. (R282) -/
  | copyComplete (cl entry : Nat)
  /-- FEED_PANEL: A CP.FEED delivers an assembled panel when its port has room. (R285) -/
  | feedPanel (cid : Nat) (port : Bool)
  /-- HANDLE_ENTRY_LAPSE: 65,536 cycles after completion an unclaimed engine entry is freed. (R280) -/
  | handleEntryLapse (cl entry : Nat)
  /-- NODE_START: A Relay node whose counter reaches 0 starts, once its member conditions hold. (R122) -/
  | nodeStart (die run node : Nat)
  /-- NODE_END: A Relay node ends, decrementing its successors' counters and passing on any status. (R122) -/
  | nodeEnd (die run node : Nat)
  /-- STALL_TIMEOUT: A run's stall timer reaches STALL and the run ends TIMEOUT with status-8 arrivals. (R130) -/
  | stallTimeout (die run : Nat)
  /-- PAUSE_LIMIT: A pause ends PAUSELIM after it began. (R129) -/
  | pauseLimit (die pause : Nat)
  /-- RESERVATION_RELEASE: After RSVREL of continuous pause the run's switch reservations are released. (R129) -/
  | reservationRelease (die pause : Nat)
  /-- FUNCTION_READY: A function becomes usable and sets its readiness bit; this covers an HBM stack trained, a fabric plane trained, a far-tier module enumerated, the host link up, and the Relay, Starter, cycle controller or a Vault returning. (R19) -/
  | functionReady (bit : Nat)
  /-- FUNCTION_FAILURE: A function without a step of its own goes down and clears its readiness bit; this covers an HBM stack, a fabric plane failing its link retry, the host link, the Starter, the cycle controller, the gateway or a Vault. (R19) -/
  | functionFailure (bit : Nat)
  /-- DISPATCH_ENTRY_COMPLETE: A bound dispatch-queue entry finishes after its occupancy and latency: a vector result is written, MM.DRAIN or MM.LOAD performs its rows, MM.TOSTRM enters its pair into the port, or an entry raises its queue-entry trap. (R248) -/
  | dispatchEntryComplete (cid entry : Nat)
  /-- CYCLE_CONTROLLER_REQUEST: A posted CYC.RES or CYC.PASS request reaches the cycle controller and is checked against the record as it then stands, then applied or refused. (R304) -/
  | cycleControllerRequest
  /-- MANAGEMENT_ETHERNET_FRAME: A frame on the management Ethernet reaches the boot ROM, carrying a router advertisement, a DHCPv6 reply with option 59, or a TFTP data block of the image. (R76) -/
  | managementEthernetFrame (frame : List (BitVec 8))
  deriving DecidableEq, Repr

end Sys2Proof
end

