-- ==== Sys2Proof/WellFormed.lean ====
section
/-!
DEFINITION. Which terms of `Instr` are instructions: the limits on fields that the encoding tables set beyond the fixed bits
(R191, R197, R198, R216, R234, R236, R238, R247, R265, R293, R323, and the reserved encodings of Zca). An event has no encoding, and
every event is well formed.
-/
namespace Sys2Proof

/-- A register group of R197: 8, 12, 16, 20, 24 or 28. -/
def xgOk (xg : Reg) : Bool := 8 ≤ xg.toNat && xg.toNat % 4 == 0

/-- The field limits of each instruction. -/
def Instr.wellFormed : Instr → Bool
  | .lui _ _ => true
  | .auipc _ _ => true
  | .jal _ _ => true
  | .jalr _ _ _ => true
  | .beq _ _ _ => true
  | .bne _ _ _ => true
  | .blt _ _ _ => true
  | .bge _ _ _ => true
  | .bltu _ _ _ => true
  | .bgeu _ _ _ => true
  | .lb _ _ _ => true
  | .lh _ _ _ => true
  | .lw _ _ _ => true
  | .ld _ _ _ => true
  | .lbu _ _ _ => true
  | .lhu _ _ _ => true
  | .lwu _ _ _ => true
  | .sb _ _ _ => true
  | .sh _ _ _ => true
  | .sw _ _ _ => true
  | .sd _ _ _ => true
  | .addi _ _ _ => true
  | .slti _ _ _ => true
  | .sltiu _ _ _ => true
  | .xori _ _ _ => true
  | .ori _ _ _ => true
  | .andi _ _ _ => true
  | .slli _ _ _ => true
  | .srli _ _ _ => true
  | .srai _ _ _ => true
  | .addiw _ _ _ => true
  | .slliw _ _ _ => true
  | .srliw _ _ _ => true
  | .sraiw _ _ _ => true
  | .add _ _ _ => true
  | .sll _ _ _ => true
  | .slt _ _ _ => true
  | .sltu _ _ _ => true
  | .xor _ _ _ => true
  | .srl _ _ _ => true
  | .or _ _ _ => true
  | .and _ _ _ => true
  | .sub _ _ _ => true
  | .sra _ _ _ => true
  | .mul _ _ _ => true
  | .mulh _ _ _ => true
  | .mulhsu _ _ _ => true
  | .mulhu _ _ _ => true
  | .div _ _ _ => true
  | .divu _ _ _ => true
  | .rem _ _ _ => true
  | .remu _ _ _ => true
  | .addw _ _ _ => true
  | .sllw _ _ _ => true
  | .srlw _ _ _ => true
  | .subw _ _ _ => true
  | .sraw _ _ _ => true
  | .mulw _ _ _ => true
  | .divw _ _ _ => true
  | .divuw _ _ _ => true
  | .remw _ _ _ => true
  | .remuw _ _ _ => true
  | .fence _ _ _ _ => true
  | .fenceTso _ _ _ _ => true
  | .fenceI _ _ _ => true
  | .ecall => true
  | .ebreak => true
  | .wfi => true
  | .csrrw _ _ _ => true
  | .csrrs _ _ _ => true
  | .csrrc _ _ _ => true
  | .csrrwi _ _ _ => true
  | .csrrsi _ _ _ => true
  | .csrrci _ _ _ => true
  | .lr _ _ _ _ _ => true
  | .sc _ _ _ _ _ _ => true
  | .amoswap _ _ _ _ _ _ => true
  | .amoadd _ _ _ _ _ _ => true
  | .amoxor _ _ _ _ _ _ => true
  | .amoand _ _ _ _ _ _ => true
  | .amoor _ _ _ _ _ _ => true
  | .amomin _ _ _ _ _ _ => true
  | .amomax _ _ _ _ _ _ => true
  | .amominu _ _ _ _ _ _ => true
  | .amomaxu _ _ _ _ _ _ => true
  | .faddS _ _ _ rm => rm != 5#3 && rm != 6#3
  | .fsubS _ _ _ rm => rm != 5#3 && rm != 6#3
  | .fmulS _ _ _ rm => rm != 5#3 && rm != 6#3
  | .fdivS _ _ _ rm => rm != 5#3 && rm != 6#3
  | .fsqrtS _ _ rm => rm != 5#3 && rm != 6#3
  | .fsgnjS _ _ _ => true
  | .fsgnjnS _ _ _ => true
  | .fsgnjxS _ _ _ => true
  | .fminS _ _ _ => true
  | .fmaxS _ _ _ => true
  | .fleS _ _ _ => true
  | .fltS _ _ _ => true
  | .feqS _ _ _ => true
  | .fcvtWS _ _ rm => rm != 5#3 && rm != 6#3
  | .fcvtWuS _ _ rm => rm != 5#3 && rm != 6#3
  | .fcvtLS _ _ rm => rm != 5#3 && rm != 6#3
  | .fcvtLuS _ _ rm => rm != 5#3 && rm != 6#3
  | .fcvtSW _ _ rm => rm != 5#3 && rm != 6#3
  | .fcvtSWu _ _ rm => rm != 5#3 && rm != 6#3
  | .fcvtSL _ _ rm => rm != 5#3 && rm != 6#3
  | .fcvtSLu _ _ rm => rm != 5#3 && rm != 6#3
  | .fclassS _ _ => true
  | .fmaddS _ _ _ _ rm => rm != 5#3 && rm != 6#3
  | .fmsubS _ _ _ _ rm => rm != 5#3 && rm != 6#3
  | .fnmsubS _ _ _ _ rm => rm != 5#3 && rm != 6#3
  | .fnmaddS _ _ _ _ rm => rm != 5#3 && rm != 6#3
  | .cAddi4spn _ imm => imm != 0#8
  | .cLw _ _ _ => true
  | .cLd _ _ _ => true
  | .cSw _ _ _ => true
  | .cSd _ _ _ => true
  | .cAddi rd _ => rd != 0#5
  | .cNop _ => true
  | .cAddiw rd _ => rd != 0#5
  | .cLi _ _ => true
  | .cAddi16sp imm => imm != 0#6
  | .cLui rd imm => rd != 2#5 && imm != 0#6
  | .cSrli _ _ => true
  | .cSrai _ _ => true
  | .cAndi _ _ => true
  | .cSub _ _ => true
  | .cXor _ _ => true
  | .cOr _ _ => true
  | .cAnd _ _ => true
  | .cSubw _ _ => true
  | .cAddw _ _ => true
  | .cJ _ => true
  | .cBeqz _ _ => true
  | .cBnez _ _ => true
  | .cSlli _ _ => true
  | .cLwsp rd _ => rd != 0#5
  | .cLdsp rd _ => rd != 0#5
  | .cJr rs1 => rs1 != 0#5
  | .cMv _ rs2 => rs2 != 0#5
  | .cEbreak => true
  | .cJalr rs1 => rs1 != 0#5
  | .cAdd _ rs2 => rs2 != 0#5
  | .cSwsp _ _ => true
  | .cSdsp _ _ => true
  | .illegalInstruction _ => true
  | .batSpawn _ _ => true
  | .batSend _ _ _ => true
  | .batSendR _ _ _ => true
  | .batExit => true
  | .batYield _ => true
  | .batPark _ _ _ => true
  | .batWake _ => true
  | .batRole _ _ => true
  | .batSelf _ sel => sel.toNat ≤ 3
  | .hdInit _ _ _ _ => true
  | .hdArrive _ _ _ => true
  | .hdArriveR _ _ _ => true
  | .hdWait _ _ _ => true
  | .hdArrwait _ _ _ _ => true
  | .hdTest _ _ => true
  | .hdWithdraw _ _ _ => true
  | .hdWithdrawR _ _ _ => true
  | .hdJoin _ => true
  | .hdJoinR _ => true
  | .lapEnd _ _ => true
  | .domRd _ _ => true
  | .waitUntil _ _ => true
  | .waitPromise _ => true
  | .msgSend _ _ _ => true
  | .msgRecv _ _ _ => true
  | .msgPoll _ _ _ => true
  | .rctSet _ _ => true
  | .rctHold _ => true
  | .rctRelease _ => true
  | .ldAq _ _ _ width _ => width != 7#3
  | .stRl _ _ _ _ _ => true
  | .gangLead _ log2 => log2 != 0#3 && log2.toNat ≤ 3
  | .gangJoin _ log2 => log2 != 0#3 && log2.toNat ≤ 3
  | .gangEnd => true
  | .rrbSet _ _ => true
  | .loopRot rd _ => rd != 0#5
  | .xuret => true
  | .ctxSave _ _ => true
  | .ctxRestore _ _ => true
  | .stamClaim _ _ => true
  | .stamRd _ sel => sel.toNat ≤ 3
  | .ivlPost _ _ => true
  | .ivlSync _ => true
  | .grLaunch _ _ => true
  | .grWait _ _ => true
  | .xfence _ => true
  | .vaddFloat _ _ _ ty => ty.toNat ≤ 2
  | .vsubFloat _ _ _ ty => ty.toNat ≤ 2
  | .vmulFloat _ _ _ ty => ty.toNat ≤ 2
  | .vminFloat _ _ _ ty => ty.toNat ≤ 2
  | .vmaxFloat _ _ _ ty => ty.toNat ≤ 2
  | .vabsFloat _ _ ty => ty.toNat ≤ 2
  | .vnegFloat _ _ ty => ty.toNat ≤ 2
  | .vdiv _ _ _ ty => ty.toNat ≤ 2
  | .vsqrt _ _ ty _ => ty.toNat ≤ 2
  | .vrsq _ _ ty _ => ty.toNat ≤ 2
  | .vaddInt _ _ _ ty => 3 ≤ ty.toNat
  | .vsubInt _ _ _ ty => 3 ≤ ty.toNat
  | .vmulInt _ _ _ ty => 3 ≤ ty.toNat
  | .vminInt _ _ _ ty => 3 ≤ ty.toNat
  | .vmaxInt _ _ _ ty => 3 ≤ ty.toNat
  | .vabsInt _ _ ty => 3 ≤ ty.toNat && ty != 4#3 && ty != 7#3
  | .vnegInt _ _ ty => 3 ≤ ty.toNat && ty != 4#3 && ty != 7#3
  | .vand _ _ _ ty => 3 ≤ ty.toNat
  | .vor _ _ _ ty => 3 ≤ ty.toNat
  | .vxor _ _ _ ty => 3 ≤ ty.toNat
  | .vshl _ _ _ ty => 3 ≤ ty.toNat
  | .vshr _ _ _ ty => 3 ≤ ty.toNat
  | .vsra _ _ _ ty => 3 ≤ ty.toNat && ty != 4#3 && ty != 7#3
  | .vcmp _ _ _ _ cond => cond.toNat ≤ 5
  | .vsel _ _ _ _ => true
  | .vcvt _ _ _ _ _ => true
  | .vqnt _ _ _ => true
  | .vdqnt _ _ _ => true
  | .vredsum _ _ _ => true
  | .vredmax _ _ _ => true
  | .vperm _ _ _ _ => true
  | .vshuf _ _ _ _ => true
  | .vslide _ _ _ _ => true
  | .vsplat _ _ _ => true
  | .vins _ _ _ _ => true
  | .vext _ _ _ _ => true
  | .vld _ _ _ => true
  | .vlds _ _ _ _ => true
  | .vldx _ _ _ _ => true
  | .vldb _ _ _ => true
  | .vldq _ _ _ ty => ty.toNat ≤ 2
  | .vst _ _ _ => true
  | .vsts _ _ _ _ => true
  | .vstx _ _ _ _ => true
  | .vfma _ _ _ _ => true
  | .vfms _ _ _ _ => true
  | .vfnma _ _ _ _ => true
  | .vfnms _ _ _ _ => true
  | .mmTile _ _ _ => true
  | .panelStep _ => true
  | .mmZero _ _ => true
  | .mmWait => true
  | .mmDrain _ _ _ _ _ fmt => fmt.toNat ≤ 5
  | .mmLoad _ _ _ _ fmt => fmt.toNat ≤ 5
  | .mmMset _ _ _ _ => true
  | .mmTostrm _ _ _ _ => true
  | .stBind _ _ => true
  | .stFill _ _ _ => true
  | .stSkip _ _ _ => true
  | .stStat _ _ => true
  | .stFlush _ => true
  | .cpGet _ xg _ => xgOk xg
  | .cpPut _ xg _ => xgOk xg
  | .cpXfer _ xg _ => xgOk xg
  | .cpFeed _ xg _ => xgOk xg
  | .cpMcast _ xg => xgOk xg
  | .cpFill _ xg _ => xgOk xg
  | .cpGath _ xg _ => xgOk xg
  | .cpScat _ xg _ => xgOk xg
  | .cpAtom _ xg _ => xgOk xg
  | .cpStat _ xg _ => xgOk xg
  | .cpCancel _ xg => xgOk xg
  | .bufMap _ _ _ => true
  | .bufUnmap _ _ => true
  | .bufShadow _ _ _ => true
  | .bufPub _ _ => true
  | .statInit _ => true
  | .statUpd _ _ => true
  | .statUpdw _ _ _ => true
  | .statMerge _ _ _ => true
  | .statLd _ _ => true
  | .statSt _ _ => true
  | .vstatUpd _ _ ty => ty.toNat ≤ 2
  | .vstatUpdw _ _ _ ty => ty.toNat ≤ 2
  | .statDrain rd _ _ drain => drain.toNat ≤ 5 && ((drain != 0#3 && drain != 5#3) || (rd != 0#5 && rd.getLsbD 0 == false))
  | .vstatNorm _ _ ty pair => ty.toNat ≤ 2 && pair != 0#4
  | .cycOpen _ _ => true
  | .cycFreeze _ _ _ => true
  | .cycIter _ _ => true
  | .cycRes _ _ => true
  | .cycPass _ _ => true
  | .cycTake _ _ => true
  | .cycNext _ _ => true
  | .cycBwd _ _ => true
  | .cycStat _ _ _ => true
  | .cycClose _ => true
  | .cycAbort _ => true
  | .clLoad _ _ _ => true
  | .clRun _ _ _ => true
  | .clWait _ _ => true
  | .clCancel _ => true
  | .clGrp _ _ _ => true
  | .clJoin _ _ _ => true
  | .clLeave _ _ _ => true
  | .clPause _ => true
  | .clResume _ => true
  | .powerOnReset => true
  | .resetRequest => true
  | .inputUndervoltage => true
  | .thermalReport _ _ => true
  | .dieReset _ => true
  | .dieReturn _ => true
  | .farModuleLoss _ => true
  | .relayDown _ => true
  | .linkFlit _ _ _ _ => true
  | .linkRetrain _ _ => true
  | .slotSyncMarker _ _ => true
  | .slotSync _ _ _ => true
  | .read _ => true
  | .write _ => true
  | .amo _ => true
  | .readReply _ => true
  | .writeAck _ => true
  | .faultReply _ => true
  | .msg _ => true
  | .msgAck _ => true
  | .msgResend _ => true
  | .msgMoved _ => true
  | .arrive _ => true
  | .copyData _ => true
  | .copyDone _ => true
  | .mcastData _ => true
  | .atomBatch _ => true
  | .chunk _ => true
  | .pause _ => true
  | .resume _ => true
  | .ivl _ => true
  | .rctUpd _ => true
  | .swcSync _ => true
  | .swcSyncSend => true
  | .swcSlew _ => true
  | .e2eAck _ => true
  | .e2eAckSend _ => true
  | .gatewayOutbound _ => true
  | .gatewayInbound _ => true
  | .replayTimeout _ _ => true
  | .planeIdleTimeout _ _ => true
  | .walkDone _ _ => true
  | .faultAnswer _ _ _ => true
  | .faultRecordTimeout _ _ => true
  | .logApply _ => true
  | .appliedIndexReport _ => true
  | .tierMove _ _ _ _ _ => true
  | .homeMove _ _ _ _ _ _ => true
  | .vaultCopyDone _ _ => true
  | .trkload _ => true
  | .trkloadDone => true
  | .hostApertureAccess _ _ _ _ _ => true
  | .intakeWrite _ => true
  | .intakecommit _ _ => true
  | .grdef _ => true
  | .grdefCopyDone => true
  | .prectlPreempt _ => true
  | .prectlResume _ => true
  | .prestatDone => true
  | .ckctlStart _ => true
  | .ckctlQuiesce _ => true
  | .ckctlRestore _ => true
  | .quiesceDone => true
  | .checkpointCopyDone => true
  | .restoreDone => true
  | .tftpResend => true
  | .fetchRestart => true
  | .imageVerify => true
  | .bankGate _ _ _ => true
  | .bankWake _ _ _ => true
  | .bankWakeDone _ _ _ => true
  | .registerWrite _ _ => true
  | .resourceReport _ => true
  | .launchAdmit => true
  | .admissionDeadline _ => true
  | .launchPlace => true
  | .placementTimeout _ => true
  | .energyMeasure _ _ => true
  | .batonDispatch _ => true
  | .ageTick => true
  | .slotPromotion _ => true
  | .pacerBind _ => true
  | .batonEvict _ _ => true
  | .waitDeadline _ _ => true
  | .gangFormationTimeout _ _ => true
  | .deferredFaultDelivery _ _ => true
  | .promiseMissed _ _ => true
  | .copyComplete _ _ => true
  | .feedPanel _ _ => true
  | .handleEntryLapse _ _ => true
  | .nodeStart _ _ _ => true
  | .nodeEnd _ _ _ => true
  | .stallTimeout _ _ => true
  | .pauseLimit _ _ => true
  | .reservationRelease _ _ => true
  | .functionReady _ => true
  | .functionFailure _ => true
  | .dispatchEntryComplete _ _ => true
  | .cycleControllerRequest => true
  | .managementEthernetFrame _ => true

end Sys2Proof
end

