-- ==== Sys2Proof/Decode.lean ====
section
/-!
DEFINITION. Decoding (R191, R195 to R200) as a total function on bytes that rejects by name, and the encoder written from the
same encoding tables. The fields are read off the word once, here. The functions marked noncomputable are plain structural
definitions that the kernel evaluates; Lean's runtime cannot build a constructor with fields whose number is above 244, so
they have no compiled code.
-/
namespace Sys2Proof

/-- Why a byte sequence is no instruction. Every one of these traps with cause 2 when it is fetched (R200). -/
inductive Reject
  /-- Fewer bytes than the instruction has. -/
  | truncated
  /-- The all-zero halfword (R191). -/
  | zeroHalfword
  /-- A halfword whose bits [4:2] and [1:0] announce a longer encoding (R195). -/
  | longEncoding
  /-- A major opcode that names nothing (R195). -/
  | noMajorOpcode
  /-- A selector, or a field that must be zero, that names nothing (R191, R199). -/
  | noSelector
  /-- A field outside the instruction's own limits (R197, R198). -/
  | reservedField
  deriving DecidableEq, Repr

/-- A candidate is an instruction only where its fields obey their limits (R200). -/
def checked (i : Instr) : Except Reject Instr := if i.wellFormed then .ok i else .error .reservedField

/-- The 12-bit halfword offset of a B-type word. -/
def branchOff (w : Word32) : BitVec 12 :=
  w.extractLsb' 31 1 ++ w.extractLsb' 7 1 ++ w.extractLsb' 25 6 ++ w.extractLsb' 8 4
/-- The 12-bit byte offset of an S-type word. -/
def storeImm (w : Word32) : BitVec 12 := w.extractLsb' 25 7 ++ w.extractLsb' 7 5
/-- The 20-bit halfword offset of a J-type word. -/
def jalOff (w : Word32) : BitVec 20 :=
  w.extractLsb' 31 1 ++ w.extractLsb' 12 8 ++ w.extractLsb' 20 1 ++ w.extractLsb' 21 10

/-- Words of major opcode 0x37 (R191). -/
def decodeLui (w : Word32) : Except Reject Instr :=
  checked (.lui (w.extractLsb' 7 5) (w.extractLsb' 12 20))

/-- Words of major opcode 0x17 (R191). -/
def decodeAuipc (w : Word32) : Except Reject Instr :=
  checked (.auipc (w.extractLsb' 7 5) (w.extractLsb' 12 20))

/-- Words of major opcode 0x6F (R191). -/
def decodeJal (w : Word32) : Except Reject Instr :=
  checked (.jal (w.extractLsb' 7 5) (jalOff w))

/-- Words of major opcode 0x67 (R191). -/
def decodeJalr (w : Word32) : Except Reject Instr :=
  if w.extractLsb' 12 3 == 0#3 then
    checked (.jalr (w.extractLsb' 7 5) (w.extractLsb' 15 5) (w.extractLsb' 20 12))
  else .error .noSelector

/-- Words of major opcode 0x63 (R191). -/
def decodeBranch (w : Word32) : Except Reject Instr :=
  if w.extractLsb' 12 3 = 0#3 then
    checked (.beq (w.extractLsb' 15 5) (w.extractLsb' 20 5) (branchOff w))
  else if w.extractLsb' 12 3 = 1#3 then
    checked (.bne (w.extractLsb' 15 5) (w.extractLsb' 20 5) (branchOff w))
  else if w.extractLsb' 12 3 = 4#3 then
    checked (.blt (w.extractLsb' 15 5) (w.extractLsb' 20 5) (branchOff w))
  else if w.extractLsb' 12 3 = 5#3 then
    checked (.bge (w.extractLsb' 15 5) (w.extractLsb' 20 5) (branchOff w))
  else if w.extractLsb' 12 3 = 6#3 then
    checked (.bltu (w.extractLsb' 15 5) (w.extractLsb' 20 5) (branchOff w))
  else if w.extractLsb' 12 3 = 7#3 then
    checked (.bgeu (w.extractLsb' 15 5) (w.extractLsb' 20 5) (branchOff w))
  else .error .noSelector

/-- Words of major opcode 0x03 (R191). -/
def decodeLoad (w : Word32) : Except Reject Instr :=
  if w.extractLsb' 12 3 = 0#3 then
    checked (.lb (w.extractLsb' 7 5) (w.extractLsb' 15 5) (w.extractLsb' 20 12))
  else if w.extractLsb' 12 3 = 1#3 then
    checked (.lh (w.extractLsb' 7 5) (w.extractLsb' 15 5) (w.extractLsb' 20 12))
  else if w.extractLsb' 12 3 = 2#3 then
    checked (.lw (w.extractLsb' 7 5) (w.extractLsb' 15 5) (w.extractLsb' 20 12))
  else if w.extractLsb' 12 3 = 3#3 then
    checked (.ld (w.extractLsb' 7 5) (w.extractLsb' 15 5) (w.extractLsb' 20 12))
  else if w.extractLsb' 12 3 = 4#3 then
    checked (.lbu (w.extractLsb' 7 5) (w.extractLsb' 15 5) (w.extractLsb' 20 12))
  else if w.extractLsb' 12 3 = 5#3 then
    checked (.lhu (w.extractLsb' 7 5) (w.extractLsb' 15 5) (w.extractLsb' 20 12))
  else if w.extractLsb' 12 3 = 6#3 then
    checked (.lwu (w.extractLsb' 7 5) (w.extractLsb' 15 5) (w.extractLsb' 20 12))
  else .error .noSelector

/-- Words of major opcode 0x23 (R191). -/
def decodeStore (w : Word32) : Except Reject Instr :=
  if w.extractLsb' 12 3 = 0#3 then
    checked (.sb (w.extractLsb' 15 5) (w.extractLsb' 20 5) (storeImm w))
  else if w.extractLsb' 12 3 = 1#3 then
    checked (.sh (w.extractLsb' 15 5) (w.extractLsb' 20 5) (storeImm w))
  else if w.extractLsb' 12 3 = 2#3 then
    checked (.sw (w.extractLsb' 15 5) (w.extractLsb' 20 5) (storeImm w))
  else if w.extractLsb' 12 3 = 3#3 then
    checked (.sd (w.extractLsb' 15 5) (w.extractLsb' 20 5) (storeImm w))
  else .error .noSelector

/-- Words of major opcode 0x13 (R191). -/
def decodeOpImm (w : Word32) : Except Reject Instr :=
  if w.extractLsb' 12 3 = 0#3 then
    checked (.addi (w.extractLsb' 7 5) (w.extractLsb' 15 5) (w.extractLsb' 20 12))
  else if w.extractLsb' 12 3 = 1#3 then
    if w.extractLsb' 26 6 == 0#6 then
      checked (.slli (w.extractLsb' 7 5) (w.extractLsb' 15 5) (w.extractLsb' 20 6))
    else .error .noSelector
  else if w.extractLsb' 12 3 = 2#3 then
    checked (.slti (w.extractLsb' 7 5) (w.extractLsb' 15 5) (w.extractLsb' 20 12))
  else if w.extractLsb' 12 3 = 3#3 then
    checked (.sltiu (w.extractLsb' 7 5) (w.extractLsb' 15 5) (w.extractLsb' 20 12))
  else if w.extractLsb' 12 3 = 4#3 then
    checked (.xori (w.extractLsb' 7 5) (w.extractLsb' 15 5) (w.extractLsb' 20 12))
  else if w.extractLsb' 12 3 = 5#3 then
    if w.extractLsb' 26 6 = 0#6 then
      checked (.srli (w.extractLsb' 7 5) (w.extractLsb' 15 5) (w.extractLsb' 20 6))
    else if w.extractLsb' 26 6 = 16#6 then
      checked (.srai (w.extractLsb' 7 5) (w.extractLsb' 15 5) (w.extractLsb' 20 6))
    else .error .noSelector
  else if w.extractLsb' 12 3 = 6#3 then
    checked (.ori (w.extractLsb' 7 5) (w.extractLsb' 15 5) (w.extractLsb' 20 12))
  else if w.extractLsb' 12 3 = 7#3 then
    checked (.andi (w.extractLsb' 7 5) (w.extractLsb' 15 5) (w.extractLsb' 20 12))
  else .error .noSelector

/-- Words of major opcode 0x1B (R191). -/
def decodeOpImm32 (w : Word32) : Except Reject Instr :=
  if w.extractLsb' 12 3 = 0#3 then
    checked (.addiw (w.extractLsb' 7 5) (w.extractLsb' 15 5) (w.extractLsb' 20 12))
  else if w.extractLsb' 12 3 = 1#3 then
    if w.extractLsb' 25 7 == 0#7 then
      checked (.slliw (w.extractLsb' 7 5) (w.extractLsb' 15 5) (w.extractLsb' 20 5))
    else .error .noSelector
  else if w.extractLsb' 12 3 = 5#3 then
    if w.extractLsb' 25 7 = 0#7 then
      checked (.srliw (w.extractLsb' 7 5) (w.extractLsb' 15 5) (w.extractLsb' 20 5))
    else if w.extractLsb' 25 7 = 32#7 then
      checked (.sraiw (w.extractLsb' 7 5) (w.extractLsb' 15 5) (w.extractLsb' 20 5))
    else .error .noSelector
  else .error .noSelector

/-- Words of major opcode 0x33 (R191). -/
def decodeOp (w : Word32) : Except Reject Instr :=
  if w.extractLsb' 12 3 = 0#3 then
    if w.extractLsb' 25 7 = 0#7 then
      checked (.add (w.extractLsb' 7 5) (w.extractLsb' 15 5) (w.extractLsb' 20 5))
    else if w.extractLsb' 25 7 = 1#7 then
      checked (.mul (w.extractLsb' 7 5) (w.extractLsb' 15 5) (w.extractLsb' 20 5))
    else if w.extractLsb' 25 7 = 32#7 then
      checked (.sub (w.extractLsb' 7 5) (w.extractLsb' 15 5) (w.extractLsb' 20 5))
    else .error .noSelector
  else if w.extractLsb' 12 3 = 1#3 then
    if w.extractLsb' 25 7 = 0#7 then
      checked (.sll (w.extractLsb' 7 5) (w.extractLsb' 15 5) (w.extractLsb' 20 5))
    else if w.extractLsb' 25 7 = 1#7 then
      checked (.mulh (w.extractLsb' 7 5) (w.extractLsb' 15 5) (w.extractLsb' 20 5))
    else .error .noSelector
  else if w.extractLsb' 12 3 = 2#3 then
    if w.extractLsb' 25 7 = 0#7 then
      checked (.slt (w.extractLsb' 7 5) (w.extractLsb' 15 5) (w.extractLsb' 20 5))
    else if w.extractLsb' 25 7 = 1#7 then
      checked (.mulhsu (w.extractLsb' 7 5) (w.extractLsb' 15 5) (w.extractLsb' 20 5))
    else .error .noSelector
  else if w.extractLsb' 12 3 = 3#3 then
    if w.extractLsb' 25 7 = 0#7 then
      checked (.sltu (w.extractLsb' 7 5) (w.extractLsb' 15 5) (w.extractLsb' 20 5))
    else if w.extractLsb' 25 7 = 1#7 then
      checked (.mulhu (w.extractLsb' 7 5) (w.extractLsb' 15 5) (w.extractLsb' 20 5))
    else .error .noSelector
  else if w.extractLsb' 12 3 = 4#3 then
    if w.extractLsb' 25 7 = 0#7 then
      checked (.xor (w.extractLsb' 7 5) (w.extractLsb' 15 5) (w.extractLsb' 20 5))
    else if w.extractLsb' 25 7 = 1#7 then
      checked (.div (w.extractLsb' 7 5) (w.extractLsb' 15 5) (w.extractLsb' 20 5))
    else .error .noSelector
  else if w.extractLsb' 12 3 = 5#3 then
    if w.extractLsb' 25 7 = 0#7 then
      checked (.srl (w.extractLsb' 7 5) (w.extractLsb' 15 5) (w.extractLsb' 20 5))
    else if w.extractLsb' 25 7 = 1#7 then
      checked (.divu (w.extractLsb' 7 5) (w.extractLsb' 15 5) (w.extractLsb' 20 5))
    else if w.extractLsb' 25 7 = 32#7 then
      checked (.sra (w.extractLsb' 7 5) (w.extractLsb' 15 5) (w.extractLsb' 20 5))
    else .error .noSelector
  else if w.extractLsb' 12 3 = 6#3 then
    if w.extractLsb' 25 7 = 0#7 then
      checked (.or (w.extractLsb' 7 5) (w.extractLsb' 15 5) (w.extractLsb' 20 5))
    else if w.extractLsb' 25 7 = 1#7 then
      checked (.rem (w.extractLsb' 7 5) (w.extractLsb' 15 5) (w.extractLsb' 20 5))
    else .error .noSelector
  else if w.extractLsb' 12 3 = 7#3 then
    if w.extractLsb' 25 7 = 0#7 then
      checked (.and (w.extractLsb' 7 5) (w.extractLsb' 15 5) (w.extractLsb' 20 5))
    else if w.extractLsb' 25 7 = 1#7 then
      checked (.remu (w.extractLsb' 7 5) (w.extractLsb' 15 5) (w.extractLsb' 20 5))
    else .error .noSelector
  else .error .noSelector

/-- Words of major opcode 0x3B (R191). -/
def decodeOp32 (w : Word32) : Except Reject Instr :=
  if w.extractLsb' 12 3 = 0#3 then
    if w.extractLsb' 25 7 = 0#7 then
      checked (.addw (w.extractLsb' 7 5) (w.extractLsb' 15 5) (w.extractLsb' 20 5))
    else if w.extractLsb' 25 7 = 1#7 then
      checked (.mulw (w.extractLsb' 7 5) (w.extractLsb' 15 5) (w.extractLsb' 20 5))
    else if w.extractLsb' 25 7 = 32#7 then
      checked (.subw (w.extractLsb' 7 5) (w.extractLsb' 15 5) (w.extractLsb' 20 5))
    else .error .noSelector
  else if w.extractLsb' 12 3 = 1#3 then
    if w.extractLsb' 25 7 == 0#7 then
      checked (.sllw (w.extractLsb' 7 5) (w.extractLsb' 15 5) (w.extractLsb' 20 5))
    else .error .noSelector
  else if w.extractLsb' 12 3 = 4#3 then
    if w.extractLsb' 25 7 == 1#7 then
      checked (.divw (w.extractLsb' 7 5) (w.extractLsb' 15 5) (w.extractLsb' 20 5))
    else .error .noSelector
  else if w.extractLsb' 12 3 = 5#3 then
    if w.extractLsb' 25 7 = 0#7 then
      checked (.srlw (w.extractLsb' 7 5) (w.extractLsb' 15 5) (w.extractLsb' 20 5))
    else if w.extractLsb' 25 7 = 1#7 then
      checked (.divuw (w.extractLsb' 7 5) (w.extractLsb' 15 5) (w.extractLsb' 20 5))
    else if w.extractLsb' 25 7 = 32#7 then
      checked (.sraw (w.extractLsb' 7 5) (w.extractLsb' 15 5) (w.extractLsb' 20 5))
    else .error .noSelector
  else if w.extractLsb' 12 3 = 6#3 then
    if w.extractLsb' 25 7 == 1#7 then
      checked (.remw (w.extractLsb' 7 5) (w.extractLsb' 15 5) (w.extractLsb' 20 5))
    else .error .noSelector
  else if w.extractLsb' 12 3 = 7#3 then
    if w.extractLsb' 25 7 == 1#7 then
      checked (.remuw (w.extractLsb' 7 5) (w.extractLsb' 15 5) (w.extractLsb' 20 5))
    else .error .noSelector
  else .error .noSelector

/-- Words of major opcode 0x0F (R191). -/
def decodeMiscMem (w : Word32) : Except Reject Instr :=
  if w.extractLsb' 12 3 = 0#3 then
    if w.extractLsb' 28 4 = 0#4 then
      checked (.fence (w.extractLsb' 7 5) (w.extractLsb' 15 5) (w.extractLsb' 24 4) (w.extractLsb' 20 4))
    else if w.extractLsb' 28 4 = 8#4 then
      checked (.fenceTso (w.extractLsb' 7 5) (w.extractLsb' 15 5) (w.extractLsb' 24 4) (w.extractLsb' 20 4))
    else .error .noSelector
  else if w.extractLsb' 12 3 = 1#3 then
    checked (.fenceI (w.extractLsb' 7 5) (w.extractLsb' 15 5) (w.extractLsb' 20 12))
  else .error .noSelector

/-- Words of major opcode 0x73 (R191). -/
def decodeSystem (w : Word32) : Except Reject Instr :=
  if w.extractLsb' 12 3 = 0#3 then
    if w.extractLsb' 20 5 = 0#5 then
      if w.extractLsb' 7 5 == 0#5 && w.extractLsb' 15 5 == 0#5 && w.extractLsb' 25 7 == 0#7 then
        checked .ecall
      else .error .noSelector
    else if w.extractLsb' 20 5 = 1#5 then
      if w.extractLsb' 7 5 == 0#5 && w.extractLsb' 15 5 == 0#5 && w.extractLsb' 25 7 == 0#7 then
        checked .ebreak
      else .error .noSelector
    else if w.extractLsb' 20 5 = 5#5 then
      if w.extractLsb' 7 5 == 0#5 && w.extractLsb' 15 5 == 0#5 && w.extractLsb' 25 7 == 8#7 then
        checked .wfi
      else .error .noSelector
    else .error .noSelector
  else if w.extractLsb' 12 3 = 1#3 then
    checked (.csrrw (w.extractLsb' 7 5) (w.extractLsb' 15 5) (w.extractLsb' 20 12))
  else if w.extractLsb' 12 3 = 2#3 then
    checked (.csrrs (w.extractLsb' 7 5) (w.extractLsb' 15 5) (w.extractLsb' 20 12))
  else if w.extractLsb' 12 3 = 3#3 then
    checked (.csrrc (w.extractLsb' 7 5) (w.extractLsb' 15 5) (w.extractLsb' 20 12))
  else if w.extractLsb' 12 3 = 5#3 then
    checked (.csrrwi (w.extractLsb' 7 5) (w.extractLsb' 20 12) (w.extractLsb' 15 5))
  else if w.extractLsb' 12 3 = 6#3 then
    checked (.csrrsi (w.extractLsb' 7 5) (w.extractLsb' 20 12) (w.extractLsb' 15 5))
  else if w.extractLsb' 12 3 = 7#3 then
    checked (.csrrci (w.extractLsb' 7 5) (w.extractLsb' 20 12) (w.extractLsb' 15 5))
  else .error .noSelector

/-- Words of major opcode 0x2F (R191). -/
def decodeAmo (w : Word32) : Except Reject Instr :=
  if w.extractLsb' 27 5 = 0#5 then
    if w.extractLsb' 13 2 == 1#2 then
      checked (.amoadd (w.extractLsb' 7 5) (w.extractLsb' 15 5) (w.extractLsb' 20 5) (w.extractLsb' 26 1 == 1#1) (w.extractLsb' 25 1 == 1#1) (w.extractLsb' 12 1 == 1#1))
    else .error .noSelector
  else if w.extractLsb' 27 5 = 1#5 then
    if w.extractLsb' 13 2 == 1#2 then
      checked (.amoswap (w.extractLsb' 7 5) (w.extractLsb' 15 5) (w.extractLsb' 20 5) (w.extractLsb' 26 1 == 1#1) (w.extractLsb' 25 1 == 1#1) (w.extractLsb' 12 1 == 1#1))
    else .error .noSelector
  else if w.extractLsb' 27 5 = 2#5 then
    if w.extractLsb' 13 2 == 1#2 && w.extractLsb' 20 5 == 0#5 then
      checked (.lr (w.extractLsb' 7 5) (w.extractLsb' 15 5) (w.extractLsb' 26 1 == 1#1) (w.extractLsb' 25 1 == 1#1) (w.extractLsb' 12 1 == 1#1))
    else .error .noSelector
  else if w.extractLsb' 27 5 = 3#5 then
    if w.extractLsb' 13 2 == 1#2 then
      checked (.sc (w.extractLsb' 7 5) (w.extractLsb' 15 5) (w.extractLsb' 20 5) (w.extractLsb' 26 1 == 1#1) (w.extractLsb' 25 1 == 1#1) (w.extractLsb' 12 1 == 1#1))
    else .error .noSelector
  else if w.extractLsb' 27 5 = 4#5 then
    if w.extractLsb' 13 2 == 1#2 then
      checked (.amoxor (w.extractLsb' 7 5) (w.extractLsb' 15 5) (w.extractLsb' 20 5) (w.extractLsb' 26 1 == 1#1) (w.extractLsb' 25 1 == 1#1) (w.extractLsb' 12 1 == 1#1))
    else .error .noSelector
  else if w.extractLsb' 27 5 = 8#5 then
    if w.extractLsb' 13 2 == 1#2 then
      checked (.amoor (w.extractLsb' 7 5) (w.extractLsb' 15 5) (w.extractLsb' 20 5) (w.extractLsb' 26 1 == 1#1) (w.extractLsb' 25 1 == 1#1) (w.extractLsb' 12 1 == 1#1))
    else .error .noSelector
  else if w.extractLsb' 27 5 = 12#5 then
    if w.extractLsb' 13 2 == 1#2 then
      checked (.amoand (w.extractLsb' 7 5) (w.extractLsb' 15 5) (w.extractLsb' 20 5) (w.extractLsb' 26 1 == 1#1) (w.extractLsb' 25 1 == 1#1) (w.extractLsb' 12 1 == 1#1))
    else .error .noSelector
  else if w.extractLsb' 27 5 = 16#5 then
    if w.extractLsb' 13 2 == 1#2 then
      checked (.amomin (w.extractLsb' 7 5) (w.extractLsb' 15 5) (w.extractLsb' 20 5) (w.extractLsb' 26 1 == 1#1) (w.extractLsb' 25 1 == 1#1) (w.extractLsb' 12 1 == 1#1))
    else .error .noSelector
  else if w.extractLsb' 27 5 = 20#5 then
    if w.extractLsb' 13 2 == 1#2 then
      checked (.amomax (w.extractLsb' 7 5) (w.extractLsb' 15 5) (w.extractLsb' 20 5) (w.extractLsb' 26 1 == 1#1) (w.extractLsb' 25 1 == 1#1) (w.extractLsb' 12 1 == 1#1))
    else .error .noSelector
  else if w.extractLsb' 27 5 = 24#5 then
    if w.extractLsb' 13 2 == 1#2 then
      checked (.amominu (w.extractLsb' 7 5) (w.extractLsb' 15 5) (w.extractLsb' 20 5) (w.extractLsb' 26 1 == 1#1) (w.extractLsb' 25 1 == 1#1) (w.extractLsb' 12 1 == 1#1))
    else .error .noSelector
  else if w.extractLsb' 27 5 = 28#5 then
    if w.extractLsb' 13 2 == 1#2 then
      checked (.amomaxu (w.extractLsb' 7 5) (w.extractLsb' 15 5) (w.extractLsb' 20 5) (w.extractLsb' 26 1 == 1#1) (w.extractLsb' 25 1 == 1#1) (w.extractLsb' 12 1 == 1#1))
    else .error .noSelector
  else .error .noSelector

/-- Words of major opcode 0x53 (R191). -/
def decodeOpFp (w : Word32) : Except Reject Instr :=
  if w.extractLsb' 25 7 = 0#7 then
    checked (.faddS (w.extractLsb' 7 5) (w.extractLsb' 15 5) (w.extractLsb' 20 5) (w.extractLsb' 12 3))
  else if w.extractLsb' 25 7 = 4#7 then
    checked (.fsubS (w.extractLsb' 7 5) (w.extractLsb' 15 5) (w.extractLsb' 20 5) (w.extractLsb' 12 3))
  else if w.extractLsb' 25 7 = 8#7 then
    checked (.fmulS (w.extractLsb' 7 5) (w.extractLsb' 15 5) (w.extractLsb' 20 5) (w.extractLsb' 12 3))
  else if w.extractLsb' 25 7 = 12#7 then
    checked (.fdivS (w.extractLsb' 7 5) (w.extractLsb' 15 5) (w.extractLsb' 20 5) (w.extractLsb' 12 3))
  else if w.extractLsb' 25 7 = 16#7 then
    if w.extractLsb' 12 3 = 0#3 then
      checked (.fsgnjS (w.extractLsb' 7 5) (w.extractLsb' 15 5) (w.extractLsb' 20 5))
    else if w.extractLsb' 12 3 = 1#3 then
      checked (.fsgnjnS (w.extractLsb' 7 5) (w.extractLsb' 15 5) (w.extractLsb' 20 5))
    else if w.extractLsb' 12 3 = 2#3 then
      checked (.fsgnjxS (w.extractLsb' 7 5) (w.extractLsb' 15 5) (w.extractLsb' 20 5))
    else .error .noSelector
  else if w.extractLsb' 25 7 = 20#7 then
    if w.extractLsb' 12 3 = 0#3 then
      checked (.fminS (w.extractLsb' 7 5) (w.extractLsb' 15 5) (w.extractLsb' 20 5))
    else if w.extractLsb' 12 3 = 1#3 then
      checked (.fmaxS (w.extractLsb' 7 5) (w.extractLsb' 15 5) (w.extractLsb' 20 5))
    else .error .noSelector
  else if w.extractLsb' 25 7 = 44#7 then
    if w.extractLsb' 20 5 == 0#5 then
      checked (.fsqrtS (w.extractLsb' 7 5) (w.extractLsb' 15 5) (w.extractLsb' 12 3))
    else .error .noSelector
  else if w.extractLsb' 25 7 = 80#7 then
    if w.extractLsb' 12 3 = 0#3 then
      checked (.fleS (w.extractLsb' 7 5) (w.extractLsb' 15 5) (w.extractLsb' 20 5))
    else if w.extractLsb' 12 3 = 1#3 then
      checked (.fltS (w.extractLsb' 7 5) (w.extractLsb' 15 5) (w.extractLsb' 20 5))
    else if w.extractLsb' 12 3 = 2#3 then
      checked (.feqS (w.extractLsb' 7 5) (w.extractLsb' 15 5) (w.extractLsb' 20 5))
    else .error .noSelector
  else if w.extractLsb' 25 7 = 96#7 then
    if w.extractLsb' 20 5 = 0#5 then
      checked (.fcvtWS (w.extractLsb' 7 5) (w.extractLsb' 15 5) (w.extractLsb' 12 3))
    else if w.extractLsb' 20 5 = 1#5 then
      checked (.fcvtWuS (w.extractLsb' 7 5) (w.extractLsb' 15 5) (w.extractLsb' 12 3))
    else if w.extractLsb' 20 5 = 2#5 then
      checked (.fcvtLS (w.extractLsb' 7 5) (w.extractLsb' 15 5) (w.extractLsb' 12 3))
    else if w.extractLsb' 20 5 = 3#5 then
      checked (.fcvtLuS (w.extractLsb' 7 5) (w.extractLsb' 15 5) (w.extractLsb' 12 3))
    else .error .noSelector
  else if w.extractLsb' 25 7 = 104#7 then
    if w.extractLsb' 20 5 = 0#5 then
      checked (.fcvtSW (w.extractLsb' 7 5) (w.extractLsb' 15 5) (w.extractLsb' 12 3))
    else if w.extractLsb' 20 5 = 1#5 then
      checked (.fcvtSWu (w.extractLsb' 7 5) (w.extractLsb' 15 5) (w.extractLsb' 12 3))
    else if w.extractLsb' 20 5 = 2#5 then
      checked (.fcvtSL (w.extractLsb' 7 5) (w.extractLsb' 15 5) (w.extractLsb' 12 3))
    else if w.extractLsb' 20 5 = 3#5 then
      checked (.fcvtSLu (w.extractLsb' 7 5) (w.extractLsb' 15 5) (w.extractLsb' 12 3))
    else .error .noSelector
  else if w.extractLsb' 25 7 = 112#7 then
    if w.extractLsb' 12 3 == 1#3 && w.extractLsb' 20 5 == 0#5 then
      checked (.fclassS (w.extractLsb' 7 5) (w.extractLsb' 15 5))
    else .error .noSelector
  else .error .noSelector

/-- Words of major opcode 0x43 (R191). -/
def decodeFmadd (w : Word32) : Except Reject Instr :=
  if w.extractLsb' 25 2 == 0#2 then
    checked (.fmaddS (w.extractLsb' 7 5) (w.extractLsb' 15 5) (w.extractLsb' 20 5) (w.extractLsb' 27 5) (w.extractLsb' 12 3))
  else .error .noSelector

/-- Words of major opcode 0x47 (R191). -/
def decodeFmsub (w : Word32) : Except Reject Instr :=
  if w.extractLsb' 25 2 == 0#2 then
    checked (.fmsubS (w.extractLsb' 7 5) (w.extractLsb' 15 5) (w.extractLsb' 20 5) (w.extractLsb' 27 5) (w.extractLsb' 12 3))
  else .error .noSelector

/-- Words of major opcode 0x4B (R191). -/
def decodeFnmsub (w : Word32) : Except Reject Instr :=
  if w.extractLsb' 25 2 == 0#2 then
    checked (.fnmsubS (w.extractLsb' 7 5) (w.extractLsb' 15 5) (w.extractLsb' 20 5) (w.extractLsb' 27 5) (w.extractLsb' 12 3))
  else .error .noSelector

/-- Words of major opcode 0x4F (R191). -/
def decodeFnmadd (w : Word32) : Except Reject Instr :=
  if w.extractLsb' 25 2 == 0#2 then
    checked (.fnmaddS (w.extractLsb' 7 5) (w.extractLsb' 15 5) (w.extractLsb' 20 5) (w.extractLsb' 27 5) (w.extractLsb' 12 3))
  else .error .noSelector

/-- custom-0 words with funct3 0 (R199). -/
def decodeCustom0F0 (w : Word32) : Except Reject Instr :=
  if w.extractLsb' 28 4 = 0#4 then
    if w.extractLsb' 20 5 == 0#5 && w.extractLsb' 25 3 == 0#3 then
      checked (.batSpawn (w.extractLsb' 7 5) (w.extractLsb' 15 5))
    else .error .noSelector
  else if w.extractLsb' 28 4 = 1#4 then
    if w.extractLsb' 25 3 = 0#3 then
      checked (.batSend (w.extractLsb' 7 5) (w.extractLsb' 15 5) (w.extractLsb' 20 5))
    else if w.extractLsb' 25 3 = 1#3 then
      checked (.batSendR (w.extractLsb' 7 5) (w.extractLsb' 15 5) (w.extractLsb' 20 5))
    else .error .noSelector
  else if w.extractLsb' 28 4 = 2#4 then
    if w.extractLsb' 7 5 == 0#5 && w.extractLsb' 15 5 == 0#5 && w.extractLsb' 20 5 == 0#5 && w.extractLsb' 25 3 == 0#3 then
      checked .batExit
    else .error .noSelector
  else if w.extractLsb' 28 4 = 3#4 then
    if w.extractLsb' 7 5 == 0#5 && w.extractLsb' 20 5 == 0#5 && w.extractLsb' 25 3 == 0#3 then
      checked (.batYield (w.extractLsb' 15 5))
    else .error .noSelector
  else if w.extractLsb' 28 4 = 4#4 then
    if w.extractLsb' 25 3 == 0#3 then
      checked (.batPark (w.extractLsb' 7 5) (w.extractLsb' 15 5) (w.extractLsb' 20 5))
    else .error .noSelector
  else if w.extractLsb' 28 4 = 5#4 then
    if w.extractLsb' 7 5 == 0#5 && w.extractLsb' 20 5 == 0#5 && w.extractLsb' 25 3 == 0#3 then
      checked (.batWake (w.extractLsb' 15 5))
    else .error .noSelector
  else if w.extractLsb' 28 4 = 6#4 then
    if w.extractLsb' 20 5 == 0#5 && w.extractLsb' 25 3 == 0#3 then
      checked (.batRole (w.extractLsb' 7 5) (w.extractLsb' 15 5))
    else .error .noSelector
  else if w.extractLsb' 28 4 = 7#4 then
    if w.extractLsb' 15 5 == 0#5 && w.extractLsb' 20 5 == 0#5 then
      checked (.batSelf (w.extractLsb' 7 5) (w.extractLsb' 25 3))
    else .error .noSelector
  else .error .noSelector

/-- custom-0 words with funct3 1 (R199). -/
def decodeCustom0F1 (w : Word32) : Except Reject Instr :=
  if w.extractLsb' 28 4 = 0#4 then
    checked (.hdInit (w.extractLsb' 7 5) (w.extractLsb' 15 5) (w.extractLsb' 20 5) (w.extractLsb' 25 3))
  else if w.extractLsb' 28 4 = 1#4 then
    if w.extractLsb' 27 1 = 0#1 then
      if w.extractLsb' 7 5 == 0#5 then
        checked (.hdArrive (w.extractLsb' 15 5) (w.extractLsb' 20 5) (w.extractLsb' 25 2))
      else .error .noSelector
    else if w.extractLsb' 27 1 = 1#1 then
      if w.extractLsb' 7 5 == 0#5 then
        checked (.hdArriveR (w.extractLsb' 15 5) (w.extractLsb' 20 5) (w.extractLsb' 25 2))
      else .error .noSelector
    else .error .noSelector
  else if w.extractLsb' 28 4 = 2#4 then
    if w.extractLsb' 25 3 == 0#3 then
      checked (.hdWait (w.extractLsb' 7 5) (w.extractLsb' 15 5) (w.extractLsb' 20 5))
    else .error .noSelector
  else if w.extractLsb' 28 4 = 3#4 then
    if w.extractLsb' 27 1 == 0#1 then
      checked (.hdArrwait (w.extractLsb' 7 5) (w.extractLsb' 15 5) (w.extractLsb' 20 5) (w.extractLsb' 25 2))
    else .error .noSelector
  else if w.extractLsb' 28 4 = 4#4 then
    if w.extractLsb' 20 5 == 0#5 && w.extractLsb' 25 3 == 0#3 then
      checked (.hdTest (w.extractLsb' 7 5) (w.extractLsb' 15 5))
    else .error .noSelector
  else if w.extractLsb' 28 4 = 5#4 then
    if w.extractLsb' 27 1 = 0#1 then
      if w.extractLsb' 7 5 == 0#5 then
        checked (.hdWithdraw (w.extractLsb' 15 5) (w.extractLsb' 20 5) (w.extractLsb' 25 2))
      else .error .noSelector
    else if w.extractLsb' 27 1 = 1#1 then
      if w.extractLsb' 7 5 == 0#5 then
        checked (.hdWithdrawR (w.extractLsb' 15 5) (w.extractLsb' 20 5) (w.extractLsb' 25 2))
      else .error .noSelector
    else .error .noSelector
  else if w.extractLsb' 28 4 = 6#4 then
    if w.extractLsb' 25 3 = 0#3 then
      if w.extractLsb' 7 5 == 0#5 && w.extractLsb' 20 5 == 0#5 then
        checked (.hdJoin (w.extractLsb' 15 5))
      else .error .noSelector
    else if w.extractLsb' 25 3 = 4#3 then
      if w.extractLsb' 7 5 == 0#5 && w.extractLsb' 20 5 == 0#5 then
        checked (.hdJoinR (w.extractLsb' 15 5))
      else .error .noSelector
    else .error .noSelector
  else if w.extractLsb' 28 4 = 7#4 then
    if w.extractLsb' 15 5 == 0#5 && w.extractLsb' 20 5 == 0#5 && w.extractLsb' 27 1 == 0#1 then
      checked (.lapEnd (w.extractLsb' 7 5) (w.extractLsb' 25 2))
    else .error .noSelector
  else if w.extractLsb' 28 4 = 8#4 then
    if w.extractLsb' 15 5 == 0#5 && w.extractLsb' 20 5 == 0#5 && w.extractLsb' 27 1 == 0#1 then
      checked (.domRd (w.extractLsb' 7 5) (w.extractLsb' 25 2))
    else .error .noSelector
  else .error .noSelector

/-- custom-0 words with funct3 2 (R199). -/
def decodeCustom0F2 (w : Word32) : Except Reject Instr :=
  if w.extractLsb' 25 7 = 0#7 then
    if w.extractLsb' 20 5 == 0#5 then
      checked (.waitUntil (w.extractLsb' 7 5) (w.extractLsb' 15 5))
    else .error .noSelector
  else if w.extractLsb' 25 7 = 8#7 then
    if w.extractLsb' 7 5 == 0#5 && w.extractLsb' 20 5 == 0#5 then
      checked (.waitPromise (w.extractLsb' 15 5))
    else .error .noSelector
  else .error .noSelector

/-- custom-0 words with funct3 3 (R199). -/
def decodeCustom0F3 (w : Word32) : Except Reject Instr :=
  if w.extractLsb' 28 4 = 0#4 then
    if w.extractLsb' 25 3 == 0#3 then
      checked (.msgSend (w.extractLsb' 7 5) (w.extractLsb' 15 5) (w.extractLsb' 20 5))
    else .error .noSelector
  else if w.extractLsb' 28 4 = 1#4 then
    if w.extractLsb' 20 5 == 0#5 then
      checked (.msgRecv (w.extractLsb' 7 5) (w.extractLsb' 15 5) (w.extractLsb' 25 3))
    else .error .noSelector
  else if w.extractLsb' 28 4 = 2#4 then
    if w.extractLsb' 20 5 == 0#5 then
      checked (.msgPoll (w.extractLsb' 7 5) (w.extractLsb' 15 5) (w.extractLsb' 25 3))
    else .error .noSelector
  else if w.extractLsb' 28 4 = 3#4 then
    if w.extractLsb' 7 5 == 0#5 && w.extractLsb' 25 3 == 0#3 then
      checked (.rctSet (w.extractLsb' 15 5) (w.extractLsb' 20 5))
    else .error .noSelector
  else if w.extractLsb' 28 4 = 4#4 then
    if w.extractLsb' 7 5 == 0#5 && w.extractLsb' 20 5 == 0#5 && w.extractLsb' 25 3 == 0#3 then
      checked (.rctHold (w.extractLsb' 15 5))
    else .error .noSelector
  else if w.extractLsb' 28 4 = 5#4 then
    if w.extractLsb' 7 5 == 0#5 && w.extractLsb' 20 5 == 0#5 && w.extractLsb' 25 3 == 0#3 then
      checked (.rctRelease (w.extractLsb' 15 5))
    else .error .noSelector
  else .error .noSelector

/-- custom-0 words with funct3 4 (R199). -/
def decodeCustom0F4 (w : Word32) : Except Reject Instr :=
  checked (.ldAq (w.extractLsb' 7 5) (w.extractLsb' 15 5) (w.extractLsb' 30 2) (w.extractLsb' 27 3) (w.extractLsb' 20 7))

/-- custom-0 words with funct3 5 (R199). -/
def decodeCustom0F5 (w : Word32) : Except Reject Instr :=
  if w.extractLsb' 29 1 == 0#1 then
    checked (.stRl (w.extractLsb' 15 5) (w.extractLsb' 7 5) (w.extractLsb' 30 2) (w.extractLsb' 27 2) (w.extractLsb' 20 7))
  else .error .noSelector

/-- custom-0 words with funct3 6 (R199). -/
def decodeCustom0F6 (w : Word32) : Except Reject Instr :=
  if w.extractLsb' 31 1 = 0#1 then
    if w.extractLsb' 28 3 = 0#3 then
      if w.extractLsb' 15 5 == 0#5 && w.extractLsb' 20 5 == 0#5 then
        checked (.gangLead (w.extractLsb' 7 5) (w.extractLsb' 25 3))
      else .error .noSelector
    else if w.extractLsb' 28 3 = 1#3 then
      if w.extractLsb' 15 5 == 0#5 && w.extractLsb' 20 5 == 0#5 then
        checked (.gangJoin (w.extractLsb' 7 5) (w.extractLsb' 25 3))
      else .error .noSelector
    else if w.extractLsb' 28 3 = 2#3 then
      if w.extractLsb' 7 5 == 0#5 && w.extractLsb' 15 5 == 0#5 && w.extractLsb' 20 5 == 0#5 && w.extractLsb' 25 3 == 0#3 then
        checked .gangEnd
      else .error .noSelector
    else if w.extractLsb' 28 3 = 3#3 then
      if w.extractLsb' 20 5 == 0#5 && w.extractLsb' 25 3 == 0#3 then
        checked (.rrbSet (w.extractLsb' 7 5) (w.extractLsb' 15 5))
      else .error .noSelector
    else .error .noSelector
  else if w.extractLsb' 31 1 = 1#1 then
    if w.extractLsb' 15 5 == 0#5 then
      checked (.loopRot (w.extractLsb' 7 5) (w.extractLsb' 20 11))
    else .error .noSelector
  else .error .noSelector

/-- custom-0 words with funct3 7 (R199). -/
def decodeCustom0F7 (w : Word32) : Except Reject Instr :=
  if w.extractLsb' 28 4 = 0#4 then
    if w.extractLsb' 7 5 == 0#5 && w.extractLsb' 15 5 == 0#5 && w.extractLsb' 20 5 == 0#5 && w.extractLsb' 25 3 == 0#3 then
      checked .xuret
    else .error .noSelector
  else if w.extractLsb' 28 4 = 1#4 then
    if w.extractLsb' 7 5 == 0#5 && w.extractLsb' 25 3 == 0#3 then
      checked (.ctxSave (w.extractLsb' 15 5) (w.extractLsb' 20 5))
    else .error .noSelector
  else if w.extractLsb' 28 4 = 2#4 then
    if w.extractLsb' 7 5 == 0#5 && w.extractLsb' 25 3 == 0#3 then
      checked (.ctxRestore (w.extractLsb' 15 5) (w.extractLsb' 20 5))
    else .error .noSelector
  else if w.extractLsb' 28 4 = 3#4 then
    if w.extractLsb' 20 5 == 0#5 && w.extractLsb' 25 3 == 0#3 then
      checked (.stamClaim (w.extractLsb' 7 5) (w.extractLsb' 15 5))
    else .error .noSelector
  else if w.extractLsb' 28 4 = 4#4 then
    if w.extractLsb' 15 5 == 0#5 && w.extractLsb' 20 5 == 0#5 then
      checked (.stamRd (w.extractLsb' 7 5) (w.extractLsb' 25 3))
    else .error .noSelector
  else if w.extractLsb' 28 4 = 5#4 then
    if w.extractLsb' 20 5 == 0#5 && w.extractLsb' 25 3 == 0#3 then
      checked (.ivlPost (w.extractLsb' 7 5) (w.extractLsb' 15 5))
    else .error .noSelector
  else if w.extractLsb' 28 4 = 6#4 then
    if w.extractLsb' 7 5 == 0#5 && w.extractLsb' 20 5 == 0#5 && w.extractLsb' 25 3 == 0#3 then
      checked (.ivlSync (w.extractLsb' 15 5))
    else .error .noSelector
  else if w.extractLsb' 28 4 = 7#4 then
    if w.extractLsb' 20 5 == 0#5 && w.extractLsb' 25 3 == 0#3 then
      checked (.grLaunch (w.extractLsb' 7 5) (w.extractLsb' 15 5))
    else .error .noSelector
  else if w.extractLsb' 28 4 = 8#4 then
    if w.extractLsb' 20 5 == 0#5 && w.extractLsb' 25 3 == 0#3 then
      checked (.grWait (w.extractLsb' 7 5) (w.extractLsb' 15 5))
    else .error .noSelector
  else if w.extractLsb' 28 4 = 9#4 then
    if w.extractLsb' 7 5 == 0#5 && w.extractLsb' 15 5 == 0#5 && w.extractLsb' 20 5 == 0#5 && w.extractLsb' 27 1 == 0#1 then
      checked (.xfence (w.extractLsb' 25 2))
    else .error .noSelector
  else .error .noSelector

/-- The custom-0 space (R199). -/
def decodeCustom0 (w : Word32) : Except Reject Instr :=
  if w.extractLsb' 12 3 = 0#3 then decodeCustom0F0 w
  else if w.extractLsb' 12 3 = 1#3 then decodeCustom0F1 w
  else if w.extractLsb' 12 3 = 2#3 then decodeCustom0F2 w
  else if w.extractLsb' 12 3 = 3#3 then decodeCustom0F3 w
  else if w.extractLsb' 12 3 = 4#3 then decodeCustom0F4 w
  else if w.extractLsb' 12 3 = 5#3 then decodeCustom0F5 w
  else if w.extractLsb' 12 3 = 6#3 then decodeCustom0F6 w
  else if w.extractLsb' 12 3 = 7#3 then decodeCustom0F7 w
  else .error .noSelector

/-- custom-1 words with funct3 0 (R199). -/
def decodeCustom1F0 (w : Word32) : Except Reject Instr :=
  if w.extractLsb' 25 4 = 0#4 then
    checked (.vaddFloat (w.extractLsb' 7 5) (w.extractLsb' 15 5) (w.extractLsb' 20 5) (w.extractLsb' 29 3))
  else if w.extractLsb' 25 4 = 1#4 then
    checked (.vsubFloat (w.extractLsb' 7 5) (w.extractLsb' 15 5) (w.extractLsb' 20 5) (w.extractLsb' 29 3))
  else if w.extractLsb' 25 4 = 2#4 then
    checked (.vmulFloat (w.extractLsb' 7 5) (w.extractLsb' 15 5) (w.extractLsb' 20 5) (w.extractLsb' 29 3))
  else if w.extractLsb' 25 4 = 3#4 then
    checked (.vminFloat (w.extractLsb' 7 5) (w.extractLsb' 15 5) (w.extractLsb' 20 5) (w.extractLsb' 29 3))
  else if w.extractLsb' 25 4 = 4#4 then
    checked (.vmaxFloat (w.extractLsb' 7 5) (w.extractLsb' 15 5) (w.extractLsb' 20 5) (w.extractLsb' 29 3))
  else if w.extractLsb' 25 4 = 5#4 then
    if w.extractLsb' 20 5 == 0#5 then
      checked (.vabsFloat (w.extractLsb' 7 5) (w.extractLsb' 15 5) (w.extractLsb' 29 3))
    else .error .noSelector
  else if w.extractLsb' 25 4 = 6#4 then
    if w.extractLsb' 20 5 == 0#5 then
      checked (.vnegFloat (w.extractLsb' 7 5) (w.extractLsb' 15 5) (w.extractLsb' 29 3))
    else .error .noSelector
  else if w.extractLsb' 25 4 = 7#4 then
    checked (.vdiv (w.extractLsb' 7 5) (w.extractLsb' 15 5) (w.extractLsb' 20 5) (w.extractLsb' 29 3))
  else if w.extractLsb' 25 4 = 8#4 then
    if w.extractLsb' 22 3 == 0#3 then
      checked (.vsqrt (w.extractLsb' 7 5) (w.extractLsb' 15 5) (w.extractLsb' 29 3) (w.extractLsb' 20 2))
    else .error .noSelector
  else if w.extractLsb' 25 4 = 9#4 then
    if w.extractLsb' 22 3 == 0#3 then
      checked (.vrsq (w.extractLsb' 7 5) (w.extractLsb' 15 5) (w.extractLsb' 29 3) (w.extractLsb' 20 2))
    else .error .noSelector
  else .error .noSelector

/-- custom-1 words with funct3 1 (R199). -/
def decodeCustom1F1 (w : Word32) : Except Reject Instr :=
  if w.extractLsb' 25 4 = 0#4 then
    checked (.vaddInt (w.extractLsb' 7 5) (w.extractLsb' 15 5) (w.extractLsb' 20 5) (w.extractLsb' 29 3))
  else if w.extractLsb' 25 4 = 1#4 then
    checked (.vsubInt (w.extractLsb' 7 5) (w.extractLsb' 15 5) (w.extractLsb' 20 5) (w.extractLsb' 29 3))
  else if w.extractLsb' 25 4 = 2#4 then
    checked (.vmulInt (w.extractLsb' 7 5) (w.extractLsb' 15 5) (w.extractLsb' 20 5) (w.extractLsb' 29 3))
  else if w.extractLsb' 25 4 = 3#4 then
    checked (.vminInt (w.extractLsb' 7 5) (w.extractLsb' 15 5) (w.extractLsb' 20 5) (w.extractLsb' 29 3))
  else if w.extractLsb' 25 4 = 4#4 then
    checked (.vmaxInt (w.extractLsb' 7 5) (w.extractLsb' 15 5) (w.extractLsb' 20 5) (w.extractLsb' 29 3))
  else if w.extractLsb' 25 4 = 5#4 then
    if w.extractLsb' 20 5 == 0#5 then
      checked (.vabsInt (w.extractLsb' 7 5) (w.extractLsb' 15 5) (w.extractLsb' 29 3))
    else .error .noSelector
  else if w.extractLsb' 25 4 = 6#4 then
    if w.extractLsb' 20 5 == 0#5 then
      checked (.vnegInt (w.extractLsb' 7 5) (w.extractLsb' 15 5) (w.extractLsb' 29 3))
    else .error .noSelector
  else if w.extractLsb' 25 4 = 8#4 then
    checked (.vand (w.extractLsb' 7 5) (w.extractLsb' 15 5) (w.extractLsb' 20 5) (w.extractLsb' 29 3))
  else if w.extractLsb' 25 4 = 9#4 then
    checked (.vor (w.extractLsb' 7 5) (w.extractLsb' 15 5) (w.extractLsb' 20 5) (w.extractLsb' 29 3))
  else if w.extractLsb' 25 4 = 10#4 then
    checked (.vxor (w.extractLsb' 7 5) (w.extractLsb' 15 5) (w.extractLsb' 20 5) (w.extractLsb' 29 3))
  else if w.extractLsb' 25 4 = 11#4 then
    checked (.vshl (w.extractLsb' 7 5) (w.extractLsb' 15 5) (w.extractLsb' 20 5) (w.extractLsb' 29 3))
  else if w.extractLsb' 25 4 = 12#4 then
    checked (.vshr (w.extractLsb' 7 5) (w.extractLsb' 15 5) (w.extractLsb' 20 5) (w.extractLsb' 29 3))
  else if w.extractLsb' 25 4 = 13#4 then
    checked (.vsra (w.extractLsb' 7 5) (w.extractLsb' 15 5) (w.extractLsb' 20 5) (w.extractLsb' 29 3))
  else .error .noSelector

/-- custom-1 words with funct3 2 (R199). -/
def decodeCustom1F2 (w : Word32) : Except Reject Instr :=
  if w.extractLsb' 28 1 = 0#1 then
    checked (.vcmp (w.extractLsb' 7 5) (w.extractLsb' 15 5) (w.extractLsb' 20 5) (w.extractLsb' 29 3) (w.extractLsb' 25 3))
  else if w.extractLsb' 28 1 = 1#1 then
    if w.extractLsb' 25 3 == 0#3 then
      checked (.vsel (w.extractLsb' 7 5) (w.extractLsb' 15 5) (w.extractLsb' 20 5) (w.extractLsb' 29 3))
    else .error .noSelector
  else .error .noSelector

/-- custom-1 words with funct3 3 (R199). -/
def decodeCustom1F3 (w : Word32) : Except Reject Instr :=
  if w.extractLsb' 25 4 = 0#4 then
    checked (.vcvt (w.extractLsb' 7 5) (w.extractLsb' 15 5) (w.extractLsb' 29 3) (w.extractLsb' 23 2) (w.extractLsb' 20 3))
  else if w.extractLsb' 25 4 = 1#4 then
    if w.extractLsb' 15 1 == 0#1 && w.extractLsb' 21 4 == 0#4 && w.extractLsb' 29 3 == 0#3 then
      checked (.vqnt (w.extractLsb' 7 5) (w.extractLsb' 16 4) (w.extractLsb' 20 1 == 1#1))
    else .error .noSelector
  else if w.extractLsb' 25 4 = 2#4 then
    if w.extractLsb' 7 1 == 0#1 && w.extractLsb' 21 4 == 0#4 && w.extractLsb' 29 3 == 0#3 then
      checked (.vdqnt (w.extractLsb' 8 4) (w.extractLsb' 15 5) (w.extractLsb' 20 1 == 1#1))
    else .error .noSelector
  else .error .noSelector

/-- custom-1 words with funct3 4 (R199). -/
def decodeCustom1F4 (w : Word32) : Except Reject Instr :=
  if w.extractLsb' 25 4 = 0#4 then
    if w.extractLsb' 20 5 == 0#5 then
      checked (.vredsum (w.extractLsb' 7 5) (w.extractLsb' 15 5) (w.extractLsb' 29 3))
    else .error .noSelector
  else if w.extractLsb' 25 4 = 1#4 then
    if w.extractLsb' 20 5 == 0#5 then
      checked (.vredmax (w.extractLsb' 7 5) (w.extractLsb' 15 5) (w.extractLsb' 29 3))
    else .error .noSelector
  else if w.extractLsb' 25 4 = 2#4 then
    checked (.vperm (w.extractLsb' 7 5) (w.extractLsb' 15 5) (w.extractLsb' 20 5) (w.extractLsb' 29 3))
  else if w.extractLsb' 25 4 = 3#4 then
    checked (.vshuf (w.extractLsb' 7 5) (w.extractLsb' 15 5) (w.extractLsb' 20 5) (w.extractLsb' 29 3))
  else if w.extractLsb' 25 4 = 4#4 then
    checked (.vslide (w.extractLsb' 7 5) (w.extractLsb' 15 5) (w.extractLsb' 29 3) (w.extractLsb' 20 5))
  else if w.extractLsb' 25 4 = 5#4 then
    if w.extractLsb' 20 5 == 0#5 then
      checked (.vsplat (w.extractLsb' 7 5) (w.extractLsb' 15 5) (w.extractLsb' 29 3))
    else .error .noSelector
  else if w.extractLsb' 25 4 = 6#4 then
    checked (.vins (w.extractLsb' 7 5) (w.extractLsb' 15 5) (w.extractLsb' 20 5) (w.extractLsb' 29 3))
  else if w.extractLsb' 25 4 = 7#4 then
    checked (.vext (w.extractLsb' 7 5) (w.extractLsb' 15 5) (w.extractLsb' 20 5) (w.extractLsb' 29 3))
  else .error .noSelector

/-- custom-1 words with funct3 5 (R199). -/
def decodeCustom1F5 (w : Word32) : Except Reject Instr :=
  if w.extractLsb' 25 4 = 0#4 then
    if w.extractLsb' 20 5 == 0#5 then
      checked (.vld (w.extractLsb' 7 5) (w.extractLsb' 15 5) (w.extractLsb' 29 3))
    else .error .noSelector
  else if w.extractLsb' 25 4 = 1#4 then
    checked (.vlds (w.extractLsb' 7 5) (w.extractLsb' 15 5) (w.extractLsb' 20 5) (w.extractLsb' 29 3))
  else if w.extractLsb' 25 4 = 2#4 then
    checked (.vldx (w.extractLsb' 7 5) (w.extractLsb' 15 5) (w.extractLsb' 20 5) (w.extractLsb' 29 3))
  else if w.extractLsb' 25 4 = 3#4 then
    if w.extractLsb' 20 5 == 0#5 then
      checked (.vldb (w.extractLsb' 7 5) (w.extractLsb' 15 5) (w.extractLsb' 29 3))
    else .error .noSelector
  else if w.extractLsb' 25 4 = 4#4 then
    checked (.vldq (w.extractLsb' 7 5) (w.extractLsb' 15 5) (w.extractLsb' 20 5) (w.extractLsb' 29 3))
  else .error .noSelector

/-- custom-1 words with funct3 6 (R199). -/
def decodeCustom1F6 (w : Word32) : Except Reject Instr :=
  if w.extractLsb' 25 4 = 0#4 then
    if w.extractLsb' 20 5 == 0#5 then
      checked (.vst (w.extractLsb' 7 5) (w.extractLsb' 15 5) (w.extractLsb' 29 3))
    else .error .noSelector
  else if w.extractLsb' 25 4 = 1#4 then
    checked (.vsts (w.extractLsb' 7 5) (w.extractLsb' 15 5) (w.extractLsb' 20 5) (w.extractLsb' 29 3))
  else if w.extractLsb' 25 4 = 2#4 then
    checked (.vstx (w.extractLsb' 7 5) (w.extractLsb' 15 5) (w.extractLsb' 20 5) (w.extractLsb' 29 3))
  else .error .noSelector

/-- custom-1 words with funct3 7 (R199). -/
def decodeCustom1F7 (w : Word32) : Except Reject Instr :=
  if w.extractLsb' 25 2 = 0#2 then
    checked (.vfma (w.extractLsb' 7 5) (w.extractLsb' 15 5) (w.extractLsb' 20 5) (w.extractLsb' 27 5))
  else if w.extractLsb' 25 2 = 1#2 then
    checked (.vfms (w.extractLsb' 7 5) (w.extractLsb' 15 5) (w.extractLsb' 20 5) (w.extractLsb' 27 5))
  else if w.extractLsb' 25 2 = 2#2 then
    checked (.vfnma (w.extractLsb' 7 5) (w.extractLsb' 15 5) (w.extractLsb' 20 5) (w.extractLsb' 27 5))
  else if w.extractLsb' 25 2 = 3#2 then
    checked (.vfnms (w.extractLsb' 7 5) (w.extractLsb' 15 5) (w.extractLsb' 20 5) (w.extractLsb' 27 5))
  else .error .noSelector

/-- The custom-1 space (R199). -/
def decodeCustom1 (w : Word32) : Except Reject Instr :=
  if w.extractLsb' 12 3 = 0#3 then decodeCustom1F0 w
  else if w.extractLsb' 12 3 = 1#3 then decodeCustom1F1 w
  else if w.extractLsb' 12 3 = 2#3 then decodeCustom1F2 w
  else if w.extractLsb' 12 3 = 3#3 then decodeCustom1F3 w
  else if w.extractLsb' 12 3 = 4#3 then decodeCustom1F4 w
  else if w.extractLsb' 12 3 = 5#3 then decodeCustom1F5 w
  else if w.extractLsb' 12 3 = 6#3 then decodeCustom1F6 w
  else if w.extractLsb' 12 3 = 7#3 then decodeCustom1F7 w
  else .error .noSelector

/-- custom-2 words with funct3 0 (R199). -/
noncomputable def decodeCustom2F0 (w : Word32) : Except Reject Instr :=
  if w.extractLsb' 28 4 = 0#4 then
    if w.extractLsb' 7 5 == 0#5 && w.extractLsb' 15 5 == 0#5 && w.extractLsb' 21 3 == 0#3 then
      checked (.mmTile (w.extractLsb' 26 2) (w.extractLsb' 24 2) (w.extractLsb' 20 1 == 1#1))
    else .error .noSelector
  else if w.extractLsb' 28 4 = 1#4 then
    if w.extractLsb' 7 5 == 0#5 && w.extractLsb' 15 5 == 0#5 && w.extractLsb' 20 4 == 0#4 then
      checked (.mmZero (w.extractLsb' 26 2) (w.extractLsb' 24 2))
    else .error .noSelector
  else if w.extractLsb' 28 4 = 2#4 then
    if w.extractLsb' 7 5 == 0#5 && w.extractLsb' 15 5 == 0#5 && w.extractLsb' 20 5 == 0#5 && w.extractLsb' 25 3 == 0#3 then
      checked .mmWait
    else .error .noSelector
  else .error .noSelector

/-- custom-2 words with funct3 1 (R199). -/
noncomputable def decodeCustom2F1 (w : Word32) : Except Reject Instr :=
  if w.extractLsb' 28 4 = 0#4 then
    checked (.mmDrain (w.extractLsb' 15 5) (w.extractLsb' 7 5) (w.extractLsb' 26 2) (w.extractLsb' 24 2) (w.extractLsb' 23 1 == 1#1) (w.extractLsb' 20 3))
  else if w.extractLsb' 28 4 = 1#4 then
    if w.extractLsb' 23 1 == 0#1 then
      checked (.mmLoad (w.extractLsb' 15 5) (w.extractLsb' 7 5) (w.extractLsb' 26 2) (w.extractLsb' 24 2) (w.extractLsb' 20 3))
    else .error .noSelector
  else if w.extractLsb' 28 4 = 2#4 then
    if w.extractLsb' 21 3 == 0#3 && w.extractLsb' 26 2 == 0#2 then
      checked (.mmMset (w.extractLsb' 15 5) (w.extractLsb' 7 5) (w.extractLsb' 24 2) (w.extractLsb' 20 1 == 1#1))
    else .error .noSelector
  else if w.extractLsb' 28 4 = 3#4 then
    if w.extractLsb' 7 5 == 0#5 && w.extractLsb' 15 5 == 0#5 && w.extractLsb' 22 2 == 0#2 then
      checked (.mmTostrm (w.extractLsb' 26 2) (w.extractLsb' 24 2) (w.extractLsb' 21 1 == 1#1) (w.extractLsb' 20 1))
    else .error .noSelector
  else .error .noSelector

/-- custom-2 words with funct3 2 (R199). -/
noncomputable def decodeCustom2F2 (w : Word32) : Except Reject Instr :=
  if w.extractLsb' 25 7 = 0#7 then
    if w.extractLsb' 7 5 == 0#5 && w.extractLsb' 21 4 == 0#4 then
      checked (.stBind (w.extractLsb' 15 5) (w.extractLsb' 20 1))
    else .error .noSelector
  else if w.extractLsb' 25 7 = 8#7 then
    if w.extractLsb' 7 5 == 0#5 && w.extractLsb' 24 1 == 0#1 then
      checked (.stFill (w.extractLsb' 15 5) (w.extractLsb' 21 3) (w.extractLsb' 20 1))
    else .error .noSelector
  else if w.extractLsb' 25 7 = 16#7 then
    if w.extractLsb' 21 4 == 0#4 then
      checked (.stSkip (w.extractLsb' 7 5) (w.extractLsb' 15 5) (w.extractLsb' 20 1))
    else .error .noSelector
  else if w.extractLsb' 25 7 = 24#7 then
    if w.extractLsb' 15 5 == 0#5 && w.extractLsb' 21 4 == 0#4 then
      checked (.stStat (w.extractLsb' 7 5) (w.extractLsb' 20 1))
    else .error .noSelector
  else if w.extractLsb' 25 7 = 32#7 then
    if w.extractLsb' 7 5 == 0#5 && w.extractLsb' 15 5 == 0#5 && w.extractLsb' 21 4 == 0#4 then
      checked (.stFlush (w.extractLsb' 20 1))
    else .error .noSelector
  else .error .noSelector

/-- custom-2 words with funct3 3 (R199). -/
noncomputable def decodeCustom2F3 (w : Word32) : Except Reject Instr :=
  if w.extractLsb' 25 7 = 0#7 then
    checked (.cpGet (w.extractLsb' 7 5) (w.extractLsb' 15 5) (w.extractLsb' 20 5))
  else if w.extractLsb' 25 7 = 8#7 then
    checked (.cpPut (w.extractLsb' 7 5) (w.extractLsb' 15 5) (w.extractLsb' 20 5))
  else if w.extractLsb' 25 7 = 16#7 then
    checked (.cpXfer (w.extractLsb' 7 5) (w.extractLsb' 15 5) (w.extractLsb' 20 5))
  else if w.extractLsb' 25 7 = 24#7 then
    checked (.cpFeed (w.extractLsb' 7 5) (w.extractLsb' 15 5) (w.extractLsb' 20 5))
  else if w.extractLsb' 25 7 = 32#7 then
    if w.extractLsb' 20 5 == 0#5 then
      checked (.cpMcast (w.extractLsb' 7 5) (w.extractLsb' 15 5))
    else .error .noSelector
  else if w.extractLsb' 25 7 = 40#7 then
    checked (.cpFill (w.extractLsb' 7 5) (w.extractLsb' 15 5) (w.extractLsb' 20 5))
  else if w.extractLsb' 25 7 = 48#7 then
    checked (.cpGath (w.extractLsb' 7 5) (w.extractLsb' 15 5) (w.extractLsb' 20 5))
  else if w.extractLsb' 25 7 = 56#7 then
    checked (.cpScat (w.extractLsb' 7 5) (w.extractLsb' 15 5) (w.extractLsb' 20 5))
  else if w.extractLsb' 25 7 = 64#7 then
    checked (.cpAtom (w.extractLsb' 7 5) (w.extractLsb' 15 5) (w.extractLsb' 20 5))
  else if w.extractLsb' 25 7 = 72#7 then
    checked (.cpStat (w.extractLsb' 7 5) (w.extractLsb' 15 5) (w.extractLsb' 20 5))
  else if w.extractLsb' 25 7 = 80#7 then
    if w.extractLsb' 20 5 == 0#5 then
      checked (.cpCancel (w.extractLsb' 7 5) (w.extractLsb' 15 5))
    else .error .noSelector
  else .error .noSelector

/-- custom-2 words with funct3 4 (R199). -/
noncomputable def decodeCustom2F4 (w : Word32) : Except Reject Instr :=
  if w.extractLsb' 25 7 = 0#7 then
    checked (.bufMap (w.extractLsb' 7 5) (w.extractLsb' 15 5) (w.extractLsb' 20 5))
  else if w.extractLsb' 25 7 = 8#7 then
    if w.extractLsb' 20 5 == 0#5 then
      checked (.bufUnmap (w.extractLsb' 7 5) (w.extractLsb' 15 5))
    else .error .noSelector
  else if w.extractLsb' 25 7 = 16#7 then
    checked (.bufShadow (w.extractLsb' 7 5) (w.extractLsb' 15 5) (w.extractLsb' 20 5))
  else if w.extractLsb' 25 7 = 24#7 then
    if w.extractLsb' 20 5 == 0#5 then
      checked (.bufPub (w.extractLsb' 7 5) (w.extractLsb' 15 5))
    else .error .noSelector
  else .error .noSelector

/-- The custom-2 space (R199). -/
noncomputable def decodeCustom2 (w : Word32) : Except Reject Instr :=
  if w.extractLsb' 12 3 = 0#3 then decodeCustom2F0 w
  else if w.extractLsb' 12 3 = 1#3 then decodeCustom2F1 w
  else if w.extractLsb' 12 3 = 2#3 then decodeCustom2F2 w
  else if w.extractLsb' 12 3 = 3#3 then decodeCustom2F3 w
  else if w.extractLsb' 12 3 = 4#3 then decodeCustom2F4 w
  else .error .noSelector

/-- custom-3 words with funct3 0 (R199). -/
noncomputable def decodeCustom3F0 (w : Word32) : Except Reject Instr :=
  if w.extractLsb' 25 7 = 0#7 then
    if w.extractLsb' 10 2 == 0#2 && w.extractLsb' 15 5 == 0#5 && w.extractLsb' 20 5 == 0#5 then
      checked (.statInit (w.extractLsb' 7 3))
    else .error .noSelector
  else if w.extractLsb' 25 7 = 8#7 then
    if w.extractLsb' 10 2 == 0#2 && w.extractLsb' 20 5 == 0#5 then
      checked (.statUpd (w.extractLsb' 7 3) (w.extractLsb' 15 5))
    else .error .noSelector
  else if w.extractLsb' 25 7 = 16#7 then
    if w.extractLsb' 10 2 == 0#2 then
      checked (.statUpdw (w.extractLsb' 7 3) (w.extractLsb' 15 5) (w.extractLsb' 20 5))
    else .error .noSelector
  else if w.extractLsb' 25 7 = 24#7 then
    if w.extractLsb' 10 2 == 0#2 && w.extractLsb' 18 2 == 0#2 && w.extractLsb' 23 2 == 0#2 then
      checked (.statMerge (w.extractLsb' 7 3) (w.extractLsb' 15 3) (w.extractLsb' 20 3))
    else .error .noSelector
  else if w.extractLsb' 25 7 = 32#7 then
    if w.extractLsb' 10 2 == 0#2 && w.extractLsb' 20 5 == 0#5 then
      checked (.statLd (w.extractLsb' 7 3) (w.extractLsb' 15 5))
    else .error .noSelector
  else if w.extractLsb' 25 7 = 40#7 then
    if w.extractLsb' 7 5 == 0#5 && w.extractLsb' 23 2 == 0#2 then
      checked (.statSt (w.extractLsb' 15 5) (w.extractLsb' 20 3))
    else .error .noSelector
  else .error .noSelector

/-- custom-3 words with funct3 1 (R199). -/
noncomputable def decodeCustom3F1 (w : Word32) : Except Reject Instr :=
  if w.extractLsb' 28 4 = 0#4 then
    if w.extractLsb' 10 2 == 0#2 && w.extractLsb' 20 5 == 0#5 && w.extractLsb' 27 1 == 0#1 then
      checked (.vstatUpd (w.extractLsb' 7 3) (w.extractLsb' 15 5) (w.extractLsb' 25 2))
    else .error .noSelector
  else if w.extractLsb' 28 4 = 1#4 then
    if w.extractLsb' 10 2 == 0#2 && w.extractLsb' 27 1 == 0#1 then
      checked (.vstatUpdw (w.extractLsb' 7 3) (w.extractLsb' 15 5) (w.extractLsb' 20 5) (w.extractLsb' 25 2))
    else .error .noSelector
  else if w.extractLsb' 28 4 = 2#4 then
    if w.extractLsb' 18 2 == 0#2 then
      checked (.statDrain (w.extractLsb' 7 5) (w.extractLsb' 15 3) (w.extractLsb' 20 5) (w.extractLsb' 25 3))
    else .error .noSelector
  else if w.extractLsb' 28 4 = 3#4 then
    if w.extractLsb' 20 1 == 0#1 && w.extractLsb' 27 1 == 0#1 then
      checked (.vstatNorm (w.extractLsb' 7 5) (w.extractLsb' 15 5) (w.extractLsb' 25 2) (w.extractLsb' 21 4))
    else .error .noSelector
  else .error .noSelector

/-- custom-3 words with funct3 2 (R199). -/
noncomputable def decodeCustom3F2 (w : Word32) : Except Reject Instr :=
  if w.extractLsb' 27 5 = 0#5 then
    if w.extractLsb' 20 5 == 0#5 && w.extractLsb' 25 2 == 0#2 then
      checked (.cycOpen (w.extractLsb' 7 5) (w.extractLsb' 15 5))
    else .error .noSelector
  else if w.extractLsb' 27 5 = 2#5 then
    if w.extractLsb' 25 2 == 0#2 then
      checked (.cycFreeze (w.extractLsb' 7 5) (w.extractLsb' 15 5) (w.extractLsb' 20 5))
    else .error .noSelector
  else if w.extractLsb' 27 5 = 4#5 then
    if w.extractLsb' 20 5 == 0#5 && w.extractLsb' 25 2 == 0#2 then
      checked (.cycIter (w.extractLsb' 7 5) (w.extractLsb' 15 5))
    else .error .noSelector
  else if w.extractLsb' 27 5 = 6#5 then
    if w.extractLsb' 7 5 == 0#5 && w.extractLsb' 23 2 == 0#2 && w.extractLsb' 25 2 == 0#2 then
      checked (.cycRes (w.extractLsb' 15 5) (w.extractLsb' 20 3))
    else .error .noSelector
  else if w.extractLsb' 27 5 = 8#5 then
    if w.extractLsb' 7 5 == 0#5 && w.extractLsb' 25 2 == 0#2 then
      checked (.cycPass (w.extractLsb' 15 5) (w.extractLsb' 20 5))
    else .error .noSelector
  else if w.extractLsb' 27 5 = 10#5 then
    if w.extractLsb' 20 5 == 0#5 && w.extractLsb' 25 2 == 0#2 then
      checked (.cycTake (w.extractLsb' 7 5) (w.extractLsb' 15 5))
    else .error .noSelector
  else if w.extractLsb' 27 5 = 12#5 then
    if w.extractLsb' 20 5 == 0#5 && w.extractLsb' 25 2 == 0#2 then
      checked (.cycNext (w.extractLsb' 7 5) (w.extractLsb' 15 5))
    else .error .noSelector
  else if w.extractLsb' 27 5 = 14#5 then
    if w.extractLsb' 7 5 == 0#5 && w.extractLsb' 25 2 == 0#2 then
      checked (.cycBwd (w.extractLsb' 15 5) (w.extractLsb' 20 5))
    else .error .noSelector
  else if w.extractLsb' 27 5 = 16#5 then
    if w.extractLsb' 20 5 == 0#5 then
      checked (.cycStat (w.extractLsb' 7 5) (w.extractLsb' 15 5) (w.extractLsb' 25 2))
    else .error .noSelector
  else if w.extractLsb' 27 5 = 18#5 then
    if w.extractLsb' 7 5 == 0#5 && w.extractLsb' 20 5 == 0#5 && w.extractLsb' 25 2 == 0#2 then
      checked (.cycClose (w.extractLsb' 15 5))
    else .error .noSelector
  else if w.extractLsb' 27 5 = 20#5 then
    if w.extractLsb' 7 5 == 0#5 && w.extractLsb' 20 5 == 0#5 && w.extractLsb' 25 2 == 0#2 then
      checked (.cycAbort (w.extractLsb' 15 5))
    else .error .noSelector
  else .error .noSelector

/-- custom-3 words with funct3 3 (R199). -/
noncomputable def decodeCustom3F3 (w : Word32) : Except Reject Instr :=
  if w.extractLsb' 25 7 = 0#7 then
    checked (.clLoad (w.extractLsb' 7 5) (w.extractLsb' 15 5) (w.extractLsb' 20 5))
  else if w.extractLsb' 25 7 = 8#7 then
    checked (.clRun (w.extractLsb' 7 5) (w.extractLsb' 15 5) (w.extractLsb' 20 5))
  else if w.extractLsb' 25 7 = 16#7 then
    if w.extractLsb' 20 5 == 0#5 then
      checked (.clWait (w.extractLsb' 7 5) (w.extractLsb' 15 5))
    else .error .noSelector
  else if w.extractLsb' 25 7 = 24#7 then
    if w.extractLsb' 7 5 == 0#5 && w.extractLsb' 20 5 == 0#5 then
      checked (.clCancel (w.extractLsb' 15 5))
    else .error .noSelector
  else if w.extractLsb' 25 7 = 32#7 then
    checked (.clGrp (w.extractLsb' 7 5) (w.extractLsb' 15 5) (w.extractLsb' 20 5))
  else if w.extractLsb' 25 7 = 40#7 then
    checked (.clJoin (w.extractLsb' 7 5) (w.extractLsb' 15 5) (w.extractLsb' 20 5))
  else if w.extractLsb' 25 7 = 48#7 then
    checked (.clLeave (w.extractLsb' 7 5) (w.extractLsb' 15 5) (w.extractLsb' 20 5))
  else if w.extractLsb' 25 7 = 56#7 then
    if w.extractLsb' 7 5 == 0#5 && w.extractLsb' 20 5 == 0#5 then
      checked (.clPause (w.extractLsb' 15 5))
    else .error .noSelector
  else if w.extractLsb' 25 7 = 64#7 then
    if w.extractLsb' 7 5 == 0#5 && w.extractLsb' 20 5 == 0#5 then
      checked (.clResume (w.extractLsb' 15 5))
    else .error .noSelector
  else .error .noSelector

/-- The custom-3 space (R199). -/
noncomputable def decodeCustom3 (w : Word32) : Except Reject Instr :=
  if w.extractLsb' 12 3 = 0#3 then decodeCustom3F0 w
  else if w.extractLsb' 12 3 = 1#3 then decodeCustom3F1 w
  else if w.extractLsb' 12 3 = 2#3 then decodeCustom3F2 w
  else if w.extractLsb' 12 3 = 3#3 then decodeCustom3F3 w
  else .error .noSelector

/-- The 32-bit words (R191, R195, R199, R200). -/
noncomputable def decode32 (w : Word32) : Except Reject Instr :=
  if w.extractLsb' 0 7 = 55#7 then decodeLui w
  else if w.extractLsb' 0 7 = 23#7 then decodeAuipc w
  else if w.extractLsb' 0 7 = 111#7 then decodeJal w
  else if w.extractLsb' 0 7 = 103#7 then decodeJalr w
  else if w.extractLsb' 0 7 = 99#7 then decodeBranch w
  else if w.extractLsb' 0 7 = 3#7 then decodeLoad w
  else if w.extractLsb' 0 7 = 35#7 then decodeStore w
  else if w.extractLsb' 0 7 = 19#7 then decodeOpImm w
  else if w.extractLsb' 0 7 = 27#7 then decodeOpImm32 w
  else if w.extractLsb' 0 7 = 51#7 then decodeOp w
  else if w.extractLsb' 0 7 = 59#7 then decodeOp32 w
  else if w.extractLsb' 0 7 = 15#7 then decodeMiscMem w
  else if w.extractLsb' 0 7 = 115#7 then decodeSystem w
  else if w.extractLsb' 0 7 = 47#7 then decodeAmo w
  else if w.extractLsb' 0 7 = 83#7 then decodeOpFp w
  else if w.extractLsb' 0 7 = 67#7 then decodeFmadd w
  else if w.extractLsb' 0 7 = 71#7 then decodeFmsub w
  else if w.extractLsb' 0 7 = 75#7 then decodeFnmsub w
  else if w.extractLsb' 0 7 = 79#7 then decodeFnmadd w
  else if w.extractLsb' 0 7 = 11#7 then decodeCustom0 w
  else if w.extractLsb' 0 7 = 43#7 then decodeCustom1 w
  else if w.extractLsb' 0 7 = 91#7 then decodeCustom2 w
  else if w.extractLsb' 0 7 = 123#7 then decodeCustom3 w
  else if w.extractLsb' 2 3 = 7#3 then .error .longEncoding
  else .error .noMajorOpcode

/-- The register that a 3-bit compressed field names: x8 to x15. -/
def creg (r : BitVec 3) : Reg := 1#2 ++ r

/-- Quadrant 00 of Zca (R191). -/
def decodeQ0 (h : BitVec 16) : Except Reject Instr :=
  if h = 0#16 then .error .zeroHalfword
  else if h.extractLsb' 13 3 = 0#3 then
    checked (.cAddi4spn (h.extractLsb' 2 3) (h.extractLsb' 7 4 ++ h.extractLsb' 11 2 ++ h.extractLsb' 5 1 ++ h.extractLsb' 6 1))
  else if h.extractLsb' 13 3 = 2#3 then
    checked (.cLw (h.extractLsb' 2 3) (h.extractLsb' 7 3) (h.extractLsb' 5 1 ++ h.extractLsb' 10 3 ++ h.extractLsb' 6 1))
  else if h.extractLsb' 13 3 = 3#3 then
    checked (.cLd (h.extractLsb' 2 3) (h.extractLsb' 7 3) (h.extractLsb' 5 2 ++ h.extractLsb' 10 3))
  else if h.extractLsb' 13 3 = 6#3 then
    checked (.cSw (h.extractLsb' 7 3) (h.extractLsb' 2 3) (h.extractLsb' 5 1 ++ h.extractLsb' 10 3 ++ h.extractLsb' 6 1))
  else if h.extractLsb' 13 3 = 7#3 then
    checked (.cSd (h.extractLsb' 7 3) (h.extractLsb' 2 3) (h.extractLsb' 5 2 ++ h.extractLsb' 10 3))
  else .error .noSelector

/-- Quadrant 01, funct3 100: the register and immediate arithmetic of Zca. -/
def decodeQ1Arith (h : BitVec 16) : Except Reject Instr :=
  if h.extractLsb' 10 2 = 0#2 then checked (.cSrli (h.extractLsb' 7 3) (h.extractLsb' 12 1 ++ h.extractLsb' 2 5))
  else if h.extractLsb' 10 2 = 1#2 then checked (.cSrai (h.extractLsb' 7 3) (h.extractLsb' 12 1 ++ h.extractLsb' 2 5))
  else if h.extractLsb' 10 2 = 2#2 then checked (.cAndi (h.extractLsb' 7 3) (h.extractLsb' 12 1 ++ h.extractLsb' 2 5))
  else if h.extractLsb' 12 1 = 0#1 then
    if h.extractLsb' 5 2 = 0#2 then checked (.cSub (h.extractLsb' 7 3) (h.extractLsb' 2 3))
    else if h.extractLsb' 5 2 = 1#2 then checked (.cXor (h.extractLsb' 7 3) (h.extractLsb' 2 3))
    else if h.extractLsb' 5 2 = 2#2 then checked (.cOr (h.extractLsb' 7 3) (h.extractLsb' 2 3))
    else checked (.cAnd (h.extractLsb' 7 3) (h.extractLsb' 2 3))
  else if h.extractLsb' 5 2 = 0#2 then checked (.cSubw (h.extractLsb' 7 3) (h.extractLsb' 2 3))
  else if h.extractLsb' 5 2 = 1#2 then checked (.cAddw (h.extractLsb' 7 3) (h.extractLsb' 2 3))
  else .error .noSelector

/-- Quadrant 01 of Zca (R191). -/
def decodeQ1 (h : BitVec 16) : Except Reject Instr :=
  if h.extractLsb' 13 3 = 0#3 then
    if h.extractLsb' 7 5 = 0#5 then checked (.cNop (h.extractLsb' 12 1 ++ h.extractLsb' 2 5))
    else checked (.cAddi (h.extractLsb' 7 5) (h.extractLsb' 12 1 ++ h.extractLsb' 2 5))
  else if h.extractLsb' 13 3 = 1#3 then checked (.cAddiw (h.extractLsb' 7 5) (h.extractLsb' 12 1 ++ h.extractLsb' 2 5))
  else if h.extractLsb' 13 3 = 2#3 then checked (.cLi (h.extractLsb' 7 5) (h.extractLsb' 12 1 ++ h.extractLsb' 2 5))
  else if h.extractLsb' 13 3 = 3#3 then
    if h.extractLsb' 7 5 = 2#5 then
      checked (.cAddi16sp (h.extractLsb' 12 1 ++ h.extractLsb' 3 2 ++ h.extractLsb' 5 1 ++ h.extractLsb' 2 1 ++ h.extractLsb' 6 1))
    else checked (.cLui (h.extractLsb' 7 5) (h.extractLsb' 12 1 ++ h.extractLsb' 2 5))
  else if h.extractLsb' 13 3 = 4#3 then decodeQ1Arith h
  else if h.extractLsb' 13 3 = 5#3 then
    checked (.cJ (h.extractLsb' 12 1 ++ h.extractLsb' 8 1 ++ h.extractLsb' 9 2 ++ h.extractLsb' 6 1 ++ h.extractLsb' 7 1
      ++ h.extractLsb' 2 1 ++ h.extractLsb' 11 1 ++ h.extractLsb' 3 3))
  else if h.extractLsb' 13 3 = 6#3 then
    checked (.cBeqz (h.extractLsb' 7 3)
      (h.extractLsb' 12 1 ++ h.extractLsb' 5 2 ++ h.extractLsb' 2 1 ++ h.extractLsb' 10 2 ++ h.extractLsb' 3 2))
  else
    checked (.cBnez (h.extractLsb' 7 3)
      (h.extractLsb' 12 1 ++ h.extractLsb' 5 2 ++ h.extractLsb' 2 1 ++ h.extractLsb' 10 2 ++ h.extractLsb' 3 2))

/-- Quadrant 10 of Zca (R191). -/
def decodeQ2 (h : BitVec 16) : Except Reject Instr :=
  if h.extractLsb' 13 3 = 0#3 then checked (.cSlli (h.extractLsb' 7 5) (h.extractLsb' 12 1 ++ h.extractLsb' 2 5))
  else if h.extractLsb' 13 3 = 2#3 then
    checked (.cLwsp (h.extractLsb' 7 5) (h.extractLsb' 2 2 ++ h.extractLsb' 12 1 ++ h.extractLsb' 4 3))
  else if h.extractLsb' 13 3 = 3#3 then
    checked (.cLdsp (h.extractLsb' 7 5) (h.extractLsb' 2 3 ++ h.extractLsb' 12 1 ++ h.extractLsb' 5 2))
  else if h.extractLsb' 13 3 = 4#3 then
    if h.extractLsb' 12 1 = 0#1 then
      if h.extractLsb' 2 5 = 0#5 then checked (.cJr (h.extractLsb' 7 5))
      else checked (.cMv (h.extractLsb' 7 5) (h.extractLsb' 2 5))
    else if h.extractLsb' 2 5 = 0#5 then
      if h.extractLsb' 7 5 = 0#5 then checked .cEbreak else checked (.cJalr (h.extractLsb' 7 5))
    else checked (.cAdd (h.extractLsb' 7 5) (h.extractLsb' 2 5))
  else if h.extractLsb' 13 3 = 6#3 then
    checked (.cSwsp (h.extractLsb' 2 5) (h.extractLsb' 7 2 ++ h.extractLsb' 9 4))
  else if h.extractLsb' 13 3 = 7#3 then
    checked (.cSdsp (h.extractLsb' 2 5) (h.extractLsb' 7 3 ++ h.extractLsb' 10 3))
  else .error .noSelector

/-- The 16-bit instructions (R191, R195). -/
def decode16 (h : BitVec 16) : Except Reject Instr :=
  if h.extractLsb' 0 2 = 0#2 then decodeQ0 h
  else if h.extractLsb' 0 2 = 1#2 then decodeQ1 h
  else if h.extractLsb' 0 2 = 2#2 then decodeQ2 h
  else .error .noSelector

/-- The words of an instruction: a halfword, a word, or nothing, for an event and for a word that is no instruction. -/
inductive Encoding
  | half (h : BitVec 16)
  | word (w : Word32)
  | none
  deriving DecidableEq, Repr

/-- The encoder, from the encoding tables of R191, R196 and R199 and the Zca formats. -/
def encode : Instr → Encoding
  | .lui rd imm => .word (imm ++ rd ++ 55#7)
  | .auipc rd imm => .word (imm ++ rd ++ 23#7)
  | .jal rd off => .word (off.extractLsb' 19 1 ++ off.extractLsb' 0 10 ++ off.extractLsb' 10 1 ++ off.extractLsb' 11 8 ++ rd ++ 111#7)
  | .jalr rd rs1 imm => .word (imm ++ rs1 ++ 0#3 ++ rd ++ 103#7)
  | .beq rs1 rs2 off => .word (off.extractLsb' 11 1 ++ off.extractLsb' 4 6 ++ rs2 ++ rs1 ++ 0#3 ++ off.extractLsb' 0 4 ++ off.extractLsb' 10 1 ++ 99#7)
  | .bne rs1 rs2 off => .word (off.extractLsb' 11 1 ++ off.extractLsb' 4 6 ++ rs2 ++ rs1 ++ 1#3 ++ off.extractLsb' 0 4 ++ off.extractLsb' 10 1 ++ 99#7)
  | .blt rs1 rs2 off => .word (off.extractLsb' 11 1 ++ off.extractLsb' 4 6 ++ rs2 ++ rs1 ++ 4#3 ++ off.extractLsb' 0 4 ++ off.extractLsb' 10 1 ++ 99#7)
  | .bge rs1 rs2 off => .word (off.extractLsb' 11 1 ++ off.extractLsb' 4 6 ++ rs2 ++ rs1 ++ 5#3 ++ off.extractLsb' 0 4 ++ off.extractLsb' 10 1 ++ 99#7)
  | .bltu rs1 rs2 off => .word (off.extractLsb' 11 1 ++ off.extractLsb' 4 6 ++ rs2 ++ rs1 ++ 6#3 ++ off.extractLsb' 0 4 ++ off.extractLsb' 10 1 ++ 99#7)
  | .bgeu rs1 rs2 off => .word (off.extractLsb' 11 1 ++ off.extractLsb' 4 6 ++ rs2 ++ rs1 ++ 7#3 ++ off.extractLsb' 0 4 ++ off.extractLsb' 10 1 ++ 99#7)
  | .lb rd rs1 imm => .word (imm ++ rs1 ++ 0#3 ++ rd ++ 3#7)
  | .lh rd rs1 imm => .word (imm ++ rs1 ++ 1#3 ++ rd ++ 3#7)
  | .lw rd rs1 imm => .word (imm ++ rs1 ++ 2#3 ++ rd ++ 3#7)
  | .ld rd rs1 imm => .word (imm ++ rs1 ++ 3#3 ++ rd ++ 3#7)
  | .lbu rd rs1 imm => .word (imm ++ rs1 ++ 4#3 ++ rd ++ 3#7)
  | .lhu rd rs1 imm => .word (imm ++ rs1 ++ 5#3 ++ rd ++ 3#7)
  | .lwu rd rs1 imm => .word (imm ++ rs1 ++ 6#3 ++ rd ++ 3#7)
  | .sb rs1 rs2 imm => .word (imm.extractLsb' 5 7 ++ rs2 ++ rs1 ++ 0#3 ++ imm.extractLsb' 0 5 ++ 35#7)
  | .sh rs1 rs2 imm => .word (imm.extractLsb' 5 7 ++ rs2 ++ rs1 ++ 1#3 ++ imm.extractLsb' 0 5 ++ 35#7)
  | .sw rs1 rs2 imm => .word (imm.extractLsb' 5 7 ++ rs2 ++ rs1 ++ 2#3 ++ imm.extractLsb' 0 5 ++ 35#7)
  | .sd rs1 rs2 imm => .word (imm.extractLsb' 5 7 ++ rs2 ++ rs1 ++ 3#3 ++ imm.extractLsb' 0 5 ++ 35#7)
  | .addi rd rs1 imm => .word (imm ++ rs1 ++ 0#3 ++ rd ++ 19#7)
  | .slti rd rs1 imm => .word (imm ++ rs1 ++ 2#3 ++ rd ++ 19#7)
  | .sltiu rd rs1 imm => .word (imm ++ rs1 ++ 3#3 ++ rd ++ 19#7)
  | .xori rd rs1 imm => .word (imm ++ rs1 ++ 4#3 ++ rd ++ 19#7)
  | .ori rd rs1 imm => .word (imm ++ rs1 ++ 6#3 ++ rd ++ 19#7)
  | .andi rd rs1 imm => .word (imm ++ rs1 ++ 7#3 ++ rd ++ 19#7)
  | .slli rd rs1 sh => .word (0#6 ++ sh ++ rs1 ++ 1#3 ++ rd ++ 19#7)
  | .srli rd rs1 sh => .word (0#6 ++ sh ++ rs1 ++ 5#3 ++ rd ++ 19#7)
  | .srai rd rs1 sh => .word (16#6 ++ sh ++ rs1 ++ 5#3 ++ rd ++ 19#7)
  | .addiw rd rs1 imm => .word (imm ++ rs1 ++ 0#3 ++ rd ++ 27#7)
  | .slliw rd rs1 sh => .word (0#7 ++ sh ++ rs1 ++ 1#3 ++ rd ++ 27#7)
  | .srliw rd rs1 sh => .word (0#7 ++ sh ++ rs1 ++ 5#3 ++ rd ++ 27#7)
  | .sraiw rd rs1 sh => .word (32#7 ++ sh ++ rs1 ++ 5#3 ++ rd ++ 27#7)
  | .add rd rs1 rs2 => .word (0#7 ++ rs2 ++ rs1 ++ 0#3 ++ rd ++ 51#7)
  | .sll rd rs1 rs2 => .word (0#7 ++ rs2 ++ rs1 ++ 1#3 ++ rd ++ 51#7)
  | .slt rd rs1 rs2 => .word (0#7 ++ rs2 ++ rs1 ++ 2#3 ++ rd ++ 51#7)
  | .sltu rd rs1 rs2 => .word (0#7 ++ rs2 ++ rs1 ++ 3#3 ++ rd ++ 51#7)
  | .xor rd rs1 rs2 => .word (0#7 ++ rs2 ++ rs1 ++ 4#3 ++ rd ++ 51#7)
  | .srl rd rs1 rs2 => .word (0#7 ++ rs2 ++ rs1 ++ 5#3 ++ rd ++ 51#7)
  | .or rd rs1 rs2 => .word (0#7 ++ rs2 ++ rs1 ++ 6#3 ++ rd ++ 51#7)
  | .and rd rs1 rs2 => .word (0#7 ++ rs2 ++ rs1 ++ 7#3 ++ rd ++ 51#7)
  | .sub rd rs1 rs2 => .word (32#7 ++ rs2 ++ rs1 ++ 0#3 ++ rd ++ 51#7)
  | .sra rd rs1 rs2 => .word (32#7 ++ rs2 ++ rs1 ++ 5#3 ++ rd ++ 51#7)
  | .mul rd rs1 rs2 => .word (1#7 ++ rs2 ++ rs1 ++ 0#3 ++ rd ++ 51#7)
  | .mulh rd rs1 rs2 => .word (1#7 ++ rs2 ++ rs1 ++ 1#3 ++ rd ++ 51#7)
  | .mulhsu rd rs1 rs2 => .word (1#7 ++ rs2 ++ rs1 ++ 2#3 ++ rd ++ 51#7)
  | .mulhu rd rs1 rs2 => .word (1#7 ++ rs2 ++ rs1 ++ 3#3 ++ rd ++ 51#7)
  | .div rd rs1 rs2 => .word (1#7 ++ rs2 ++ rs1 ++ 4#3 ++ rd ++ 51#7)
  | .divu rd rs1 rs2 => .word (1#7 ++ rs2 ++ rs1 ++ 5#3 ++ rd ++ 51#7)
  | .rem rd rs1 rs2 => .word (1#7 ++ rs2 ++ rs1 ++ 6#3 ++ rd ++ 51#7)
  | .remu rd rs1 rs2 => .word (1#7 ++ rs2 ++ rs1 ++ 7#3 ++ rd ++ 51#7)
  | .addw rd rs1 rs2 => .word (0#7 ++ rs2 ++ rs1 ++ 0#3 ++ rd ++ 59#7)
  | .sllw rd rs1 rs2 => .word (0#7 ++ rs2 ++ rs1 ++ 1#3 ++ rd ++ 59#7)
  | .srlw rd rs1 rs2 => .word (0#7 ++ rs2 ++ rs1 ++ 5#3 ++ rd ++ 59#7)
  | .subw rd rs1 rs2 => .word (32#7 ++ rs2 ++ rs1 ++ 0#3 ++ rd ++ 59#7)
  | .sraw rd rs1 rs2 => .word (32#7 ++ rs2 ++ rs1 ++ 5#3 ++ rd ++ 59#7)
  | .mulw rd rs1 rs2 => .word (1#7 ++ rs2 ++ rs1 ++ 0#3 ++ rd ++ 59#7)
  | .divw rd rs1 rs2 => .word (1#7 ++ rs2 ++ rs1 ++ 4#3 ++ rd ++ 59#7)
  | .divuw rd rs1 rs2 => .word (1#7 ++ rs2 ++ rs1 ++ 5#3 ++ rd ++ 59#7)
  | .remw rd rs1 rs2 => .word (1#7 ++ rs2 ++ rs1 ++ 6#3 ++ rd ++ 59#7)
  | .remuw rd rs1 rs2 => .word (1#7 ++ rs2 ++ rs1 ++ 7#3 ++ rd ++ 59#7)
  | .fence rd rs1 pred succ => .word (0#4 ++ pred ++ succ ++ rs1 ++ 0#3 ++ rd ++ 15#7)
  | .fenceTso rd rs1 pred succ => .word (8#4 ++ pred ++ succ ++ rs1 ++ 0#3 ++ rd ++ 15#7)
  | .fenceI rd rs1 imm => .word (imm ++ rs1 ++ 1#3 ++ rd ++ 15#7)
  | .ecall => .word (0#7 ++ 0#5 ++ 0#5 ++ 0#3 ++ 0#5 ++ 115#7)
  | .ebreak => .word (0#7 ++ 1#5 ++ 0#5 ++ 0#3 ++ 0#5 ++ 115#7)
  | .wfi => .word (8#7 ++ 5#5 ++ 0#5 ++ 0#3 ++ 0#5 ++ 115#7)
  | .csrrw rd rs1 csr => .word (csr ++ rs1 ++ 1#3 ++ rd ++ 115#7)
  | .csrrs rd rs1 csr => .word (csr ++ rs1 ++ 2#3 ++ rd ++ 115#7)
  | .csrrc rd rs1 csr => .word (csr ++ rs1 ++ 3#3 ++ rd ++ 115#7)
  | .csrrwi rd csr uimm => .word (csr ++ uimm ++ 5#3 ++ rd ++ 115#7)
  | .csrrsi rd csr uimm => .word (csr ++ uimm ++ 6#3 ++ rd ++ 115#7)
  | .csrrci rd csr uimm => .word (csr ++ uimm ++ 7#3 ++ rd ++ 115#7)
  | .lr rd rs1 aq rl dbl => .word (2#5 ++ BitVec.ofBool aq ++ BitVec.ofBool rl ++ 0#5 ++ rs1 ++ 1#2 ++ BitVec.ofBool dbl ++ rd ++ 47#7)
  | .sc rd rs1 rs2 aq rl dbl => .word (3#5 ++ BitVec.ofBool aq ++ BitVec.ofBool rl ++ rs2 ++ rs1 ++ 1#2 ++ BitVec.ofBool dbl ++ rd ++ 47#7)
  | .amoswap rd rs1 rs2 aq rl dbl => .word (1#5 ++ BitVec.ofBool aq ++ BitVec.ofBool rl ++ rs2 ++ rs1 ++ 1#2 ++ BitVec.ofBool dbl ++ rd ++ 47#7)
  | .amoadd rd rs1 rs2 aq rl dbl => .word (0#5 ++ BitVec.ofBool aq ++ BitVec.ofBool rl ++ rs2 ++ rs1 ++ 1#2 ++ BitVec.ofBool dbl ++ rd ++ 47#7)
  | .amoxor rd rs1 rs2 aq rl dbl => .word (4#5 ++ BitVec.ofBool aq ++ BitVec.ofBool rl ++ rs2 ++ rs1 ++ 1#2 ++ BitVec.ofBool dbl ++ rd ++ 47#7)
  | .amoand rd rs1 rs2 aq rl dbl => .word (12#5 ++ BitVec.ofBool aq ++ BitVec.ofBool rl ++ rs2 ++ rs1 ++ 1#2 ++ BitVec.ofBool dbl ++ rd ++ 47#7)
  | .amoor rd rs1 rs2 aq rl dbl => .word (8#5 ++ BitVec.ofBool aq ++ BitVec.ofBool rl ++ rs2 ++ rs1 ++ 1#2 ++ BitVec.ofBool dbl ++ rd ++ 47#7)
  | .amomin rd rs1 rs2 aq rl dbl => .word (16#5 ++ BitVec.ofBool aq ++ BitVec.ofBool rl ++ rs2 ++ rs1 ++ 1#2 ++ BitVec.ofBool dbl ++ rd ++ 47#7)
  | .amomax rd rs1 rs2 aq rl dbl => .word (20#5 ++ BitVec.ofBool aq ++ BitVec.ofBool rl ++ rs2 ++ rs1 ++ 1#2 ++ BitVec.ofBool dbl ++ rd ++ 47#7)
  | .amominu rd rs1 rs2 aq rl dbl => .word (24#5 ++ BitVec.ofBool aq ++ BitVec.ofBool rl ++ rs2 ++ rs1 ++ 1#2 ++ BitVec.ofBool dbl ++ rd ++ 47#7)
  | .amomaxu rd rs1 rs2 aq rl dbl => .word (28#5 ++ BitVec.ofBool aq ++ BitVec.ofBool rl ++ rs2 ++ rs1 ++ 1#2 ++ BitVec.ofBool dbl ++ rd ++ 47#7)
  | .faddS rd rs1 rs2 rm => .word (0#7 ++ rs2 ++ rs1 ++ rm ++ rd ++ 83#7)
  | .fsubS rd rs1 rs2 rm => .word (4#7 ++ rs2 ++ rs1 ++ rm ++ rd ++ 83#7)
  | .fmulS rd rs1 rs2 rm => .word (8#7 ++ rs2 ++ rs1 ++ rm ++ rd ++ 83#7)
  | .fdivS rd rs1 rs2 rm => .word (12#7 ++ rs2 ++ rs1 ++ rm ++ rd ++ 83#7)
  | .fsqrtS rd rs1 rm => .word (44#7 ++ 0#5 ++ rs1 ++ rm ++ rd ++ 83#7)
  | .fsgnjS rd rs1 rs2 => .word (16#7 ++ rs2 ++ rs1 ++ 0#3 ++ rd ++ 83#7)
  | .fsgnjnS rd rs1 rs2 => .word (16#7 ++ rs2 ++ rs1 ++ 1#3 ++ rd ++ 83#7)
  | .fsgnjxS rd rs1 rs2 => .word (16#7 ++ rs2 ++ rs1 ++ 2#3 ++ rd ++ 83#7)
  | .fminS rd rs1 rs2 => .word (20#7 ++ rs2 ++ rs1 ++ 0#3 ++ rd ++ 83#7)
  | .fmaxS rd rs1 rs2 => .word (20#7 ++ rs2 ++ rs1 ++ 1#3 ++ rd ++ 83#7)
  | .fleS rd rs1 rs2 => .word (80#7 ++ rs2 ++ rs1 ++ 0#3 ++ rd ++ 83#7)
  | .fltS rd rs1 rs2 => .word (80#7 ++ rs2 ++ rs1 ++ 1#3 ++ rd ++ 83#7)
  | .feqS rd rs1 rs2 => .word (80#7 ++ rs2 ++ rs1 ++ 2#3 ++ rd ++ 83#7)
  | .fcvtWS rd rs1 rm => .word (96#7 ++ 0#5 ++ rs1 ++ rm ++ rd ++ 83#7)
  | .fcvtWuS rd rs1 rm => .word (96#7 ++ 1#5 ++ rs1 ++ rm ++ rd ++ 83#7)
  | .fcvtLS rd rs1 rm => .word (96#7 ++ 2#5 ++ rs1 ++ rm ++ rd ++ 83#7)
  | .fcvtLuS rd rs1 rm => .word (96#7 ++ 3#5 ++ rs1 ++ rm ++ rd ++ 83#7)
  | .fcvtSW rd rs1 rm => .word (104#7 ++ 0#5 ++ rs1 ++ rm ++ rd ++ 83#7)
  | .fcvtSWu rd rs1 rm => .word (104#7 ++ 1#5 ++ rs1 ++ rm ++ rd ++ 83#7)
  | .fcvtSL rd rs1 rm => .word (104#7 ++ 2#5 ++ rs1 ++ rm ++ rd ++ 83#7)
  | .fcvtSLu rd rs1 rm => .word (104#7 ++ 3#5 ++ rs1 ++ rm ++ rd ++ 83#7)
  | .fclassS rd rs1 => .word (112#7 ++ 0#5 ++ rs1 ++ 1#3 ++ rd ++ 83#7)
  | .fmaddS rd rs1 rs2 rs3 rm => .word (rs3 ++ 0#2 ++ rs2 ++ rs1 ++ rm ++ rd ++ 67#7)
  | .fmsubS rd rs1 rs2 rs3 rm => .word (rs3 ++ 0#2 ++ rs2 ++ rs1 ++ rm ++ rd ++ 71#7)
  | .fnmsubS rd rs1 rs2 rs3 rm => .word (rs3 ++ 0#2 ++ rs2 ++ rs1 ++ rm ++ rd ++ 75#7)
  | .fnmaddS rd rs1 rs2 rs3 rm => .word (rs3 ++ 0#2 ++ rs2 ++ rs1 ++ rm ++ rd ++ 79#7)
  | .cAddi4spn rd imm => .half (0#3 ++ imm.extractLsb' 2 2 ++ imm.extractLsb' 4 4 ++ imm.extractLsb' 0 1 ++ imm.extractLsb' 1 1 ++ rd ++ 0#2)
  | .cLw rd rs1 imm => .half (2#3 ++ imm.extractLsb' 1 3 ++ rs1 ++ imm.extractLsb' 0 1 ++ imm.extractLsb' 4 1 ++ rd ++ 0#2)
  | .cLd rd rs1 imm => .half (3#3 ++ imm.extractLsb' 0 3 ++ rs1 ++ imm.extractLsb' 3 2 ++ rd ++ 0#2)
  | .cSw rs1 rs2 imm => .half (6#3 ++ imm.extractLsb' 1 3 ++ rs1 ++ imm.extractLsb' 0 1 ++ imm.extractLsb' 4 1 ++ rs2 ++ 0#2)
  | .cSd rs1 rs2 imm => .half (7#3 ++ imm.extractLsb' 0 3 ++ rs1 ++ imm.extractLsb' 3 2 ++ rs2 ++ 0#2)
  | .cAddi rd imm => .half (0#3 ++ imm.extractLsb' 5 1 ++ rd ++ imm.extractLsb' 0 5 ++ 1#2)
  | .cNop imm => .half (0#3 ++ imm.extractLsb' 5 1 ++ 0#5 ++ imm.extractLsb' 0 5 ++ 1#2)
  | .cAddiw rd imm => .half (1#3 ++ imm.extractLsb' 5 1 ++ rd ++ imm.extractLsb' 0 5 ++ 1#2)
  | .cLi rd imm => .half (2#3 ++ imm.extractLsb' 5 1 ++ rd ++ imm.extractLsb' 0 5 ++ 1#2)
  | .cAddi16sp imm => .half (3#3 ++ imm.extractLsb' 5 1 ++ 2#5 ++ imm.extractLsb' 0 1 ++ imm.extractLsb' 2 1 ++ imm.extractLsb' 3 2 ++ imm.extractLsb' 1 1 ++ 1#2)
  | .cLui rd imm => .half (3#3 ++ imm.extractLsb' 5 1 ++ rd ++ imm.extractLsb' 0 5 ++ 1#2)
  | .cSrli rd sh => .half (4#3 ++ sh.extractLsb' 5 1 ++ 0#2 ++ rd ++ sh.extractLsb' 0 5 ++ 1#2)
  | .cSrai rd sh => .half (4#3 ++ sh.extractLsb' 5 1 ++ 1#2 ++ rd ++ sh.extractLsb' 0 5 ++ 1#2)
  | .cAndi rd imm => .half (4#3 ++ imm.extractLsb' 5 1 ++ 2#2 ++ rd ++ imm.extractLsb' 0 5 ++ 1#2)
  | .cSub rd rs2 => .half (4#3 ++ 0#1 ++ 3#2 ++ rd ++ 0#2 ++ rs2 ++ 1#2)
  | .cXor rd rs2 => .half (4#3 ++ 0#1 ++ 3#2 ++ rd ++ 1#2 ++ rs2 ++ 1#2)
  | .cOr rd rs2 => .half (4#3 ++ 0#1 ++ 3#2 ++ rd ++ 2#2 ++ rs2 ++ 1#2)
  | .cAnd rd rs2 => .half (4#3 ++ 0#1 ++ 3#2 ++ rd ++ 3#2 ++ rs2 ++ 1#2)
  | .cSubw rd rs2 => .half (4#3 ++ 1#1 ++ 3#2 ++ rd ++ 0#2 ++ rs2 ++ 1#2)
  | .cAddw rd rs2 => .half (4#3 ++ 1#1 ++ 3#2 ++ rd ++ 1#2 ++ rs2 ++ 1#2)
  | .cJ off => .half (5#3 ++ off.extractLsb' 10 1 ++ off.extractLsb' 3 1 ++ off.extractLsb' 7 2 ++ off.extractLsb' 9 1 ++ off.extractLsb' 5 1 ++ off.extractLsb' 6 1 ++ off.extractLsb' 0 3 ++ off.extractLsb' 4 1 ++ 1#2)
  | .cBeqz rs1 off => .half (6#3 ++ off.extractLsb' 7 1 ++ off.extractLsb' 2 2 ++ rs1 ++ off.extractLsb' 5 2 ++ off.extractLsb' 0 2 ++ off.extractLsb' 4 1 ++ 1#2)
  | .cBnez rs1 off => .half (7#3 ++ off.extractLsb' 7 1 ++ off.extractLsb' 2 2 ++ rs1 ++ off.extractLsb' 5 2 ++ off.extractLsb' 0 2 ++ off.extractLsb' 4 1 ++ 1#2)
  | .cSlli rd sh => .half (0#3 ++ sh.extractLsb' 5 1 ++ rd ++ sh.extractLsb' 0 5 ++ 2#2)
  | .cLwsp rd imm => .half (2#3 ++ imm.extractLsb' 3 1 ++ rd ++ imm.extractLsb' 0 3 ++ imm.extractLsb' 4 2 ++ 2#2)
  | .cLdsp rd imm => .half (3#3 ++ imm.extractLsb' 2 1 ++ rd ++ imm.extractLsb' 0 2 ++ imm.extractLsb' 3 3 ++ 2#2)
  | .cJr rs1 => .half (4#3 ++ 0#1 ++ rs1 ++ 0#5 ++ 2#2)
  | .cMv rd rs2 => .half (4#3 ++ 0#1 ++ rd ++ rs2 ++ 2#2)
  | .cEbreak => .half (4#3 ++ 1#1 ++ 0#5 ++ 0#5 ++ 2#2)
  | .cJalr rs1 => .half (4#3 ++ 1#1 ++ rs1 ++ 0#5 ++ 2#2)
  | .cAdd rd rs2 => .half (4#3 ++ 1#1 ++ rd ++ rs2 ++ 2#2)
  | .cSwsp rs2 imm => .half (6#3 ++ imm.extractLsb' 0 4 ++ imm.extractLsb' 4 2 ++ rs2 ++ 2#2)
  | .cSdsp rs2 imm => .half (7#3 ++ imm.extractLsb' 0 3 ++ imm.extractLsb' 3 3 ++ rs2 ++ 2#2)
  | .illegalInstruction _ => .none
  | .batSpawn rd rs1 => .word (0#4 ++ 0#3 ++ 0#5 ++ rs1 ++ 0#3 ++ rd ++ 11#7)
  | .batSend rd rs1 rs2 => .word (1#4 ++ 0#3 ++ rs2 ++ rs1 ++ 0#3 ++ rd ++ 11#7)
  | .batSendR rd rs1 rs2 => .word (1#4 ++ 1#3 ++ rs2 ++ rs1 ++ 0#3 ++ rd ++ 11#7)
  | .batExit => .word (2#4 ++ 0#3 ++ 0#5 ++ 0#5 ++ 0#3 ++ 0#5 ++ 11#7)
  | .batYield rs1 => .word (3#4 ++ 0#3 ++ 0#5 ++ rs1 ++ 0#3 ++ 0#5 ++ 11#7)
  | .batPark rd rs1 rs2 => .word (4#4 ++ 0#3 ++ rs2 ++ rs1 ++ 0#3 ++ rd ++ 11#7)
  | .batWake rs1 => .word (5#4 ++ 0#3 ++ 0#5 ++ rs1 ++ 0#3 ++ 0#5 ++ 11#7)
  | .batRole rd rs1 => .word (6#4 ++ 0#3 ++ 0#5 ++ rs1 ++ 0#3 ++ rd ++ 11#7)
  | .batSelf rd sel => .word (7#4 ++ sel ++ 0#5 ++ 0#5 ++ 0#3 ++ rd ++ 11#7)
  | .hdInit rd rs1 rs2 flags => .word (0#4 ++ flags ++ rs2 ++ rs1 ++ 1#3 ++ rd ++ 11#7)
  | .hdArrive rs1 rs2 scope => .word (1#4 ++ 0#1 ++ scope ++ rs2 ++ rs1 ++ 1#3 ++ 0#5 ++ 11#7)
  | .hdArriveR rs1 rs2 scope => .word (1#4 ++ 1#1 ++ scope ++ rs2 ++ rs1 ++ 1#3 ++ 0#5 ++ 11#7)
  | .hdWait rd rs1 rs2 => .word (2#4 ++ 0#3 ++ rs2 ++ rs1 ++ 1#3 ++ rd ++ 11#7)
  | .hdArrwait rd rs1 rs2 scope => .word (3#4 ++ 0#1 ++ scope ++ rs2 ++ rs1 ++ 1#3 ++ rd ++ 11#7)
  | .hdTest rd rs1 => .word (4#4 ++ 0#3 ++ 0#5 ++ rs1 ++ 1#3 ++ rd ++ 11#7)
  | .hdWithdraw rs1 rs2 scope => .word (5#4 ++ 0#1 ++ scope ++ rs2 ++ rs1 ++ 1#3 ++ 0#5 ++ 11#7)
  | .hdWithdrawR rs1 rs2 scope => .word (5#4 ++ 1#1 ++ scope ++ rs2 ++ rs1 ++ 1#3 ++ 0#5 ++ 11#7)
  | .hdJoin rs1 => .word (6#4 ++ 0#3 ++ 0#5 ++ rs1 ++ 1#3 ++ 0#5 ++ 11#7)
  | .hdJoinR rs1 => .word (6#4 ++ 4#3 ++ 0#5 ++ rs1 ++ 1#3 ++ 0#5 ++ 11#7)
  | .lapEnd rd level => .word (7#4 ++ 0#1 ++ level ++ 0#5 ++ 0#5 ++ 1#3 ++ rd ++ 11#7)
  | .domRd rd level => .word (8#4 ++ 0#1 ++ level ++ 0#5 ++ 0#5 ++ 1#3 ++ rd ++ 11#7)
  | .waitUntil rd rs1 => .word (0#7 ++ 0#5 ++ rs1 ++ 2#3 ++ rd ++ 11#7)
  | .waitPromise rs1 => .word (8#7 ++ 0#5 ++ rs1 ++ 2#3 ++ 0#5 ++ 11#7)
  | .msgSend rd rs1 rs2 => .word (0#4 ++ 0#3 ++ rs2 ++ rs1 ++ 3#3 ++ rd ++ 11#7)
  | .msgRecv rd rs1 queue => .word (1#4 ++ queue ++ 0#5 ++ rs1 ++ 3#3 ++ rd ++ 11#7)
  | .msgPoll rd rs1 queue => .word (2#4 ++ queue ++ 0#5 ++ rs1 ++ 3#3 ++ rd ++ 11#7)
  | .rctSet rs1 rs2 => .word (3#4 ++ 0#3 ++ rs2 ++ rs1 ++ 3#3 ++ 0#5 ++ 11#7)
  | .rctHold rs1 => .word (4#4 ++ 0#3 ++ 0#5 ++ rs1 ++ 3#3 ++ 0#5 ++ 11#7)
  | .rctRelease rs1 => .word (5#4 ++ 0#3 ++ 0#5 ++ rs1 ++ 3#3 ++ 0#5 ++ 11#7)
  | .ldAq rd rs1 scope width off => .word (scope ++ width ++ off ++ rs1 ++ 4#3 ++ rd ++ 11#7)
  | .stRl rs1 rs2 scope width off => .word (scope ++ 0#1 ++ width ++ off ++ rs1 ++ 5#3 ++ rs2 ++ 11#7)
  | .gangLead rd log2 => .word (0#1 ++ 0#3 ++ log2 ++ 0#5 ++ 0#5 ++ 6#3 ++ rd ++ 11#7)
  | .gangJoin rd log2 => .word (0#1 ++ 1#3 ++ log2 ++ 0#5 ++ 0#5 ++ 6#3 ++ rd ++ 11#7)
  | .gangEnd => .word (0#1 ++ 2#3 ++ 0#3 ++ 0#5 ++ 0#5 ++ 6#3 ++ 0#5 ++ 11#7)
  | .rrbSet rd rs1 => .word (0#1 ++ 3#3 ++ 0#3 ++ 0#5 ++ rs1 ++ 6#3 ++ rd ++ 11#7)
  | .loopRot rd off => .word (1#1 ++ off ++ 0#5 ++ 6#3 ++ rd ++ 11#7)
  | .xuret => .word (0#4 ++ 0#3 ++ 0#5 ++ 0#5 ++ 7#3 ++ 0#5 ++ 11#7)
  | .ctxSave rs1 rs2 => .word (1#4 ++ 0#3 ++ rs2 ++ rs1 ++ 7#3 ++ 0#5 ++ 11#7)
  | .ctxRestore rs1 rs2 => .word (2#4 ++ 0#3 ++ rs2 ++ rs1 ++ 7#3 ++ 0#5 ++ 11#7)
  | .stamClaim rd rs1 => .word (3#4 ++ 0#3 ++ 0#5 ++ rs1 ++ 7#3 ++ rd ++ 11#7)
  | .stamRd rd sel => .word (4#4 ++ sel ++ 0#5 ++ 0#5 ++ 7#3 ++ rd ++ 11#7)
  | .ivlPost rd rs1 => .word (5#4 ++ 0#3 ++ 0#5 ++ rs1 ++ 7#3 ++ rd ++ 11#7)
  | .ivlSync rs1 => .word (6#4 ++ 0#3 ++ 0#5 ++ rs1 ++ 7#3 ++ 0#5 ++ 11#7)
  | .grLaunch rd rs1 => .word (7#4 ++ 0#3 ++ 0#5 ++ rs1 ++ 7#3 ++ rd ++ 11#7)
  | .grWait rd rs1 => .word (8#4 ++ 0#3 ++ 0#5 ++ rs1 ++ 7#3 ++ rd ++ 11#7)
  | .xfence scope => .word (9#4 ++ 0#1 ++ scope ++ 0#5 ++ 0#5 ++ 7#3 ++ 0#5 ++ 11#7)
  | .vaddFloat vd vs1 vs2 ty => .word (ty ++ 0#4 ++ vs2 ++ vs1 ++ 0#3 ++ vd ++ 43#7)
  | .vsubFloat vd vs1 vs2 ty => .word (ty ++ 1#4 ++ vs2 ++ vs1 ++ 0#3 ++ vd ++ 43#7)
  | .vmulFloat vd vs1 vs2 ty => .word (ty ++ 2#4 ++ vs2 ++ vs1 ++ 0#3 ++ vd ++ 43#7)
  | .vminFloat vd vs1 vs2 ty => .word (ty ++ 3#4 ++ vs2 ++ vs1 ++ 0#3 ++ vd ++ 43#7)
  | .vmaxFloat vd vs1 vs2 ty => .word (ty ++ 4#4 ++ vs2 ++ vs1 ++ 0#3 ++ vd ++ 43#7)
  | .vabsFloat vd vs1 ty => .word (ty ++ 5#4 ++ 0#5 ++ vs1 ++ 0#3 ++ vd ++ 43#7)
  | .vnegFloat vd vs1 ty => .word (ty ++ 6#4 ++ 0#5 ++ vs1 ++ 0#3 ++ vd ++ 43#7)
  | .vdiv vd vs1 vs2 ty => .word (ty ++ 7#4 ++ vs2 ++ vs1 ++ 0#3 ++ vd ++ 43#7)
  | .vsqrt vd vs1 ty rm => .word (ty ++ 8#4 ++ 0#3 ++ rm ++ vs1 ++ 0#3 ++ vd ++ 43#7)
  | .vrsq vd vs1 ty rm => .word (ty ++ 9#4 ++ 0#3 ++ rm ++ vs1 ++ 0#3 ++ vd ++ 43#7)
  | .vaddInt vd vs1 vs2 ty => .word (ty ++ 0#4 ++ vs2 ++ vs1 ++ 1#3 ++ vd ++ 43#7)
  | .vsubInt vd vs1 vs2 ty => .word (ty ++ 1#4 ++ vs2 ++ vs1 ++ 1#3 ++ vd ++ 43#7)
  | .vmulInt vd vs1 vs2 ty => .word (ty ++ 2#4 ++ vs2 ++ vs1 ++ 1#3 ++ vd ++ 43#7)
  | .vminInt vd vs1 vs2 ty => .word (ty ++ 3#4 ++ vs2 ++ vs1 ++ 1#3 ++ vd ++ 43#7)
  | .vmaxInt vd vs1 vs2 ty => .word (ty ++ 4#4 ++ vs2 ++ vs1 ++ 1#3 ++ vd ++ 43#7)
  | .vabsInt vd vs1 ty => .word (ty ++ 5#4 ++ 0#5 ++ vs1 ++ 1#3 ++ vd ++ 43#7)
  | .vnegInt vd vs1 ty => .word (ty ++ 6#4 ++ 0#5 ++ vs1 ++ 1#3 ++ vd ++ 43#7)
  | .vand vd vs1 vs2 ty => .word (ty ++ 8#4 ++ vs2 ++ vs1 ++ 1#3 ++ vd ++ 43#7)
  | .vor vd vs1 vs2 ty => .word (ty ++ 9#4 ++ vs2 ++ vs1 ++ 1#3 ++ vd ++ 43#7)
  | .vxor vd vs1 vs2 ty => .word (ty ++ 10#4 ++ vs2 ++ vs1 ++ 1#3 ++ vd ++ 43#7)
  | .vshl vd vs1 vs2 ty => .word (ty ++ 11#4 ++ vs2 ++ vs1 ++ 1#3 ++ vd ++ 43#7)
  | .vshr vd vs1 vs2 ty => .word (ty ++ 12#4 ++ vs2 ++ vs1 ++ 1#3 ++ vd ++ 43#7)
  | .vsra vd vs1 vs2 ty => .word (ty ++ 13#4 ++ vs2 ++ vs1 ++ 1#3 ++ vd ++ 43#7)
  | .vcmp vd vs1 vs2 ty cond => .word (ty ++ 0#1 ++ cond ++ vs2 ++ vs1 ++ 2#3 ++ vd ++ 43#7)
  | .vsel vd vs1 vs2 ty => .word (ty ++ 1#1 ++ 0#3 ++ vs2 ++ vs1 ++ 2#3 ++ vd ++ 43#7)
  | .vcvt vd vs1 ty rm dstTy => .word (ty ++ 0#4 ++ rm ++ dstTy ++ vs1 ++ 3#3 ++ vd ++ 43#7)
  | .vqnt vd vs1 four => .word (0#3 ++ 1#4 ++ 0#4 ++ BitVec.ofBool four ++ vs1 ++ 0#1 ++ 3#3 ++ vd ++ 43#7)
  | .vdqnt vd vs1 four => .word (0#3 ++ 2#4 ++ 0#4 ++ BitVec.ofBool four ++ vs1 ++ 3#3 ++ vd ++ 0#1 ++ 43#7)
  | .vredsum vd vs1 ty => .word (ty ++ 0#4 ++ 0#5 ++ vs1 ++ 4#3 ++ vd ++ 43#7)
  | .vredmax vd vs1 ty => .word (ty ++ 1#4 ++ 0#5 ++ vs1 ++ 4#3 ++ vd ++ 43#7)
  | .vperm vd vs1 vs2 ty => .word (ty ++ 2#4 ++ vs2 ++ vs1 ++ 4#3 ++ vd ++ 43#7)
  | .vshuf vd vs1 vs2 ty => .word (ty ++ 3#4 ++ vs2 ++ vs1 ++ 4#3 ++ vd ++ 43#7)
  | .vslide vd vs1 ty amount => .word (ty ++ 4#4 ++ amount ++ vs1 ++ 4#3 ++ vd ++ 43#7)
  | .vsplat vd rs1 ty => .word (ty ++ 5#4 ++ 0#5 ++ rs1 ++ 4#3 ++ vd ++ 43#7)
  | .vins vd rs1 rs2 ty => .word (ty ++ 6#4 ++ rs2 ++ rs1 ++ 4#3 ++ vd ++ 43#7)
  | .vext rd rs1 vs2 ty => .word (ty ++ 7#4 ++ vs2 ++ rs1 ++ 4#3 ++ rd ++ 43#7)
  | .vld vd rs1 ty => .word (ty ++ 0#4 ++ 0#5 ++ rs1 ++ 5#3 ++ vd ++ 43#7)
  | .vlds vd rs1 rs2 ty => .word (ty ++ 1#4 ++ rs2 ++ rs1 ++ 5#3 ++ vd ++ 43#7)
  | .vldx vd rs1 vs2 ty => .word (ty ++ 2#4 ++ vs2 ++ rs1 ++ 5#3 ++ vd ++ 43#7)
  | .vldb vd rs1 ty => .word (ty ++ 3#4 ++ 0#5 ++ rs1 ++ 5#3 ++ vd ++ 43#7)
  | .vldq vd rs1 rs2 ty => .word (ty ++ 4#4 ++ rs2 ++ rs1 ++ 5#3 ++ vd ++ 43#7)
  | .vst vs rs1 ty => .word (ty ++ 0#4 ++ 0#5 ++ rs1 ++ 6#3 ++ vs ++ 43#7)
  | .vsts vs rs1 rs2 ty => .word (ty ++ 1#4 ++ rs2 ++ rs1 ++ 6#3 ++ vs ++ 43#7)
  | .vstx vs rs1 vs2 ty => .word (ty ++ 2#4 ++ vs2 ++ rs1 ++ 6#3 ++ vs ++ 43#7)
  | .vfma vd vs1 vs2 vs3 => .word (vs3 ++ 0#2 ++ vs2 ++ vs1 ++ 7#3 ++ vd ++ 43#7)
  | .vfms vd vs1 vs2 vs3 => .word (vs3 ++ 1#2 ++ vs2 ++ vs1 ++ 7#3 ++ vd ++ 43#7)
  | .vfnma vd vs1 vs2 vs3 => .word (vs3 ++ 2#2 ++ vs2 ++ vs1 ++ 7#3 ++ vd ++ 43#7)
  | .vfnms vd vs1 vs2 vs3 => .word (vs3 ++ 3#2 ++ vs2 ++ vs1 ++ 7#3 ++ vd ++ 43#7)
  | .mmTile acc pm init => .word (0#4 ++ acc ++ pm ++ 0#3 ++ BitVec.ofBool init ++ 0#5 ++ 0#3 ++ 0#5 ++ 91#7)
  | .panelStep _ => .none
  | .mmZero acc pm => .word (1#4 ++ acc ++ pm ++ 0#4 ++ 0#5 ++ 0#3 ++ 0#5 ++ 91#7)
  | .mmWait => .word (2#4 ++ 0#3 ++ 0#5 ++ 0#5 ++ 0#3 ++ 0#5 ++ 91#7)
  | .mmDrain rs1 rs2 acc pm clear fmt => .word (0#4 ++ acc ++ pm ++ BitVec.ofBool clear ++ fmt ++ rs1 ++ 1#3 ++ rs2 ++ 91#7)
  | .mmLoad rs1 rs2 acc pm fmt => .word (1#4 ++ acc ++ pm ++ 0#1 ++ fmt ++ rs1 ++ 1#3 ++ rs2 ++ 91#7)
  | .mmMset rs1 rs2 pm pre => .word (2#4 ++ 0#2 ++ pm ++ 0#3 ++ BitVec.ofBool pre ++ rs1 ++ 1#3 ++ rs2 ++ 91#7)
  | .mmTostrm acc pm tp port => .word (3#4 ++ acc ++ pm ++ 0#2 ++ BitVec.ofBool tp ++ port ++ 0#5 ++ 1#3 ++ 0#5 ++ 91#7)
  | .stBind rs1 port => .word (0#7 ++ 0#4 ++ port ++ rs1 ++ 2#3 ++ 0#5 ++ 91#7)
  | .stFill rs1 cnt port => .word (8#7 ++ 0#1 ++ cnt ++ port ++ rs1 ++ 2#3 ++ 0#5 ++ 91#7)
  | .stSkip rd rs1 port => .word (16#7 ++ 0#4 ++ port ++ rs1 ++ 2#3 ++ rd ++ 91#7)
  | .stStat rd port => .word (24#7 ++ 0#4 ++ port ++ 0#5 ++ 2#3 ++ rd ++ 91#7)
  | .stFlush port => .word (32#7 ++ 0#4 ++ port ++ 0#5 ++ 2#3 ++ 0#5 ++ 91#7)
  | .cpGet rd xg rs2 => .word (0#7 ++ rs2 ++ xg ++ 3#3 ++ rd ++ 91#7)
  | .cpPut rd xg rs2 => .word (8#7 ++ rs2 ++ xg ++ 3#3 ++ rd ++ 91#7)
  | .cpXfer rd xg rs2 => .word (16#7 ++ rs2 ++ xg ++ 3#3 ++ rd ++ 91#7)
  | .cpFeed rd xg rs2 => .word (24#7 ++ rs2 ++ xg ++ 3#3 ++ rd ++ 91#7)
  | .cpMcast rd xg => .word (32#7 ++ 0#5 ++ xg ++ 3#3 ++ rd ++ 91#7)
  | .cpFill rd xg rs2 => .word (40#7 ++ rs2 ++ xg ++ 3#3 ++ rd ++ 91#7)
  | .cpGath rd xg rs2 => .word (48#7 ++ rs2 ++ xg ++ 3#3 ++ rd ++ 91#7)
  | .cpScat rd xg rs2 => .word (56#7 ++ rs2 ++ xg ++ 3#3 ++ rd ++ 91#7)
  | .cpAtom rd xg rs2 => .word (64#7 ++ rs2 ++ xg ++ 3#3 ++ rd ++ 91#7)
  | .cpStat rd xg rs2 => .word (72#7 ++ rs2 ++ xg ++ 3#3 ++ rd ++ 91#7)
  | .cpCancel rd xg => .word (80#7 ++ 0#5 ++ xg ++ 3#3 ++ rd ++ 91#7)
  | .bufMap rd rs1 rs2 => .word (0#7 ++ rs2 ++ rs1 ++ 4#3 ++ rd ++ 91#7)
  | .bufUnmap rd rs1 => .word (8#7 ++ 0#5 ++ rs1 ++ 4#3 ++ rd ++ 91#7)
  | .bufShadow rd rs1 rs2 => .word (16#7 ++ rs2 ++ rs1 ++ 4#3 ++ rd ++ 91#7)
  | .bufPub rd rs1 => .word (24#7 ++ 0#5 ++ rs1 ++ 4#3 ++ rd ++ 91#7)
  | .statInit std => .word (0#7 ++ 0#5 ++ 0#5 ++ 0#3 ++ 0#2 ++ std ++ 123#7)
  | .statUpd std rs1 => .word (8#7 ++ 0#5 ++ rs1 ++ 0#3 ++ 0#2 ++ std ++ 123#7)
  | .statUpdw std rs1 rs2 => .word (16#7 ++ rs2 ++ rs1 ++ 0#3 ++ 0#2 ++ std ++ 123#7)
  | .statMerge std st1 st2 => .word (24#7 ++ 0#2 ++ st2 ++ 0#2 ++ st1 ++ 0#3 ++ 0#2 ++ std ++ 123#7)
  | .statLd std rs1 => .word (32#7 ++ 0#5 ++ rs1 ++ 0#3 ++ 0#2 ++ std ++ 123#7)
  | .statSt rs1 st2 => .word (40#7 ++ 0#2 ++ st2 ++ rs1 ++ 0#3 ++ 0#5 ++ 123#7)
  | .vstatUpd std vs1 ty => .word (0#4 ++ 0#1 ++ ty ++ 0#5 ++ vs1 ++ 1#3 ++ 0#2 ++ std ++ 123#7)
  | .vstatUpdw std vs1 vs2 ty => .word (1#4 ++ 0#1 ++ ty ++ vs2 ++ vs1 ++ 1#3 ++ 0#2 ++ std ++ 123#7)
  | .statDrain rd st1 rs2 drain => .word (2#4 ++ drain ++ rs2 ++ 0#2 ++ st1 ++ 1#3 ++ rd ++ 123#7)
  | .vstatNorm vd vs1 ty pair => .word (3#4 ++ 0#1 ++ ty ++ pair ++ 0#1 ++ vs1 ++ 1#3 ++ vd ++ 123#7)
  | .cycOpen rd rs1 => .word (0#5 ++ 0#2 ++ 0#5 ++ rs1 ++ 2#3 ++ rd ++ 123#7)
  | .cycFreeze rd rs1 rs2 => .word (2#5 ++ 0#2 ++ rs2 ++ rs1 ++ 2#3 ++ rd ++ 123#7)
  | .cycIter rd rs1 => .word (4#5 ++ 0#2 ++ 0#5 ++ rs1 ++ 2#3 ++ rd ++ 123#7)
  | .cycRes rs1 st2 => .word (6#5 ++ 0#2 ++ 0#2 ++ st2 ++ rs1 ++ 2#3 ++ 0#5 ++ 123#7)
  | .cycPass rs1 rs2 => .word (8#5 ++ 0#2 ++ rs2 ++ rs1 ++ 2#3 ++ 0#5 ++ 123#7)
  | .cycTake rd rs1 => .word (10#5 ++ 0#2 ++ 0#5 ++ rs1 ++ 2#3 ++ rd ++ 123#7)
  | .cycNext rd rs1 => .word (12#5 ++ 0#2 ++ 0#5 ++ rs1 ++ 2#3 ++ rd ++ 123#7)
  | .cycBwd rs1 rs2 => .word (14#5 ++ 0#2 ++ rs2 ++ rs1 ++ 2#3 ++ 0#5 ++ 123#7)
  | .cycStat rd rs1 sel => .word (16#5 ++ sel ++ 0#5 ++ rs1 ++ 2#3 ++ rd ++ 123#7)
  | .cycClose rs1 => .word (18#5 ++ 0#2 ++ 0#5 ++ rs1 ++ 2#3 ++ 0#5 ++ 123#7)
  | .cycAbort rs1 => .word (20#5 ++ 0#2 ++ 0#5 ++ rs1 ++ 2#3 ++ 0#5 ++ 123#7)
  | .clLoad rd rs1 rs2 => .word (0#7 ++ rs2 ++ rs1 ++ 3#3 ++ rd ++ 123#7)
  | .clRun rd rs1 rs2 => .word (8#7 ++ rs2 ++ rs1 ++ 3#3 ++ rd ++ 123#7)
  | .clWait rd rs1 => .word (16#7 ++ 0#5 ++ rs1 ++ 3#3 ++ rd ++ 123#7)
  | .clCancel rs1 => .word (24#7 ++ 0#5 ++ rs1 ++ 3#3 ++ 0#5 ++ 123#7)
  | .clGrp rd rs1 rs2 => .word (32#7 ++ rs2 ++ rs1 ++ 3#3 ++ rd ++ 123#7)
  | .clJoin rd rs1 rs2 => .word (40#7 ++ rs2 ++ rs1 ++ 3#3 ++ rd ++ 123#7)
  | .clLeave rd rs1 rs2 => .word (48#7 ++ rs2 ++ rs1 ++ 3#3 ++ rd ++ 123#7)
  | .clPause rs1 => .word (56#7 ++ 0#5 ++ rs1 ++ 3#3 ++ 0#5 ++ 123#7)
  | .clResume rs1 => .word (64#7 ++ 0#5 ++ rs1 ++ 3#3 ++ 0#5 ++ 123#7)
  | .powerOnReset => .none
  | .resetRequest => .none
  | .inputUndervoltage => .none
  | .thermalReport _ _ => .none
  | .dieReset _ => .none
  | .dieReturn _ => .none
  | .farModuleLoss _ => .none
  | .relayDown _ => .none
  | .linkFlit _ _ _ _ => .none
  | .linkRetrain _ _ => .none
  | .slotSyncMarker _ _ => .none
  | .slotSync _ _ _ => .none
  | .read _ => .none
  | .write _ => .none
  | .amo _ => .none
  | .readReply _ => .none
  | .writeAck _ => .none
  | .faultReply _ => .none
  | .msg _ => .none
  | .msgAck _ => .none
  | .msgResend _ => .none
  | .msgMoved _ => .none
  | .arrive _ => .none
  | .copyData _ => .none
  | .copyDone _ => .none
  | .mcastData _ => .none
  | .atomBatch _ => .none
  | .chunk _ => .none
  | .pause _ => .none
  | .resume _ => .none
  | .ivl _ => .none
  | .rctUpd _ => .none
  | .swcSync _ => .none
  | .swcSyncSend => .none
  | .swcSlew _ => .none
  | .e2eAck _ => .none
  | .e2eAckSend _ => .none
  | .gatewayOutbound _ => .none
  | .gatewayInbound _ => .none
  | .replayTimeout _ _ => .none
  | .planeIdleTimeout _ _ => .none
  | .walkDone _ _ => .none
  | .faultAnswer _ _ _ => .none
  | .faultRecordTimeout _ _ => .none
  | .logApply _ => .none
  | .appliedIndexReport _ => .none
  | .tierMove _ _ _ _ _ => .none
  | .homeMove _ _ _ _ _ _ => .none
  | .vaultCopyDone _ _ => .none
  | .trkload _ => .none
  | .trkloadDone => .none
  | .hostApertureAccess _ _ _ _ _ => .none
  | .intakeWrite _ => .none
  | .intakecommit _ _ => .none
  | .grdef _ => .none
  | .grdefCopyDone => .none
  | .prectlPreempt _ => .none
  | .prectlResume _ => .none
  | .prestatDone => .none
  | .ckctlStart _ => .none
  | .ckctlQuiesce _ => .none
  | .ckctlRestore _ => .none
  | .quiesceDone => .none
  | .checkpointCopyDone => .none
  | .restoreDone => .none
  | .tftpResend => .none
  | .fetchRestart => .none
  | .imageVerify => .none
  | .bankGate _ _ _ => .none
  | .bankWake _ _ _ => .none
  | .bankWakeDone _ _ _ => .none
  | .registerWrite _ _ => .none
  | .resourceReport _ => .none
  | .launchAdmit => .none
  | .admissionDeadline _ => .none
  | .launchPlace => .none
  | .placementTimeout _ => .none
  | .energyMeasure _ _ => .none
  | .batonDispatch _ => .none
  | .ageTick => .none
  | .slotPromotion _ => .none
  | .pacerBind _ => .none
  | .batonEvict _ _ => .none
  | .waitDeadline _ _ => .none
  | .gangFormationTimeout _ _ => .none
  | .deferredFaultDelivery _ _ => .none
  | .promiseMissed _ _ => .none
  | .copyComplete _ _ => .none
  | .feedPanel _ _ => .none
  | .handleEntryLapse _ _ => .none
  | .nodeStart _ _ _ => .none
  | .nodeEnd _ _ _ => .none
  | .stallTimeout _ _ => .none
  | .pauseLimit _ _ => .none
  | .reservationRelease _ _ => .none
  | .functionReady _ => .none
  | .functionFailure _ => .none
  | .dispatchEntryComplete _ _ => .none
  | .cycleControllerRequest => .none
  | .managementEthernetFrame _ => .none

/-- Little-endian bytes of a word (R1). -/
def bytesLE (n : Nat) (w : Nat) : List Byte := (List.range n).map fun i => BitVec.ofNat 8 (w / 2 ^ (8 * i))

/-- The number that a list of bytes spells, little-endian (R1). -/
def natLE : List Byte → Nat
  | [] => 0
  | b :: r => b.toNat + 256 * natLE r

/-- Decoding from bytes: an instruction and the bytes after it, or why there is none (R195). -/
noncomputable def decode (bs : List Byte) : Except Reject (Instr × List Byte) :=
  match bs with
  | b0 :: b1 :: r =>
    if b0.extractLsb' 0 2 = 3#2 then
      match r with
      | b2 :: b3 :: r' =>
        match decode32 (BitVec.ofNat 32 (natLE [b0, b1, b2, b3])) with
        | .ok i => .ok (i, r')
        | .error e => .error e
      | _ => if b0.extractLsb' 2 3 = 7#3 then .error .longEncoding else .error .truncated
    else
      match decode16 (BitVec.ofNat 16 (natLE [b0, b1])) with
      | .ok i => .ok (i, r)
      | .error e => .error e
  | _ => .error .truncated

/-- The bytes of an encoding. -/
def Encoding.bytes : Encoding → List Byte
  | .half h => bytesLE 2 h.toNat
  | .word w => bytesLE 4 w.toNat
  | .none => []

/-- The instruction that the decoder reads from an instruction whose bits are `w`, numbered as the opcode table numbers
them: four bytes, little-endian, the bits above `nbits` zero. -/
noncomputable def decodeTableWord (nbits w : Nat) : Option Instr :=
  match decode (bytesLE 4 (w % 2 ^ nbits)) with
  | .ok (i, _) => some i
  | .error _ => none

end Sys2Proof
end

