-- ==== Sys2Proof/Config.lean ====
section
/-!
DEFINITION. What one implementation fixes, and the values that the spec leaves open. Every constant here is opaque: no proof can
see its value, and a claim that mentions one holds whatever it is.
-/
namespace Sys2Proof

/-- The hash by which the source gateway indexes its line table (R38): of the line address, the track and the destination
package. DESIGN CHOICE: the spec names the hash's arguments and not the hash (log entry 12). -/
opaque Config.lineHash : Nat → Nat → Nat → Nat

/-- A free value: the `n`-th value that the spec leaves open in a run. DESIGN CHOICE (log entry 5). -/
opaque Config.freeValue : Nat → Dword

/-- The digest of the boot public key held in the B-die fuses (R77). Each part has its own (log entry 13). -/
opaque Config.fuseDigest : BitVec 256

/-- The least VERSION that the fuses admit (R77; log entry 13). -/
opaque Config.fuseMinVersion : Nat

/-- The boot key that the security block makes at a power-on, by the number of the power-on: an XMSS public key of OID, root and seed (R78; log
entry 13). -/
opaque Config.bootKey : Nat → BitVec 544

/-- What the measured delay of a die's link to the B-die is off by, modulo 3 and less 1: the measurement is right within one count (R13, R41).
DESIGN CHOICE (log entry 22). -/
opaque Config.linkError : Nat → Nat

/-- The set of the translation cache in which a translation stands, by its track, base and log2 of its size: a free value (R54; log entry 15). -/
opaque Config.translationSet : BitVec 16 → Nat → Nat → Nat

/-- The interface identifier from which the management Ethernet port forms its IPv6 address (R76; log entry 23). -/
opaque Config.interfaceId : BitVec 64

/-- Where in C-die 0's HBM the boot image is loaded: a free value (R76; log entry 122). -/
opaque Config.bootBase : BitVec 35

/-- What the packets of a cluster that has no rank carry as SRCRANK, by pcluster: a free value (R33, R42; log entry 17). -/
opaque Config.noRank : Nat → BitVec 12

/-- The cycles that a promise counts for a command's bytes over a path with no plane up, by the bytes: a free value (R46; log entry 18). -/
opaque Config.noPlaneTime : Nat → Nat

end Sys2Proof
end

