-- ==== Sys2Proof/Machine/KMap.lean ====
section
/-!
DEFINITION. Sparse tables as plain data: a list of key and value pairs with strictly rising keys. A table is read against a
default, the value of every key it does not list.
-/
namespace Sys2Proof.Machine

/-- A sparse table: pairs in rising order of their keys. -/
abbrev KMap (α : Type) := List (Nat × α)

/-- The value at a key, `d` where the table lists none. -/
def kget {α : Type} (d : α) : KMap α → Nat → α
  | [], _ => d
  | (k, v) :: r, j => if j = k then v else kget d r j

/-- The entry at a key, where the table lists one. -/
def kfind {α : Type} : KMap α → Nat → Option α
  | [], _ => none
  | (k, v) :: r, j => if j = k then some v else kfind r j

/-- The table with one key set. -/
def kset {α : Type} (j : Nat) (x : α) : KMap α → KMap α
  | [] => [(j, x)]
  | (k, v) :: r => if j < k then (j, x) :: (k, v) :: r else if j = k then (j, x) :: r else (k, v) :: kset j x r

/-- The table without one key. -/
def kdel {α : Type} (j : Nat) (m : KMap α) : KMap α := m.filter fun p => p.1 != j

/-- The keys in strictly rising order. -/
def kwf {α : Type} : KMap α → Bool
  | [] => true
  | [_] => true
  | (k, _) :: (k', v') :: r => decide (k < k') && kwf ((k', v') :: r)

/-- The values listed, in key order. -/
def kvals {α : Type} (m : KMap α) : List α := m.map Prod.snd

/-- A table with a function applied to each listed value. -/
def kmap {α β : Type} (f : Nat → α → β) (m : KMap α) : KMap β := m.map fun p => (p.1, f p.1 p.2)

/-- The first key whose value meets a test. -/
def kfirst {α : Type} (p : Nat → α → Bool) (m : KMap α) : Option Nat :=
  (m.find? fun e => p e.1 e.2).map Prod.fst

/-- A list in rising order of a key with an element put behind those of the same key. -/
def insertBy {α : Type} (k : α → Nat) (x : α) : List α → List α
  | [] => [x]
  | y :: r => if k x < k y then x :: y :: r else y :: insertBy k x r

/-- A list in rising order of a key; elements of one key keep their order. -/
def sortBy {α : Type} (k : α → Nat) (l : List α) : List α := l.foldl (fun r x => insertBy k x r) []

/-- A list with its `i`-th entry replaced; unchanged where there is none. -/
def lset {α : Type} (i : Nat) (x : α) (l : List α) : List α := l.set i x

end Sys2Proof.Machine
end

