-- ==== Sys2Proof/Machine/Packet.lean ====
section
/-!
DEFINITION. An NLP packet as plain data (R33, R34).
-/
namespace Sys2Proof.Machine

/-- The packet types of R34. -/
inductive PType
  | read | write | amo | readReply | writeAck | faultReply | msg | msgAck | msgMoved | arrive | copyData | copyDone
  | mcastData | atomBatch | chunk | pause | resume | ivl | rctUpd | swcSync | slotSync | e2eAck
  /-- A reserved TYPE value, which makes the packet malformed (R32). -/
  | reserved
  deriving DecidableEq, Repr

/-- The ordering classes of R33; code 3 is reserved. -/
inductive PClass | free | line | fence | reserved
  deriving DecidableEq, Repr

/-- The memory operation that a request asks for at its home (R59), and the access kinds of R58. -/
inductive MemOp | read | write | amo | fetch
  deriving DecidableEq, Repr

/-- The AMO operations of R191, with the reservation pair of R193. -/
inductive AmoOp | swap | add | xor | and | or | min | max | minu | maxu | lr | sc
  deriving DecidableEq, Repr

/-- An NLP packet (R33). `elems` lists the byte ranges that a request names, in element order; a scalar request names one.
`a`, `b` and `c` are the type-specific OPERAND: AMO operands, hurdle fields, status and failed address. `hopSrc` and
`hopDst` are the dies of the link it travels on. -/
structure Pkt where
  ty : PType
  va : Nat
  track : BitVec 16
  src : Nat
  dst : Nat
  srcPkg : Nat
  dstPkg : Nat
  srcRank : Nat
  dstRank : Nat
  seq : Nat
  prevDist : Nat
  cls : PClass
  vc : Nat
  dflits : Nat
  len : Nat
  op : MemOp
  amo : AmoOp
  /-- The copy sub-operation of COPY_DATA, or the reduction operator of ATOM_BATCH: 0 FADD32, 1 STATMERGE. -/
  sub : Nat
  scope : Nat
  rel : Bool
  acq : Bool
  poison : Bool
  tag : Nat
  a : Dword
  b : Dword
  c : Dword
  elems : List (Nat × Nat)
  data : List Byte
  hopSrc : Nat
  hopDst : Nat
  /-- Sent on once by an old home (R68). -/
  forwarded : Bool
  /-- The master class of the requester (R58). -/
  master : Nat
  /-- A baton record sent by BAT.SEND, and the launch that it descends from (R220). -/
  enqueue : Option Nat
  /-- Addressed to DSTRANK by rank (R43), and how often it has been put back and sent again (R44). -/
  ranked : Bool
  attempt : Nat
  deriving DecidableEq, Repr

/-- An empty request, from which requests are built by naming their fields. -/
def Pkt.blank : Pkt :=
  { ty := .read, va := 0, track := 0, src := 0, dst := 0, srcPkg := 0, dstPkg := 0, srcRank := 0, dstRank := 0, seq := 0,
    prevDist := 0, cls := .free, vc := 0, dflits := 0, len := 0, op := .read, amo := .swap, sub := 0, scope := 0, rel := false,
    acq := false, poison := false, tag := 0, a := 0, b := 0, c := 0, elems := [], data := [], hopSrc := 0, hopDst := 0,
    forwarded := false, master := 0, enqueue := none, ranked := false, attempt := 0 }

end Sys2Proof.Machine
end

