-- ==== Sys2Proof/Machine/CoreState.lean ====
section
/-!
DEFINITION. The state of thread slots, cores, quads, clusters and gangs (05_scheduler.md, 07_core_memory.md,
09_ordering.md, 11_isa_control.md, 13_isa_matrix_copy.md), as plain data.
-/
namespace Sys2Proof.Machine

/-- Whether a thread slot holds a baton, and whether that baton may issue (R92: RUNNING or PARKED). -/
inductive SlotMode | empty | running | parked
  deriving DecidableEq, Repr

/-- The CSRs of R136 that are held per slot, with the role of CTRL [1:0] (XROLE). -/
structure SlotCsrs where
  fflags : BitVec 5
  frm : BitVec 3
  xutvec : Dword
  xuepc : Dword
  xucause : Dword
  xutval : Dword
  xufmask : Dword
  xrrb : BitVec 4
  xmscope : BitVec 2
  xrole : BitVec 2
  xage : BitVec 13
  xshare : BitVec 4
  xgangidx : BitVec 3
  mfmt : Dword
  msca : Dword
  mscb : Dword
  mklen : Dword
  mmprog : Dword
  mgrp : BitVec 8
  deriving DecidableEq, Repr

/-- A fault that waits for an instruction boundary (R63, R138, R304). `sync` marks the synchronous trap of the instruction at which the baton
stands, a wait that failed: BUSY does not hold it. `at'` is the pc of the access whose FAULT_REPLY this is, where the baton has gone past it; a
fault without it is taken at the pc at which the baton stands (log entry 8). -/
structure Deferred where
  cause : Nat
  value : Dword
  status : Nat
  posted : Bool
  sync : Bool
  at' : Option Dword
  deriving DecidableEq, Repr

/-- A posted request of a baton that is not yet answered (R177, R226, R304): the tag of its request, the host unit of its location, by
package (0 is the own package) and die, whether it is a posted store, for which releases, saves and exits wait (R177), and whether it is a hurdle
operation in the aperture or rank form (R226). -/
structure Posted where
  tag : Nat
  pkg : Nat
  die : Nat
  store : Bool
  rmw : Bool
  deriving DecidableEq, Repr

/-- One page part of a split vector access (R70): the tag of its request and the elements it carries. -/
structure VPart where
  tag : Nat
  elems : List Nat
  deriving DecidableEq, Repr

/-- A vector access that waits for its global parts (R251, R264). -/
structure VAccess where
  addrs : List Nat
  vals : List Nat
  parts : List VPart
  written : List Nat
  faultElem : Option Nat
  faultStatus : Nat
  deriving DecidableEq, Repr

/-- An instruction whose descriptor, image or definition is read on the issuer's behalf (R302, R316, R319). -/
inductive DescOp
  | cycOpen
  /-- CL.LOAD of a plan id. -/
  | clLoad (pid : Nat)
  /-- CL.GRP of a group number. -/
  | clGrp (group : Nat)
  deriving DecidableEq, Repr

/-- The kinds of copy command (R279 to R288). -/
inductive CpKind | get | put | xfer | feed | mcast | fill | gath | scat | atom
  deriving DecidableEq, Repr

/-- What the waiting instruction of a PARKED or WAITING baton waits for, and what its completion writes (R93, R217). -/
inductive Wait
  /-- No wait. -/
  | none
  /-- An instruction fetch whose home has not answered (R194). -/
  | fetch (tag : Nat)
  /-- A remote scalar load: destination, bytes, sign extension, and whether it is an LR. -/
  | load (tag : Nat) (rd : Reg) (bytes : Nat) (sgn : Bool) (lr : Bool)
  /-- A remote AMO, its destination and width. -/
  | amo (tag : Nat) (rd : Reg) (bytes : Nat)
  /-- A remote SC. -/
  | sc (tag : Nat) (rd : Reg)
  /-- A store that is not posted: ST.RL, or a store to an NI register block of another die. -/
  | store (tag : Nat)
  /-- CL.PAUSE or CL.RESUME: the packets to the Relays of several packages that are not acknowledged (R321). -/
  | relays (tags : List Nat)
  /-- A vector load, and the physical register and element width of its destination; `spread` is VLDB, `deq` the VLDQ type. -/
  | vload (vd : Nat) (width : Nat) (spread : Bool) (deq : Option Nat) (acc : VAccess)
  /-- A vector store. -/
  | vstore (acc : VAccess)
  /-- STAT.LD of a global address, its destination and its word. -/
  | stLoad (std : Nat) (word : Word32) (acc : VAccess)
  /-- BAT.SEND: the request's tag, the status register, and whether the record is the baton itself. -/
  | send (tag : Nat) (rd : Reg) (self : Bool)
  /-- A hurdle wait: the hurdle's cell address and, for a generation wait, the generation. -/
  | hurdle (rd : Reg) (h : Nat) (gen : Option (BitVec 32))
  /-- LAP.END in EXCHANGE: the level, the hurdle, and the tag of a remote arrival (0 for a local one). -/
  | lap (rd : Reg) (level : Nat) (h : Nat) (tag : Nat)
  /-- WAIT.UNTIL. -/
  | time (rd : Reg)
  /-- WAIT.PROMISE on a handle. -/
  | promise (handle : Dword)
  /-- MSG.SEND until its acknowledgement; after a full answer `resendAt` is the SWC of the resend. -/
  | msgSend (tag : Nat) (rd : Reg) (resendAt : Option Nat)
  /-- MSG.RECV on a queue into a buffer. -/
  | msgRecv (rd : Reg) (queue : BitVec 3) (buf : Dword)
  /-- BAT.PARK with its live mask, or WFI where there is no destination. -/
  | wake (rd : Reg) (live : Dword)
  /-- GR.WAIT on a launch. -/
  | graph (rd : Reg) (seq : Nat)
  /-- CYC.TAKE and CYC.NEXT. -/
  | cycTake (rd : Reg) (handle : Dword)
  | cycNext (rd : Reg) (handle : Dword)
  /-- CL.WAIT on a ticket. -/
  | coll (rd : Reg) (ticket : Dword)
  /-- A hurdle operation whose rank is IN_TRANSIT while the hold queue is full (R43): its scope, rank, offset, member and operation, as
  `State.postRank` takes them. -/
  | rankHd (scope r off m op : Nat)
  /-- A copy command that waits for a free entry of its engine (R279), or for space in the hold queue (R43): its destination and the values of its
  group and of its hurdle's register, `bare` where it names no hurdle. -/
  | cpIssue (kind : CpKind) (rd : Reg) (g0 g1 g2 ctl h : Dword) (bare : Bool)
  /-- MSG.SEND or BAT.SEND.R for a rank IN_TRANSIT while the hold queue is full (R43): the packet, as its payload was read, goes on when space
  frees; `baton` says that it carries a baton, and `self` the sender itself. -/
  | rankSend (p : Pkt) (rd : Reg) (baton self : Bool)
  /-- Gang formation (R106): the destination, the size as a log2, the core, and whether it is a GANG.LEAD that waits for another slot's
  gang to disband (R236). -/
  | gang (rd : Reg) (log2 : Nat) (cid : Nat) (lead : Bool)
  /-- The matrix context of a core, owned by another slot (R110); the instruction issues when it is free. -/
  | matrix (cid : Nat)
  /-- MM.WAIT for the slot's own matrix and stream entries (R273). -/
  | mmWait
  /-- A baton picked up with a saved matrix context on a core whose context another slot owns: its frame, and whether that is a large one
  (R110, R111). -/
  | restore (frame : Nat) (large : Bool) (cid : Nat)
  /-- CTX.RESTORE, whose image has been read, while another slot owns the context of the core (R241). -/
  | ctxTake (cid : Nat)
  /-- RCT.SET, RCT.HOLD, RCT.RELEASE: the dies whose NI has not applied the change. -/
  | rct (tag : Nat) (dies : List Nat)
  /-- IVL.SYNC on an index. -/
  | ivlSync (index : Nat)
  /-- IVL.POST of a record while a ring is full (R66, R243). -/
  | ivlRing (rd : Reg) (record : BitVec 256)
  /-- CTX.SAVE and CTX.RESTORE whose image is global: the tags not yet answered, the bytes read so far. -/
  | ctxSave (tags : List Nat) (failed : Option (Nat × Nat)) (owned : Bool)
  | ctxRestore (parts : List (Nat × Nat)) (got : List (Nat × List Byte)) (failed : Option (Nat × Nat)) (image : Nat) (live : Dword)
    (cid : Nat)
  /-- A descriptor in global memory that is being read (R302, R316, R319): its address, the bytes read in earlier rounds, the requests of
  this round by tag and offset, the pieces that have come, and whether a read has failed. -/
  | answer (rd : Reg) (op : DescOp) (addr : Nat) (have' : List Byte) (parts : List (Nat × Nat)) (got : List (Nat × List Byte))
    (failed : Bool)
  /-- The answer of the Starter, the cycle controller, the Relay or the B-die, on its way (R217): what rd receives when it comes. -/
  | reply (rd : Reg) (v : Dword)
  /-- GR.LAUNCH, whose record is in the intake queue (R244). -/
  | intake (rd : Reg)
  /-- A copy command that waits for the GEN of a remote hurdle, its own or a multicast branch's (R279, R286). -/
  | cpGen (rd : Reg) (entry : Nat) (branch : Option Nat) (tag : Nat)
  /-- An EXCHANGE LAP.END that waits for its copy commands (R98), or for space in the hold queue (R43). -/
  | lapCopies (rd : Reg) (level : Nat)
  deriving DecidableEq, Repr

/-- A wait whose end a baton met out of any slot, and from which its instruction goes on in the next one (R217): the fields of the slot. -/
structure Held where
  wait : Wait
  reason : BitVec 8
  wkey : Dword
  wtime : Dword
  waitLen : Nat
  deriving DecidableEq, Repr

/-- A copy command issued in EXCHANGE at some level, remembered until the lap's arrival (R98). -/
structure LapCopy where
  level : Nat
  handle : Nat
  status : Option Nat
  deriving DecidableEq, Repr

/-- A thread slot with its baton's resident state (R132, R136). -/
structure Slot where
  mode : SlotMode
  x : Vector Dword 32
  v : Vector Vreg 32
  sr : Vector Streg 8
  pc : Dword
  csr : SlotCsrs
  /-- XBATON: the address of the running baton's record in its cluster's scratchpad. -/
  xbaton : Dword
  /-- CTRL [3:2], reserved: as the record held it at the pick-up (R3). -/
  rsv : BitVec 2
  /-- CTRL [31:16], the track. -/
  track : BitVec 16
  /-- CTRL [47:32], the group. -/
  group : BitVec 16
  /-- CTRL [55:48]: the gang size as a log2 above the index. -/
  gangSize : BitVec 4
  gangIdx : BitVec 4
  /-- CTRL [15:8], the wait reason. -/
  reason : BitVec 8
  wkey : Dword
  wtime : Dword
  wait : Wait
  /-- The length in bytes of the waiting instruction, by which its completion advances the pc. -/
  waitLen : Nat
  /-- The SWC at which the baton parked (R95). -/
  parkedAt : Nat
  fvec : Dword
  frame : Dword
  live : Dword
  /-- The wake token (R94). -/
  token : Bool
  /-- The phase at each level 1 to 4, true for EXCHANGE (R98). -/
  phases : BitVec 4
  /-- The copy commands issued in EXCHANGE and not yet arrived for (R98). -/
  lapCopies : List LapCopy
  /-- The reservation of LR: the cell address of its 8 bytes (R193). -/
  reserved : Option Nat
  posted : List Posted
  deferred : List Deferred
  /-- A GANG_DISBAND to be taken at the next instruction: its XUTVAL (R106, R111). -/
  disband : Option Dword
  /-- The image that a CTX.RESTORE has read and not yet taken, with its live mask (R241). -/
  image : Option (List Byte × Dword)
  /-- The entries of a restored replay list that have not yet found room in the dispatch queue: word and sampled values (R104, R111). -/
  replay : List (Word32 × Dword × Dword)
  /-- The scale records that the MM.TILE of a restored frame has read, which it reads once (R164). -/
  scales : KMap (BitVec 32)
  /-- The wait from which the baton goes on once its frame is restored (R217). -/
  goes : Option Held
  /-- The intake sequence number of the launch that the baton descends from (R82). -/
  launch : Nat
  /-- Cycles for which the slot has been eligible and unchosen, and the SWC of its promotion (R103). -/
  unchosen : Nat
  promoted : Option Nat
  deriving DecidableEq, Repr

/-- The CSRs at first start (R136), with the trap vector taken from FVEC. -/
def SlotCsrs.first (fvec : Dword) (role : BitVec 2) : SlotCsrs :=
  { fflags := 0, frm := 0, xutvec := fvec &&& 0x00FFFFFFFFFFFFFE#64, xuepc := 0, xucause := 0, xutval := 0,
    xufmask := 0, xrrb := 0, xmscope := 2, xrole := role, xage := 64, xshare := 4, xgangidx := 0, mfmt := 0, msca := 0,
    mscb := 0, mklen := 0, mmprog := 0, mgrp := 32 }

/-- A slot that holds no baton. The registers of an empty slot are read by nothing; they hold the first-start values of
R133 with ARG, PC and FVEC zero. -/
def Slot.empty : Slot :=
  { mode := .empty, x := Vector.replicate 32 0, v := Vector.replicate 32 0, sr := Vector.replicate 8 1#128, pc := 0,
    csr := SlotCsrs.first 0 0, xbaton := 0, rsv := 0, track := 0, group := 0xFFFF, gangSize := 0, gangIdx := 0, reason := 0,
    wkey := 0, wtime := 0, wait := .none, waitLen := 0, parkedAt := 0, fvec := 0, frame := 0, live := 0, token := false,
    phases := 0, lapCopies := [], reserved := none, posted := [], deferred := [], disband := none, image := none, replay := [], scales := [], goes := none, launch := 0,
    unchosen := 0, promoted := none }

/-- An operand stream port (R152): its panels, oldest first, the overflow bit and the expected-panel count (R276, R278). -/
structure Port where
  panels : List (BitVec 32768)
  ovf : Bool
  exp : BitVec 8
  deriving DecidableEq, Repr

/-- The matrix CSRs that a matrix entry acts under, as they stood when it entered the dispatch queue (R266: a write to a matrix CSR
affects only later entries). -/
structure MatCsr where
  mfmt : Dword
  msca : Dword
  mscb : Dword
  mklen : Dword
  mgrp : BitVec 8
  deriving DecidableEq, Repr

/-- What a dispatch-queue entry does (R248, R266). A vector entry keeps its lane-group occupancy and result latency in cycles, the registers
of its slot that are not ready until it completes (Fetch.lean numbers them), and for a gang-wide instruction the number that its members'
entries share, else 0. A matrix or stream entry keeps its instruction word and the two sampled register values, as the replay list does (R109, R111). -/
inductive DqKind
  | vector (occ lat : Nat) (outs : List Nat) (wide : Nat)
  | matrix (word : Word32) (rs1 : Dword) (rdv : Dword) (csr : MatCsr)
  deriving DecidableEq, Repr

/-- An entry of a core's dispatch queue (R104): its slot, its work, whether it has bound, and the SWC at which a bound entry
completes. Of an MM.TILE (R271): `started` says that it has sampled its inputs, `stalled` names the port on which it stalls, and
`trapped` that it has taken its STREAM_UNDERRUN since its last panel. -/
structure DqEntry where
  slot : Nat
  kind : DqKind
  bound : Bool
  doneAt : Nat
  started : Bool
  stalled : Option Bool
  trapped : Bool
  deriving DecidableEq, Repr

/-- The state that the slots of one core share (R132, R136). -/
structure Core where
  instret : Dword
  owner : Option Nat
  acc : Vector (BitVec 131072) 4
  pmRow : Vector Dword 4
  pmCol : Vector Dword 4
  sta : Port
  stb : Port
  dq : List DqEntry
  /-- The slot last chosen for issue (R103). -/
  lastSlot : Nat
  /-- The slot that last entered an instruction into the dispatch queue, if any has since reset (R104). -/
  lastEntered : Option Nat
  /-- The panel steps that the running MM.TILE has completed (R270), none while no tile runs. -/
  tile : Option Nat
  /-- The scale records that the running MM.TILE has read: row 0 to 63 of A, or 64 plus a column of B, plus 128 times the group
  (R164). -/
  scales : KMap (BitVec 32)
  deriving DecidableEq, Repr

/-- A core at reset: free matrix context, accumulators +0, masks all ones (R153), empty ports and queue. -/
def Core.init : Core :=
  { instret := 0, owner := none, acc := Vector.replicate 4 0, pmRow := Vector.replicate 4 (BitVec.allOnes 64),
    pmCol := Vector.replicate 4 (BitVec.allOnes 64), sta := ⟨[], false, 0⟩, stb := ⟨[], false, 0⟩, dq := [], lastSlot := 3,
    lastEntered := none, tile := none, scales := [] }

/-- One weighted round robin of a Pacer: the queue it stands on and its credit, none before its first opportunity. -/
structure Robin where
  queue : Nat
  credit : Option Nat
  deriving DecidableEq, Repr

/-- A quad (R104): its two round robins, the SWC until which each lane group is busy, and the matrix array's. -/
structure Quad where
  lanes : Robin
  matrix : Robin
  laneBusy : Vector Nat 4
  arrayBusy : Nat
  deriving DecidableEq, Repr

/-- A quad at reset: each round robin stands on queue 0 (R104). -/
def Quad.init : Quad :=
  { lanes := ⟨0, none⟩, matrix := ⟨0, none⟩, laneBusy := Vector.replicate 4 0, arrayBusy := 0 }

/-- A baton on a ready queue: its record and the order of its enqueue (R90, R91). -/
structure Ready where
  record : Nat
  order : Nat
  launch : Nat
  deriving DecidableEq, Repr

/-- A baton out of any slot, WAITING (R92), with its wait still armed, and the result that a satisfied wait recorded
against it (R94). `preempted` marks reason PREEMPT (R112). -/
structure Away where
  record : Nat
  launch : Nat
  wait : Wait
  waitLen : Nat
  wkey : Dword
  wtime : Dword
  reason : BitVec 8
  preempted : Bool
  satisfied : Bool
  /-- The frame is large (R147). -/
  large : Bool
  posted : List Posted
  deferred : List Deferred
  disband : Option Dword
  lapCopies : List LapCopy
  image : Option (List Byte × Dword)
  scales : KMap (BitVec 32)
  goes : Option Held
  deriving DecidableEq, Repr

/-- A message in a cluster's queue (R231). -/
structure Message where
  rank : Nat
  track : BitVec 16
  data : List Byte
  deriving DecidableEq, Repr

/-- A launch's carve-out and overflow pointer on a cluster (R146, R147). `small` and `large` are the frees' list heads. -/
structure Carve where
  base : Nat
  fin : Nat
  low : Nat
  high : Nat
  xovf : Dword
  small : Dword
  large : Dword
  deriving DecidableEq, Repr

/-- A launch that holds no reservation on a cluster (R146). -/
def Carve.none : Carve := { base := 0, fin := 0, low := 0, high := 0, xovf := 0, small := 0, large := 0 }

/-- The number of a kind, which COPY_DATA carries as its sub-operation. DESIGN CHOICE (log entry 111): the spec does not number them. -/
def CpKind.code : CpKind → Nat
  | .get => 0 | .put => 1 | .xfer => 2 | .feed => 3 | .mcast => 4 | .fill => 5 | .gath => 6 | .scat => 7 | .atom => 8

/-- A destination branch of a multicast (R286): the two doublewords of its list entry, the GEN read for its hurdle, the tag of a
request of its own in flight, its failure, and whether its arrival has been made. -/
structure Branch where
  dst : Dword
  ctl : Dword
  gen : Option (BitVec 32)
  tag : Nat
  status : Option Nat
  failAddr : Nat
  arrived : Bool
  deriving DecidableEq, Repr

/-- A piece of a copy command in flight (R283): its index, where it writes, how many bytes, its branch, the data read so far, and the
tag of the request it waits on, 0 for none. `writing` says that the write leg has been sent. -/
structure Piece where
  idx : Nat
  dst : Nat
  len : Nat
  branch : Nat
  data : Option (List Byte)
  tag : Nat
  writing : Bool
  deriving DecidableEq, Repr

/-- A command entry of a cluster's copy engine (R279, R280), keyed by its entry number. -/
structure CpEntry where
  handle : Dword
  /-- The place of the command in its engine's issue order. -/
  order : Nat
  kind : CpKind
  /-- The issuing core, the issuing baton's record, its track and launch. -/
  cid : Nat
  baton : Nat
  track : BitVec 16
  launch : Nat
  /-- The group registers at issue (R279). -/
  g0 : Dword
  g1 : Dword
  g2 : Dword
  ctl : Dword
  /-- The hurdle's cell and the GEN read at issue (R101, R282); none for a command with no hurdle. -/
  hurdle : Option Nat
  gen : BitVec 32
  /-- The hurdle lies in another cluster, of package `hurdlePkg` (0 for the own one). -/
  remote : Bool
  hurdlePkg : Nat
  /-- How many piece numbers the command has, those begun, and those in flight. -/
  units : Nat
  begun : List Nat
  flight : List Piece
  /-- What the engine has read, each with a status, 0 for OK: of a gather or scatter the entries of its index list by element (R287), of a feed the
  elements of its next panel that READ packets have brought, by address (R285). -/
  reads : KMap (Nat × List Byte)
  /-- Bytes performed so far. -/
  moved : Nat
  status : Nat
  failAddr : Nat
  failed : Bool
  branches : List Branch
  cancelled : Bool
  /-- The issuing instruction still waits for the GEN of a remote hurdle (R279). -/
  gathering : Bool
  /-- The arrival has been sent and is not yet answered. -/
  arriving : Bool
  complete : Bool
  completeAt : Nat
  promise : Nat
  stray : Bool
  told : Bool
  missed : Bool
  dropped : Bool
  deriving DecidableEq, Repr

/-- A compute cluster (R90, R102, R146, R149, R231, R279). -/
structure Cluster where
  /-- The four ready queues by role code, head first. -/
  ready : Vector (List Ready) 4
  /-- The launch of every baton that a queue has lost: it never completes (R221). -/
  lost : List Nat
  /-- The order number of the next enqueue. -/
  nextOrder : Nat
  bufMap : Vector Dword 64
  msgs : Vector (List Message) 8
  xstray : Dword
  /-- The carve-out reservations, by launch (R88, R146). -/
  carves : KMap Carve
  /-- The batons that are out of any slot with a frame, by record (R92). -/
  away : KMap Away
  /-- Wake tokens of batons out of any slot, by record (R94). -/
  tokens : List Nat
  /-- The saves and restores that wait for a page of an overflow frame, by record: none until the page's home answers, then the status with which it
  refuses (R61, R62, R148). -/
  asks : KMap (Option Nat)
  /-- The scopes of the arrivals at the cluster's hurdles, by hurdle: of those counted since the last completion, and of that completion's (R179; log
  entry 127). -/
  hdScope : KMap (Nat × Nat)
  engine : KMap CpEntry
  nextHandle : Nat
  /-- The instruction cache (R194): the naturally aligned 4 bytes of code that it holds, by launch, track and address. -/
  icache : KMap Word32
  /-- The last report to the Starter: its count, the SWC of the report and the reported fields (R87). -/
  rseq : BitVec 16
  reportAt : Nat
  reported : Dword
  deriving DecidableEq, Repr

/-- A cluster at reset. -/
def Cluster.init : Cluster :=
  { ready := Vector.replicate 4 [], lost := [], nextOrder := 0, bufMap := Vector.replicate 64 0, msgs := Vector.replicate 8 [],
    xstray := 0, carves := [], away := [], tokens := [], asks := [], hdScope := [], engine := [], nextHandle := 0, icache := [], rseq := 0, reportAt := 0,
    reported := 0 }

/-- What a gang member's issue of the current instruction came to (R107, R108). -/
inductive MemberDone
  | completed
  | trapped (cause : Nat) (value : Dword) (status : Nat)
  deriving DecidableEq, Repr

/-- A gang, forming or active (R106 to R108), keyed by the cell address of its leader's record. -/
structure Gang where
  log2 : Nat
  track : BitVec 16
  /-- The members' records by member index; none where a member has not joined. -/
  members : List (Option Nat)
  /-- The cores of the member set, by member index (R106). -/
  cids : List Nat
  /-- The member index of the leader. -/
  leader : Nat
  active : Bool
  deadline : Nat
  /-- The bytes of the current instruction, fetched once for every member, and empty between two instructions; and what each member that has
  issued it came to, by index. -/
  code : List Byte
  issued : List (Nat × MemberDone)
  /-- The pc that the leader's issue gave. -/
  nextPc : Dword
  /-- The current instruction is GANG.END (R237). -/
  ending : Bool
  /-- The number of the gang-wide instruction that some members have issued and others have not, 0 for none (R246). -/
  wide : Nat
  deriving DecidableEq, Repr

end Sys2Proof.Machine
end

