-- ==== Sys2Proof/Machine/NetState.lean ====
section
/-!
DEFINITION. The state of packets, links, network interfaces and the gateway (02_links_fabric.md, 03_translation.md), as plain
data.
-/
namespace Sys2Proof.Machine

/-- A directed link between two dies (R29 to R36): up or down, and per VC the sender's S, its copy of F, and the
receiver's F; the failed replays in a row, the VC of the next return, and the errors counted. -/
structure Link where
  up : Bool
  sent : Vector (BitVec 16) 4
  freed : Vector (BitVec 16) 4
  recvFreed : Vector (BitVec 16) 4
  fails : Nat
  nextVc : Nat
  errors : Nat
  /-- The SLOT_SYNC marker in flight in each VC and its reply: the S carried and, in a reply, the occupancy O. -/
  marker : Vector (Option (BitVec 16)) 4
  reply : Vector (Option (BitVec 16 × BitVec 16)) 4
  /-- Rank-table changes and log records of the B-die that the link has lost; it sends them again once the link is up (log entry 104). -/
  owed : List Pkt
  deriving DecidableEq, Repr

/-- A link after training: up, every counter zero (R35). -/
def Link.init : Link :=
  { up := true, sent := Vector.replicate 4 0, freed := Vector.replicate 4 0, recvFreed := Vector.replicate 4 0, fails := 0,
    nextVc := 0, errors := 0, marker := Vector.replicate 4 none, reply := Vector.replicate 4 none, owed := [] }

/-- A translation that an NI holds (R54): a PRESENT page that the die homes. `phys` is the physical page address, `perm` the
bits of R55, highest first read, write, AMO, fetch. -/
structure TcEntry where
  track : BitVec 16
  base : Nat
  log2 : Nat
  far : Bool
  fmod : Nat
  phys : Nat
  ati : Nat
  perm : BitVec 4
  /-- A store or an AMO may use it: an Sv57 leaf had its D bit set (R57). -/
  dirty : Bool
  deriving DecidableEq, Repr

/-- A walk in progress (R54, R56): the request that waits and the SWC of the walk's start. -/
structure Walk where
  id : Nat
  pkt : Pkt
  started : Nat
  deriving DecidableEq, Repr

/-- An entry of a freeze table (R60). -/
structure Freeze where
  cycle : Nat
  track : BitVec 16
  base : Nat
  limit : Nat
  deriving DecidableEq, Repr

/-- A fault record (R61) and the request it holds, none once it is answered. -/
structure FaultRec where
  va : Nat
  track : BitVec 16
  src : BitVec 16
  tag : BitVec 16
  ty : BitVec 8
  cause : BitVec 4
  time : Dword
  action : BitVec 4
  status : BitVec 4
  /-- The order of the append, by which the oldest record is known. -/
  order : Nat
  held : Option Pkt
  deriving DecidableEq, Repr

/-- A free fault record. -/
def FaultRec.free : FaultRec :=
  { va := 0, track := 0, src := 0, tag := 0, ty := 0, cause := 0, time := 0, action := 0, status := 0, order := 0, held := none }

/-- A die's log of invalidation records (R64 to R66): how many records were appended and applied since package reset, and of
each pending one its INDEX and the SWC of its append. `applied` is the INDEX the die has applied up to, `reported` the one
the B-die knows. -/
structure DieLog where
  appended : Nat
  consumed : Nat
  pending : List (Nat × Nat)
  applied : Nat
  reported : Nat
  deriving DecidableEq, Repr

/-- A page move of a Vault (R67 to R69), from one place to another: 0 is the HBM of the die, 1 + m is far-tier module m. -/
structure Move where
  id : Nat
  home : Bool
  vault : Nat
  oldDie : Nat
  newDie : Nat
  track : BitVec 16
  va : Nat
  log2 : Nat
  oldPlace : Nat
  oldPhys : Nat
  newPlace : Nat
  newPhys : Nat
  deriving DecidableEq, Repr

/-- The network interface of one die. -/
structure Ni where
  /-- Track table (R49), 1,024 entries of 128 bits. -/
  trk : KMap (BitVec 128)
  /-- Placement-map replica by track-table index: the 32-byte records that are not zero (R52). -/
  pmap : KMap (KMap (BitVec 256))
  /-- Translation cache (R54), newest first. -/
  tcache : List TcEntry
  /-- Access tables (R58), entry i of target t at key 4096 t + i, as stores wrote them. -/
  acc : KMap Dword
  /-- The copies of access-table entries on which targets act where they differ from `acc` (R51). -/
  accHeld : KMap Dword
  /-- Freeze table (R60). -/
  freeze : List Freeze
  /-- Fault queue (R61), by record number. -/
  fq : KMap FaultRec
  walks : List Walk
  /-- Requests to lines for which an earlier request is in a walk, in arrival order (R183). -/
  behind : List Pkt
  /-- Requests held for MIGRATING pages, in arrival order (R68). -/
  migrating : List Pkt
  /-- Arrivals of LAP.END whose acknowledgement is withheld until their hurdle completes, by hurdle (R229). -/
  lapHeld : List (Nat × Pkt)
  log : DieLog
  /-- Rank-to-coordinate table (R42). -/
  rct : KMap Dword
  /-- Packets held for ranks IN_TRANSIT, in issue order (R43). -/
  rankHold : List Pkt
  /-- Rank packets sent and not yet acknowledged, in issue order (R44). -/
  rankSent : List Pkt
  /-- The die's SWC less the master count, and the correction still to be made (R41). -/
  swcOffset : Int
  swcAdjust : Int
  /-- The count that the die adds or withholds in the next cycle. -/
  swcPending : Int
  /-- Malformed packets counted (R32). -/
  errors : Nat
  deriving DecidableEq, Repr

/-- An NI at package reset. -/
def Ni.init : Ni :=
  { trk := [], pmap := [], tcache := [], acc := [], accHeld := [], freeze := [], fq := [], walks := [], behind := [], migrating := [], lapHeld := [],
    log := { appended := 0, consumed := 0, pending := [], applied := 0, reported := 0 }, rct := [], rankHold := [],
    rankSent := [], swcOffset := 0, swcAdjust := 0, swcPending := 0, errors := 0 }

/-- The reset value of a rank-table entry: INVALID, GATE 1, PLANES 0xFF (R42). -/
def rctReset : Dword := 0x03FE000000000000#64

/-- The outbound half of a stream to another package (R38, R40): the next SEQ, and the packets kept for replay with their plane (8: due to
be sprayed again) and SWC of sending. -/
structure OutStream where
  nextSeq : Nat
  replay : List (Pkt × Nat × Nat)
  deriving DecidableEq, Repr

/-- The inbound half of a stream from another package (R39, R40): every SEQ up to `below` is delivered, and the delivered
ones above it; the deliveries since the last acknowledgement, and its SWC. -/
structure InStream where
  below : Nat
  above : List Nat
  sinceAck : Nat
  ackAt : Nat
  deriving DecidableEq, Repr

/-- The gateway on the X-die (R37 to R40). -/
structure Gateway where
  nextPlane : Nat
  /-- The line table by its hash (R38): line address, track, destination package and SEQ. -/
  lines : KMap (Nat × Nat × Nat × Nat)
  /-- The SWC of the last flit received on each plane. -/
  lastFlit : Vector Nat 8
  out : KMap OutStream
  inn : KMap InStream
  /-- Packets held for order (R39). -/
  reorder : List Pkt
  /-- Packets that have left on a plane, newest last: what the fabric receives from this package. -/
  sprayed : List (Nat × Pkt)
  /-- Packets that have arrived from the fabric and wait for the gateway, by arrival number, each with its plane. -/
  arrivals : KMap (Nat × Pkt)
  /-- The packets that a restored image put into the replay store; no stream refers to them (R20, R27). -/
  restored : List Pkt
  deriving DecidableEq, Repr

/-- The gateway at reset. -/
def Gateway.init : Gateway :=
  { nextPlane := 0, lines := [], lastFlit := Vector.replicate 8 0, out := [], inn := [], reorder := [], sprayed := [], arrivals := [], restored := [] }

/-- What a request in flight is for, so that its reply finds its owner (R177, R279). -/
inductive Owner
  /-- The waiting instruction of the baton whose record is at this cell address. -/
  | baton (record : Nat)
  /-- A posted request of a baton. -/
  | posted (record : Nat)
  /-- Piece `piece` of the command with this handle in cluster `cl`. -/
  | piece (cl : Nat) (handle : Nat) (piece : Nat)
  /-- The hurdle arrival of a copy command. -/
  | copyArrive (cl : Nat) (handle : Nat)
  /-- A multicast branch. -/
  | branch (cl : Nat) (handle : Nat) (branch : Nat)
  /-- An access of the Relay for a node of a run. -/
  | node (run : Nat) (node : Nat)
  /-- A hurdle arrival of the Relay. -/
  | relayArrive (run : Nat) (node : Nat)
  /-- A piece of a host access, a read or a write (R72). -/
  | host (read : Bool)
  /-- The completion record of a launch, of an aborted node of a graph instance, or of a rejected record (R82, R85). -/
  | completion (seq : Nat)
  | nodeRecord (inst : Nat)
  | rejection
  /-- A piece of a graph image (R84). -/
  | grdef
  /-- The access that asks for a page of the overflow frame of the baton with this record (R61, R148). -/
  | frame (record : Nat)
  deriving DecidableEq, Repr

end Sys2Proof.Machine
end

