-- ==== Sys2Proof/Machine/PkgState.lean ====
section
/-!
DEFINITION. The state of the B-die and of the package as a whole (01_package.md, 04_host_launch.md, 05_scheduler.md): the
package management block, boot and identity, the Starter, graphs and stamina, as plain data.
-/
namespace Sys2Proof.Machine

/-- Where a launch stands between intake and completion (R80 to R88). -/
inductive LaunchState
  /-- In the admission queue. -/
  | queued
  /-- A SINGLE launch or a graph node set aside in admission (R85, R86). -/
  | aside
  /-- Admitted, waiting in placement since this SWC. -/
  | placing (since : Nat)
  /-- Placed, or a graph instance that runs its nodes. -/
  | running
  /-- It ends with a status once the writes of its completion record are answered (R82). -/
  | completing (status : Nat) (tags : List Nat)
  deriving DecidableEq, Repr

/-- An outstanding launch in the Starter's launch table. -/
structure Launch where
  record : BitVec 512
  state : LaunchState
  remainder : Nat
  measured : Nat
  /-- The cluster it was placed on. -/
  placed : Option Nat
  /-- A status that it will complete with in place of DONE. -/
  ended : Option Nat
  preempted : Bool
  /-- The graph instance and node that it runs (R85). -/
  node : Option (Nat × Nat)
  deriving DecidableEq, Repr

/-- A version in the graph store (R83, R84). -/
structure GraphVer where
  gnum : Nat
  version : Nat
  current : Bool
  single : Bool
  track : BitVec 16
  nodes : List (BitVec 512)
  succ : List (BitVec 256)
  deriving DecidableEq, Repr

/-- A node of a running graph instance. -/
inductive NodeState
  | waiting | submitted (seq : Nat) | finished (status : Nat)
  deriving DecidableEq, Repr

/-- A running graph instance, keyed by its launch: the position of its version in the graph store's numbering, and its
nodes. -/
structure GraphInst where
  gnum : Nat
  version : Nat
  nodes : List NodeState
  /-- The writes of completion records of nodes that have ended ABORTED, by tag, until they are answered. -/
  writes : List Nat
  deriving DecidableEq, Repr

/-- A graph definition in progress (R84): the reads of the image that are not answered, by tag with their offset, the pieces that have come, whether a
read has failed, and whether the header has been read and the rest asked for. -/
structure GraphCopy where
  gnum : Nat
  addr : Nat
  track : BitVec 16
  parts : List (Nat × Nat)
  got : List (Nat × List Byte)
  failed : Bool
  body : Bool
  deriving DecidableEq, Repr

/-- A launch record in the intake queue (R80): the writes of the host that must be performed before it is taken (R81), the baton of a GR.LAUNCH,
the staging slot of a commit (R75), and whether its track forbids it (R244). -/
structure IntakeRec where
  record : BitVec 512
  after : List Nat
  baton : Option Nat
  slot : Option Nat
  forbidden : Bool
  deriving DecidableEq, Repr

/-- The Starter (R79 to R88, R112, R113). -/
structure Starter where
  seq : Nat
  rejected : Nat
  dropped : Nat
  doneSeq : Nat
  launches : KMap Launch
  /-- The writes of each rejected record's completion record that are not answered, by tag (R82). -/
  rejecting : List (List Nat)
  /-- The intake queue, oldest first (R80). -/
  intake : List IntakeRec
  /-- Slot-cycles occupied since a die's last measurement of energy, by launch × 32 + die (R86). -/
  slotCycles : KMap Nat
  /-- The admission queue, oldest first. -/
  admission : List Nat
  /-- The launches in placement, in admission order. -/
  placement : List Nat
  /-- The SWC of the last placement (R88). -/
  placedAt : Option Nat
  /-- STATUS bytes of the most recent completions, newest first, at most 4,096 (R244). -/
  statuses : List (Nat × Nat)
  graphs : List GraphVer
  instances : KMap GraphInst
  copying : Option GraphCopy
  grstat : Dword
  /-- The resource table by pcluster (R87), with the Starter's own reductions applied. -/
  resources : KMap Dword
  /-- The reservoir in thousandths of a mJ times 1,000 (R28, R86): mJ × 1,600,000, so that one watt for one cycle is one. -/
  reservoir : Int
  /-- Admission stopped by a checkpoint (R23). -/
  stopped : Bool
  prestat : Dword
  preTarget : Nat
  preResume : Bool
  /-- The RESULT that the request in progress will end with. -/
  preResult : Nat
  /-- MSI-X vector 0 messages sent (R74). -/
  msi : Nat
  /-- Completion records written to host physical memory, newest first: address and 32 bytes (R79, R82). -/
  hostWrites : List (Nat × List Byte)
  deriving DecidableEq, Repr

/-- The Starter at reset. -/
def Starter.init : Starter :=
  { seq := 0, rejected := 0, dropped := 0, doneSeq := 0, launches := [], rejecting := [], intake := [], slotCycles := [], admission := [], placement := [],
    placedAt := none, statuses := [], graphs := [], instances := [], copying := none, grstat := 0, resources := [],
    reservoir := 0, stopped := false, prestat := 0, preTarget := 0, preResume := false, preResult := 0, msi := 0, hostWrites := [] }

/-- Where the boot ROM stands (R76). -/
inductive BootStep | hbm | link | address | fetch | verify | running | rejected
  deriving DecidableEq, Repr

/-- The certificate of a boot key by the identity key (R78): the key, the verified image's VERSION and SHAKE256 digest, and the fuse state: the digest
and the least VERSION that the fuses hold (R77). -/
structure Certificate where
  key : BitVec 544
  version : Nat
  digest : BitVec 256
  fuseDigest : BitVec 256
  fuseMinVersion : Nat
  deriving DecidableEq, Repr

/-- The boot ROM and the security block (R76 to R78). The identity key's leaf counter
survives a package reset; the fuses are constants of Config. -/
structure Boot where
  step : BootStep
  restarts : BitVec 12
  /-- The device's IPv6 address, the boot file address learned from DHCPv6, and its file name. -/
  address : Nat
  server : Nat
  file : List Byte
  /-- Blocks received, in order, and the size announced by tsize. -/
  image : List Byte
  blocks : Nat
  tsize : Option Nat
  complete : Bool
  /-- Resends of the present block and the SWC of the last send. -/
  resends : Nat
  sentAt : Nat
  waitUntil : Option Nat
  /-- The OS cores run at this image entry offset. -/
  entry : Option Nat
  /-- The verified image's VERSION. -/
  version : Nat
  /-- Power-ons that the identity key has certified (R78). -/
  leaf : Nat
  /-- Quotes that the boot key may still sign. -/
  quotes : Nat
  /-- The TFTP packets that the boot ROM has sent to the server, newest first (R76). -/
  sent : List (List Byte)
  /-- The present boot follows a power-on, whose boot key is still to be certified (R78). -/
  powered : Bool
  /-- The certificate of the present power-on, held in the security block (R78). -/
  certificate : Option Certificate
  deriving DecidableEq, Repr

/-- The bank power state of one die (R155 to R157), by word and bit of the map: the SWC at which a wake ends, and whether a
gate write is held behind it. A bank that is listed in `off` is gated. -/
structure Power where
  off : List (Nat × Nat)
  waking : List (Nat × Nat × Nat)
  gateHeld : List (Nat × Nat)
  /-- The accesses that wait for a bank, in arrival order (R156, R157): word, bit, the key of the party, and what tells the access from a later
  one of that party (the pc of a slot, the place of a copy command in its engine's order, else 0). -/
  waiters : List (Nat × Nat × Nat × Dword)
  /-- Records and frames that the hardware has written during a wake: they outlast the zeroing at its end (R156). -/
  late : List (Nat × List Byte)
  deriving DecidableEq, Repr

/-- All banks powered (R155). -/
def Power.init : Power := { off := [], waking := [], gateHeld := [], waiters := [], late := [] }

/-- The package management block and the package-wide facilities that have no other home. -/
structure Pkg where
  ready : Dword
  ckctl : Dword
  ckstat : Dword
  /-- A reset request held by a checkpoint (R25), and whether the copy that runs was started by START. -/
  resetHeld : Bool
  copyAfter : Bool
  /-- No checkpoint or quiesce since package reset: RESTORE is accepted (R25). -/
  sinceReset : Bool
  /-- The restore in progress has checked every image and writes them back (R27). -/
  writeBack : Bool
  copyStart : Nat
  rlytim0 : Dword
  rlytim1 : Dword
  lnctl : Dword
  grtrk : Dword
  stamcfg : Dword
  trkimg : Dword
  pmapimg : Dword
  logbase : Dword
  trkstat : Dword
  trkIndex : Nat
  staging : Vector (BitVec 512) 16
  power : KMap Power
  /-- The next INDEX less one: the last one assigned (R64). -/
  ivlIndex : Nat
  moves : List Move
  nextMove : Nat
  /-- Dies that are throttled for temperature (R17). -/
  throttled : List Nat
  /-- F-dies and X-die that are in reset (R17, R66); a C-die's CDIE bit says the same of it. -/
  inReset : List Nat
  /-- Malformed packets and link errors reported to the B-die (R32). -/
  reports : Nat
  /-- Failures of host accesses recorded by AER (R72). -/
  aer : Nat
  /-- Completions returned to host reads, newest first: the data, or none for Unsupported Request; true marks poison. -/
  hostReads : List (Option (List Byte) × Bool)
  /-- The fabric address of the package, 0 while it has none (R96). -/
  fabric : Nat
  /-- The B-die's own copy of the rank-to-coordinate table, which a returning die receives (R42). -/
  rct : KMap Dword
  /-- The multiples of 1,024 of the SWC at which READY batons have aged (R91). -/
  aged : Nat
  deriving DecidableEq, Repr

end Sys2Proof.Machine
end

