-- ==== Sys2Proof/Machine/CtlState.lean ====
section
/-!
DEFINITION. The state of the Relay (06_relay_collectives.md) and of the cycle controller (14_isa_stat_cycle.md), as plain
data.
-/
namespace Sys2Proof.Machine

/-- The header of a plan (R118). -/
structure PlanHdr where
  kind : Nat
  dtype : Nat
  oper : Nat
  group : Nat
  nodes : Nat
  nsucc : Nat
  count : Nat
  bufBytes : Nat
  deriving DecidableEq, Repr

/-- A plan-store slot's contents (R118, R316): the header, the node records and successor entries of a custom plan, the
issues and completed runs. -/
structure Plan where
  pid : Nat
  hdr : PlanHdr
  nodes : List (BitVec 256)
  succ : List Nat
  /-- Runs opened so far; run numbers count from 1. -/
  opened : Nat
  /-- Completed runs that a rank was a member of and never joined, oldest first, by rank: its next CL.RUNs join them (R120). -/
  missed : KMap (List Nat)
  /-- Statuses of the most recent runs, newest first, at most 64 (R318). -/
  statuses : List (Nat × Nat)
  deriving DecidableEq, Repr

/-- A group record (R117): its generation, track and ranks, and whether CL.GRP has defined it. -/
structure Group where
  gen : BitVec 32
  track : BitVec 16
  ranks : List Nat
  defined : Bool
  deriving DecidableEq, Repr

/-- A group that nothing has defined. -/
def Group.init : Group := { gen := 0, track := 0, ranks := [], defined := false }

/-- A member of a run (R120): its rank, its base table and the GENs read at the join, by node. -/
structure RunMember where
  rank : Nat
  /-- The launch of the baton that joined. -/
  launch : Nat
  joined : Bool
  bases : List Dword
  gens : KMap (BitVec 32)
  withdrawn : Bool
  deriving DecidableEq, Repr

/-- What a node does (R119). -/
inductive NodeKind | nop | load | reduce | store | arrive
  deriving DecidableEq, Repr

/-- Where a node stands (R122). -/
inductive NodePhase | idle | begun | ended
  deriving DecidableEq, Repr

/-- A node of a run: from the plan for CUSTOM, generated by the sequencer for a standard kind (R124). `pos` is how many of
its member-memory bytes have moved, `raw` the bytes read that do not yet make an element, `tag` the request it waits on, `chunk` the
chunk of a standard kind. -/
structure RunNode where
  kind : NodeKind
  base : Nat
  member : Nat
  off : Nat
  boff : Nat
  bytes : Nat
  succ : List Nat
  counter : Nat
  phase : NodePhase
  pos : Nat
  raw : List Byte
  tag : Nat
  status : Nat
  chunk : Option Nat
  deriving DecidableEq, Repr

/-- A run (R120 to R130). -/
structure Run where
  slot : Nat
  number : Nat
  group : Nat
  gen : BitVec 32
  track : BitVec 16
  hdr : PlanHdr
  members : List RunMember
  nodes : List RunNode
  /-- The chunk buffer; an unlisted byte reads as the identity of the plan's type (R121). -/
  buf : KMap Byte
  /-- The chunks whose first contribution has been loaded. -/
  loaded : List Nat
  /-- The stall timer's value and the SWC since which it counts, none while it is stopped (R130). -/
  timer : Nat
  runningSince : Option Nat
  stall : Nat
  pauseLim : Nat
  rsvrel : Nat
  /-- CANCELLED, TIMEOUT or LINK_DOWN, where one ended the run (R130). -/
  ended : Option Nat
  partialMembers : Bool
  reserved : Bool
  deriving DecidableEq, Repr

/-- A pause in effect for a rank (R129, R321). -/
structure Pause where
  rank : Nat
  started : Nat
  limit : Nat
  deriving DecidableEq, Repr

/-- The Relay (R115). -/
structure Relay where
  plans : KMap Plan
  /-- LGEN of each plan-store slot (R316). -/
  lgen : KMap (BitVec 16)
  groups : KMap Group
  runs : KMap Run
  nextRun : Nat
  pauses : List Pause
  deriving DecidableEq, Repr

/-- The Relay at reset. -/
def Relay.init : Relay := { plans := [], lgen := [], groups := [], runs := [], nextRun := 1, pauses := [] }

/-- The states of a cycle record (R303). -/
inductive CycState | idle | opened | iterating | converged | inexact | diverged | backward | closed | aborted
  deriving DecidableEq, Repr

/-- The code of a state (R303). -/
def CycState.code : CycState → Nat
  | .idle => 0
  | .opened => 1
  | .iterating => 2
  | .converged => 3
  | .inexact => 4
  | .diverged => 5
  | .backward => 6
  | .closed => 7
  | .aborted => 8

/-- A block's slot (R303): its passed value, its residual contribution and its NEXT flag. -/
structure CycSlot where
  passed : Option Dword
  res : Streg
  next : Bool
  deriving DecidableEq, Repr

/-- An empty slot. -/
def CycSlot.init : CycSlot := { passed := none, res := 1#128, next := false }

/-- A cycle record (R302, R303). -/
structure CycRec where
  state : CycState
  fwdstat : Nat
  bwdstat : Nat
  dir : Bool
  iter : Nat
  res : Streg
  out : Dword
  adj : Dword
  slots : List CycSlot
  track : BitVec 16
  seq : Nat
  launch : Nat
  nbm1 : Nat
  limit : Nat
  blimit : Nat
  tol2 : Nat
  start : Dword
  ranges : List (Nat × Nat)
  deriving DecidableEq, Repr

/-- A record at reset: IDLE. -/
def CycRec.init : CycRec :=
  { state := .idle, fwdstat := 0, bwdstat := 0, dir := false, iter := 0, res := 1#128, out := 0, adj := 0, slots := [],
    track := 0, seq := 0, launch := 0, nbm1 := 0, limit := 0, blimit := 0, tol2 := 0, start := 0, ranges := [] }

/-- A posted request to the cycle controller (R304): CYC.RES or CYC.PASS of a baton, in issue order. -/
structure CycReq where
  record : Nat
  tag : Nat
  handle : Dword
  track : BitVec 16
  res : Option Streg
  value : Dword
  deriving DecidableEq, Repr

/-- The cycle controller (R301 to R314). -/
structure CycCtl where
  recs : KMap CycRec
  lastSeq : Nat
  queue : List CycReq
  deriving DecidableEq, Repr

/-- The cycle controller at reset. -/
def CycCtl.init : CycCtl := { recs := [], lastSeq := 0, queue := [] }

end Sys2Proof.Machine
end

