-- ==== Sys2Proof/Machine/State.lean ====
section
/-!
DEFINITION. The state of the whole module as plain data, its reset value, and the reasons for which a step can stop.

One step of the model is one row of the opcode table (95_what_each_step_holds.md). The parts of the module act side by side;
their interleaving is plain data in the state: `agenda` lists which step comes next, and where it is empty the step
function itself picks one (Step.lean).
-/
namespace Sys2Proof.Machine

/-- The reasons for which the machine stops with a fault. The spec gives every trap, refusal and failed access of the module an
effect, and each is a next state of this model: no step stops the machine, and there is no reason to name. Safe. -/
inductive Fault
  deriving DecidableEq, Repr

/-- The reasons for which a step has no meaning. -/
inductive Refusal
  /-- Raised by `exec` alone, for an instruction that has no meaning in this model. Safe: nothing is claimed of it. -/
  | notModelled (mnemonic : String)
  deriving DecidableEq, Repr

/-- What happens next, where the state says so. -/
inductive Turn
  /-- An event, or an instruction given to the focus slot. -/
  | event (i : Instr)
  /-- The slot with this key issues its next instruction. -/
  | slot (key : Nat)
  /-- The stopwatch counters advance by `n` counts. -/
  | tick (n : Nat)
  /-- Piece `piece` of entry `entry` of a cluster's copy engine moves. -/
  | piece (cl entry piece : Nat)
  /-- The wait of the baton whose record is at this cell address is looked at. -/
  | poll (record : Nat)
  deriving DecidableEq, Repr

/-- What the control-state image of one checkpoint holds (R26): the Starter, the cycle records and freeze tables, the Relay, the rank and track
tables, and the clusters with their engines. The spec does not give its encoding: its bytes are free values, from number `start` on, `len` of
them (log entry 21). -/
structure Saved where
  start : Nat
  len : Nat
  starter : Starter
  cyc : CycCtl
  relay : Relay
  nis : KMap Ni
  clusters : KMap Cluster
  /-- The rank-to-coordinate table of the B-die, and the packets in the gateway's replay store (R20, R26). -/
  rct : KMap Dword
  stored : List Pkt
  deriving DecidableEq, Repr

/-- The state of the module. Tables list only what differs from their reset value. -/
structure State where
  /-- Every byte of SRAM, HBM and far tier that is not zero, by cell address (Mem.lean lays the cell addresses out). -/
  mem : List Host.Cell
  /-- Cell addresses of 64-byte lines that carry an uncorrectable error. -/
  poison : List Nat
  /-- Thread slots by slot key: CID × 4 + slot number. -/
  slots : KMap Slot
  /-- Cores by CID. -/
  cores : KMap Core
  /-- Quads by pcluster × 4 + quad. -/
  quads : KMap Quad
  /-- Clusters by pcluster. -/
  clusters : KMap Cluster
  /-- Gangs by the record of the baton that leads them. -/
  gangs : KMap Gang
  /-- Network interfaces by die. -/
  nis : KMap Ni
  /-- Links by source die × 32 + destination die. -/
  links : KMap Link
  /-- Packets accepted by an NI and not yet delivered, by packet number. -/
  net : KMap Pkt
  nextPkt : Nat
  /-- What each outstanding request is for, by tag. -/
  owners : KMap Owner
  nextTag : Nat
  gateway : Gateway
  starter : Starter
  boot : Boot
  pkg : Pkg
  relay : Relay
  cyc : CycCtl
  /-- The reservations that batons of other packages hold on locations of this one (R193): the aligned address of the 8 bytes, by party. -/
  farReserved : KMap Nat
  /-- The master stopwatch counter (R13, R41). -/
  swc : Nat
  /-- The slot whose instructions the step issues when the agenda is empty. -/
  focus : Nat
  agenda : List Turn
  /-- How many free values have been used. -/
  fresh : Nat
  /-- The control states of the checkpoints that have been written, newest first. -/
  saved : List Saved
  deriving DecidableEq, Repr

/-- The boot ROM at package reset (R76): BOOTSTAT reads 0. -/
def Boot.init : Boot :=
  { step := .hbm, restarts := 0, address := 0, server := 0, file := [], image := [], blocks := 0, tsize := none,
    complete := false, resends := 0, sentAt := 0, waitUntil := none, entry := none, version := 0, leaf := 0, quotes := 0, sent := [], powered := false, certificate := none }

/-- The package management block at package reset: the reset values of R18, R21, R22, R51, R73, R74, R86, R113, R116 and R155.
TRKIMG, PMAPIMG and LOGBASE have none in the spec; zero is the model's choice (log entry 2). -/
def Pkg.init : Pkg :=
  { ready := 0, ckctl := 0, ckstat := 0, resetHeld := false, copyAfter := false, sinceReset := true, writeBack := false, copyStart := 0,
    rlytim0 := 0x001E84800000C350#64, rlytim1 := 10000#64, lnctl := 0, grtrk := 0, stamcfg := 0x0001000000000E10#64,
    trkimg := 0, pmapimg := 0, logbase := 0, trkstat := 0, trkIndex := 0, staging := Vector.replicate 16 0, power := [],
    ivlIndex := 0, moves := [], nextMove := 1, throttled := [], inReset := [], reports := 0, aer := 0,
    hostReads := [], fabric := 0, rct := [], aged := 0 }

/-- The module right after package reset. -/
def State.reset : State :=
  { mem := [], poison := [], slots := [], cores := [], quads := [], clusters := [], gangs := [], nis := [], links := [],
    net := [], nextPkt := 1, owners := [], nextTag := 1, gateway := Gateway.init, starter := Starter.init,
    boot := Boot.init, pkg := Pkg.init, relay := Relay.init, cyc := CycCtl.init, farReserved := [], swc := 0, focus := 0, agenda := [],
    fresh := 0, saved := [] }

end Sys2Proof.Machine
end

