-- ==== Sys2Proof/Machine/Mem.lean ====
section
/-!
DEFINITION. Memory: cell addresses, bytes, little-endian values (R1), and the numbers of dies, cores and clusters (R9 to R12).

A cell address is a natural number that names one byte of the module: every TCM and scratchpad at its copy-aperture address
(R50), then die shared SRAM, HBM and far tier above 2^64. A byte that the memory does not list reads as zero.
-/
namespace Sys2Proof.Machine

/-- The memory: bytes by cell address, in rising order, none of them zero. -/
abbrev Memory := List Host.Cell

/-- What a byte that the memory does not list reads as. DESIGN CHOICE (log entry 1): the spec gives SRAM, HBM and far tier no
contents after reset. -/
def memDefault : Byte := 0#8

/-- The canonical form: addresses strictly rising, and no byte listed that reads as an unlisted one. -/
abbrev Memory.wf (m : Memory) : Prop := kwf m = true ∧ ∀ p ∈ m, p.2 ≠ memDefault

/-- One byte. -/
def readByte (m : Memory) (a : Nat) : Byte := kget memDefault m a

/-- The memory with one byte written; writing the default removes the entry. -/
def writeByte (m : Memory) (a : Nat) (b : Byte) : Memory := if b = memDefault then kdel a m else kset a b m

/-- `n` bytes from an address upwards. -/
def readBytes (m : Memory) (a : Nat) : Nat → List Byte
  | 0 => []
  | n + 1 => readByte m a :: readBytes m (a + 1) n

/-- The memory with a list of bytes written from an address upwards. -/
def writeBytes (m : Memory) (a : Nat) : List Byte → Memory
  | [] => m
  | b :: r => writeBytes (writeByte m a b) (a + 1) r

/-- A little-endian value of `n` bytes (R1). -/
def readLE (m : Memory) (a n : Nat) : Nat := natLE (readBytes m a n)

/-- The memory with a little-endian value of `n` bytes written. -/
def writeLE (m : Memory) (a n v : Nat) : Memory := writeBytes m a (bytesLE n v)

/-! ## Dies, cores and clusters -/

/-- The C-dies (R9). -/
def isCDie (d : Nat) : Bool := decide (d < 12)
/-- The F-dies. -/
def isFDie (d : Nat) : Bool := d == 16 || d == 17
/-- The X-die. -/
def xDie : Nat := 24
/-- The B-die. -/
def bDie : Nat := 28
/-- Is a die number assigned (R9, R10). -/
def isDie (d : Nat) : Bool := isCDie d || isFDie d || d == xDie || d == bDie
/-- Every die of the package. -/
def allDies : List Nat := List.range 12 ++ [16, 17, 24, 28]

/-- Fields of a CID (R11). -/
def cidDie (cid : Nat) : Nat := cid / 2 ^ 11
/-- See `cidDie`. -/
def cidRow (cid : Nat) : Nat := cid / 2 ^ 6 % 2 ^ 5
/-- See `cidDie`. -/
def cidCol (cid : Nat) : Nat := cid % 2 ^ 6
/-- Does a CID name a compute core (R11). -/
def isCore (cid : Nat) : Bool := isCDie (cidDie cid) && decide (cidRow cid < 16) && decide (cidCol cid < 24)
/-- Does a CID name an OS core (R11). -/
def isOsCore (cid : Nat) : Bool := cidDie cid == bDie && cidRow cid == 0 && decide (cidCol cid < 16)
/-- The cluster within the die (R12). -/
def cidCluster (cid : Nat) : Nat := cidRow cid / 4 * 6 + cidCol cid / 4
/-- The quad within the cluster (R12). -/
def cidQuad (cid : Nat) : Nat := cidRow cid / 2 % 2 * 2 + cidCol cid / 2 % 2
/-- The core within the quad (R12). -/
def cidCore (cid : Nat) : Nat := cidRow cid % 2 * 2 + cidCol cid % 2
/-- The pcluster (R12). -/
def cidPcl (cid : Nat) : Nat := cidDie cid * 24 + cidCluster cid
/-- The member index in the cluster (R12). -/
def cidMember (cid : Nat) : Nat := cidQuad cid * 4 + cidCore cid
/-- The CID from its fields. -/
def mkCid (die row col : Nat) : Nat := die * 2 ^ 11 + row * 2 ^ 6 + col
/-- The core with a member index in a cluster. -/
def coreOf (pcl member : Nat) : Nat :=
  let cl := pcl % 24
  mkCid (pcl / 24) (cl / 6 * 4 + member / 8 * 2 + member / 2 % 2) (cl % 6 * 4 + member / 4 % 2 * 2 + member % 2)
/-- The key of a naturally aligned 4 bytes of code in an instruction cache: the launch that fetched it, its track and its number (R194). -/
def icKey (launch : Nat) (tk : BitVec 16) (u : Nat) : Nat := (launch * 2 ^ 16 + tk.toNat) * 2 ^ 62 + u
/-- The launch in an instruction cache's key. -/
def icLaunch (key : Nat) : Nat := key / 2 ^ 78
/-- The key of a slot. -/
def slotKey (cid slot : Nat) : Nat := cid * 4 + slot
/-- The core of a slot key. -/
def keyCid (k : Nat) : Nat := k / 4
/-- The slot number of a slot key. -/
def keySlot (k : Nat) : Nat := k % 4
/-- The cluster of a slot key. -/
def keyPcl (k : Nat) : Nat := cidPcl (k / 4)
/-- The die of a slot key. -/
def keyDie (k : Nat) : Nat := cidDie (k / 4)

/-! ## Cell addresses -/

/-- A byte of a TCM (R50). -/
def tcmCell (cid off : Nat) : Nat := 0x00F000000000 + cid * 2 ^ 18 + off
/-- A byte of a cluster scratchpad (R50). -/
def spadCell (pcl off : Nat) : Nat := 0x00F800000000 + pcl / 24 * 2 ^ 27 + pcl % 24 * 2 ^ 22 + off
/-- A byte of a die shared SRAM. -/
def dsramCell (die off : Nat) : Nat := 2 ^ 64 + die * 2 ^ 32 + off
/-- A byte of an HBM stack. -/
def hbmCell (die pa : Nat) : Nat := 2 ^ 72 + die * 2 ^ 64 + pa
/-- A byte of a far-tier module. -/
def farCell (modul pa : Nat) : Nat := 2 ^ 80 + modul * 2 ^ 64 + pa
/-- Bytes of an HBM stack (R9, R14). -/
def hbmSize : Nat := 48000000000
/-- Bytes of a far-tier module (R14). -/
def farSize : Nat := 512000000000

/-- The base of a scratchpad among a core's own addresses (R50, R143). -/
def spadBase : Nat := 0x400000
/-- The end of its lower 3 MiB, as an offset. -/
def spadLow : Nat := 0x300000
/-- The bank of the power map that a cell lies in: die, word and bit (R155); none for HBM and far tier. -/
def bankOf (a : Nat) : Option (Nat × Nat × Nat) :=
  if 0x00F000000000 ≤ a ∧ a < 0x00F400000000 then
    let cid := (a - 0x00F000000000) / 2 ^ 18
    let k := cidRow cid * 24 + cidCol cid
    some (cidDie cid, 2 + k / 64, k % 64)
  else if 0x00F800000000 ≤ a ∧ a < 0x00F900000000 then
    let o := a - 0x00F800000000
    some (o / 2 ^ 27, 1, o / 2 ^ 22 % 32)
  else if 2 ^ 64 ≤ a ∧ a < 2 ^ 72 then
    let o := a - 2 ^ 64
    some (o / 2 ^ 32, 0, o / 2 ^ 20 % 64)
  else none

end Sys2Proof.Machine
end

