-- ==== Sys2Proof/Machine/Access.lean ====
section
/-!
DEFINITION. Accessors: the one way to read and write slots, registers, cores, clusters, network interfaces and links, the
stopwatch counters, power-gated banks, and stores that clear reservations.
-/
namespace Sys2Proof.Machine

/-! ## Tables -/

/-- The slot with a key. -/
def State.slotAt (s : State) (k : Nat) : Slot := kget Slot.empty s.slots k
/-- The state with a slot set. -/
def State.setSlotAt (s : State) (k : Nat) (t : Slot) : State := { s with slots := kset k t s.slots }
/-- The focus slot, whose instruction a meaning executes. -/
def State.me (s : State) : Slot := s.slotAt s.focus
/-- The state with the focus slot set. -/
def State.setMe (s : State) (t : Slot) : State := s.setSlotAt s.focus t
/-- The core with a CID. -/
def State.core (s : State) (cid : Nat) : Core := kget Core.init s.cores cid
/-- The state with a core set. -/
def State.setCore (s : State) (cid : Nat) (c : Core) : State := { s with cores := kset cid c s.cores }
/-- The core of the focus slot. -/
def State.myCid (s : State) : Nat := keyCid s.focus
/-- The cluster of the focus slot. -/
def State.myPcl (s : State) : Nat := keyPcl s.focus
/-- The die of the focus slot. -/
def State.myDie (s : State) : Nat := keyDie s.focus
/-- A quad. -/
def State.quad (s : State) (q : Nat) : Quad := kget Quad.init s.quads q
/-- The state with a quad set. -/
def State.setQuad (s : State) (q : Nat) (x : Quad) : State := { s with quads := kset q x s.quads }
/-- A cluster. -/
def State.cluster (s : State) (p : Nat) : Cluster := kget Cluster.init s.clusters p
/-- The state with a cluster set. -/
def State.setCluster (s : State) (p : Nat) (c : Cluster) : State := { s with clusters := kset p c s.clusters }
/-- The NI of a die. -/
def State.ni (s : State) (d : Nat) : Ni := kget Ni.init s.nis d
/-- The state with an NI set. -/
def State.setNi (s : State) (d : Nat) (n : Ni) : State := { s with nis := kset d n s.nis }
/-- The link from one die to another. -/
def State.link (s : State) (a b : Nat) : Link := kget Link.init s.links (a * 32 + b)
/-- The state with a link set. -/
def State.setLink (s : State) (a b : Nat) (l : Link) : State := { s with links := kset (a * 32 + b) l s.links }
/-- The bank power of a die. -/
def State.power (s : State) (d : Nat) : Power := kget Power.init s.pkg.power d
/-- The state with a die's bank power set. -/
def State.setPower (s : State) (d : Nat) (p : Power) : State :=
  { s with pkg := { s.pkg with power := kset d p s.pkg.power } }

/-! ## Registers -/

/-- An x register of a slot; x0 reads zero (R132). -/
def Slot.getX (t : Slot) (r : Reg) : Dword := if r = 0#5 then 0#64 else t.x[r.toNat]'r.isLt
/-- A slot with an x register written; a write to x0 is discarded (R132, R197). -/
def Slot.setX (t : Slot) (r : Reg) (v : Dword) : Slot :=
  if r = 0#5 then t else { t with x := t.x.set r.toNat v r.isLt }
/-- The physical register that a v-register number names under XRRB (R134). -/
def vphys (xrrb : BitVec 4) (r : Reg) : Fin 32 :=
  if r.toNat < 16 then ⟨r.toNat, r.isLt⟩
  else ⟨16 + (r.toNat - 16 + xrrb.toNat) % 16, by have := Nat.mod_lt (r.toNat - 16 + xrrb.toNat) (y := 16); omega⟩
/-- A v register by the number as written (R134, R197). -/
def Slot.getV (t : Slot) (r : Reg) : Vreg := t.v[(vphys t.csr.xrrb r).val]
/-- A slot with a v register written. -/
def Slot.setV (t : Slot) (r : Reg) (v : Vreg) : Slot := { t with v := t.v.set (vphys t.csr.xrrb r).val v }
/-- An st register. -/
def Slot.getSt (t : Slot) (r : BitVec 3) : Streg := t.sr[r.toNat]'r.isLt
/-- A slot with an st register written. -/
def Slot.setSt (t : Slot) (r : BitVec 3) (v : Streg) : Slot := { t with sr := t.sr.set r.toNat v r.isLt }

/-- An x register of the focus slot. -/
def State.x (s : State) (r : Reg) : Dword := s.me.getX r
/-- The state with an x register of the focus slot written. -/
def State.setX (s : State) (r : Reg) (v : Dword) : State := s.setMe (s.me.setX r v)
/-- A v register of the focus slot. -/
def State.v (s : State) (r : Reg) : Vreg := s.me.getV r
/-- The state with a v register of the focus slot written. -/
def State.setV (s : State) (r : Reg) (v : Vreg) : State := s.setMe (s.me.setV r v)
/-- An st register of the focus slot. -/
def State.st (s : State) (r : BitVec 3) : Streg := s.me.getSt r
/-- The state with an st register of the focus slot written. -/
def State.setSt (s : State) (r : BitVec 3) (v : Streg) : State := s.setMe (s.me.setSt r v)

/-! ## Stopwatch counters and readiness -/

/-- A die's stopwatch counter (R13, R41). -/
def State.swcAt (s : State) (d : Nat) : Nat := ((s.swc : Int) + (s.ni d).swcOffset).toNat
/-- The counter of the focus slot's die. -/
def State.mySwc (s : State) : Nat := s.swcAt s.myDie
/-- A PKREADY bit (R18). -/
def State.readyBit (s : State) (b : Nat) : Bool := s.pkg.ready.getLsbD b
/-- The state with a PKREADY bit set or cleared. -/
def State.setReady (s : State) (b : Nat) (on : Bool) : State :=
  let m : Dword := 1#64 <<< b
  { s with pkg := { s.pkg with ready := if on then s.pkg.ready ||| m else s.pkg.ready &&& ~~~m } }
/-- Is a die up: a C-die by its CDIE bit (R18), every other die while it is not in reset (R17, R66). -/
def State.dieUp (s : State) (d : Nat) : Bool :=
  if isCDie d then s.readyBit d else isDie d && !s.pkg.inReset.contains d
/-- Is the link between two dies up (R30); a die reaches itself. -/
def State.linkUp (s : State) (a b : Nat) : Bool := a == b || ((s.link a b).up && (s.link b a).up)

/-- A launch by its sequence number. -/
def State.launchOf (s : State) (seq : Nat) : Option Launch := kfind s.starter.launches seq
/-- Is a launch pre-empted: the dispatcher passes over its READY batons (R112). -/
def State.launchHeld (s : State) (launch : Nat) : Bool :=
  match s.launchOf launch with
  | some l => l.preempted || (match l.node with | some (g, _) => (match s.launchOf g with | some gl => gl.preempted | none => false) | none => false)
  | none => false
/-- Can a cluster's dispatcher pick up a baton: one is READY that it may take, and a slot is free (R91). -/
def State.canDispatch (s : State) (pcl : Nat) : Bool :=
  s.dieUp (pcl / 24) && ((s.cluster pcl).ready.toList.any fun q => q.any fun r => !s.launchHeld r.launch) &&
    (List.range 16).any fun m => (List.range 4).any fun i => (s.slotAt (slotKey (coreOf pcl m) i)).mode == .empty

/-! ## Power-gated banks (R155 to R157) -/

/-- The bank holds no data: a gate write took effect and no wake has started. -/
def State.bankOff (s : State) (b : Nat × Nat × Nat) : Bool := (s.power b.1).off.contains (b.2.1, b.2.2)
/-- A wake of the bank is in progress. -/
def State.bankWaking (s : State) (b : Nat × Nat × Nat) : Bool :=
  (s.power b.1).waking.any fun w => w.1 == b.2.1 && w.2.1 == b.2.2
/-- Is the bank powered, with no wake in progress. -/
def State.bankUp (s : State) (b : Nat × Nat × Nat) : Bool := !s.bankOff b && !s.bankWaking b
/-- Every bank that a list of cells lies in is powered. -/
def State.banksReady (s : State) (cells : List Nat) : Bool := (cells.filterMap bankOf).all s.bankUp
/-- The key under which a packet waits for banks. -/
def pktKey (pid : Nat) : Nat := 2 ^ 32 + pid
/-- The key of a piece of a copy command. -/
def pieceKey (pcl entry piece : Nat) : Nat := 2 ^ 128 + (pcl * 256 + entry) * 2 ^ 64 + piece
/-- The key of the matrix unit and the dispatch queue of a core. -/
def unitKey (cid : Nat) : Nat := 2 ^ 96 + cid
/-- The key of a cluster's dispatcher. -/
def schedKey (pcl : Nat) : Nat := 2 ^ 112 + pcl
/-- The key of the Starter's placement on a cluster. -/
def placeKey (pcl : Nat) : Nat := 2 ^ 120 + pcl
/-- Does a party still wait with the access that it was recorded with: a slot at that pc, a packet in flight, a copy command that has not ended, a
core with queue entries, a dispatcher that can pick up a baton. A placement holds up nothing (log entry 128). -/
def State.liveWaiter (s : State) (key : Nat) (stamp : Dword) : Bool :=
  if key < 2 ^ 32 then (s.slotAt key).mode != .empty && (s.slotAt key).pc == stamp
  else if key < 2 ^ 96 then (kfind s.net (key - 2 ^ 32)).isSome
  else if key < 2 ^ 112 then (s.core (key - 2 ^ 96)).dq != []
  else if key < 2 ^ 120 then s.canDispatch (key - 2 ^ 112)
  else if key < 2 ^ 128 then false
  else
    let e := (key - 2 ^ 128) / 2 ^ 64
    match kfind (s.cluster (e / 256)).engine (e % 256) with
    | some c => BitVec.ofNat 64 c.order == stamp && !c.complete && !c.cancelled
    | none => false
/-- Does no earlier access wait for a bank that a party reaches (R156, R157). -/
def State.bankTurn (s : State) (key : Nat) (b : Nat × Nat × Nat) : Bool :=
  !(((s.power b.1).waiters.takeWhile fun w => w.2.2.1 != key).any fun w =>
    w.1 == b.2.1 && w.2.1 == b.2.2 && s.liveWaiter w.2.2.1 w.2.2.2)
/-- May a party's access to cells be performed: every bank is powered, and no earlier access waits for it. -/
def State.granted (s : State) (key : Nat) (cells : List Nat) : Bool :=
  (cells.filterMap bankOf).all fun b => s.bankUp b && s.bankTurn key b
/-- Starting a wake of a gated bank (R156): two wakes of one bank are one. -/
def State.startWake (s : State) (b : Nat × Nat × Nat) : State :=
  if s.bankOff b && !s.bankWaking b then
    let p := s.power b.1
    s.setPower b.1 { p with off := p.off.filter (fun o => o != (b.2.1, b.2.2)),
                            waking := p.waking ++ [(b.2.1, b.2.2, s.swcAt b.1 + 3200)] }
  else s
/-- A waiter added: a party that waits already keeps its place. -/
def addWaiter (ws : List (Nat × Nat × Nat × Dword)) (w : Nat × Nat × Nat × Dword) : List (Nat × Nat × Nat × Dword) :=
  let ws := ws.filter fun x => x.2.2.1 != w.2.2.1 || x.2.2.2 == w.2.2.2
  if ws.contains w then ws
  else (ws.takeWhile fun x => x.2.2.1 != w.2.2.1) ++ w :: ws.dropWhile fun x => x.2.2.1 != w.2.2.1
/-- The state in which an access of a party waits for the banks that it is not granted, and wakes the gated ones (R156, R157). -/
def State.stallKey (s : State) (key : Nat) (stamp : Dword) (cells : List Nat) : State :=
  (cells.filterMap bankOf).foldl (fun s b =>
    if s.bankUp b && s.bankTurn key b then s
    else
      let s := s.startWake b
      let p := s.power b.1
      s.setPower b.1 { p with waiters := addWaiter p.waiters (b.2.1, b.2.2, key, stamp) }) s
/-- A slot's access waits. -/
def State.stallOn (s : State) (key : Nat) (cells : List Nat) : State := s.stallKey key (s.slotAt key).pc cells
/-- A packet waits for the banks that it reaches (R156, R157). -/
def State.stallPkt (s : State) (pid : Nat) (cells : List Nat) : State := s.stallKey (pktKey pid) 0 cells
/-- The bytes of a bank, as ranges of cells. -/
def bankRanges (die word bit : Nat) : List (Nat × Nat) :=
  if word = 0 then [(dsramCell die (bit * 2 ^ 20), 2 ^ 20)]
  else if word = 1 then [(spadCell (die * 24 + bit) 0, 2 ^ 22)]
  else
    let k := (word - 2) * 64 + bit
    [(tcmCell (mkCid die (k / 24) (k % 24)) 0, 2 ^ 18)]
/-- The memory with a range of cells zero. -/
def clearRange (m : Memory) (a n : Nat) : Memory := m.filter fun p => decide (p.1 < a) || decide (a + n ≤ p.1)
/-- The memory with a bank zero (R156). -/
def clearBank (m : Memory) (die word bit : Nat) : Memory :=
  (bankRanges die word bit).foldl (fun m r => clearRange m r.1 r.2) m
/-- Gating a bank (R156): its data are gone, and an access that is queued there starts a new wake when it is tried again (R157). -/
def State.gateNow (s : State) (die word bit : Nat) : State :=
  let p := s.power die
  { s.setPower die { p with off := (word, bit) :: p.off.filter (fun o => o != (word, bit)),
                            gateHeld := p.gateHeld.filter (fun o => o != (word, bit)) } with
    mem := clearBank s.mem die word bit
    poison := s.poison.filter fun a => (bankRanges die word bit).all fun r => decide (a < r.1) || decide (r.1 + r.2 ≤ a) }
/-- Does an access that was recorded wait for a bank. -/
def State.bankWanted (s : State) (d word bit : Nat) : Bool :=
  (s.power d).waiters.any fun w => w.1 == word && w.2.1 == bit && s.liveWaiter w.2.2.1 w.2.2.2
/-- A gate write that is held takes effect where no wake and no access comes before it (R157). -/
def State.gateHeldNow (s : State) (d : Nat) (g : Nat × Nat) : State :=
  if s.bankWaking (d, g.1, g.2) || s.bankWanted d g.1 g.2 then s else s.gateNow d g.1 g.2
/-- An access to banks of a die has been performed: its party waits for no bank there any more, and a gate write held behind the last such
access takes effect (R157). -/
def State.unstallAt (s : State) (d key : Nat) : State :=
  let p := s.power d
  if p.waiters.any (fun w => w.2.2.1 == key) then
    let p' := { p with waiters := p.waiters.filter fun w => w.2.2.1 != key }
    p.gateHeld.foldl (fun s g => s.gateHeldNow d g) (s.setPower d p')
  else s
/-- A slot's access has been performed. -/
def State.unstall (s : State) (key : Nat) : State := s.unstallAt (keyDie key) key

/-! ## Reading and writing cells -/

/-- Bytes of memory from a cell. -/
def State.load (s : State) (a n : Nat) : List Byte := readBytes s.mem a n
/-- A little-endian value of memory. -/
def State.loadLE (s : State) (a n : Nat) : Nat := readLE s.mem a n
/-- A 64-bit value of memory. -/
def State.load64 (s : State) (a : Nat) : Dword := BitVec.ofNat 64 (s.loadLE a 8)

/-- Does a write of `n` bytes at `a` touch the 8 bytes of a reservation (R193). -/
def touchesRes (r : Option Nat) (a n : Nat) : Bool :=
  match r with
  | none => false
  | some q => decide (a < q + 8) && decide (q < a + n)
/-- Reservations of every party but the writer that cover a written byte are lost (R193). -/
def clearRes (slots : KMap Slot) (who : Option Nat) (a n : Nat) : KMap Slot :=
  if slots.any (fun p => some p.1 != who && touchesRes p.2.reserved a n) then
    kmap (fun k t => if some k != who && touchesRes t.reserved a n then { t with reserved := none } else t) slots
  else slots
/-- A line whose error a write of all its bytes removes stays poisoned otherwise; the model clears poison only for whole
lines. -/
def clearPoison (ps : List Nat) (a n : Nat) : List Nat :=
  ps.filter fun l => !(decide (a ≤ l) && decide (l + 64 ≤ a + n))
/-- Writing bytes to cells by a party: `who` is the slot key of a baton or the number of a party of another package, none for an engine. -/
def State.store (s : State) (who : Option Nat) (a : Nat) (l : List Byte) : State :=
  { s with mem := writeBytes s.mem a l, slots := clearRes s.slots who a l.length,
           farReserved := s.farReserved.filter fun p => !(some p.1 != who && touchesRes (some p.2) a l.length),
           poison := clearPoison s.poison a l.length }
/-- Writing a little-endian value. -/
def State.storeLE (s : State) (who : Option Nat) (a n v : Nat) : State := s.store who a (bytesLE n v)
/-- A write of the hardware itself, to a record or a frame: it wakes a gated bank, and outlasts the zeroing at the end of a wake (R156). DESIGN CHOICE
(log entry 128): one that no operation in arrival order makes is in memory at once. -/
def State.hwStore (s : State) (a : Nat) (l : List Byte) : State :=
  match bankOf a with
  | none => s.store none a l
  | some b =>
    let s := s.startWake b
    let s := if s.bankWaking b then let p := s.power b.1; s.setPower b.1 { p with late := p.late ++ [(a, l)] } else s
    s.store none a l
/-- Does any byte of a range lie in a poisoned line. -/
def State.poisoned (s : State) (a n : Nat) : Bool :=
  s.poison.any fun l => decide (a < l + 64) && decide (l < a + n)

/-! ## Address classes (R50) -/

/-- The classes of R50. -/
inductive AddrClass | tcm | spad | dsram | copyTcm | copySpad | niBlock | global | none
  deriving DecidableEq, Repr

/-- The class of a virtual address (R50). -/
def addrClass (a : Nat) : AddrClass :=
  if a < 0x40000 then .tcm
  else if 0x400000 ≤ a ∧ a < 0x800000 then .spad
  else if 0x1000000 ≤ a ∧ a < 0x4C00000 then .dsram
  else if 0x00F000000000 ≤ a ∧ a < 0x00F400000000 then .copyTcm
  else if 0x00F800000000 ≤ a ∧ a < 0x00F900000000 then .copySpad
  else if 0x00FC00000000 ≤ a ∧ a < 0x00FC20000000 then .niBlock
  else if 0x010000000000 ≤ a ∧ a < 0x0100000000000000 then .global
  else .none

/-- An entry of a cluster's buffer map (R149). -/
def State.window (s : State) (pcl w : Nat) : Dword := (s.cluster pcl).bufMap[w % 64]'(Nat.mod_lt _ (by decide))

/-- The cell of a scratchpad offset for a core's own access: a window resolves to its FRONT frame (R149, R150). -/
def State.frontCell (s : State) (pcl off : Nat) : Option Nat :=
  if off < spadLow then some (spadCell pcl off)
  else
    let e := s.window pcl ((off - spadLow) / 16384)
    if e.getLsbD 16 then some (spadCell pcl ((e.extractLsb' 0 8).toNat * 16384 + off % 16384)) else none
/-- The cell of a scratchpad offset for an engine's write: a window resolves to its SHADOW frame (R150). -/
def State.shadowCell (s : State) (pcl off : Nat) : Option Nat :=
  if off < spadLow then some (spadCell pcl off)
  else
    let e := s.window pcl ((off - spadLow) / 16384)
    if e.getLsbD 17 then some (spadCell pcl ((e.extractLsb' 8 8).toNat * 16384 + off % 16384)) else none

/-- The cell that a core's own plain access to a local aperture reaches, none for an unmapped window and for every address
that is not local. -/
def State.localCell (s : State) (cid a : Nat) : Option Nat :=
  match addrClass a with
  | .tcm => some (tcmCell cid a)
  | .spad => s.frontCell (cidPcl cid) (a - spadBase)
  | .dsram => some (dsramCell (cidDie cid) (a - 0x1000000))
  | _ => none

/-- Is the address in a local aperture: own TCM, own scratchpad with its windows, or own die shared SRAM. -/
def isLocal (a : Nat) : Bool :=
  match addrClass a with
  | .tcm => true
  | .spad => true
  | .dsram => true
  | _ => false

end Sys2Proof.Machine
end

