-- ==== Sys2Proof/Machine/Net.lean ====
section
/-!
DEFINITION. Packets: endpoints, the fixed columns of R34, malformed packets (R32), how an NI accepts, routes and delivers a
packet (R30, R31, R35), and placement (R52, R53).
-/
namespace Sys2Proof.Machine

/-! ## Endpoints (R33) -/

/-- The die of an endpoint. -/
def epDie (e : Nat) : Nat := e / 2 ^ 11
/-- The unit of an endpoint. -/
def epUnit (e : Nat) : Nat := e % 2 ^ 11
/-- An endpoint. -/
def mkEp (die unit : Nat) : Nat := die * 2 ^ 11 + unit
/-- The copy engine of a cluster. -/
def engineEp (pcl : Nat) : Nat := mkEp (pcl / 24) (0x600 + pcl % 24)
/-- The NI of a die. -/
def niEp (die : Nat) : Nat := mkEp die 0x700
/-- The Relay. -/
def relayEp : Nat := mkEp xDie 0x701
/-- The gateway. -/
def gatewayEp : Nat := mkEp xDie 0x702
/-- The Vault of an F-die. -/
def vaultEp (die : Nat) : Nat := mkEp die 0x703
/-- The Starter. -/
def starterEp : Nat := mkEp bDie 0x704
/-- The cycle controller. -/
def cycleEp : Nat := mkEp bDie 0x705
/-- The package management block. -/
def mgmtEp : Nat := mkEp bDie 0x706
/-- Does an endpoint name anything (R33). -/
def isEp (e : Nat) : Bool :=
  let d := epDie e
  let u := epUnit e
  isDie d &&
    (isCore e || isOsCore e || (isCDie d && decide (0x600 ≤ u) && decide (u < 0x618)) || u == 0x700 ||
      (d == xDie && (u == 0x701 || u == 0x702)) || (isFDie d && u == 0x703) ||
      (d == bDie && (u == 0x704 || u == 0x705 || u == 0x706)))

/-! ## Packet columns -/

/-- The virtual channel of a type (R34). -/
def PType.vc : PType → Nat
  | .read | .write | .amo | .msg | .arrive => 0
  | .readReply | .writeAck | .faultReply | .msgAck | .msgMoved => 1
  | .copyData | .copyDone | .mcastData | .atomBatch | .chunk => 2
  | .pause | .resume | .ivl | .rctUpd | .swcSync | .slotSync | .e2eAck => 3
  | .reserved => 0
/-- The ordering class of a type (R34). -/
def PType.cls (t : PType) (rel : Bool) : PClass :=
  match t with
  | .read => .line
  | .write | .amo => if rel then .fence else .line
  | .msg | .arrive | .copyDone | .pause | .resume | .ivl | .rctUpd => .fence
  | .reserved => .reserved
  | _ => .free
/-- The TYPE code (R34), 0 for a reserved one. -/
def PType.code : PType → Nat
  | .read => 0x01 | .write => 0x02 | .amo => 0x03 | .readReply => 0x04 | .writeAck => 0x05 | .faultReply => 0x06
  | .msg => 0x08 | .msgAck => 0x09 | .msgMoved => 0x0A | .arrive => 0x0B | .copyData => 0x10 | .copyDone => 0x11
  | .mcastData => 0x12 | .atomBatch => 0x13 | .chunk => 0x14 | .pause => 0x20 | .resume => 0x21 | .ivl => 0x22
  | .rctUpd => 0x23 | .swcSync => 0x30 | .slotSync => 0x31 | .e2eAck => 0x32 | .reserved => 0
/-- Requests and bulk packets, which a failure answers at their source (R32). DESIGN CHOICE (log entry 132): a reserved TYPE is none of them, on
whatever VC it comes. -/
def PType.isRequest : PType → Bool
  | .read | .write | .amo | .msg | .arrive | .copyData | .copyDone | .mcastData | .atomBatch | .chunk => true
  | _ => false
/-- Responses, whose loss the requester sees (R30). -/
def PType.isResponse : PType → Bool
  | .readReply | .writeAck | .faultReply | .msgAck | .msgMoved => true
  | _ => false

/-- Control packets whose sender waits for an answer, so that it sees their loss (R30, R129). -/
def PType.isPause : PType → Bool
  | .pause | .resume => true
  | _ => false
/-- Control packets of the B-die that its link keeps while it is down (log entry 104). -/
def PType.isOwed : PType → Bool
  | .ivl | .rctUpd => true
  | _ => false

/-- Data flits for a payload: ceil(LEN ÷ 64) (R32). -/
def dataFlits (len : Nat) : Nat := (len + 63) / 64
/-- A packet with VC, CLASS, LEN and DFLITS as R32 and R34 fix them. -/
def Pkt.sealed (p : Pkt) : Pkt :=
  { p with vc := p.ty.vc, cls := p.ty.cls p.rel, len := p.data.length, dflits := dataFlits p.data.length }
/-- Malformed packets (R32). -/
def Pkt.malformed (p : Pkt) : Bool :=
  decide (256 < p.len) || p.dflits != dataFlits p.len || p.ty == .reserved || p.cls == .reserved || decide (4 ≤ p.vc)
/-- The code of an ordering class (R33). -/
def PClass.code : PClass → Nat
  | .free => 0 | .line => 1 | .fence => 2 | .reserved => 3
/-- The code of an AMO operation in OP. DESIGN CHOICE (log entry 111): the spec does not number them. -/
def AmoOp.code : AmoOp → Nat
  | .swap => 0 | .add => 1 | .xor => 2 | .and => 3 | .or => 4 | .min => 5 | .max => 6 | .minu => 7 | .maxu => 8 | .lr => 9 | .sc => 10
/-- OP (R33), by type: the AMO operation, the copy sub-operation, or the reduction operator. -/
def Pkt.opCode (p : Pkt) : Nat := if p.ty = .amo then p.amo.code else if p.ty = .copyData ∨ p.ty = .atomBatch then p.sub else 0
/-- The header flit (R33). How the copy sub-operations are numbered and what OPERAND holds by type is the model's choice (log entry 111): the words
`a`, `b` and `c` from bit 0 upwards. -/
def Pkt.header (p : Pkt) : BitVec 512 :=
  BitVec.ofNat 64 p.va ++ p.track ++ BitVec.ofNat 16 p.src ++ BitVec.ofNat 16 p.dst ++ BitVec.ofNat 16 p.srcPkg ++ BitVec.ofNat 16 p.dstPkg ++
  BitVec.ofNat 12 p.srcRank ++ BitVec.ofNat 12 p.dstRank ++ BitVec.ofNat 32 p.seq ++ BitVec.ofNat 16 p.prevDist ++ BitVec.ofNat 2 p.cls.code ++
  BitVec.ofNat 2 p.vc ++ BitVec.ofNat 3 p.dflits ++ BitVec.ofNat 9 p.len ++ BitVec.ofNat 8 p.ty.code ++
  BitVec.ofNat 8 p.opCode ++ BitVec.ofNat 2 p.scope ++ BitVec.ofBool p.rel ++ BitVec.ofBool p.acq ++
  BitVec.ofBool p.poison ++ 0#2 ++ 0#1 ++ BitVec.ofNat 16 p.tag ++ 0#48 ++ p.c ++ p.b ++ p.a
/-- Flits on a link. -/
def Pkt.flits (p : Pkt) : Nat := 1 + p.dflits

/-! ## Acceptance and routing -/

/-- Does a package number name another package; 0 names the own one (R33, R96). -/
def State.foreign (s : State) (pkg : Nat) : Bool := pkg != 0 && pkg != s.pkg.fabric
/-- The planes that are up (R37). -/
def State.planesUp (s : State) : List Nat := (List.range 8).filter fun p => s.readyBit (40 + p)
/-- A packet accepted by an NI, on the link from one die to another. -/
def State.accept (s : State) (a b : Nat) (p : Pkt) : State :=
  { s with net := kset s.nextPkt { p.sealed with hopSrc := a, hopDst := b } s.net, nextPkt := s.nextPkt + 1 }
/-- A die to whose party an answer goes straight: the own die inside the package, the X-die for another package. -/
def State.answerDie (s : State) (pkg e : Nat) : Nat := if s.foreign pkg then xDie else epDie e
/-- The address that a FAULT_REPLY gives for a failure at `va`: the hurdle operand as it was given, which for a rank-form hurdle
operation is the rank and the offset (R63, R139, R225). -/
def Pkt.faultVa (p : Pkt) (va : Nat) : Nat :=
  if p.ranked && p.ty == .arrive then p.dstRank * 2 ^ 52 + va % 2 ^ 22 else va
/-- A control packet that its link keeps for a die that is up: the link sends it again once it is trained (log entry 104). -/
def State.owe (s : State) (p : Pkt) : State :=
  let a := epDie p.src
  let b := epDie p.dst
  if s.dieUp b then s.setLink a b { s.link a b with owed := (s.link a b).owed ++ [p] } else s
/-- The answer FAULT_REPLY with a status, at the die of the party that must learn it (R30, R32, R63). The B-die's records and rank changes stay
with their link; a packet of any other type is dropped. -/
def State.failPkt (s : State) (p : Pkt) (status : Nat) : State :=
  let f := { Pkt.blank with ty := .faultReply, va := p.faultVa p.va, track := p.track, a := BitVec.ofNat 64 status, tag := p.tag }
  if p.ty.isRequest || p.ty.isPause then
    let d := s.answerDie p.srcPkg p.src
    s.accept d d { f with src := p.dst, dst := p.src, dstPkg := p.srcPkg, dstRank := p.srcRank, srcRank := p.dstRank }
  else if p.ty.isResponse then
    let d := s.answerDie p.dstPkg p.dst
    if p.ty == .msgMoved || p.ty == .faultReply then
      s.accept d d { f with a := if p.ty == .faultReply then p.a else f.a, src := p.src, dst := p.dst, dstPkg := p.dstPkg }
    else s.accept d d { f with src := p.src, dst := p.dst, dstPkg := p.dstPkg }
  else if p.ty.isOwed then s.owe p
  else s
/-- Sending a packet from a die: over the one link to its destination's die, or to the gateway. A die, link or plane that is
down completes it LINK_DOWN (R19, R30); a destination that names nothing completes it NOT_MAPPED (R10). -/
def State.sendFrom (s : State) (d : Nat) (p : Pkt) : State :=
  if s.foreign p.dstPkg then
    if s.planesUp = [] || !s.dieUp xDie || !s.linkUp d xDie || !s.readyBit 52 then s.failPkt p 5
    else s.accept d xDie p
  else if !isEp p.dst then s.failPkt p 3
  else if !s.dieUp (epDie p.dst) || !s.linkUp d (epDie p.dst) then s.failPkt p 5
  else s.accept d (epDie p.dst) p
/-- Sending a packet from the die of its source. -/
def State.send (s : State) (p : Pkt) : State := s.sendFrom (epDie p.src) p
/-- A request tag as a packet, a record and WKEY show it, in 16 bits (R33). The model counts its tags on, so that a reply finds its owner. -/
def tagKey (t : Nat) : Dword := BitVec.ofNat 64 (t % 2 ^ 16)
/-- A fresh request tag with its owner. -/
def State.newTag (s : State) (o : Owner) : Nat × State :=
  (s.nextTag, { s with nextTag := s.nextTag + 1, owners := kset s.nextTag o s.owners })
/-- A tag answered. -/
def State.dropTag (s : State) (t : Nat) : State := { s with owners := kdel t s.owners }
/-- The answer of a home to a request. -/
def State.answer (s : State) (d : Nat) (p : Pkt) (ty : PType) (a b c : Dword) (data : List Byte) : State :=
  s.sendFrom d { Pkt.blank with ty := ty, va := p.va, track := p.track, src := p.dst, dst := p.src, dstPkg := p.srcPkg,
                                srcRank := p.dstRank, dstRank := p.srcRank, tag := p.tag, a := a, b := b, c := c,
                                data := data }
/-- The answer FAULT_REPLY of a home. -/
def State.refuse (s : State) (d : Nat) (p : Pkt) (status : Nat) (va : Nat) : State :=
  s.answer d { p with va := p.faultVa va } .faultReply (BitVec.ofNat 64 status) 0 0 []

/-! ## Delivery -/

/-- No earlier packet of the same link and VC is undelivered (R31). -/
def State.headOfLine (s : State) (pid : Nat) (p : Pkt) : Bool :=
  s.net.all fun q => !(decide (q.1 < pid) && q.2.hopSrc == p.hopSrc && q.2.hopDst == p.hopDst && q.2.vc == p.vc)
/-- An entry of a link's per-VC counters. -/
def vcGet {α : Type} (v : Vector α 4) (i : Nat) : α := v[i % 4]'(Nat.mod_lt _ (by decide))
/-- A per-VC counter set. -/
def vcSet {α : Type} (v : Vector α 4) (i : Nat) (x : α) : Vector α 4 := v.set (i % 4) x (Nat.mod_lt _ (by decide))
/-- The sender has a slot for every flit of the packet (R35). -/
def State.slotsFor (s : State) (p : Pkt) : Bool :=
  let l := s.link p.hopSrc p.hopDst
  p.hopSrc == p.hopDst || decide ((vcGet l.sent p.vc - vcGet l.freed p.vc).toNat + p.flits ≤ 64)
/-- A packet that can be delivered now. -/
def State.canDeliver (s : State) (pid : Nat) : Option Pkt :=
  match kfind s.net pid with
  | none => none
  | some p =>
    if s.headOfLine pid p && s.slotsFor p && s.dieUp p.hopDst && s.linkUp p.hopSrc p.hopDst then some p else none
/-- The state after a packet's flits have crossed their link and left the receive buffer (R35). -/
def State.takePkt (s : State) (pid : Nat) (p : Pkt) : State :=
  let s := { s with net := kdel pid s.net }
  if p.hopSrc = p.hopDst then s
  else
    let l := s.link p.hopSrc p.hopDst
    let n := BitVec.ofNat 16 p.flits
    s.setLink p.hopSrc p.hopDst
      { l with sent := vcSet l.sent p.vc (vcGet l.sent p.vc + n),
               recvFreed := vcSet l.recvFreed p.vc (vcGet l.recvFreed p.vc + n) }
/-- A malformed packet: counted, reported, and answered or dropped (R32). -/
def State.malformedPkt (s : State) (p : Pkt) : State :=
  let n := s.ni p.hopDst
  let s := s.setNi p.hopDst { n with errors := n.errors + 1 }
  let s := { s with pkg := { s.pkg with reports := s.pkg.reports + 1 } }
  if p.ty.isRequest && isEp p.src then s.failPkt p 1 else s

/-! ## Track entries and placement (R49, R52, R53) -/

/-- The index of a track's entry. -/
def trkIdx (tk : BitVec 16) : Nat := tk.toNat % 1024
/-- The usable track-table entry of a track at a die (R49). -/
def State.trackEntry (s : State) (d : Nat) (tk : BitVec 16) : Option (BitVec 128) :=
  let e := kget 0 (s.ni d).trk (trkIdx tk)
  let shlog := (e.extractLsb' 104 6).toNat
  if e.extractLsb' 112 16 = tk ∧ e.getLsbD 111 ∧ (e.getLsbD 110 ∨ (10 ≤ shlog ∧ shlog ≤ 24)) then some e else none
/-- The ATAPER field of a track entry. -/
def entAtaper (e : BitVec 128) : Nat := (e.extractLsb' 92 12).toNat
/-- The NREC field. -/
def entNrec (e : BitVec 128) : Nat := min 256 (e.extractLsb' 83 9).toNat
/-- The ROOT field, as a physical address. -/
def entRoot (e : BitVec 128) : Nat := (e.extractLsb' 12 44).toNat * 4096

/-- A placement record's usable content (R52). -/
structure PRec where
  base : Nat
  limit : Nat
  mode : Nat
  home : Nat
  set : Nat
  pkg : Nat
  deriving DecidableEq, Repr

/-- A record of the placement map, none where R52 skips it. DESIGN CHOICE (log entry 133): the skip for a HOME that is no home applies to SINGLE, the one
MODE for which the field table gives HOME a meaning. -/
def precOf (w : BitVec 256) : Option PRec :=
  let r : PRec :=
    { base := (w.extractLsb' 0 64).toNat, limit := (w.extractLsb' 64 64).toNat, mode := (w.extractLsb' 128 4).toNat,
      home := (w.extractLsb' 132 5).toNat, set := (w.extractLsb' 148 12).toNat, pkg := (w.extractLsb' 160 16).toNat }
  if r.mode ≤ 2 ∧ r.base % 2 ^ 21 = 0 ∧ r.limit % 2 ^ 21 = 0 ∧ r.base < r.limit ∧
      (r.mode ≠ 1 ∨ r.home < 12 ∨ r.home = 16 ∨ r.home = 17) then some r else none
/-- The lowest-numbered usable record that covers an address, among those that the track's usable entry counts (R49, R52). -/
def State.precFor (s : State) (d : Nat) (tk : BitVec 16) (va : Nat) : Option PRec :=
  let m := kget [] (s.ni d).pmap (trkIdx tk)
  let n := match s.trackEntry d tk with | some e => entNrec e | none => 0
  (List.range n).findSome? fun i =>
    match precOf (kget 0 m i) with
    | some r => if r.base ≤ va ∧ va < r.limit then some r else none
    | none => none
/-- Where an address is homed, as one die's replica says (R53): a die of the package or another package. -/
inductive Home | die (d : Nat) | package (p : Nat)
  deriving DecidableEq, Repr
/-- The C-dies of a stripe set, all of them for an empty set. -/
def stripeDies (set : Nat) : List Nat := if set = 0 then List.range 12 else (List.range 12).filter set.testBit
/-- The stripe rule of R53. -/
def stripeHome (set : Nat) (tk : BitVec 16) (va : Nat) : Nat :=
  let dies := stripeDies set
  let n := va / 2 ^ 21 % 2 ^ 35
  let x := n ^^^ (n / 2 ^ 12) ^^^ (n / 2 ^ 24) ^^^ tk.toNat
  dies.getD (x % 2 ^ 16 % dies.length) 0
/-- The home of a global address (R53). -/
def State.homeOf (s : State) (d : Nat) (tk : BitVec 16) (va : Nat) : Home :=
  match s.precFor d tk va with
  | none => .die (stripeHome 0 tk va)
  | some r =>
    if r.mode = 0 then .die (stripeHome r.set tk va)
    else if r.mode = 1 then .die r.home
    else .package r.pkg

/-- The die and unit that hold an address's cells, for a request that leaves a die: the NI of the home die. -/
def State.routeTo (s : State) (d : Nat) (tk : BitVec 16) (va : Nat) : Nat × Nat :=
  match addrClass va with
  | .copyTcm => (niEp (cidDie ((va - 0x00F000000000) / 2 ^ 18)), 0)
  | .copySpad => (niEp ((va - 0x00F800000000) / 2 ^ 27), 0)
  | .niBlock => (niEp ((va - 0x00FC00000000) / 2 ^ 24), 0)
  | _ =>
    match s.homeOf d tk va with
    | .die h => (niEp h, 0)
    | .package p => (niEp xDie, p)

end Sys2Proof.Machine
end

