-- ==== Sys2Proof/Machine/Xlate.lean ====
section
/-!
DEFINITION. Translation at the home die (R54 to R57), access tables (R58), frozen ranges (R60) and the checks of R59, as functions
of the state that change nothing.
-/
namespace Sys2Proof.Machine

/-- What a walk finds (R55 to R57). -/
inductive WalkRes
  | present (e : TcEntry)
  | migrating
  | forwarded (home : Nat)
  | notMapped
  | refused
  deriving DecidableEq, Repr

/-- The cell of a physical address in which a die's page tables lie: its HBM, or, for an F-die, which has none, its first far-tier
module. DESIGN CHOICE (log entry 14): the spec does not say where an F-die's shard lies. -/
def tableCell (d pa : Nat) : Nat := if isFDie d then farCell ((d - 16) * 8) pa else hbmCell d pa

/-- The page sizes of R55 by SIZE code, as log2. -/
def pageLog (sz : Nat) : Nat := if sz = 0 then 12 else if sz = 1 then 16 else if sz = 2 then 21 else 30

/-- A hashed page-table entry's outcome for an address (R55). A PPN that is not aligned to SIZE counts with the bits below the page size zero
(DESIGN CHOICE, log entry 108). -/
def hashedOutcome (d : Nat) (tk : BitVec 16) (va : Nat) (e : BitVec 256) : WalkRes :=
  let sz := (e.extractLsb' 194 2).toNat
  let sh := pageLog sz
  let st := (e.extractLsb' 192 2).toNat
  let tier := (e.extractLsb' 144 4).toNat
  if 2 ≤ tier ∨ (isFDie d ∧ tier = 0) ∨ e.extractLsb' 128 7 ≠ 0 ∨ e.extractLsb' 112 4 ≠ 0 ∨ e.extractLsb' 64 44 ≠ 0 then
    .notMapped
  else if st = 0 then .notMapped
  else if st = 1 then
    .present { track := tk, base := va / 2 ^ sh * 2 ^ sh, log2 := sh, far := tier == 1,
               fmod := (e.extractLsb' 140 4).toNat,
               phys := (e.extractLsb' 148 44).toNat * 4096 / 2 ^ sh * 2 ^ sh, ati := (e.extractLsb' 116 12).toNat,
               perm := (e.extractLsb' 108 4), dirty := true }
  else if st = 2 then .migrating
  else .forwarded (e.extractLsb' 135 5).toNat

/-- Does an entry match an address in the probe for one size (R56). -/
def hashedMatch (tk : BitVec 16) (va sz : Nat) (e : BitVec 256) : Bool :=
  let sh := pageLog sz
  (e.extractLsb' 194 2).toNat == sz && e.extractLsb' 196 16 == tk && e != 0 &&
    (e.extractLsb' 212 44).toNat / 2 ^ (sh - 12) == va % 2 ^ 56 / 2 ^ sh

/-- The first bucket of the probe for one size (R56). -/
def hashedBucket (tk : BitVec 16) (va sz shlog : Nat) : Nat :=
  let key := (va % 2 ^ 56 / 2 ^ pageLog sz) ^^^ (tk.toNat * 2 ^ 40)
  (key ^^^ (key / 2 ^ shlog) ^^^ (sz * 4)) % 2 ^ shlog

/-- A 32-byte entry of memory. -/
def State.entry32 (s : State) (cell : Nat) : BitVec 256 := BitVec.ofNat 256 (s.loadLE cell 32)

/-- The cell of the first matching entry of a shard, sizes from the largest, four buckets each, four entries a bucket (R56). -/
def State.hashedFind (s : State) (d : Nat) (tk : BitVec 16) (ent : BitVec 128) (va : Nat) : Option Nat :=
  let shlog := (ent.extractLsb' 104 6).toNat
  [3, 2, 1, 0].findSome? fun sz =>
    let b := hashedBucket tk va sz shlog
    (List.range 16).findSome? fun i =>
      let cell := tableCell d (entRoot ent + (b + i / 4) % 2 ^ shlog * 128 + i % 4 * 32)
      if hashedMatch tk va sz (s.entry32 cell) then some cell else none

/-- The leaf of an Sv57 walk: the cell of the PTE, the PTE and its level, none where the table ends without a leaf (R57). -/
def State.sv57Find (s : State) (d va : Nat) : Nat → Nat → Option (Nat × BitVec 64 × Nat)
  | 0, _ => none
  | fuel + 1, table =>
    let level := fuel
    let cell := tableCell d (table + va / 2 ^ (12 + 9 * level) % 512 * 8)
    let pte := s.load64 cell
    if pte.getLsbD 0 = false || pte.getLsbD 63 || pte.extractLsb' 54 2 != 0 then none
    else if pte.getLsbD 1 || pte.getLsbD 3 then some (cell, pte, level)
    else if pte.getLsbD 2 then none
    else s.sv57Find d va fuel ((pte.extractLsb' 10 44).toNat * 4096)

/-- An Sv57 leaf's outcome, before the permission check of R59 step 4. `store` marks a store or AMO, which needs D (R57). U is looked at before A
and D, and a leaf with FAR 0 in the table of an F-die, which has no HBM, is NOT_MAPPED (DESIGN CHOICES, log entry 108). The PPN of a FORWARDED leaf
holds the new home: its alignment is that of no page. -/
def sv57Outcome (d : Nat) (tk : BitVec 16) (ent : BitVec 128) (va : Nat) (store : Bool) (pte : BitVec 64) (level : Nat) :
    WalkRes :=
  let sh := 12 + 9 * level
  let ppn := (pte.extractLsb' 10 44).toNat
  let xs := (pte.extractLsb' 61 2).toNat
  let far := pte.getLsbD 56
  let r := pte.getLsbD 1
  let w := pte.getLsbD 2
  let x := pte.getLsbD 3
  if 3 ≤ level ∨ pte.getLsbD 63 ∨ pte.extractLsb' 54 2 ≠ 0 ∨ xs = 3 ∨ (w ∧ !r) then .notMapped
  else if xs = 1 then .migrating
  else if xs = 2 then .forwarded (ppn % 32)
  else if ppn % 2 ^ (9 * level) ≠ 0 then .notMapped
  else if !pte.getLsbD 4 then .refused
  else if !pte.getLsbD 6 ∨ (store ∧ !pte.getLsbD 7) ∨ (isFDie d ∧ !far) then .notMapped
  else
    .present { track := tk, base := va / 2 ^ sh * 2 ^ sh, log2 := sh, far := far, fmod := if far then ppn / 2 ^ 40 else 0,
               phys := (if far then ppn % 2 ^ 40 else ppn) * 4096,
               ati := (entAtaper ent + (pte.extractLsb' 57 4).toNat) % 4096,
               perm := BitVec.ofBool r ++ BitVec.ofBool w ++ BitVec.ofBool (r && w) ++ BitVec.ofBool x, dirty := pte.getLsbD 7 }

/-- The cell of the page-table entry that covers an address, and what the walk says of it. -/
def State.walk (s : State) (d : Nat) (tk : BitVec 16) (ent : BitVec 128) (va : Nat) (store : Bool) : WalkRes :=
  if ent.getLsbD 110 then
    match s.sv57Find d va 5 (entRoot ent) with
    | none => .notMapped
    | some (_, pte, level) => sv57Outcome d tk ent va store pte level
  else
    match s.hashedFind d tk ent va with
    | none => .notMapped
    | some cell => hashedOutcome d tk va (s.entry32 cell)

/-- The cached translation of an address at a die (R54). A store or AMO does not hit an Sv57 leaf that was cached with its D bit clear: the bit
is looked at in the table (R57). -/
def State.tcHit (s : State) (d : Nat) (tk : BitVec 16) (va : Nat) (changes : Bool) : Option TcEntry :=
  (s.ni d).tcache.find? fun e => e.track == tk && decide (e.base ≤ va) && decide (va < e.base + 2 ^ e.log2) && (e.dirty || !changes)
/-- The set of a translation among the 2,048 of the cache: a free value, for the spec does not give the index (log entry 15). -/
def TcEntry.set (e : TcEntry) : Nat := Config.translationSet e.track e.base e.log2 % 2048
/-- The translations that the cache keeps of a list, newest first: 8 ways of each set (R54). -/
def tcKeep : List TcEntry → List Nat → List TcEntry
  | [], _ => []
  | e :: l, seen => if 8 ≤ seen.count e.set then tcKeep l seen else e :: tcKeep l (e.set :: seen)
/-- The cache with a translation added, newest first: it takes the place of the oldest one of a full set (DESIGN CHOICE, log entry 15). -/
def tcInsert (e : TcEntry) (l : List TcEntry) : List TcEntry :=
  let l := l.filter fun o => !(o.track == e.track && o.base == e.base && o.log2 == e.log2)
  if l.length < 8 then e :: l else tcKeep (e :: l) []
/-- The cache without the translations of a track that touch a range. -/
def tcDrop (tk : BitVec 16) (base limit : Nat) (l : List TcEntry) : List TcEntry :=
  l.filter fun o => !(o.track == tk && decide (o.base < limit) && decide (base < o.base + 2 ^ o.log2))

/-! ## Access tables and freezes -/

/-- The access-table entry on which a target acts (R51, R58): the copy it holds, or the table's. -/
def State.accEntry (s : State) (d t i : Nat) : Dword :=
  let n := s.ni d
  match kfind n.accHeld (4096 * t + i) with
  | some e => e
  | none => kget 0 n.acc (4096 * t + i)
/-- Does an access-table entry admit an operation of a master class under a track (R58, R59). -/
def accAdmits (e : Dword) (tk : BitVec 16) (cls : Nat) (op : MemOp) : Bool :=
  let b := match op with | .read => 0 | .write => 1 | .amo => 2 | .fetch => 3
  e.getLsbD 63 && e.extractLsb' 32 16 == tk && e.getLsbD (4 * cls + b)
/-- The master class under which a packet is checked at a target of a die (R58): a compute core's is 0 at its own die and 1 at another. -/
def Pkt.classAt (p : Pkt) (d : Nat) : Nat := if 2 ≤ p.master then p.master else if p.srcPkg = 0 ∧ epDie p.src = d then 0 else 1
/-- Does a page permission admit an operation (R55). -/
def pageAdmits (p : BitVec 4) (op : MemOp) : Bool :=
  match op with
  | .read => p.getLsbD 3
  | .write => p.getLsbD 2
  | .amo => p.getLsbD 1
  | .fetch => p.getLsbD 0
/-- Does an aperture's target admit an operation: the entry ATAPER of the track (R50, R58, R355). -/
def State.ataperAdmits (s : State) (d t : Nat) (tk : BitVec 16) (cls : Nat) (op : MemOp) : Bool :=
  match s.trackEntry d tk with
  | none => false
  | some e => accAdmits (s.accEntry d t (entAtaper e)) tk cls op
/-- The access-table target that holds an address which a core reaches itself (R51): die shared SRAM, or its cluster's memories. -/
def ownTarget (pcl a : Nat) : Nat := if addrClass a = .dsram then 1 else 2 + pcl % 24
/-- The cell that the access of a slot's baton to a local aperture reaches, where ATAPER of its track admits class 0 there (R50, R58, R59); none
otherwise, and the access raises the access fault, as a refused hurdle operation does under R355 (DEDUCED, log entry 7). -/
def State.coreCell (s : State) (k : Nat) (op : MemOp) (a : Nat) : Option Nat :=
  match s.localCell (keyCid k) a with
  | some c => if s.ataperAdmits (keyDie k) (ownTarget (keyPcl k) a) (s.slotAt k).track 0 op then some c else none
  | none => none
/-- The same for the focus slot. -/
def State.ownCell (s : State) (op : MemOp) (a : Nat) : Option Nat := s.coreCell s.focus op a
/-- Does the target of the own scratchpad and TCM admit an operation of the focus baton (R51, R58). -/
def State.spadAdmits (s : State) (op : MemOp) : Bool := s.ataperAdmits s.myDie (ownTarget s.myPcl spadBase) s.me.track 0 op
/-- Does a range of a track lie in a frozen range at a die (R60). -/
def State.frozenAt (s : State) (d : Nat) (tk : BitVec 16) (a n : Nat) : Bool :=
  (s.ni d).freeze.any fun f => f.track == tk && decide (a < f.limit) && decide (f.base < a + n)

/-! ## The checks of R59 -/

/-- A list of cell ranges, in the order of a request's bytes. -/
abbrev Ranges := List (Nat × Nat)

/-- The bytes of a list of ranges. -/
def State.readRanges (s : State) (rs : Ranges) : List Byte := rs.flatMap fun r => s.load r.1 r.2
/-- Writing bytes over a list of ranges. -/
def State.writeRanges (s : State) (who : Option Nat) : Ranges → List Byte → State
  | [], _ => s
  | (a, n) :: rs, l => (s.store who a (l.take n)).writeRanges who rs (l.drop n)
/-- Does any range hold poisoned data. -/
def State.poisonedRanges (s : State) (rs : Ranges) : Bool := rs.any fun r => s.poisoned r.1 r.2
/-- Marking the lines of ranges poisoned. -/
def State.poisonRanges (s : State) (rs : Ranges) : State :=
  rs.foldl (fun s r =>
    let lines := (List.range ((r.1 + r.2 + 63) / 64 - r.1 / 64)).map fun i => (r.1 / 64 + i) * 64
    { s with poison := lines.filter (fun l => !s.poison.contains l) ++ s.poison }) s

/-- The cells of a scratchpad range for an engine: through windows, FRONT for a read and SHADOW for a write (R150), split at
windows; none where a window is not mapped or where a window would reach the system hurdles (R149). -/
def State.engineSpad (s : State) (pcl off n : Nat) (write : Bool) : Option Ranges :=
  let one := fun (o k : Nat) =>
    match (if write then s.shadowCell pcl o else s.frontCell pcl o) with
    | none => none
    | some c =>
      if spadLow ≤ o ∧ spadCell pcl 0x2FFF00 < c + k ∧ c < spadCell pcl spadLow then none else some (c, k)
  let first := 16384 - off % 16384
  if n ≤ first then (one off n).map fun r => [r]
  else
    match one off first, one (off + first) (n - first) with
    | some a, some b => some [a, b]
    | _, _ => none

/-- What the checks of R59 say of a request at a die. -/
inductive Homed
  /-- Every check holds; the bytes lie in these ranges. -/
  | ok (rs : Ranges)
  /-- The walker must start. -/
  | walk
  /-- Held at the old home of a migrating page. -/
  | held
  /-- Forwarded to a new home. -/
  | forward (home : Nat)
  /-- NOT_MAPPED at step 2: the fault queue. -/
  | miss
  /-- Answered at once with FAULT_REPLY. -/
  | refuse (status : Nat)
  deriving DecidableEq, Repr

/-- The operation that a packet asks for. -/
def Pkt.memOp (p : Pkt) : MemOp :=
  match p.ty with
  | .read => p.op
  | .amo => if p.amo == .lr then .read else .amo
  | .atomBatch => .amo
  | _ => .write
/-- Does an operation change memory. -/
def MemOp.changes : MemOp → Bool
  | .write | .amo => true
  | .read | .fetch => false
/-- Does any element of a request touch a frozen range (R59 step 5). -/
def State.frozenPkt (s : State) (d : Nat) (p : Pkt) : Bool :=
  p.memOp.changes && p.master != 4 && p.elems.any fun e => s.frozenAt d p.track e.1 e.2

/-- Steps 4 to 6 of R59 for a translated page: permissions, freezes, the place of the data. While the F-die that carries the page's module is down
its table is not there to check, and the access ends LINK_DOWN (R19). -/
def State.pageCheck (s : State) (d : Nat) (p : Pkt) (e : TcEntry) : Homed :=
  let op := p.memOp
  let td := if e.far then 16 + e.fmod / 8 else d
  let phys := fun (va : Nat) => e.phys + (va - e.base)
  let cell := fun (va : Nat) => if e.far then farCell e.fmod (phys va) else hbmCell d (phys va)
  let size := if e.far then farSize else hbmSize
  if p.master != 4 && !pageAdmits e.perm op then .refuse 1
  else if e.far && !s.dieUp td then .refuse 5
  else if !accAdmits (s.accEntry td 0 e.ati) p.track (p.classAt td) op then .refuse 1
  else if s.frozenPkt d p then .refuse 2
  else if (e.far && !(s.readyBit (24 + e.fmod) && s.dieUp td)) || (!e.far && isCDie d && !s.readyBit (12 + d)) then
    .refuse 5
  else if p.elems.any (fun r => decide (size < phys r.1 + r.2)) then .refuse 3
  else .ok (p.elems.map fun r => (cell r.1, r.2))

/-- The target and the cells of an untranslated aperture at a die, for a copy command or the Relay. -/
def State.apertureCells (s : State) (d : Nat) (a n : Nat) (write : Bool) : Option (Nat × Ranges) :=
  match addrClass a with
  | .copyTcm =>
    let cid := (a - 0x00F000000000) / 2 ^ 18
    if isCore cid ∧ cidDie cid = d ∧ a % 2 ^ 18 + n ≤ 2 ^ 18 then some (2 + cidCluster cid, [(a, n)]) else none
  | .copySpad =>
    let o := a - 0x00F800000000
    let cl := o / 2 ^ 22 % 32
    if o / 2 ^ 27 = d ∧ cl < 24 ∧ isCDie d ∧ o % 2 ^ 22 + n ≤ 2 ^ 22 then
      (s.engineSpad (d * 24 + cl) (o % 2 ^ 22) n write).map fun r => (2 + cl, r)
    else none
  | _ => none

/-- Steps 4 to 6 of R59 for an untranslated aperture. -/
def State.apertureCheck (s : State) (d : Nat) (p : Pkt) (ent : BitVec 128) : Homed :=
  let op := p.memOp
  let parts := p.elems.map fun r => s.apertureCells d r.1 r.2 op.changes
  if parts.contains none then .refuse 1
  else
    let ps := parts.filterMap id
    if ps.any (fun t => !accAdmits (s.accEntry d t.1 (entAtaper ent)) p.track (p.classAt d) op) then .refuse 1
    else if s.frozenPkt d p then .refuse 2
    else .ok (ps.flatMap Prod.snd)

/-- Steps 2 and 3 of R59 on a walk's result. -/
def State.afterWalk (s : State) (d : Nat) (p : Pkt) (r : WalkRes) : Homed :=
  match r with
  | .present e => s.pageCheck d p e
  | .migrating => if p.master == 4 then .miss else .held
  | .forwarded h => if p.forwarded then .refuse 3 else .forward h
  | .notMapped => .miss
  | .refused => .refuse 1

/-- Does a translated page hold a byte range whole. -/
def TcEntry.holds (e : TcEntry) (r : Nat × Nat) : Bool := decide (e.base ≤ r.1) && decide (r.1 + r.2 ≤ e.base + 2 ^ e.log2)
/-- What is known of the translation of an address at a die: the cached one, or what the walk that has just ended finds; none where a walk must
start. -/
def State.translation (s : State) (d : Nat) (p : Pkt) (ent : BitVec 128) (walked : Bool) (va : Nat) : Option WalkRes :=
  if walked then some (s.walk d p.track ent va p.memOp.changes)
  else (s.tcHit d p.track va p.memOp.changes).map .present
/-- Steps 2 to 6 of R59 for a request of which every element lies in the page of its address. -/
def State.onePage (s : State) (d : Nat) (p : Pkt) (r : Option WalkRes) : Homed :=
  match r with
  | some r => s.afterWalk d p r
  | none => .walk
/-- A request with one of its elements alone. -/
def Pkt.only (p : Pkt) (r : Nat × Nat) : Pkt := { p with va := r.1, elems := [r] }
/-- The checks of two parts of a request, in their order: the first that fails decides. A later part whose page is FORWARDED is a miss there. -/
def Homed.join : Homed → Homed → Homed
  | .ok a, .ok b => .ok (a ++ b)
  | .ok _, .forward _ => .miss
  | .ok _, r => r
  | r, _ => r
/-- Steps 2 to 6 of R59 at a die for a global address. A request asks for elements of one page (R70). Where its elements lie in more pages than
that, for the table has changed since it was issued, each is checked in its own page, and the first that fails ends the request (DESIGN CHOICE, log
entry 126). -/
def State.globalCheck (s : State) (d : Nat) (p : Pkt) (ent : BitVec 128) (walked : Bool) : Homed :=
  let at' := s.translation d p ent walked
  let whole := match at' p.va with | some (.present e) => p.elems.all e.holds | _ => true
  if whole then s.onePage d p (at' p.va)
  else p.elems.foldl (fun h r => h.join (s.onePage d (p.only r) (at' r.1))) (.ok [])

/-- R59 for a request at a die: `walked` where its walk has just ended. -/
def State.homeCheck (s : State) (d : Nat) (p : Pkt) (walked : Bool) : Homed :=
  match s.trackEntry d p.track with
  | none => .refuse 1
  | some ent =>
    match addrClass p.va with
    | .global =>
      if (walked || (s.tcHit d p.track p.va p.memOp.changes).isNone) && isCDie d && !s.readyBit (12 + d) then .refuse 5
      else s.globalCheck d p ent walked
    | .copyTcm => s.apertureCheck d p ent
    | .copySpad => s.apertureCheck d p ent
    | _ => .refuse 1

/-- The address that the answer to a refused request names: its own, or, of a request over several pages, that of its lowest element that fails (R70). -/
def State.failVa (s : State) (d : Nat) (p : Pkt) (walked : Bool) : Nat :=
  if p.elems.all fun r => r.1 / 4096 == p.va / 4096 then p.va
  else (p.elems.find? fun r => match s.homeCheck d (p.only r) walked with | .ok _ => false | _ => true).elim p.va Prod.fst

/-- What one synchronous look at an address at die `h` gives, with the walk made at once. -/
def State.probeAt (s : State) (h : Nat) (p : Pkt) : Homed :=
  match s.homeCheck h p false with
  | .walk => s.homeCheck h p true
  | r => r
/-- The same for an address of a track from die `d`, through one forward (R68): for fetches that hit, saves and restores in overflow frames, and
reads that the Starter makes. Status 0 means that the page is MIGRATING: the access waits. A master below 2 is a compute core. -/
def State.probe (s : State) (d : Nat) (tk : BitVec 16) (master : Nat) (op : MemOp) (a n : Nat) : Except Nat Ranges :=
  match s.homeOf d tk a with
  | .package _ => .error 5
  | .die h =>
    if !s.dieUp h || !s.linkUp d h then .error 5
    else
      let p := { Pkt.blank with ty := if op.changes then .write else .read, op := op, va := a, track := tk, src := niEp d,
                                master := master, elems := [(a, n)] }
      match (match s.probeAt h p with
        | .forward h' => if s.dieUp h' && s.linkUp h h' then s.probeAt h' { p with forwarded := true } else .refuse 5
        | r => r) with
      | .ok rs => .ok rs
      | .refuse st => .error st
      | .held => .error 0
      | _ => .error 3
/-- The cells of a range of global addresses, page by page. -/
def State.probeRange (s : State) (d : Nat) (tk : BitVec 16) (master : Nat) (op : MemOp) : Nat → Nat → Nat → Except (Nat × Nat) Ranges
  | 0, _, _ => .ok []
  | fuel + 1, a, n =>
    if n = 0 then .ok []
    else
      let k := min n (4096 - a % 4096)
      match s.probe d tk master op a k with
      | .error st => .error (st, a)
      | .ok rs =>
        match s.probeRange d tk master op fuel (a + k) (n - k) with
        | .error e => .error e
        | .ok r => .ok (rs ++ r)

end Sys2Proof.Machine
end

