-- ==== Sys2Proof/Machine/Logs.lean ====
section
/-!
DEFINITION. The invalidation logs (R64 to R66) and the system tables from which the NIs load (R51).
-/
namespace Sys2Proof.Machine

/-! ## The system tables of R51 -/

/-- The cell of the track-table image's entry `i`. -/
def State.trkImage (s : State) (i : Nat) : Nat := hbmCell 0 (s.pkg.trkimg.toNat + 16 * i)
/-- The ROOT of entry `i` for a die, in bits [55:12]. -/
def State.trkRoot (s : State) (i d : Nat) : Dword := s.load64 (hbmCell 0 (s.pkg.trkimg.toNat + 0x4000 + 256 * i + 8 * d))
/-- The track-table entry that the image gives a die: the ROOT field is the die's own. -/
def State.trkLoaded (s : State) (i d : Nat) : BitVec 128 :=
  let e := BitVec.ofNat 128 (s.loadLE (s.trkImage i) 16)
  let root := (s.trkRoot i d).extractLsb' 12 44
  e.extractLsb' 83 45 ++ 0#27 ++ root ++ 0#12
/-- A die loads track-table entry `i` and drops its cached translations under that entry's tracks (R51). -/
def State.loadTrack (s : State) (i d : Nat) : State :=
  let n := s.ni d
  let e := s.trkLoaded i d
  s.setNi d { n with trk := if e = 0 then kdel i n.trk else kset i e n.trk, tcache := n.tcache.filter fun t => trkIdx t.track != i }
/-- The placement records of slot `i` of the placement-map store, those that are not zero. -/
def State.pmapStore (s : State) (i : Nat) : KMap (BitVec 256) :=
  (List.range 256).filterMap fun j =>
    let w := s.entry32 (hbmCell 0 (s.pkg.pmapimg.toNat + 8192 * i + 32 * j))
    if w = 0 then none else some (j, w)
/-- A die reloads its replica of the placement map of a track-table index. -/
def State.loadPmap (s : State) (i d : Nat) : State :=
  let n := s.ni d
  s.setNi d { n with pmap := kset i (s.pmapStore i) n.pmap }

/-! ## Logs -/

/-- The ring slot of a die's record number `n`, none for a die that has no ring (R51, R65). The X-die and the B-die have none: their NIs
apply a record as it reaches them (log entry 20). -/
def State.ringCell (s : State) (d n : Nat) : Option Nat :=
  let off := 32 * (n % 4096)
  if isCDie d then some (hbmCell d (s.pkg.logbase.toNat + off))
  else if d = 16 then some (hbmCell 0 (s.pkg.logbase.toNat + 0x20000 + off))
  else if d = 17 then some (hbmCell 0 (s.pkg.logbase.toNat + 0x40000 + off))
  else none
/-- Fields of a record (R64). -/
def ivlKind (r : BitVec 256) : Nat := (r.extractLsb' 64 4).toNat
/-- See `ivlKind`. -/
def ivlDie (r : BitVec 256) : Nat := (r.extractLsb' 68 5).toNat
/-- See `ivlKind`. -/
def ivlTrack (r : BitVec 256) : BitVec 16 := r.extractLsb' 80 16
/-- Applying a record at a die (R64): the placement map is reloaded, cached translations of a range are dropped, or the targets' copies of an
access-table entry are. -/
def State.applyRecord (s : State) (d : Nat) (r : BitVec 256) : State :=
  let n := s.ni d
  match ivlKind r with
  | 0 => s.loadPmap (trkIdx (ivlTrack r)) d
  | 1 => s.setNi d { n with tcache := tcDrop (ivlTrack r) (r.extractLsb' 128 64).toNat (r.extractLsb' 192 64).toNat n.tcache }
  | 2 =>
    let ati := (r.extractLsb' 96 12).toNat
    s.setNi d { n with accHeld := n.accHeld.filter fun p => p.1 % 4096 != ati }
  | _ => s
/-- Is a record still on its way to a die's log: in flight, or kept by a link that is down. -/
def State.ivlInFlight (s : State) (d index : Nat) : Bool :=
  let it := fun (p : Pkt) => p.ty == .ivl && epDie p.dst == d && p.a.toNat == index
  s.net.any (fun p => it p.2) || (s.link bDie d).owed.any it
/-- The pending records that have been appended to a die's log, oldest first. -/
def State.appendedIvl (s : State) (d : Nat) : List (Nat × Nat) := (s.ni d).log.pending.filter fun p => !s.ivlInFlight d p.1
/-- A die applies its oldest pending record, read from its ring. -/
def State.applyOne (s : State) (d : Nat) (index : Nat) : State :=
  let l := (s.ni d).log
  let s := match s.ringCell d l.consumed with
    | some c => s.applyRecord d (s.entry32 c)
    | none => s
  let n := s.ni d
  s.setNi d { n with log := { n.log with consumed := n.log.consumed + 1, pending := n.log.pending.filter (fun p => p.1 != index),
                                         applied := index } }
/-- A die applies its pending records in INDEX order (R65). -/
def State.applyLog (s : State) (d : Nat) : State := (s.appendedIvl d).foldl (fun s p => s.applyOne d p.1) s
/-- The dies that a record goes to: every live die for a PMAP record, DIE for the others (R65). -/
def State.ivlDies (s : State) (r : BitVec 256) : List Nat :=
  if ivlKind r = 0 then allDies.filter s.dieUp else [ivlDie r].filter s.dieUp
/-- May a record be posted: a KIND that is not reserved, and a DIE that names a die for PAGE and ACCESS (R243). -/
def ivlOk (r : BitVec 256) : Bool := decide (ivlKind r < 3) && (ivlKind r == 0 || isDie (ivlDie r))
/-- A ring of the record's dies would overwrite an unapplied record (R66). -/
def State.ivlFull (s : State) (r : BitVec 256) : Bool :=
  (s.ivlDies r).any fun d => decide (4096 ≤ (s.ni d).log.appended - (s.ni d).log.consumed)
/-- The B-die assigns the next INDEX to a record and sends it to the logs of its dies (R65). -/
def State.ivlPost (s : State) (r : BitVec 256) : Nat × State :=
  let index := s.pkg.ivlIndex + 1
  let s := { s with pkg := { s.pkg with ivlIndex := index } }
  (index, (s.ivlDies r).foldl (fun s d =>
    let n := s.ni d
    let number := n.log.appended
    let s := s.setNi d { n with log := { n.log with appended := number + 1, pending := n.log.pending ++ [(index, s.swcAt bDie)] } }
    s.send { Pkt.blank with ty := .ivl, src := mgmtEp, dst := niEp d, a := BitVec.ofNat 64 index, b := r.extractLsb' 64 64,
                            va := (r.extractLsb' 128 64).toNat, c := r.extractLsb' 192 64, elems := [(number, 32)] }) s)
/-- The record that an IVL packet carries, and its number in the die's log. -/
def ivlRecord (p : Pkt) : BitVec 256 := p.c ++ BitVec.ofNat 64 p.va ++ p.b ++ p.a
/-- See `ivlRecord`. -/
def ivlNumber (p : Pkt) : Nat := ((p.elems.head?).map Prod.fst).getD 0
/-- An IVL packet at its die: the record is appended to the ring; a die without a ring applies it (R65). -/
def State.ivlAppend (s : State) (d : Nat) (p : Pkt) : State :=
  let now := s.swcAt d
  let index := p.a.toNat
  let n := s.ni d
  let s := s.setNi d { n with log := { n.log with pending := n.log.pending.map fun q => if q.1 = index then (index, now) else q } }
  match s.ringCell d (ivlNumber p) with
  | some c => s.store none c (bytesLE 32 (ivlRecord p).toNat)
  | none =>
    let s := s.applyRecord d (ivlRecord p)
    let n := s.ni d
    s.setNi d { n with log := { n.log with consumed := n.log.consumed + 1, pending := n.log.pending.filter (fun q => q.1 != index),
                                           applied := index } }
/-- A die has applied, and reported, every record up to an index (R65). -/
def DieLog.covers (l : DieLog) (index : Nat) : Bool :=
  l.pending.all (fun p => decide (index < p.1)) && (decide (l.applied ≤ l.reported) || decide (index ≤ l.reported))
/-- IVL.SYNC's condition on every live die (R65, R66). -/
def State.ivlSynced (s : State) (index : Nat) : Bool := (allDies.filter s.dieUp).all fun d => (s.ni d).log.covers index
/-- A package-scope acquire, or a context switch, on a die: its pending records are applied first (R65). -/
def State.acquireLog (s : State) (d scope : Nat) : State := if 2 ≤ scope then s.applyLog d else s

end Sys2Proof.Machine
end

