-- ==== Sys2Proof/Machine/Float.lean ====
section
/-!
DEFINITION. Number formats and exact arithmetic (08_arithmetic.md): every result is computed as an exact rational or an
exact square root and rounded once (R159 to R162), in the vector, matrix, Relay and statistics units and in the scalar
Zfinx instructions alike. Bit patterns are natural numbers below `2 ^ width`.
-/
namespace Sys2Proof.Machine

/-- A binary interchange layout: exponent and fraction widths (R158). -/
structure Fmt where
  ebits : Nat
  mbits : Nat
  deriving DecidableEq, Repr

/-- FP32, R158 ty 0. -/
def Fmt.f32 : Fmt := ⟨8, 23⟩
/-- BF16, R158 ty 1. -/
def Fmt.bf16 : Fmt := ⟨8, 7⟩
/-- FP16, R158 ty 2. -/
def Fmt.f16 : Fmt := ⟨5, 10⟩

/-- The width in bits of a format. -/
def fmtWidth (f : Fmt) : Nat := 1 + f.ebits + f.mbits
/-- The exponent bias of a format. -/
def fmtBias (f : Fmt) : Nat := 2 ^ (f.ebits - 1) - 1
/-- The pattern of +∞. -/
def fmtInf (f : Fmt) : Nat := (2 ^ f.ebits - 1) * 2 ^ f.mbits
/-- The canonical quiet NaN of a format (R159). -/
def fmtNaN (f : Fmt) : Nat := fmtInf f + 2 ^ (f.mbits - 1)
/-- The sign bit of a format, as a pattern. -/
def fmtSign (f : Fmt) (neg : Bool) : Nat := if neg then 2 ^ (f.ebits + f.mbits) else 0

/-- Rounding modes: R160's four codes, and RMM, which only the scalar Zfinx instructions reach (R204). -/
inductive RMode | rne | rtz | rdn | rup | rmm
  deriving DecidableEq, Repr

/-- The rounding field of R160. -/
def rmodeOfCode (c : Nat) : RMode :=
  match c % 4 with
  | 0 => .rne
  | 1 => .rtz
  | 2 => .rdn
  | _ => .rup

/-- What a bit pattern stands for. A finite value is `(-1)^neg * sig * 2^exp`; a zero has `sig = 0`. -/
inductive FVal
  | nan (signalling : Bool)
  | inf (neg : Bool)
  | fin (neg : Bool) (sig : Nat) (exp : Int)
  deriving DecidableEq, Repr

/-- Reading a pattern under a format (R158). -/
def fdecode (f : Fmt) (bits : Nat) : FVal :=
  let neg := bits.testBit (f.ebits + f.mbits)
  let e := bits / 2 ^ f.mbits % 2 ^ f.ebits
  let m := bits % 2 ^ f.mbits
  if e = 2 ^ f.ebits - 1 then
    if m = 0 then .inf neg else .nan (! m.testBit (f.mbits - 1))
  else if e = 0 then .fin neg m (1 - (fmtBias f : Int) - f.mbits)
  else .fin neg (m + 2 ^ f.mbits) ((e : Int) - (fmtBias f : Int) - f.mbits)

/-- The accrued exception bits of fcsr, in RISC-V order NV DZ OF UF NX. -/
structure FFlags where
  nv : Bool := false
  dz : Bool := false
  of : Bool := false
  uf : Bool := false
  nx : Bool := false
  deriving DecidableEq, Repr

/-- A rounded result: its pattern and the flags that the scalar instructions accrue. -/
structure FRes where
  bits : Nat
  flags : FFlags := {}
  deriving DecidableEq, Repr

/-- Where an exact value lies between a floor and the next integer. -/
inductive Rest | exact | below | half | above
  deriving DecidableEq, Repr

/-- The position of `rem / den` in [0, 1). -/
def restOf (rem den : Nat) : Rest :=
  if rem = 0 then .exact else if 2 * rem < den then .below else if 2 * rem = den then .half else .above

/-- Rounding a magnitude `fl + rest` to an integer in a mode (R160; RMM ties away from zero). -/
def roundUp (mode : RMode) (neg : Bool) (fl : Nat) (r : Rest) : Nat :=
  match mode, r with
  | _, .exact => fl
  | .rne, .below => fl
  | .rne, .half => if fl % 2 = 0 then fl else fl + 1
  | .rne, .above => fl + 1
  | .rtz, _ => fl
  | .rdn, _ => if neg then fl + 1 else fl
  | .rup, _ => if neg then fl else fl + 1
  | .rmm, .below => fl
  | .rmm, _ => fl + 1

/-- `n * 2^k` and `d` for an integer `k` of either sign. -/
def scaleNum (n : Nat) (k : Int) : Nat := if 0 ≤ k then n * 2 ^ k.toNat else n
/-- The matching denominator of `scaleNum`. -/
def scaleDen (d : Nat) (k : Int) : Nat := if 0 ≤ k then d else d * 2 ^ (-k).toNat

/-- The integer `e` with `2^e ≤ n/d < 2^(e+1)`, for `n` and `d` above zero. -/
def floorLog2 (n d : Nat) : Int :=
  let k : Int := (n.log2 : Int) - (d.log2 : Int)
  if scaleDen d (-k) ≤ scaleNum n (-k) then k else k - 1

/-- The result on overflow, R160. -/
def overflowBits (f : Fmt) (mode : RMode) (neg : Bool) : Nat :=
  fmtSign f neg +
  match mode with
  | .rne => fmtInf f
  | .rmm => fmtInf f
  | .rtz => fmtInf f - 1
  | .rdn => if neg then fmtInf f else fmtInf f - 1
  | .rup => if neg then fmtInf f - 1 else fmtInf f

/-- The exponent of the last place kept for a value whose leading bit is at `e`. -/
def quantum (f : Fmt) (e : Int) : Int := max (e - f.mbits) (1 - (fmtBias f : Int) - f.mbits)

/-- Packing a magnitude `(fl + rest) * 2^q`, with `q = quantum f e`: one rounding, overflow under R160, and the flags of
IEEE 754 with tininess detected after rounding. `tiny` is the value rounded as if the exponent were unbounded being
below the least normal. -/
def packRound (f : Fmt) (mode : RMode) (neg : Bool) (q : Int) (fl : Nat) (r : Rest) (tiny : Bool) : FRes :=
  let sig := roundUp mode neg fl r
  let bits := (q - (1 - (fmtBias f : Int) - f.mbits)).toNat * 2 ^ f.mbits + sig
  let nx := r != .exact
  if fmtInf f ≤ bits then ⟨overflowBits f mode neg, { of := true, nx := true }⟩
  else ⟨fmtSign f neg + bits, { uf := tiny && nx, nx := nx }⟩

/-- A non-zero rational magnitude `n/d` rounded once to a format. -/
def roundRat (f : Fmt) (mode : RMode) (neg : Bool) (n d : Nat) : FRes :=
  if n = 0 then ⟨fmtSign f neg, {}⟩ else
  let e := floorLog2 n d
  let q := quantum f e
  let num := scaleNum n (-q)
  let den := scaleDen d (-q)
  let emin : Int := 1 - (fmtBias f : Int)
  let q1 := e - f.mbits
  let n1 := scaleNum n (-q1)
  let d1 := scaleDen d (-q1)
  let tiny := decide (e < emin - 1) ||
    (decide (e = emin - 1) && decide (roundUp mode neg (n1 / d1) (restOf (n1 % d1) d1) < 2 ^ (f.mbits + 1)))
  packRound f mode neg q (num / den) (restOf (num % den) den) tiny

/-- The bits of an integer square root, from bit `b - 1` down. -/
def isqrtAux : Nat → Nat → Nat → Nat
  | 0, _, r => r
  | b + 1, x, r => if (r + 2 ^ b) * (r + 2 ^ b) ≤ x then isqrtAux b x (r + 2 ^ b) else isqrtAux b x r

/-- The greatest natural number whose square is at most `x`. -/
def isqrt (x : Nat) : Nat := isqrtAux (x.log2 / 2 + 1) x 0

/-- The square root of a rational `n/d` above zero, correctly rounded (R253, R174). A square root is never subnormal and
never overflows in these formats. -/
def roundSqrt (f : Fmt) (mode : RMode) (n d : Nat) : FRes :=
  let e := (floorLog2 n d).fdiv 2
  let q := quantum f e
  let num := scaleNum n (-(2 * q))
  let den := scaleDen d (-(2 * q))
  let fl := isqrt (num / den)
  let rest : Rest :=
    if fl * fl * den = num then .exact
    else if 4 * num < (2 * fl + 1) * (2 * fl + 1) * den then .below
    else if 4 * num = (2 * fl + 1) * (2 * fl + 1) * den then .half
    else .above
  packRound f mode false q fl rest false

/-- A signed dyadic `i * 2^e` rounded once; an exact zero takes the sign `zneg`. -/
def roundDyadic (f : Fmt) (mode : RMode) (i : Int) (e : Int) (zneg : Bool) : FRes :=
  if i = 0 then ⟨fmtSign f zneg, {}⟩
  else roundRat f mode (decide (i < 0)) (scaleNum i.natAbs e) (scaleDen 1 e)

/-- The canonical NaN with the invalid flag. -/
def fInvalid (f : Fmt) : FRes := ⟨fmtNaN f, { nv := true }⟩
/-- The canonical NaN for a NaN operand; a signalling one raises the invalid flag. -/
def fPropagate (f : Fmt) (s : Bool) : FRes := ⟨fmtNaN f, { nv := s }⟩
/-- A signed infinity. -/
def fInfinity (f : Fmt) (neg : Bool) : FRes := ⟨fmtSign f neg + fmtInf f, {}⟩

/-- Is the value a signalling NaN. -/
def isSnan : FVal → Bool
  | .nan s => s
  | _ => false
/-- Is the value any NaN. -/
def isNan : FVal → Bool
  | .nan _ => true
  | _ => false

/-- A signed integer from a sign and a magnitude. -/
def signed (neg : Bool) (m : Nat) : Int := if neg then -(m : Int) else m

/-- `i * 2^e` re-expressed at the exponent `e0 ≤ e`. -/
def alignTo (i : Int) (e e0 : Int) : Int := i * 2 ^ (e - e0).toNat

/-- The sign of an exact zero sum (R253, R254): minus only when both terms are minus zero, or under RDN when the
terms cancel (IEEE 754). -/
def zeroSumNeg (mode : RMode) (na nb : Bool) : Bool :=
  if na = nb then na else decide (mode = .rdn)

/-- Sum of two values of any formats, rounded once to `f`. -/
def addV (f : Fmt) (mode : RMode) (a b : FVal) : FRes :=
  match a, b with
  | .nan s, y => fPropagate f (s || isSnan y)
  | _, .nan s => fPropagate f s
  | .inf n, .inf m => if n = m then fInfinity f n else fInvalid f
  | .inf n, _ => fInfinity f n
  | _, .inf m => fInfinity f m
  | .fin n s e, .fin m t g =>
    let e0 := min e g
    roundDyadic f mode (alignTo (signed n s) e e0 + alignTo (signed m t) g e0) e0 (zeroSumNeg mode n m)

/-- A value with its sign inverted. -/
def negV : FVal → FVal
  | .nan s => .nan s
  | .inf n => .inf (!n)
  | .fin n s e => .fin (!n) s e

/-- The exact product as a value; NaN for `0 × ∞`. The NaN of an invalid product is marked signalling, so that the
invalid flag is raised where flags are kept. -/
def mulExact (a b : FVal) : FVal :=
  match a, b with
  | .nan s, y => .nan (s || isSnan y)
  | _, .nan s => .nan s
  | .inf n, .inf m => .inf (n != m)
  | .inf n, .fin m t _ => if t = 0 then .nan true else .inf (n != m)
  | .fin n s _, .inf m => if s = 0 then .nan true else .inf (n != m)
  | .fin n s e, .fin m t g => .fin (n != m) (s * t) (e + g)

/-- A value rounded once to a format (R162, float to float; R253, products). -/
def roundV (f : Fmt) (mode : RMode) (a : FVal) : FRes :=
  match a with
  | .nan s => fPropagate f s
  | .inf n => fInfinity f n
  | .fin n s e => roundRat f mode n (scaleNum s e) (scaleDen 1 e)

/-- Product, rounded once. -/
def mulV (f : Fmt) (mode : RMode) (a b : FVal) : FRes := roundV f mode (mulExact a b)

/-- `fma(a, b, c)`: the exact product plus `c`, rounded once (R4, R254). -/
def fmaV (f : Fmt) (mode : RMode) (a b c : FVal) : FRes :=
  let p := mulExact a b
  match p, c with
  | .nan s, z => fPropagate f (s || isSnan z)
  | x, z => addV f mode x z

/-- Quotient, rounded once (R253). -/
def divV (f : Fmt) (mode : RMode) (a b : FVal) : FRes :=
  match a, b with
  | .nan s, y => fPropagate f (s || isSnan y)
  | _, .nan s => fPropagate f s
  | .inf _, .inf _ => fInvalid f
  | .inf n, .fin m _ _ => fInfinity f (n != m)
  | .fin n _ _, .inf m => ⟨fmtSign f (n != m), {}⟩
  | .fin n s e, .fin m t g =>
    if t = 0 then
      if s = 0 then fInvalid f else { fInfinity f (n != m) with flags := { dz := true } }
    else roundRat f mode (n != m) (scaleNum s (e - g)) (scaleDen t (e - g))

/-- Square root, correctly rounded (R253). -/
def sqrtV (f : Fmt) (mode : RMode) (a : FVal) : FRes :=
  match a with
  | .nan s => fPropagate f s
  | .inf n => if n then fInvalid f else fInfinity f false
  | .fin n s e =>
    if s = 0 then ⟨fmtSign f n, {}⟩
    else if n then fInvalid f
    else roundSqrt f mode (scaleNum s e) (scaleDen 1 e)

/-- `1 ÷ sqrt(a)`, correctly rounded (R253, VRSQ). -/
def rsqrtV (f : Fmt) (mode : RMode) (a : FVal) : FRes :=
  match a with
  | .nan s => fPropagate f s
  | .inf n => if n then fInvalid f else ⟨0, {}⟩
  | .fin n s e =>
    if s = 0 then fInfinity f n
    else if n then fInvalid f
    else roundSqrt f mode (scaleDen 1 e) (scaleNum s e)

/-- The order of two values that are no NaN: `a < b` by value, so that −0 equals +0. -/
def ltV (a b : FVal) : Bool :=
  match a, b with
  | .nan _, _ => false
  | _, .nan _ => false
  | .inf n, .inf m => n && !m
  | .inf n, _ => n
  | _, .inf m => !m
  | .fin n s e, .fin m t g =>
    let e0 := min e g
    decide (alignTo (signed n s) e e0 < alignTo (signed m t) g e0)

/-- Equality by value; a NaN equals nothing (R256). -/
def eqV (a b : FVal) : Bool := !isNan a && !isNan b && !ltV a b && !ltV b a

/-- The sign of a value. -/
def negOf : FVal → Bool
  | .nan _ => false
  | .inf n => n
  | .fin n _ _ => n

/-- `a` comes before `b` in the order of R159, in which −0 is less than +0. -/
def ltTotal (a b : FVal) : Bool := ltV a b || (eqV a b && negOf a && !negOf b)

/-- The lesser or greater of two patterns under R159: any NaN gives the canonical NaN. -/
def minmaxBits (f : Fmt) (greater : Bool) (x y : Nat) : Nat :=
  let a := fdecode f x
  let b := fdecode f y
  if isNan a || isNan b then fmtNaN f
  else if greater then (if ltTotal a b then y else x) else (if ltTotal b a then y else x)

/-- A magnitude `n/d` rounded to an integer in a mode. -/
def roundIntMag (mode : RMode) (neg : Bool) (n d : Nat) : Nat := roundUp mode neg (n / d) (restOf (n % d) d)

/-- A finite value rounded to an integer in a mode. -/
def toIntV (mode : RMode) (n : Bool) (s : Nat) (e : Int) : Int :=
  signed n (roundIntMag mode n (scaleNum s e) (scaleDen 1 e))

/-- An integer rounded to a float format (R162). -/
def ofIntV (f : Fmt) (mode : RMode) (i : Int) : FRes := roundDyadic f mode i 0 false

/-- The pattern with its NaN made canonical. -/
def canon (f : Fmt) (x : Nat) : Nat := if isNan (fdecode f x) then fmtNaN f else x

/-- Widening of a pattern of any format to FP32: exact, with NaN canonical (R162). -/
def toF32 (f : Fmt) (x : Nat) : Nat := (roundV .f32 .rne (fdecode f x)).bits

/-- `RNE32(a + b)` on FP32 patterns (R4). -/
def add32 (x y : Nat) : Nat := (addV .f32 .rne (fdecode .f32 x) (fdecode .f32 y)).bits
/-- `RNE32(a − b)` on FP32 patterns. -/
def sub32 (x y : Nat) : Nat := (addV .f32 .rne (fdecode .f32 x) (negV (fdecode .f32 y))).bits
/-- `RNE32(a × b)` on FP32 patterns. -/
def mul32 (x y : Nat) : Nat := (mulV .f32 .rne (fdecode .f32 x) (fdecode .f32 y)).bits
/-- `RNE32(a ÷ b)` on FP32 patterns. -/
def div32 (x y : Nat) : Nat := (divV .f32 .rne (fdecode .f32 x) (fdecode .f32 y)).bits
/-- `fma(a, b, c)` on FP32 patterns. -/
def fma32 (x y z : Nat) : Nat := (fmaV .f32 .rne (fdecode .f32 x) (fdecode .f32 y) (fdecode .f32 z)).bits

/-- Subnormal operands taken as zero of the same sign (R161, the matrix array). -/
def flushSub (f : Fmt) (a : FVal) : FVal :=
  match a with
  | .fin n s e => if s < 2 ^ f.mbits then .fin n 0 e else .fin n s e
  | x => x

end Sys2Proof.Machine
end

