-- ==== Sys2Proof/Machine/Elem.lean ====
section
/-!
DEFINITION. Vector elements (R158, R245), the element operations of the vector chapter (R253 to R257), quantisation
(R163 to R166, R258, R259), reductions (R170) and statistics triples (R171 to R174), as functions on bit patterns.
-/
namespace Sys2Proof.Machine

/-- The element formats, in the order of their ty codes (R158). -/
inductive VTy | f32 | bf16 | f16 | s32 | n32 | s16 | s8 | n8
  deriving DecidableEq, Repr

/-- The format that a ty code names. -/
def vtyOfCode (c : Nat) : VTy :=
  match c % 8 with
  | 0 => .f32
  | 1 => .bf16
  | 2 => .f16
  | 3 => .s32
  | 4 => .n32
  | 5 => .s16
  | 6 => .s8
  | _ => .n8

/-- Element width in bits. -/
def vtyWidth : VTy → Nat
  | .f32 => 32
  | .bf16 => 16
  | .f16 => 16
  | .s32 => 32
  | .n32 => 32
  | .s16 => 16
  | .s8 => 8
  | .n8 => 8

/-- Elements per register, R245. -/
def vtyCount (t : VTy) : Nat := 256 / vtyWidth t

/-- Is the type a float type. -/
def vtyFloat : VTy → Bool
  | .f32 => true
  | .bf16 => true
  | .f16 => true
  | _ => false

/-- Is an integer type signed. -/
def vtySigned : VTy → Bool
  | .s32 => true
  | .s16 => true
  | .s8 => true
  | _ => false

/-- The layout of a float type. -/
def vtyFmt : VTy → Fmt
  | .bf16 => .bf16
  | .f16 => .f16
  | _ => .f32

/-- Element `i` of width `w` of a register. -/
def velem (w : Nat) (v : Vreg) (i : Nat) : Nat := v.toNat / 2 ^ (w * i) % 2 ^ w

/-- The first `n` elements of a register, in ascending order. -/
def velems (w n : Nat) (v : Vreg) : List Nat := (List.range n).map (velem w v)

/-- A natural number whose digits of width `w` are the list, least significant first. -/
def packNat (w : Nat) : List Nat → Nat
  | [] => 0
  | x :: r => x % 2 ^ w + 2 ^ w * packNat w r

/-- A register holding the elements of a list, zero above them. -/
def vpack (w : Nat) (l : List Nat) : Vreg := BitVec.ofNat 256 (packNat w l)

/-- All elements of a register under a type. -/
def vlist (t : VTy) (v : Vreg) : List Nat := velems (vtyWidth t) (vtyCount t) v

/-- A pattern of width `w` read as a signed or unsigned integer. -/
def asInt (sgn : Bool) (w x : Nat) : Int := if sgn && x.testBit (w - 1) then (x : Int) - 2 ^ w else x

/-- An integer taken modulo `2 ^ w`. -/
def wrapInt (w : Nat) (i : Int) : Nat := (i % (2 ^ w : Int)).toNat

/-- An integer saturated to a type's range (R162). -/
def saturate (t : VTy) (i : Int) : Nat :=
  let w := vtyWidth t
  let lo : Int := if vtySigned t then -(2 ^ (w - 1) : Int) else 0
  let hi : Int := if vtySigned t then (2 ^ (w - 1) : Int) - 1 else (2 ^ w : Int) - 1
  wrapInt w (max lo (min hi i))

/-- The element-wise binary operations of funct3 000 and 001. -/
inductive VOp2 | add | sub | mul | min | max | div | and | or | xor | shl | shr | sra
  deriving DecidableEq, Repr

/-- A float element operation (R253). The bitwise selectors have no float form and give the canonical NaN here; no
instruction reaches them. -/
def felem2 (op : VOp2) (f : Fmt) (x y : Nat) : Nat :=
  let a := fdecode f x
  let b := fdecode f y
  match op with
  | .add => (addV f .rne a b).bits
  | .sub => (addV f .rne a (negV b)).bits
  | .mul => (mulV f .rne a b).bits
  | .div => (divV f .rne a b).bits
  | .min => minmaxBits f false x y
  | .max => minmaxBits f true x y
  | _ => fmtNaN f

/-- An integer element operation (R255). -/
def ielem2 (op : VOp2) (t : VTy) (x y : Nat) : Nat :=
  let w := vtyWidth t
  let a := asInt (vtySigned t) w x
  let b := asInt (vtySigned t) w y
  match op with
  | .add => wrapInt w (a + b)
  | .sub => wrapInt w (a - b)
  | .mul => wrapInt w (a * b)
  | .min => if a ≤ b then x else y
  | .max => if a ≤ b then y else x
  | .div => 0
  | .and => x &&& y
  | .or => x ||| y
  | .xor => x ^^^ y
  | .shl => x * 2 ^ (y % w) % 2 ^ w
  | .shr => x / 2 ^ (y % w)
  | .sra => wrapInt w (asInt true w x / (2 ^ (y % w) : Int))

/-- An element-wise operation on two registers. -/
def vmap2 (t : VTy) (g : Nat → Nat → Nat) (a b : Vreg) : Vreg :=
  vpack (vtyWidth t) (List.zipWith g (vlist t a) (vlist t b))

/-- An element-wise operation on one register. -/
def vmap1 (t : VTy) (g : Nat → Nat) (a : Vreg) : Vreg := vpack (vtyWidth t) ((vlist t a).map g)

/-- VABS and VNEG of a float element: a NaN gives the canonical NaN (R253). -/
def fabsBits (f : Fmt) (x : Nat) : Nat := if isNan (fdecode f x) then fmtNaN f else x % 2 ^ (f.ebits + f.mbits)
/-- See `fabsBits`. -/
def fnegBits (f : Fmt) (x : Nat) : Nat :=
  if isNan (fdecode f x) then fmtNaN f else x ^^^ 2 ^ (f.ebits + f.mbits)

/-- The compare conditions of R256. -/
inductive VCond | eq | ne | lt | le | gt | ge
  deriving DecidableEq, Repr

/-- The condition that a selector names. -/
def vcondOfCode (c : Nat) : VCond :=
  match c with
  | 0 => .eq
  | 1 => .ne
  | 2 => .lt
  | 3 => .le
  | 4 => .gt
  | _ => .ge

/-- A condition on two elements under a type (R256). -/
def vcond (c : VCond) (t : VTy) (x y : Nat) : Bool :=
  if vtyFloat t then
    let a := fdecode (vtyFmt t) x
    let b := fdecode (vtyFmt t) y
    match c with
    | .eq => eqV a b
    | .ne => !eqV a b
    | .lt => ltV a b
    | .le => ltV a b || eqV a b
    | .gt => ltV b a
    | .ge => ltV b a || eqV a b
  else
    let a := asInt (vtySigned t) (vtyWidth t) x
    let b := asInt (vtySigned t) (vtyWidth t) y
    match c with
    | .eq => decide (a = b)
    | .ne => decide (a ≠ b)
    | .lt => decide (a < b)
    | .le => decide (a ≤ b)
    | .gt => decide (b < a)
    | .ge => decide (b ≤ a)

/-- Conversion of one element between any two types in a mode (R162, R257). -/
def convertElem (mode : RMode) (src dst : VTy) (x : Nat) : Nat :=
  if vtyFloat src then
    let a := fdecode (vtyFmt src) x
    if vtyFloat dst then (if src = dst then canon (vtyFmt src) x else (roundV (vtyFmt dst) mode a).bits)
    else
      match a with
      | .nan _ => 0
      | .inf n => saturate dst (if n then -(2 ^ 64) else 2 ^ 64)
      | .fin n s e => saturate dst (toIntV mode n s e)
  else
    let i := asInt (vtySigned src) (vtyWidth src) x
    if vtyFloat dst then (ofIntV (vtyFmt dst) mode i).bits
    else if vtyWidth src < vtyWidth dst then wrapInt (vtyWidth dst) i
    else saturate dst i

/-- VCVT on a register (R257): the low `256 / max` elements, zero above the results. -/
def vconvert (mode : RMode) (src dst : VTy) (v : Vreg) : Vreg :=
  let n := 256 / max (vtyWidth src) (vtyWidth dst)
  vpack (vtyWidth dst) ((velems (vtyWidth src) n v).map (convertElem mode src dst))

/-! ## Quantisation (R163 to R166) -/

/-- An exact rational with a denominator above zero. -/
structure Rat2 where
  num : Int
  den : Nat
  deriving DecidableEq, Repr

/-- A finite value as a rational. -/
def ratOf (n : Bool) (s : Nat) (e : Int) : Rat2 := ⟨signed n (scaleNum s e), scaleDen 1 e⟩
/-- The order of rationals. -/
def ratLe (a b : Rat2) : Bool := decide (a.num * b.den ≤ b.num * a.den)
/-- Difference of rationals. -/
def ratSub (a b : Rat2) : Rat2 := ⟨a.num * b.den - b.num * a.den, a.den * b.den⟩
/-- Quotient by a rational above zero. -/
def ratDiv (a b : Rat2) : Rat2 := ⟨a.num * b.den, a.den * b.num.natAbs⟩
/-- `rne_int` of R165: the nearest integer, ties to even. -/
def rneInt (a : Rat2) : Int :=
  signed (decide (a.num < 0)) (roundIntMag .rne false a.num.natAbs a.den)

/-- The finite rationals of a list of FP32 patterns, or none where an element is a NaN or an infinity. -/
def ratsOf : List Nat → Option (List Rat2)
  | [] => some []
  | x :: r =>
    match fdecode .f32 x, ratsOf r with
    | .fin n s e, some l => some (ratOf n s e :: l)
    | _, _ => none

/-- The rule of R165 over a group of FP32 elements, `L` being 255 or 15: the scale, the zero point, and every q. -/
def quantise (L : Nat) (xs : List Nat) : Nat × Nat × List Nat :=
  match ratsOf xs with
  | none => (fmtNaN .f16, 0, xs.map fun _ => 0)
  | some rs =>
    let zero : Rat2 := ⟨0, 1⟩
    let lo := rs.foldl (fun m x => if ratLe x m then x else m) zero
    let hi := rs.foldl (fun m x => if ratLe m x then x else m) zero
    let range := ratSub hi lo
    let s0 := (roundRat .f16 .rne false range.num.natAbs (range.den * L)).bits
    let s1 := if s0 = fmtInf .f16 then fmtInf .f16 - 1 else s0
    let s := if s1 < 2 ^ 10 then 2 ^ 10 else s1
    match fdecode .f16 s with
    | .fin n g e =>
      let sr := ratOf n g e
      let z := (max 0 (min (L : Int) (rneInt (ratDiv ⟨-lo.num, lo.den⟩ sr)))).toNat
      (s, z, rs.map fun x => (max 0 (min (L : Int) (rneInt (ratDiv x sr) + z))).toNat)
    | _ => (s, 0, xs.map fun _ => 0)

/-- Dequantising (R166): `s × (q − z)` rounded once to a format. -/
def dequantise (f : Fmt) (s z q : Nat) : Nat :=
  let d : Int := (q : Int) - z
  (mulV f .rne (fdecode .f16 s) (.fin (decide (d < 0)) d.natAbs 0)).bits

/-! ## Reductions (R170) -/

/-- One level of the pairwise tree. -/
def treeLevel (g : Nat → Nat → Nat) : List Nat → List Nat
  | x :: y :: r => g x y :: treeLevel g r
  | l => l

/-- The pairwise tree, `k` levels deep. -/
def treeReduce (g : Nat → Nat → Nat) : Nat → List Nat → Nat
  | 0, l => l.headD 0
  | k + 1, l => treeReduce g k (treeLevel g l)

/-- VREDSUM over all gang elements (R170, R260). -/
def reduceSum (t : VTy) (l : List Nat) : Nat :=
  if vtyFloat t then treeReduce add32 (l.length.log2) (l.map (toF32 (vtyFmt t)))
  else wrapInt 32 ((l.map (asInt (vtySigned t) (vtyWidth t))).sum)

/-- VREDMAX over all gang elements. A float maximum of one NaN operand is canonical (R159). -/
def reduceMax (t : VTy) (l : List Nat) : Nat :=
  let g := if vtyFloat t then minmaxBits (vtyFmt t) true else ielem2 .max t
  treeReduce g (l.length.log2) l

/-! ## Statistics triples (R171 to R174) -/

/-- The fields of a STAT128 value (R171). -/
structure Stat where
  w : Nat
  mu : Nat
  m2 : Nat
  wbad : Bool
  wovf : Bool
  inf : Bool
  nan : Bool
  empty : Bool
  deriving DecidableEq, Repr

/-- Reading the fields of a STAT128 value. -/
def statOf (v : Streg) : Stat :=
  { w := (v.extractLsb' 96 32).toNat, mu := (v.extractLsb' 64 32).toNat, m2 := (v.extractLsb' 32 32).toNat,
    wbad := v.getLsbD 4, wovf := v.getLsbD 3, inf := v.getLsbD 2, nan := v.getLsbD 1, empty := v.getLsbD 0 }

/-- The STAT128 value of the fields, reserved bits zero. -/
def statTo (a : Stat) : Streg :=
  BitVec.ofNat 128 (a.w * 2 ^ 96 + a.mu * 2 ^ 64 + a.m2 * 2 ^ 32 + a.wbad.toNat * 16 + a.wovf.toNat * 8
    + a.inf.toNat * 4 + a.nan.toNat * 2 + a.empty.toNat)

/-- The empty code (R171). -/
def statEmpty : Streg := 1#128

/-- A malformed STAT128 value (R171). -/
def statMalformed (v : Streg) : Bool :=
  let a := statOf v
  v.extractLsb' 5 27 != 0#27 ||
  (a.empty && (a.w != 0 || a.mu != 0 || a.m2 != 0)) ||
  (!a.empty &&
    match fdecode .f32 a.w with
    | .fin n s _ => n || s = 0
    | _ => true)

/-- The update of a triple by `x` with weight `w` (R172). -/
def statUpd (a : Stat) (x w : Nat) : Stat :=
  match fdecode .f32 x with
  | .nan _ => { a with nan := true }
  | .inf _ => { a with inf := true }
  | .fin _ _ _ =>
    match fdecode .f32 w with
    | .nan _ => { a with wbad := true }
    | .inf _ => { a with wbad := true }
    | .fin n s _ =>
      if s = 0 then a
      else if n then { a with wbad := true }
      else if a.empty then { a with w := w, mu := x, m2 := 0, empty := false }
      else
        let w1 := add32 a.w w
        if w1 = fmtInf .f32 then { a with wovf := true }
        else
          let d := sub32 x a.mu
          let f := div32 w w1
          let m1 := fma32 f d a.mu
          let e := sub32 x m1
          { a with m2 := fma32 (mul32 w d) e a.m2, w := w1, mu := m1 }

/-- FP32 1.0, the weight of an unweighted update. -/
def one32 : Nat := 0x3F800000

/-- The tags of two triples joined. -/
def statTags (r a b : Stat) : Stat :=
  { r with wbad := a.wbad || b.wbad, wovf := a.wovf || b.wovf, inf := a.inf || b.inf, nan := a.nan || b.nan }

/-- The merge of `a` (left) and `b` (R173). -/
def statMerge (a b : Stat) : Stat :=
  if a.empty then statTags b a b
  else if b.empty then statTags a a b
  else
    let w := add32 a.w b.w
    if w = fmtInf .f32 then { statTags a a b with wovf := true }
    else
      let d := sub32 b.mu a.mu
      let f := div32 b.w w
      let mu := fma32 f d a.mu
      let q := mul32 a.w f
      let m2 := fma32 (mul32 q d) d (add32 a.m2 b.m2)
      statTags { a with w := w, mu := mu, m2 := m2 } a b

/-- A value as a rational, where it is finite. -/
def ratOfV : FVal → Option Rat2
  | .fin n s e => some (ratOf n s e)
  | _ => none

/-- `1 ÷ sqrt(M2 ÷ W + eps)`, correctly rounded (R174, RSTD). `W` is a finite number above zero in every triple that is
drained. An infinite or NaN term is carried as IEEE 754 carries it. -/
def statRstd (a : Stat) (eps : Nat) : Nat :=
  match ratOfV (fdecode .f32 a.m2), ratOfV (fdecode .f32 a.w), ratOfV (fdecode .f32 eps) with
  | some m, some w, some p =>
    let q := ratDiv m w
    let num := q.num * p.den + p.num * q.den
    let den := q.den * p.den
    if num = 0 then fmtInf .f32
    else if num < 0 then fmtNaN .f32
    else (roundSqrt .f32 .rne den num.natAbs).bits
  | some _, some _, none => (rsqrtV .f32 .rne (fdecode .f32 eps)).bits
  | _, _, _ =>
    (rsqrtV .f32 .rne (fdecode .f32 (add32 (div32 a.m2 a.w) eps))).bits

/-- `M2 ÷ (W − 1)` with `W − 1` exact (R174, VARS). -/
def statVars (a : Stat) : Nat :=
  match fdecode .f32 a.w with
  | .fin n s e =>
    let w := ratOf n s e
    if w.num ≤ w.den then fmtNaN .f32
    else
      let d := w.num - w.den
      match fdecode .f32 a.m2 with
      | .fin m t g => (roundRat .f32 .rne m (scaleNum t g * w.den) (scaleDen 1 g * d.natAbs)).bits
      | x => (roundV .f32 .rne x).bits
  | _ => fmtNaN .f32

/-- Does a triple drain to the canonical NaN under every option but RAW (R174). -/
def statBad (a : Stat) : Bool := a.nan || a.inf || a.wovf || a.empty

/-- The FP32 result of drain options MEAN to RSTD (R174, codes 1 to 4). -/
def statDrain (a : Stat) (opt eps : Nat) : Nat :=
  if statBad a then fmtNaN .f32
  else
    match opt with
    | 1 => a.mu
    | 2 => div32 a.m2 a.w
    | 3 => statVars a
    | _ => statRstd a eps

end Sys2Proof.Machine
end

