-- ==== Sys2Proof/Machine/Launch.lean ====
section
/-!
DEFINITION. Completion of launches (R82), progress of graph instances (R85), and what the completion of a launch ends: its
carve-outs (R146) and its open cycles (R313).
-/
namespace Sys2Proof.Machine

/-- The Starter with its launches set. -/
def State.setLaunch (s : State) (seq : Nat) (l : Launch) : State :=
  { s with starter := { s.starter with launches := kset seq l s.starter.launches } }

/-- Fields of a launch record (R79). -/
def recPc (r : BitVec 512) : Dword := r.extractLsb' 0 64
/-- See `recPc`. -/
def recFrame (r : BitVec 512) : Dword := r.extractLsb' 64 64
/-- See `recPc`. -/
def recClaim (r : BitVec 512) : Nat := (r.extractLsb' 128 32).toNat
/-- See `recPc`. -/
def recSpill (r : BitVec 512) : Nat := (r.extractLsb' 160 16).toNat
/-- See `recPc`. -/
def recCtrl (r : BitVec 512) : Dword := r.extractLsb' 192 64
/-- See `recPc`. -/
def recTrack (r : BitVec 512) : BitVec 16 := r.extractLsb' 208 16
/-- See `recPc`. -/
def recPlace (r : BitVec 512) : Nat := (r.extractLsb' 224 16).toNat
/-- See `recPc`. -/
def recKind (r : BitVec 512) : Nat := (r.extractLsb' 200 8).toNat
/-- See `recPc`. -/
def recWkey (r : BitVec 512) : Nat := (r.extractLsb' 256 64).toNat
/-- See `recPc`. -/
def recWtime (r : BitVec 512) : Nat := (r.extractLsb' 320 64).toNat

/-- The key under which node `i` of a graph instance stands in the launch table. A node is a launch of its own and takes no
intake sequence number (log entry 16). -/
def nodeKey (inst i : Nat) : Nat := 2 ^ 64 + inst * 256 + i

/-- The completion record (R82). -/
def completionRecord (swc seq energy status : Nat) : List Byte :=
  bytesLE 8 swc ++ bytesLE 8 seq ++ bytesLE 8 energy ++ bytesLE 8 status
/-- A request of the Starter for a global address, with class-5 rights (R58, R82, R84). -/
def State.starterPkt (s : State) (ty : PType) (tk : BitVec 16) (a n tag : Nat) (data : List Byte) : Pkt :=
  let r := s.routeTo bDie tk a
  { Pkt.blank with ty := ty, va := a, track := tk, src := starterEp, dst := r.1, dstPkg := r.2, tag := tag, op := if ty = .write then .write else .read,
                   master := 5, elems := [(a, n)], data := data }
/-- The pieces of an access: one per 64-byte line that it touches, as address and length. -/
def linePieces (a n : Nat) : List (Nat × Nat) :=
  (List.range ((a + n + 63) / 64 - a / 64)).map fun i =>
    let lo := max a ((a / 64 + i) * 64)
    (lo, min (a + n) ((a / 64 + i + 1) * 64) - lo)
/-- Writing a completion record to the place that FRAME names: host physical memory for bit 63, otherwise a global address under
the launch's track with class-5 rights, by packets whose tags are given. A write that fails is not made (R82). -/
def State.writeCompletion (s : State) (o : Owner) (frame : Dword) (tk : BitVec 16) (bytes : List Byte) : List Nat × State :=
  if frame = 0 then ([], s)
  else if frame.getLsbD 63 then
    ([], if s.readyBit 55 then
      { s with starter := { s.starter with hostWrites := ((frame.extractLsb' 0 63).toNat, bytes) :: s.starter.hostWrites } }
    else s)
  else
    (linePieces frame.toNat 32).foldl (fun (r : List Nat × State) p =>
      let (t, u) := r.2.newTag o
      (r.1 ++ [t], u.send (u.starterPkt .write tk p.1 p.2 t ((bytes.drop (p.1 - frame.toNat)).take p.2)))) ([], s)
/-- MSI-X vector 0 (R74). -/
def State.fireMsi (s : State) : State :=
  if s.pkg.lnctl.getLsbD 1 then { s with starter := { s.starter with msi := s.starter.msi + 1 } } else s

/-- Is a record of the controller from OPEN to BACKWARD. -/
def CycState.live : CycState → Bool
  | .opened | .iterating | .converged | .inexact | .diverged | .backward => true
  | _ => false
/-- Removing a cycle record's ranges from every freeze table (R307). -/
def State.unfreeze (s : State) (rec : Nat) : State :=
  { s with nis := kmap (fun _ n => { n with freeze := n.freeze.filter fun f => f.cycle != rec }) s.nis }
/-- CYC.ABORT's effect on a record (R313). The batons parked on it find it aborted. -/
def State.abortCycle (s : State) (rec : Nat) : State :=
  let r := kget CycRec.init s.cyc.recs rec
  if r.state.live then
    let s := s.unfreeze rec
    { s with cyc := { s.cyc with recs := kset rec { r with state := .aborted } s.cyc.recs } }
  else s
/-- The cycles that a launch opened (R303). -/
def State.abortCyclesOf (s : State) (seq : Nat) : State :=
  (s.cyc.recs.filter fun p => p.2.launch == seq && p.2.state.live).foldl (fun s p => s.abortCycle p.1) s

/-- The version that an instance runs. -/
def State.versionOf (s : State) (g : GraphInst) : Option GraphVer :=
  s.starter.graphs.find? fun v => v.gnum == g.gnum && v.version == g.version
/-- A version is freed when it is not current and no instance runs it (R84). -/
def State.freeVersions (s : State) : State :=
  let st := s.starter
  { s with starter := { st with graphs := st.graphs.filter fun v =>
      v.current || st.instances.any fun p => p.2.gnum == v.gnum && p.2.version == v.version } }
/-- The end of a launch whose record is visible or not written (R82): DONESEQ, MSI-X, the kept status (R244), and the end of its remainder,
reservations and instance. A node counts neither in DONESEQ nor in MSI-X (log entry 16). -/
def State.endLaunch (s : State) (seq status : Nat) : State :=
  match s.launchOf seq with
  | none => s
  | some l =>
    let st := s.starter
    let s := { s with
      starter := { st with
        launches := kdel seq st.launches, admission := st.admission.filter (· != seq),
        placement := st.placement.filter (· != seq), instances := kdel seq st.instances,
        doneSeq := if l.node.isSome then st.doneSeq else st.doneSeq + 1,
        statuses := if l.node.isSome then st.statuses else ((seq, status) :: st.statuses).take 4096 },
      clusters := kmap (fun _ (c : Cluster) => { c with carves := kdel seq c.carves, icache := c.icache.filter fun e => icLaunch e.1 != seq }) s.clusters }
    let s := if l.node.isSome then s else s.fireMsi
    s.freeVersions
/-- One launch completes with a status (R82): its cycles are aborted and its record is written, and it ends, where packets carry the record once they
are answered. A graph node's record carries the sequence number of its graph launch (log entry 16), and an instance's measured energy is what it drew
itself, not what its nodes drew (DESIGN CHOICE, log entry 115). -/
def State.finishOne (s : State) (seq status : Nat) : State :=
  match s.launchOf seq with
  | none => s
  | some l =>
    let s := s.abortCyclesOf seq
    let number := match l.node with | some (inst, _) => inst | none => seq
    let (tags, s) := s.writeCompletion (.completion seq) (recFrame l.record) (recTrack l.record)
      (completionRecord (s.swcAt bDie) number l.measured status)
    if tags = [] then s.endLaunch seq status
    else
      let st := s.starter
      ({ s with starter := { st with admission := st.admission.filter (· != seq), placement := st.placement.filter (· != seq) } }).setLaunch seq
        { l with state := .completing status tags }

/-- Is there an edge from node `i` to node `j` (R83). -/
def GraphVer.edge (v : GraphVer) (i j : Nat) : Bool :=
  (v.succ.getD i 0).getLsbD j
/-- Every node reachable from a node that did not end DONE becomes finished ABORTED (R85). Edges run upwards, so one pass in
node order reaches them all. -/
def abortReach (v : GraphVer) (ns : List NodeState) : List NodeState :=
  (List.range ns.length).foldl (fun ns j =>
    match ns[j]? with
    | some NodeState.waiting =>
      if (List.range j).any (fun i =>
          v.edge i j && (match ns[i]? with | some (NodeState.finished st) => st != 0 | _ => false)) then ns.set j (.finished 5)
      else ns
    | _ => ns) ns
/-- The nodes whose predecessors are all DONE. -/
def readyNodes (v : GraphVer) (ns : List NodeState) : List Nat :=
  (List.range ns.length).filter fun j =>
    (match ns[j]? with | some NodeState.waiting => true | _ => false) &&
      (List.range j).all fun i => !v.edge i j || (match ns[i]? with | some (NodeState.finished 0) => true | _ => false)
/-- A graph node's launch, set aside in admission (R86). -/
def nodeLaunch (v : GraphVer) (inst i : Nat) : Launch :=
  { record := v.nodes.getD i 0, state := .aside, remainder := 0, measured := 0, placed := none, ended := none,
    preempted := false, node := some (inst, i) }
/-- The completion records of nodes that have ended ABORTED, unrun, are written (R82, R85). -/
def State.nodeRecords (s : State) (inst : Nat) (v : GraphVer) (js : List Nat) : List Nat × State :=
  js.foldl (fun (r : List Nat × State) j =>
    let w := v.nodes.getD j 0
    let (ts, u) := r.2.writeCompletion (.nodeRecord inst) (recFrame w) (recTrack w) (completionRecord (r.2.swcAt bDie) inst 0 5)
    (r.1 ++ ts, u)) ([], s)
/-- The lowest-numbered status other than DONE, or DONE (R85). -/
def leastStatus (l : List Nat) : Nat := (l.filter (· != 0)).foldl (fun m x => if m = 0 then x else min m x) 0
/-- Progress of an instance: unrun nodes abort, nodes that may start are submitted, and an instance whose nodes have all completed, with their
records, completes with the lowest-numbered status other than DONE (R85). -/
def State.graphProgress (s : State) (inst : Nat) : State :=
  match kfind s.starter.instances inst with
  | none => s
  | some g =>
    match s.versionOf g with
    | none => s
    | some v =>
      let ns := abortReach v g.nodes
      let (ts, s) := s.nodeRecords inst v ((List.range ns.length).filter fun j => g.nodes[j]? == some .waiting && ns[j]? == some (.finished 5))
      let writes := g.writes ++ ts
      let go := readyNodes v ns
      let ns' := go.foldl (fun ns j => ns.set j (.submitted (nodeKey inst j))) ns
      let s := go.foldl (fun s j =>
        let s := s.setLaunch (nodeKey inst j) (nodeLaunch v inst j)
        { s with starter := { s.starter with admission := s.starter.admission ++ [nodeKey inst j] } }) s
      let s := { s with starter := { s.starter with instances := kset inst { g with nodes := ns', writes := writes } s.starter.instances } }
      let stats := ns'.filterMap fun n => match n with | .finished st => some st | _ => none
      if stats.length = ns'.length ∧ writes = [] then s.finishOne inst (leastStatus stats) else s

/-- A launch has ended: where it is a graph node, its instance goes on (R85). -/
def State.nodeEnded (s : State) (l : Launch) (status : Nat) : State :=
  match l.node with
  | none => s
  | some (inst, i) =>
    match kfind s.starter.instances inst with
    | none => s
    | some g =>
      ({ s with starter := { s.starter with
          instances := kset inst { g with nodes := g.nodes.set i (.finished status) } s.starter.instances } }).graphProgress inst
/-- A launch completes (R82). -/
def State.finishLaunch (s : State) (seq status : Nat) : State :=
  match s.launchOf seq with
  | none => s
  | some l =>
    let s := s.finishOne seq status
    if (s.launchOf seq).isSome then s else s.nodeEnded l status
/-- A write of a launch's completion record is answered; with the last one the launch ends (R82). -/
def State.completionAnswer (s : State) (seq tag : Nat) : State :=
  match s.launchOf seq with
  | none => s
  | some l =>
    match l.state with
    | .completing status tags =>
      let tags := tags.filter (· != tag)
      if tags = [] then (s.endLaunch seq status).nodeEnded l status else s.setLaunch seq { l with state := .completing status tags }
    | _ => s
/-- A write of an aborted node's record is answered (R85). -/
def State.nodeRecordAnswer (s : State) (inst tag : Nat) : State :=
  match kfind s.starter.instances inst with
  | none => s
  | some g =>
    ({ s with starter := { s.starter with
        instances := kset inst { g with writes := g.writes.filter (· != tag) } s.starter.instances } }).graphProgress inst
/-- A write of a rejected record's completion record is answered; with the last one MSI-X fires (R82). -/
def State.rejectionAnswer (s : State) (tag : Nat) : State :=
  let st := s.starter
  match st.rejecting.find? (·.contains tag) with
  | none => s
  | some ts =>
    let rest := ts.filter (· != tag)
    let others := st.rejecting.filter fun l => !l.contains tag
    let s := { s with starter := { st with rejecting := if rest = [] then others else others ++ [rest] } }
    if rest = [] then s.fireMsi else s

/-- Does a launch still hold a baton: in a slot, on a ready queue, lost from one (R221), waiting out of any slot, or on its way in a BAT.SEND. -/
def State.hasBatons (s : State) (seq : Nat) : Bool :=
  s.slots.any (fun p => p.2.mode != .empty && p.2.launch == seq) ||
    s.clusters.any (fun p =>
      (p.2.ready.toList.any fun q => q.any fun r => r.launch == seq) || p.2.lost.contains seq || p.2.away.any fun a => a.2.launch == seq) ||
    s.net.any fun p => p.2.enqueue == some seq
/-- A launch will complete ABORTED, unless it has an ending already (R138). -/
def State.markAborted (s : State) (seq : Nat) : State :=
  match s.launchOf seq with
  | none => s
  | some l => if l.ended.isSome then s else s.setLaunch seq { l with ended := some 5 }
/-- A baton of a launch has reached DONE: with the last one a running launch completes (R82). -/
def State.batonDone (s : State) (seq : Nat) : State :=
  match s.launchOf seq with
  | none => s
  | some l => if l.state = .running && !s.hasBatons seq then s.finishLaunch seq (l.ended.getD 0) else s

/-! ## Stamina (R28, R86) -/

/-- One millijoule in the unit of the reservoir. -/
def mJ : Int := 1600000
/-- The reservoir in whole millijoules, as XSTAM reads it. -/
def State.stamina (s : State) : Int := s.starter.reservoir.fdiv mJ
/-- The available energy: the reservoir less the sum of remainders. -/
def State.available (s : State) : Int :=
  s.stamina - ((kvals s.starter.launches).foldl (fun n l => n + l.remainder) 0 : Nat)

end Sys2Proof.Machine
end

