-- ==== Sys2Proof/Machine/Ops.lean ====
section
/-!
DEFINITION. The named operations on batons: records and CTRL (R92), ready queues (R90), frames (R147), the end of a baton, and taking an
exception with the return from it (R137, R138, R239): one operation, `State.deliver`, that every trap goes through.
-/
namespace Sys2Proof.Machine

/-! ## Records -/

/-- CTRL from its fields (R92); bits [3:2] are reserved, ordinary memory (R3). -/
def ctrlWord (role rsv : BitVec 2) (st reason : Nat) (track group : BitVec 16) (gidx glog : BitVec 4) (age : Nat) : Dword :=
  BitVec.ofNat 8 age ++ glog ++ gidx ++ group ++ track ++ BitVec.ofNat 8 reason ++ BitVec.ofNat 4 st ++ rsv ++ role
/-- The record of the baton in a slot, as a cell. -/
def slotRecord (k : Nat) (t : Slot) : Nat := spadCell (keyPcl k) (t.xbaton.toNat - spadBase)
/-- The cluster of a record. -/
def recPcl (rec : Nat) : Nat :=
  let o := rec - 0x00F800000000
  o / 2 ^ 27 * 24 + o / 2 ^ 22 % 32
/-- A record's scratchpad offset. -/
def recOff (rec : Nat) : Nat := rec % 2 ^ 22
/-- A record's address in its cluster, as XBATON and WKEY hold it. -/
def recLocal (rec : Nat) : Dword := BitVec.ofNat 64 (spadBase + recOff rec)
/-- A doubleword of a record. -/
def State.recRead (s : State) (rec off : Nat) : Dword := s.load64 (rec + off)
/-- The state with a doubleword of a record written. -/
def State.recWrite (s : State) (rec off : Nat) (v : Dword) : State := s.hwStore (rec + off) (bytesLE 8 v.toNat)
/-- The CTRL of a slot's baton with a state and reason. -/
def Slot.ctrl (t : Slot) (st reason : Nat) : Dword :=
  ctrlWord t.csr.xrole t.rsv st reason t.track t.group t.gangIdx t.gangSize 0
/-- The slot that holds a record's baton. -/
def State.findSlot (s : State) (rec : Nat) : Option Nat :=
  kfirst (fun k t => t.mode != .empty && slotRecord k t == rec) s.slots
/-- The entry of a baton that is out of any slot with a frame. -/
def State.findAway (s : State) (rec : Nat) : Option Away := kfind (s.cluster (recPcl rec)).away rec
/-- The state with such an entry set. -/
def State.setAway (s : State) (rec : Nat) (a : Away) : State :=
  let c := s.cluster (recPcl rec)
  s.setCluster (recPcl rec) { c with away := kset rec a c.away }
/-- The state without such an entry. -/
def State.dropAway (s : State) (rec : Nat) : State :=
  let c := s.cluster (recPcl rec)
  s.setCluster (recPcl rec) { c with away := kdel rec c.away }
/-- The track and launch of a baton that waits, in a slot or out of it. -/
def State.batonTrack (s : State) (rec' : Nat) : BitVec 16 × Nat :=
  match s.findSlot rec' with
  | some k => ((s.slotAt k).track, (s.slotAt k).launch)
  | none => ((s.recRead rec' 0x18).extractLsb' 16 16, match s.findAway rec' with | some a => a.launch | none => 0)
/-- Is a record on a ready queue of its cluster. -/
def State.isReady (s : State) (rec : Nat) : Bool :=
  (s.cluster (recPcl rec)).ready.toList.any fun q => q.any fun r => r.record == rec

/-! ## Ready queues (R90, R221) -/

/-- A ready queue of a cluster by role. -/
def Cluster.queue (c : Cluster) (role : BitVec 2) : List Ready := c.ready[role.toNat]'role.isLt
/-- The cluster with a ready queue set. -/
def Cluster.setQueue (c : Cluster) (role : BitVec 2) (q : List Ready) : Cluster :=
  { c with ready := c.ready.set role.toNat q role.isLt }
/-- A queue in which a record stands: those after it are lost (R221). -/
def cutAfter (rec : Nat) (q : List Ready) : List Ready :=
  match q.findIdx? (fun r => r.record == rec) with
  | none => q
  | some i => q.take (i + 1)
/-- The launches of the batons that a queue so loses. -/
def cutLost (rec : Nat) (q : List Ready) : List Nat := (q.drop (cutAfter rec q).length).map Ready.launch
/-- Enqueue at the tail of the queue of the record's role, READY, reason and age 0 (R90, R92). The old tail's WKEY links to it. -/
def State.enqueue (s : State) (rec launch : Nat) : State :=
  let pcl := recPcl rec
  let ctrl := s.recRead rec 0x18
  let role : BitVec 2 := ctrl.extractLsb' 0 2
  let ctrl' := ctrlWord role (ctrl.extractLsb' 2 2) 0 0 (ctrl.extractLsb' 16 16) (ctrl.extractLsb' 32 16) (ctrl.extractLsb' 48 4)
    (ctrl.extractLsb' 52 4) 0
  let c := s.cluster pcl
  let c := { c with ready := c.ready.map (cutAfter rec), lost := c.lost ++ c.ready.toList.flatMap (cutLost rec) }
  let q := c.queue role
  let s := match q.getLast? with
    | some t => s.recWrite t.record 0x20 (recLocal rec)
    | none => s
  let s := (s.recWrite rec 0x18 ctrl').recWrite rec 0x20 0
  let q := if q.any (fun r => r.record == rec) then q else q ++ [{ record := rec, order := c.nextOrder, launch := launch }]
  s.setCluster pcl { c.setQueue role q with nextOrder := c.nextOrder + 1 }

/-! ## Frames (R109, R147) -/

/-- Bytes of a small and of a large frame (R147). -/
def frameBytes (large : Bool) : Nat := if large then 132864 else 1536
/-- The cells of a frame's bytes: the own scratchpad, or global memory under the baton's track. -/
def State.frameRanges (s : State) (pcl : Nat) (tk : BitVec 16) (op : MemOp) (a n : Nat) : Option Ranges :=
  if a < 2 ^ 40 then
    if spadBase ≤ a ∧ a + n ≤ spadBase + spadLow then some [(spadCell pcl (a - spadBase), n)] else none
  else
    match s.probeRange (pcl / 24) tk 0 op 64 a n with
    | .ok r => some r
    | .error _ => none
/-- Bytes of a frame. -/
def State.frameRead (s : State) (pcl : Nat) (tk : BitVec 16) (a n : Nat) : Option (List Byte) :=
  (s.frameRanges pcl tk .read a n).bind fun r => if s.poisonedRanges r then none else some (s.readRanges r)
/-- Bytes that the hardware writes over ranges. -/
def State.hwRanges (s : State) : Ranges → List Byte → State
  | [], _ => s
  | (a, n) :: rs, l => (s.hwStore a (l.take n)).hwRanges rs (l.drop n)
/-- Bytes of a frame written. -/
def State.frameWrite (s : State) (pcl : Nat) (tk : BitVec 16) (a : Nat) (l : List Byte) : Option State :=
  (s.frameRanges pcl tk .write a l.length).map fun r => s.hwRanges r l
/-- Where a frame cannot be reached now: 0 for a MIGRATING page, 3 for one that is not mapped, with the address. -/
def State.frameBar (s : State) (pcl : Nat) (tk : BitVec 16) (op : MemOp) (a n : Nat) : Option (Nat × Nat) :=
  if a < 2 ^ 40 then none
  else
    match s.probeRange (pcl / 24) tk 0 op 64 a n with
    | .error (st, va) => if st = 0 ∨ st = 3 then some (st, va) else none
    | .ok _ => none
/-- The state with what a record's save or restore has learnt of a page set or dropped. -/
def State.setAsk (s : State) (rec' : Nat) (x : Option (Option Nat)) : State :=
  let c := s.cluster (recPcl rec')
  s.setCluster (recPcl rec') { c with asks := match x with | some v => kset rec' v c.asks | none => kdel rec' c.asks }
/-- A save to a frame or a restore from one. While a page of an overflow frame is MIGRATING it waits (R68). An access of 8 bytes goes to the home of a
page that is not mapped, where the fault queue holds it (R61); its answer lets the save or restore go on, or fail. -/
def State.withFrame (s : State) (rec' : Nat) (tk : BitVec 16) (op : MemOp) (a n : Nat) (f : State → State) : State :=
  let pcl := recPcl rec'
  match s.frameBar pcl tk op a n, kfind (s.cluster pcl).asks rec' with
  | none, none => f s
  | none, some _ => f (s.setAsk rec' none)
  | some (_, _), some (some _) => f (s.setAsk rec' none)
  | some (_, _), some none => s
  | some (st, va), none =>
    if st = 0 then s
    else
      let (t, s) := (s.setAsk rec' (some none)).newTag (.frame rec')
      let r := s.routeTo (pcl / 24) tk va
      s.send { Pkt.blank with ty := if op = .write then .write else .read, op := op, va := va, track := tk, src := niEp (pcl / 24), dst := r.1,
                              dstPkg := r.2, tag := t, elems := [(va, 8)], data := if op = .write then List.replicate 8 0 else [] }
/-- An access of a party to banks of a die: it wakes those that are gated, waits its turn behind the accesses that came earlier, and is then performed
(R156, R157). -/
def State.inTurn (s : State) (die key : Nat) (stamp : Dword) (cells : List Nat) (f : State → State) : State :=
  if s.granted key cells then (f s).unstallAt die key else s.stallKey key stamp cells
/-- What the hardware does for a slot's baton with the records and frames of its cluster takes its turn at the scratchpad (R156). -/
def State.onSpad (s : State) (k : Nat) (f : State → State) : State :=
  s.inTurn (keyDie k) k (s.slotAt k).pc [spadCell (keyPcl k) 0] f
/-- A launch's carve-out and spill CSRs on a cluster (R146). -/
def State.carve (s : State) (pcl launch : Nat) : Carve := kget Carve.none (s.cluster pcl).carves launch
/-- The state with a carve-out set. -/
def State.setCarve (s : State) (pcl launch : Nat) (c : Carve) : State :=
  let cl := s.cluster pcl
  s.setCluster pcl { cl with carves := kset launch c cl.carves }
/-- A frame for a save: from the free list of its size, else cut from the carve-out, else at XOVF (R147). -/
def State.allocFrame (s : State) (pcl launch : Nat) (tk : BitVec 16) (large : Bool) : Option (Nat × State) :=
  let c := s.carve pcl launch
  let n := frameBytes large
  let head := if large then c.large else c.small
  let pop := if head = 0 then none else s.frameRead pcl tk head.toNat 8
  match pop with
  | some b =>
    let next := BitVec.ofNat 64 (natLE b)
    some (head.toNat, s.setCarve pcl launch (if large then { c with large := next } else { c with small := next }))
  | none =>
    if c.low + n ≤ c.high then
      if large then some (c.high - n, s.setCarve pcl launch { c with high := c.high - n })
      else some (c.low, s.setCarve pcl launch { c with low := c.low + n })
    else if c.xovf ≠ 0 then
      some (c.xovf.toNat, s.setCarve pcl launch { c with xovf := c.xovf + BitVec.ofNat 64 n })
    else none
/-- A frame put on the free list of its size, linked through its first 8 bytes (R147). -/
def State.freeFrame (s : State) (pcl launch : Nat) (tk : BitVec 16) (a : Nat) (large : Bool) : State :=
  if a = 0 then s
  else
    let c := s.carve pcl launch
    let head := if large then c.large else c.small
    match s.frameWrite pcl tk a (bytesLE 8 head.toNat) with
    | none => s
    | some s =>
      let h := BitVec.ofNat 64 a
      s.setCarve pcl launch (if large then { c with large := h } else { c with small := h })

/-! ## The end of a baton -/

/-- The core without a slot's hold on it: the matrix context released with both ports emptied and their expected counts 0, if the slot
owned it (R222, R269), and no dispatch-queue entry of the slot. -/
def Core.leave (c : Core) (slot : Nat) : Core :=
  let c := { c with dq := c.dq.filter fun e => e.slot != slot }
  if c.owner = some slot then
    { c with owner := none, sta := { c.sta with panels := [], exp := 0 }, stb := { c.stb with panels := [], exp := 0 }, tile := none, scales := [] }
  else c
/-- The handles that an ended baton held are dropped (R222, R280): a completed command's entry is freed. -/
def dropHandles (rec : Nat) (m : KMap CpEntry) : KMap CpEntry :=
  (kmap (fun _ e => if e.baton == rec then { e with dropped := true } else e) m).filter fun p =>
    !(p.2.dropped && p.2.complete)
/-- The baton in a slot reaches DONE: its context, slot and handles are released, the answers to its posted requests find no baton, and its
launch completes with the last one (R82, R93, R222). -/
def State.endBaton (s : State) (k : Nat) (aborted : Bool) : State :=
  let t := s.slotAt k
  let rec' := slotRecord k t
  let pcl := keyPcl k
  let s := t.posted.foldl (fun s p => s.dropTag p.tag) (s.recWrite rec' 0x18 (t.ctrl 4 0))
  let s := s.freeFrame pcl t.launch t.track t.frame.toNat false
  let s := s.setCore (keyCid k) ((s.core (keyCid k)).leave (keySlot k))
  let c := s.cluster pcl
  let s := s.setCluster pcl { c with engine := dropHandles rec' c.engine, tokens := c.tokens.filter (· != rec') }
  let s := { s.setSlotAt k Slot.empty with gangs := kdel rec' s.gangs }
  let s := if aborted then s.markAborted t.launch else s
  s.batonDone t.launch

/-! ## Traps (R137 to R139) -/

/-- XUCAUSE.BUSY. -/
def Slot.busy (t : Slot) : Bool := t.csr.xucause.getLsbD 62
/-- XUCAUSE from its fields (R137). -/
def xucauseWord (posted : Bool) (status c : Nat) : Dword :=
  0#1 ++ 1#1 ++ BitVec.ofBool posted ++ 0#49 ++ BitVec.ofNat 4 status ++ BitVec.ofNat 8 c
/-- The trap vector that a cause uses: FVEC of the record for a REMOTE_FAULT, where it is not zero (R138). -/
def State.trapTarget (s : State) (k c : Nat) : Dword :=
  let t := s.slotAt k
  let f := s.recRead (slotRecord k t) 0x30
  if c = 26 ∧ f ≠ 0 then f else t.csr.xutvec
/-- Taking a trap (R138): with BUSY set, or with no vector, the baton ends; otherwise XUEPC, XUTVAL and XUCAUSE are written and the
pc goes to the vector. -/
def State.deliver (s : State) (k c : Nat) (v : Dword) (status : Nat) (pcAt : Dword) (posted : Bool) : State :=
  let t := s.slotAt k
  let target := s.trapTarget k c
  if t.busy then s.endBaton k true
  else if target = 0 then s.endBaton k true
  else
    s.setSlotAt k { t with
      csr := { t.csr with xuepc := pcAt &&& ~~~1#64, xutval := v, xucause := xucauseWord posted status c },
      pc := target }
/-- The return from a trap: XURET (R239). -/
def Slot.xuret (t : Slot) : Slot :=
  { t with pc := t.csr.xuepc, csr := { t.csr with xucause := t.csr.xucause &&& ~~~(1#64 <<< 62) } }

end Sys2Proof.Machine
end

