-- ==== Sys2Proof/Machine/Baton.lean ====
section
/-!
DEFINITION. Gang rounds (R107, R108), how an instruction completes or traps, how a baton parks, and how a wait ends (R93, R94).
-/
namespace Sys2Proof.Machine

/-! ## Gangs (R107, R108) -/

/-- The active gang of which a record's baton is a member: its key, the gang and the member index. -/
def State.gangOf (s : State) (rec : Nat) : Option (Nat × Gang × Nat) :=
  s.gangs.findSome? fun p =>
    if p.2.active then (p.2.members.findIdx? (· == some rec)).map fun i => (p.1, p.2, i) else none
/-- The state with a gang set. -/
def State.setGang (s : State) (key : Nat) (g : Gang) : State := { s with gangs := kset key g s.gangs }
/-- A slot with no gang fields. -/
def Slot.ungang (t : Slot) : Slot := { t with gangSize := 0, gangIdx := 0, csr := { t.csr with xgangidx := 0 } }
/-- The resident members of a gang: member index and slot key. -/
def State.gangSlots (s : State) (g : Gang) : List (Nat × Nat) :=
  (List.range g.members.length).filterMap fun i =>
    match g.members.getD i none with
    | some r => (s.findSlot r).map fun k => (i, k)
    | none => none
/-- The members of a gang that are out of any slot: member index and record. -/
def State.gangAway (s : State) (g : Gang) : List (Nat × Nat) :=
  (List.range g.members.length).filterMap fun i =>
    match g.members.getD i none with
    | some r => if (s.findSlot r).isNone && (s.findAway r).isSome then some (i, r) else none
    | none => none
/-- The gang disbands: every member runs unganged, and CTRL [55:48] of each is zero (R108), in its slot or in its record. -/
def State.disbandGang (s : State) (key : Nat) (g : Gang) : State :=
  let s := (s.gangSlots g).foldl (fun s m => s.setSlotAt m.2 (s.slotAt m.2).ungang) s
  let s := (s.gangAway g).foldl (fun s m =>
    let c := s.recRead m.2 0x18
    s.recWrite m.2 0x18 (c.extractLsb' 56 8 ++ 0#8 ++ c.extractLsb' 0 48)) s
  { s with gangs := kdel key s.gangs }
/-- A baton out of any slot is to take GANG_DISBAND at its first instruction: FLAGS [1] of its frame is set (R109, R111). -/
def State.disbandAway (s : State) (r : Nat) (v : Dword) : State :=
  match s.findAway r with
  | none => s
  | some a =>
    let tk : BitVec 16 := (s.recRead r 0x18).extractLsb' 16 16
    let f := (s.recRead r 0x08).toNat + 0x5F8
    let s := match s.frameRead (recPcl r) tk f 1 with
      | some [b] => (s.frameWrite (recPcl r) tk f [b ||| 2#8]).getD s
      | _ => s
    s.setAway r { a with disband := some v }
/-- The lowest member index in a list of outcomes that trapped. -/
def lowestTrap (l : List (Nat × MemberDone)) : Option Nat :=
  l.foldl (fun m p =>
    match p.2, m with
    | .trapped .., some i => some (min i p.1)
    | .trapped .., none => some p.1
    | .completed, m => m) none
/-- The end of a gang's round, once every member has issued: without a trap every pc takes the leader's next pc; with one, the gang
disbands and each member takes its own cause or GANG_DISBAND (R107, R108). -/
def State.gangRound (s : State) (key : Nat) (g : Gang) : State :=
  if g.issued.length < g.members.length then s.setGang key g
  else
    match lowestTrap g.issued with
    | none =>
      let s := (s.gangSlots g).foldl (fun s m => s.setSlotAt m.2 { s.slotAt m.2 with pc := g.nextPc }) s
      if g.ending then s.disbandGang key g else s.setGang key { g with issued := [], code := [], wide := 0 }
    | some low =>
      let slots := s.gangSlots g
      let leaderDone := g.issued.any fun p => p.1 == g.leader && p.2 == .completed
      let s := s.disbandGang key g
      slots.foldl (fun s m =>
        let pc := (s.slotAt m.2).pc
        let next := if leaderDone then g.nextPc else pc + BitVec.ofNat 64 g.code.length
        match g.issued.find? (fun p => p.1 == m.1) with
        | some (_, .trapped c v st) => s.deliver m.2 c v st pc false
        | _ => s.deliver m.2 27 (BitVec.ofNat 64 low) 0 next false) s
/-- A member's issue of the current instruction has come to its end. -/
def State.memberDone (s : State) (key : Nat) (g : Gang) (i : Nat) (d : MemberDone) (next : Dword) : State :=
  s.gangRound key { g with issued := (g.issued.filter fun p => p.1 != i) ++ [(i, d)],
                           nextPc := if i = g.leader then next else g.nextPc }

/-! ## Completing, trapping, waiting -/

/-- One more instruction retired on a core (R136). -/
def State.retire (s : State) (cid : Nat) : State :=
  let c := s.core cid
  s.setCore cid { c with instret := c.instret + 1 }
/-- The instruction of a slot has completed; the pc goes to `next`, in a gang to the leader's (R107). -/
def State.complete (s : State) (k : Nat) (next : Dword) : State :=
  let s := s.retire (keyCid k)
  match s.gangOf (slotRecord k (s.slotAt k)) with
  | some (key, g, i) => s.memberDone key g i .completed next
  | none => s.setSlotAt k { s.slotAt k with pc := next }
/-- The instruction of a slot traps with a cause and value (R138, R139, R108). -/
def State.trapSlot (s : State) (k c : Nat) (v : Dword) (status : Nat) : State :=
  let t := s.slotAt k
  match s.gangOf (slotRecord k t) with
  | some (key, g, i) => s.memberDone key g i (.trapped c v status) 0
  | none => s.deliver k c v status t.pc false
/-- A slot that parks: what it waits for, the reason, WKEY and WTIME of R92, and the length of the waiting instruction. -/
def State.parkSlot (s : State) (k : Nat) (w : Wait) (reason : Nat) (wkey wtime : Dword) (len : Nat) : State :=
  s.setSlotAt k { s.slotAt k with mode := .parked, wait := w, reason := BitVec.ofNat 8 reason, wkey := wkey, wtime := wtime,
                                  waitLen := len, parkedAt := s.swcAt (keyDie k) }
/-- A slot that waits no more. -/
def Slot.unpark (t : Slot) : Slot :=
  { t with mode := .running, wait := .none, reason := 0, wkey := 0, wtime := 0, waitLen := 0 }

/-- What the completion of a wait writes. -/
inductive Effect
  | none
  | x (r : Reg) (v : Dword)
  | vec (phys : Fin 32) (val : Vreg)
  | st (i : BitVec 3) (val : Streg)
  deriving DecidableEq, Repr

/-- The effect on a resident baton. -/
def Effect.onSlot : Effect → Slot → Slot
  | .none, t => t
  | .x r v, t => t.setX r v
  | .vec p val, t => { t with v := t.v.set p.val val p.isLt }
  | .st i val, t => t.setSt i val
/-- The effect on the frame of a baton that is out of any slot (R95, R109, R264). -/
def Effect.onFrame (e : Effect) (s : State) (pcl : Nat) (tk : BitVec 16) (frame : Nat) : State :=
  match e with
  | .none => s
  | .x r v => if r = 0 then s else (s.frameWrite pcl tk (frame + 8 * r.toNat) (bytesLE 8 v.toNat)).getD s
  | .vec p val => (s.frameWrite pcl tk (frame + 0x100 + 32 * p.val) (bytesLE 32 val.toNat)).getD s
  | .st i val => (s.frameWrite pcl tk (frame + 0x500 + 16 * i.toNat) (bytesLE 16 val.toNat)).getD s

/-- The wait of a parked slot ends and its instruction completes (R94, R217). -/
def State.resumeSlot (s : State) (k : Nat) (e : Effect) : State :=
  let t := s.slotAt k
  let next := t.pc + BitVec.ofNat 64 t.waitLen
  (s.setSlotAt k (e.onSlot t.unpark)).complete k next
/-- The wait of a baton ends, in a slot or out of it (R94): out of a slot, the result goes to the frame and the baton is enqueued
READY, unless it is pre-empted (R112). -/
def State.finishWait (s : State) (rec : Nat) (e : Effect) : State :=
  match s.findSlot rec with
  | some k => if (s.slotAt k).mode = .parked then s.resumeSlot k e else s
  | none =>
    match s.findAway rec with
    | some a =>
      if a.satisfied then s
      else
        let tk : BitVec 16 := (s.recRead rec 0x18).extractLsb' 16 16
        let s := e.onFrame s (recPcl rec) tk (s.recRead rec 0x08).toNat
        let s := s.recWrite rec 0x00 (s.recRead rec 0x00 + BitVec.ofNat 64 a.waitLen)
        let s := s.setAway rec { a with wait := .none, waitLen := 0, satisfied := true }
        if a.preempted then s else s.enqueue rec a.launch
    | none => s
/-- The waiting instruction of a baton will issue again: its wait ends with no effect and the pc stays. -/
def State.reissue (s : State) (rec : Nat) : State :=
  match s.findSlot rec with
  | some k => if (s.slotAt k).mode = .parked then s.setSlotAt k (s.slotAt k).unpark else s
  | none =>
    match s.findAway rec with
    | some a =>
      if a.satisfied then s
      else
        let s := s.setAway rec { a with wait := .none, waitLen := 0, satisfied := true }
        if a.preempted then s else s.enqueue rec a.launch
    | none => s
/-- The frame of a baton with its FLAGS changed, where it can be read and written. -/
def State.editFlags (s : State) (rec' : Nat) (f : Dword → Dword) : State :=
  let tk : BitVec 16 := (s.recRead rec' 0x18).extractLsb' 16 16
  let a := (s.recRead rec' 0x08).toNat + 0x5F8
  match s.frameRead (recPcl rec') tk a 8 with
  | some l => (s.frameWrite (recPcl rec') tk a (bytesLE 8 (f (BitVec.ofNat 64 (natLE l))).toNat)).getD s
  | none => s
/-- The frame with FLAGS [35:28] set. -/
def State.setOrig (s : State) (rec' reason : Nat) : State :=
  s.editFlags rec' fun v => v.extractLsb' 36 28 ++ BitVec.ofNat 8 reason ++ v.extractLsb' 0 28
/-- A baton out of any slot whose wait is over goes READY with that wait, from which it goes on in its next slot (R94, R217). -/
def State.rouse (s : State) (rec : Nat) : State :=
  match s.findAway rec with
  | some a =>
    if a.satisfied then s
    else
      let s := s.setAway rec { a with wait := .none, waitLen := 0, satisfied := true,
                                      goes := some { wait := a.wait, reason := a.reason, wkey := a.wkey, wtime := a.wtime, waitLen := a.waitLen } }
      if a.preempted then s else s.enqueue rec a.launch
  | none => s
/-- What a baton waits for has come: its instruction goes on from the wait as `f` says, with the values that it had read, in its slot and once the
banks of `cells` are granted to it; a baton out of any slot goes READY first (R94, R217). -/
def State.goOn (s : State) (rec : Nat) (cells : State → List Nat) (f : State → State) : State :=
  match s.findSlot rec with
  | none => s.rouse rec
  | some k =>
    let here := { s with focus := k }
    if (s.slotAt k).mode ≠ .parked then s
    else if !s.granted k (cells here) then s.stallOn k (cells here)
    else { f (here.setSlotAt k (s.slotAt k).unpark) with focus := s.focus }
/-- A deferred fault for a baton, wherever it is (R138). -/
def State.addDeferred (s : State) (rec : Nat) (d : Deferred) : State :=
  match s.findSlot rec with
  | some k => s.setSlotAt k { s.slotAt k with deferred := (s.slotAt k).deferred ++ [d] }
  | none =>
    match s.findAway rec with
    | some a => s.setAway rec { a with deferred := a.deferred ++ [d] }
    | none => s
/-- The wait of a baton ends with a fault, `sync` where it is the trap of the waiting instruction: it is delivered at the resumption, with
the pc at that instruction (R138); in a gang it is a trap of that instruction (R108). -/
def State.failWaitAs (s : State) (sync : Bool) (rec c : Nat) (v : Dword) (status : Nat) : State :=
  let d : Deferred := { cause := c, value := v, status := status, posted := false, sync := sync, at' := none }
  match s.findSlot rec with
  | some k =>
    if (s.slotAt k).mode = .parked then
      let s := s.setSlotAt k (s.slotAt k).unpark
      match s.gangOf rec with
      | some _ => s.trapSlot k c v status
      | none => s.addDeferred rec d
    else s
  | none => (s.addDeferred rec d).reissue rec
/-- A FAULT_REPLY to the access of a baton's waiting instruction (R63, R138): a deferred REMOTE_FAULT whose pc is that instruction's. It is
taken before the next instruction while BUSY is 0. While BUSY is 1 it is held: the baton goes on past the access, which has written nothing (log
entry 8). In a gang it is a trap of that instruction (R108), unless it is held. -/
def State.remoteFault (s : State) (rec va status : Nat) : State :=
  let v := BitVec.ofNat 64 va
  let d := fun (pc : Dword) =>
    ({ cause := 26, value := v, status := status, posted := false, sync := false, at' := some pc } : Deferred)
  match s.findSlot rec with
  | some k =>
    let t := s.slotAt k
    if t.mode ≠ .parked then s
    else
      let next := t.pc + BitVec.ofNat 64 t.waitLen
      let s := s.setSlotAt k t.unpark
      match s.gangOf rec with
      | some (key, g, i) =>
        if t.busy then (s.addDeferred rec (d t.pc)).memberDone key g i .completed next
        else s.trapSlot k 26 v status
      | none => (s.setSlotAt k { t.unpark with pc := next }).addDeferred rec (d t.pc)
  | none =>
    match s.findAway rec with
    | some a =>
      let pc := s.recRead rec 0x00
      ((s.addDeferred rec (d pc)).reissue rec).recWrite rec 0x00 (pc + BitVec.ofNat 64 a.waitLen)
    | none => s
/-- The waiting instruction of a baton fails with a cause. -/
def State.failWait (s : State) (rec c : Nat) (v : Dword) (status : Nat) : State := s.failWaitAs true rec c v status
/-- The wait of a baton, wherever it is. -/
def State.waitOf (s : State) (rec : Nat) : Wait :=
  match s.findSlot rec with
  | some k => if (s.slotAt k).mode = .parked then (s.slotAt k).wait else .none
  | none => match s.findAway rec with | some a => if a.satisfied then .none else a.wait | none => .none
/-- The state with the wait of a baton replaced. -/
def State.setWait (s : State) (rec : Nat) (w : Wait) : State :=
  match s.findSlot rec with
  | some k => s.setSlotAt k { s.slotAt k with wait := w }
  | none => match s.findAway rec with | some a => s.setAway rec { a with wait := w } | none => s
/-- The wait reason and key of a waiting baton replaced (R92): in its slot, in its record, or in the frame of a pre-empted one (R112). -/
def State.setWhy (s : State) (rec reason : Nat) (wkey : Dword) : State :=
  match s.findSlot rec with
  | some k => s.setSlotAt k { s.slotAt k with reason := BitVec.ofNat 8 reason, wkey := wkey }
  | none =>
    match s.findAway rec with
    | none => s
    | some a =>
      let s := (s.setAway rec { a with reason := BitVec.ofNat 8 reason, wkey := wkey }).recWrite rec 0x20 wkey
      let c := s.recRead rec 0x18
      if a.preempted then s.setOrig rec reason else s.recWrite rec 0x18 (c.extractLsb' 16 48 ++ BitVec.ofNat 8 reason ++ c.extractLsb' 0 8)
/-- Every baton with an armed wait: record and wait. -/
def State.waiting (s : State) : List (Nat × Wait) :=
  (s.slots.filterMap fun p => if p.2.mode = .parked then some (slotRecord p.1 p.2, p.2.wait) else none) ++
    s.clusters.flatMap fun c => c.2.away.filterMap fun a => if a.2.satisfied then none else some (a.1, a.2.wait)
/-- A posted request of a baton is answered. -/
def State.dropPosted (s : State) (rec tag : Nat) : State :=
  match s.findSlot rec with
  | some k => s.setSlotAt k { s.slotAt k with posted := (s.slotAt k).posted.filter fun p => p.tag != tag }
  | none =>
    match s.findAway rec with
    | some a => s.setAway rec { a with posted := a.posted.filter fun p => p.tag != tag }
    | none => s

end Sys2Proof.Machine
end

