-- ==== Sys2Proof/Machine/Hurdle.lean ====
section
/-!
DEFINITION. Buffer windows and publishing (R149, R150), hurdles and their operations (R99, R100), engine arrivals and XSTRAY (R101,
R102), and the check of a hurdle operation at its target (R355).
-/
namespace Sys2Proof.Machine

/-! ## Buffer windows -/

/-- The cluster with a window's map entry set. -/
def Cluster.setWindow (c : Cluster) (w : Nat) (e : Dword) : Cluster :=
  { c with bufMap := c.bufMap.set (w % 64) e (Nat.mod_lt _ (by decide)) }
/-- A publish of a map entry: FRONT and SHADOW swap and PUBGEN increments, where both are mapped (R150). -/
def publishEntry (e : Dword) : Dword :=
  if e.getLsbD 16 && e.getLsbD 17 then
    (e.extractLsb' 48 16 + 1#16) ++ (0#30 ++ 3#2) ++ e.extractLsb' 0 8 ++ e.extractLsb' 8 8
  else e
/-- Publishing a window of a cluster. -/
def State.publish (s : State) (pcl w : Nat) : State :=
  s.setCluster pcl ((s.cluster pcl).setWindow w (publishEntry (s.window pcl w)))

/-! ## Hurdles -/

/-- A hurdle (R99). -/
structure Hurdle where
  exp : BitVec 32
  arr : BitVec 32
  gen : BitVec 32
  err : BitVec 32
  mask : BitVec 64
  wake : BitVec 32
  mode : BitVec 32
  deriving DecidableEq, Repr

/-- A hurdle from its 32 bytes. -/
def Hurdle.ofBits (b : BitVec 256) : Hurdle :=
  { exp := b.extractLsb' 0 32, arr := b.extractLsb' 32 32, gen := b.extractLsb' 64 32, err := b.extractLsb' 96 32,
    mask := b.extractLsb' 128 64, wake := b.extractLsb' 192 32, mode := b.extractLsb' 224 32 }
/-- The 32 bytes of a hurdle. -/
def Hurdle.bits (h : Hurdle) : BitVec 256 := h.mode ++ h.wake ++ h.mask ++ h.err ++ h.gen ++ h.arr ++ h.exp
/-- AUTO, BMAP and PUB. -/
def Hurdle.auto (h : Hurdle) : Bool := h.mode.getLsbD 0
/-- See `Hurdle.auto`. -/
def Hurdle.bmap (h : Hurdle) : Bool := h.mode.getLsbD 1
/-- See `Hurdle.auto`. -/
def Hurdle.pub (h : Hurdle) : Bool := h.mode.getLsbD 2
/-- WIN. -/
def Hurdle.win (h : Hurdle) : Nat := (h.wake.extractLsb' 0 6).toNat
/-- The hurdle word (R227). -/
def Hurdle.word (h : Hurdle) (done : Bool) : Dword :=
  h.wake.extractLsb' 8 24 ++ BitVec.ofBool done ++ 0#5 ++ h.err.extractLsb' 0 18 ++ h.gen.extractLsb' 0 16
/-- The status bits of a list of statuses. -/
def statusBits (l : List Nat) : BitVec 32 := l.foldl (fun b st => if st = 0 then b else b ||| (1#32 <<< st)) 0
/-- `arrive` of R100 on the object, with a set of status bits (R98); true where it completes. -/
def Hurdle.arrive (h : Hurdle) (m : Nat) (st : BitVec 32) : Hurdle × Bool :=
  let h := { h with err := h.err ||| st }
  if h.bmap && decide (m < 64) && h.mask.getLsbD m then ({ h with err := h.err ||| (1#32 <<< 16) }, false)
  else
    let h := if h.bmap && decide (m < 64) then { h with mask := h.mask ||| (1#64 <<< m) } else h
    if h.exp ≤ h.arr then ({ h with err := h.err ||| (1#32 <<< 17) }, false)
    else
      let h := { h with arr := h.arr + 1 }
      (h, h.arr == h.exp)
/-- `withdraw` of R100. -/
def Hurdle.withdraw (h : Hurdle) (m : Nat) : Hurdle × Bool :=
  if h.exp = 0 then ({ h with err := h.err ||| (1#32 <<< 17) }, false)
  else
    let was := h.arr == h.exp
    let h := { h with exp := h.exp - 1 }
    let h := if h.bmap && decide (m < 64) && h.mask.getLsbD m then
      { h with mask := h.mask &&& ~~~(1#64 <<< m), arr := h.arr - 1 } else h
    (h, !was && h.arr == h.exp)
/-- `join` of R100. -/
def Hurdle.join (h : Hurdle) : Hurdle :=
  if h.exp = BitVec.allOnes 32 then { h with err := h.err ||| (1#32 <<< 17) } else { h with exp := h.exp + 1 }
/-- `init` of R100, before a completion for EXP 0. -/
def Hurdle.init (h : Hurdle) (exp mode wake : BitVec 32) : Hurdle :=
  { h with exp := exp, arr := 0, mask := 0, mode := mode, wake := wake }
/-- The auto-reset of a completion. -/
def Hurdle.reset (h : Hurdle) : Hurdle := if h.auto then { h with arr := 0, mask := 0, err := 0 } else h
/-- Has the generation passed another: (GEN − g) mod 2^32 in 1 .. 2^31 (R228). -/
def genPassed (gen g : BitVec 32) : Bool := decide (1 ≤ (gen - g).toNat) && decide ((gen - g).toNat ≤ 2 ^ 31)

/-- The hurdle at a cell. -/
def State.hurdle (s : State) (h : Nat) : Hurdle := Hurdle.ofBits (s.entry32 h)
/-- The state with the hurdle at a cell written by a party. -/
def State.setHurdle (s : State) (who : Option Nat) (h : Nat) (x : Hurdle) : State := s.storeLE who h 32 x.bits.toNat
/-- The cluster of a hurdle's cell. -/
def hurdlePcl (h : Nat) : Nat := recPcl h

/-- The phase of a baton at a level becomes RUN or EXCHANGE (R98), in its slot or in its frame's FLAGS. -/
def State.setPhase (s : State) (rec level : Nat) (exchange : Bool) : State :=
  let bit : BitVec 4 := 1#4 <<< (level - 1)
  let upd := fun (p : BitVec 4) => if exchange then p ||| bit else p &&& ~~~bit
  match s.findSlot rec with
  | some k => s.setSlotAt k { s.slotAt k with phases := upd (s.slotAt k).phases }
  | none =>
    match s.findAway rec with
    | none => s
    | some _ =>
      let tk : BitVec 16 := (s.recRead rec 0x18).extractLsb' 16 16
      let a := (s.recRead rec 0x08).toNat + 0x5FA
      match s.frameRead (recPcl rec) tk a 1 with
      | some [b] =>
        let lo := upd (b.extractLsb' 0 4)
        (s.frameWrite (recPcl rec) tk a [b.extractLsb' 4 4 ++ lo]).getD s
      | _ => s
/-- The greatest scope of the arrivals that a hurdle has counted since its last completion, and of those that its last completion counted: the scope at
which those who see that completion acquire (R179; the model's own field, log entry 127). -/
def State.hdScopes (s : State) (h : Nat) : Nat × Nat := kget (0, 0) (s.cluster (hurdlePcl h)).hdScope h
/-- The state with a hurdle's scopes set. -/
def State.setHdScopes (s : State) (h : Nat) (v : Nat × Nat) : State :=
  let c := s.cluster (hurdlePcl h)
  s.setCluster (hurdlePcl h) { c with hdScope := if v = (0, 0) then kdel h c.hdScope else kset h v c.hdScope }
/-- One more arrival of a scope is counted at a hurdle. -/
def State.noteScope (s : State) (h scope : Nat) : State := s.setHdScopes h (max scope (s.hdScopes h).1, (s.hdScopes h).2)
/-- A baton of a die sees a hurdle's last completion, an acquire at the scope of its arrivals (R179): at PACKAGE and beyond the die applies its log
(R65). -/
def State.seesCompletion (s : State) (d h : Nat) : State := s.acquireLog d (s.hdScopes h).2
/-- Waking one waiter of a hurdle with the word of its completion. -/
def State.wakeHurdle (s : State) (h : Nat) (gen : BitVec 32) (word : Dword) (w : Nat × Wait) : State :=
  match w.2 with
  | .hurdle rd h' g =>
    if h' = h && (match g with | none => true | some g => genPassed gen g) then
      (s.seesCompletion (recPcl w.1 / 24) h).finishWait w.1 (.x rd word)
    else s
  | .lap rd level h' tag =>
    if h' = h && tag = 0 then ((s.seesCompletion (recPcl w.1 / 24) h).setPhase w.1 level false).finishWait w.1 (.x rd word) else s
  | _ => s
/-- The acknowledgements that LAP.END arrivals wait for (R229). -/
def State.releaseLaps (s : State) (h : Nat) (x : Hurdle) : State :=
  let d := hurdlePcl h / 24
  let n := s.ni d
  let held := n.lapHeld.filter fun p => p.1 == h
  let s := s.setNi d { n with lapHeld := n.lapHeld.filter fun p => p.1 != h }
  held.foldl (fun s p => s.answer d p.2 .writeAck (x.word true) 0 0 []) s
/-- `complete` of R100: GEN advances, the window is published, every waiter wakes with the word of this completion, and an AUTO
hurdle is reset. -/
def State.completeHurdle (s : State) (who : Option Nat) (h : Nat) (x : Hurdle) : State :=
  let x := { x with gen := x.gen + 1 }
  let s := (s.setHurdle who h x.reset).setHdScopes h (0, (s.hdScopes h).1)
  let s := if x.pub then s.publish (hurdlePcl h) x.win else s
  let s := s.releaseLaps h x
  (s.waiting).foldl (fun s w => s.wakeHurdle h x.gen (x.word true) w) s
/-- A hurdle operation's outcome written back. -/
def State.applyHurdle (s : State) (who : Option Nat) (h : Nat) (r : Hurdle × Bool) : State :=
  if r.2 then s.completeHurdle who h r.1 else s.setHurdle who h r.1
/-- An arrival of a scope at a hurdle (R100): one that is counted brings its scope to the completion. -/
def State.hurdleArrive (s : State) (who : Option Nat) (scope h m : Nat) (st : BitVec 32) : State :=
  let r := (s.hurdle h).arrive m st
  (if r.1.arr = (s.hurdle h).arr then s else s.noteScope h scope).applyHurdle who h r
/-- A withdrawal of a scope from a hurdle, which counts where it completes it. -/
def State.hurdleWithdraw (s : State) (who : Option Nat) (scope h m : Nat) : State :=
  let r := (s.hurdle h).withdraw m
  (if r.2 then s.noteScope h scope else s).applyHurdle who h r
/-- A join of a hurdle. -/
def State.hurdleJoin (s : State) (who : Option Nat) (h : Nat) : State := s.setHurdle who h (s.hurdle h).join
/-- An initialisation of a hurdle. -/
def State.hurdleInit (s : State) (who : Option Nat) (h : Nat) (exp mode wake : BitVec 32) : State :=
  (s.setHdScopes h (0, 0)).applyHurdle who h ((s.hurdle h).init exp mode wake, exp == 0)
/-- Is an arrival refused as OVER at a hurdle as it stands (R98, R100). -/
def Hurdle.refusesOver (h : Hurdle) (m : Nat) : Bool :=
  !(h.bmap && decide (m < 64) && h.mask.getLsbD m) && decide (h.exp ≤ h.arr)

/-- XSTRAY after one more stray arrival (R102). -/
def strayWord (x : Dword) (gen : BitVec 32) (h source : Nat) : Dword :=
  let n := (x.extractLsb' 48 16).toNat
  BitVec.ofNat 16 (min 0xFFFF (n + 1)) ++ gen.extractLsb' 0 16 ++ 0#10 ++ (BitVec.ofNat 22 h).extractLsb' 5 17 ++ 0#3 ++
    BitVec.ofNat 2 source
/-- `engine_arrive` of R101: true where the arrival is stray. -/
def State.engineArrive (s : State) (h : Nat) (g0 : BitVec 32) (m : Nat) (st : BitVec 32) (source : Nat) : State × Bool :=
  if (s.hurdle h).gen = g0 then (s.hurdleArrive none 3 h m st, false)
  else
    let c := s.cluster (hurdlePcl h)
    (s.setCluster (hurdlePcl h) { c with xstray := strayWord c.xstray g0 h source }, true)

/-- The check of a hurdle operation at its target (R355). -/
def State.hurdleAdmits (s : State) (h : Nat) (tk : BitVec 16) (cls : Nat) (op : MemOp) : Bool :=
  let p := hurdlePcl h
  s.ataperAdmits (p / 24) (2 + p % 24) tk cls op
/-- Does a cell name a hurdle: 32-byte aligned in the lower 3 MiB of an existing cluster's scratchpad (R225). -/
def isHurdleCell (h : Nat) : Bool :=
  decide (0x00F800000000 ≤ h) && decide (h < 0x00F900000000) && h % 32 == 0 && decide (h % 2 ^ 22 < spadLow) &&
    isCDie (hurdlePcl h / 24) && decide ((h - 0x00F800000000) / 2 ^ 22 % 32 < 24)

/-! ## System hurdles (R97) -/

/-- The hurdle of a die's fault queue (R61, R97). -/
def faultHurdle (d : Nat) : Nat :=
  if d = 16 then spadCell 0 0x2FFFA0 else if d = 17 then spadCell 0 0x2FFFC0 else spadCell (d * 24) 0x2FFF80

end Sys2Proof.Machine
end

