-- ==== Sys2Proof/Machine/Rank.lean ====
section
/-!
DEFINITION. The rank-to-coordinate table (R42), traffic addressed to a rank (R43, R44), and a cluster's own rank and place in a group
(R42, R96).
-/
namespace Sys2Proof.Machine

/-- A rank's entry in a die's table (R42). -/
def State.rct (s : State) (d rank : Nat) : Dword := kget rctReset (s.ni d).rct rank
/-- Fields of an entry (R42). -/
def rctState (e : Dword) : Nat := (e.extractLsb' 62 2).toNat
/-- See `rctState`. -/
def rctHops (e : Dword) : Nat := (e.extractLsb' 58 4).toNat
/-- See `rctState`. -/
def rctGate (e : Dword) : Bool := e.getLsbD 57
/-- See `rctState`. -/
def rctPlanes (e : Dword) : BitVec 8 := e.extractLsb' 49 8
/-- See `rctState`. -/
def rctPkg (e : Dword) : Nat := (e.extractLsb' 33 16).toNat
/-- See `rctState`. -/
def rctDie (e : Dword) : Nat := (e.extractLsb' 28 5).toNat
/-- See `rctState`. -/
def rctCluster (e : Dword) : Nat := (e.extractLsb' 23 5).toNat
/-- The pcluster that an entry names. -/
def rctPcl (e : Dword) : Nat := rctDie e * 24 + rctCluster e
/-- The value that RCT.SET writes over an entry (R42, R43): EPOCH and reserved bits stay, and an IN_TRANSIT entry stays so unless
INVALID is written. -/
def rctSet (old new : Dword) : Dword :=
  let st : BitVec 2 := if rctState old = 2 ∧ rctState new ≠ 0 then 2 else new.extractLsb' 62 2
  st ++ new.extractLsb' 23 39 ++ 0#7 ++ old.extractLsb' 0 16
/-- An entry after RCT.HOLD (R43). -/
def rctHold (e : Dword) : Dword := 2#2 ++ e.extractLsb' 0 62
/-- An entry after RCT.RELEASE: only an IN_TRANSIT entry becomes VALID, with EPOCH incremented (R43). -/
def rctRelease (e : Dword) : Dword :=
  if rctState e = 2 then 1#2 ++ e.extractLsb' 16 46 ++ (e.extractLsb' 0 16 + 1#16) else e
/-- Is the operand of RCT.SET in range (R42). -/
def rctOk (v : Dword) : Bool := decide (rctDie v < 12) && decide (rctCluster v < 24) && decide (rctState v < 3)

/-- The ranks whose VALID entries name a cluster of this package, ascending. -/
def State.ranksOf (s : State) (d pcl : Nat) : List Nat :=
  ((s.ni d).rct.filter fun p => rctState p.2 == 1 && rctPcl p.2 == pcl && !s.foreign (rctPkg p.2)).map Prod.fst
/-- A cluster's own rank: the lowest-numbered VALID entry that names it (R42). -/
def State.ownRank (s : State) (pcl : Nat) : Option Nat := (s.ranksOf (pcl / 24) pcl).head?
/-- The SRCRANK of a cluster's packets; a free value while it has no rank (log entry 17). -/
def State.srcRank (s : State) (pcl : Nat) : Nat := (s.ownRank pcl).getD (Config.noRank pcl).toNat
/-- A cluster's rank in a group: the lowest-numbered of its ranks that is a member (R42). -/
def State.groupRank (s : State) (pcl : Nat) (g : Group) : Option Nat :=
  (s.ranksOf (pcl / 24) pcl).find? fun r => g.ranks.contains r

/-- Why a baton waits whose BAT.SEND or MSG.SEND is a packet to a rank (R92, R220): RANK while the packet is held, and then REMOTE or MESSAGE. -/
def State.rankWhy (s : State) (p : Pkt) (held : Bool) : State :=
  let why := fun (r reason : Nat) (key : Dword) => if held then s.setWhy r 10 (BitVec.ofNat 64 p.dstRank) else s.setWhy r reason key
  match kfind s.owners p.tag with
  | some (.baton r) =>
    match s.waitOf r with
    | .send .. => why r 1 (tagKey p.tag)
    | .msgSend .. => why r 5 (BitVec.ofNat 64 (p.dstRank * 2 ^ 52 + p.a.toNat * 2 ^ 32 + p.data.length))
    | _ => s
  | _ => s
/-- A ranked packet sent to the coordinate of a VALID entry: its address is the same offset at that cluster (R43). -/
def State.sendTo (s : State) (p : Pkt) (e : Dword) : State :=
  let d := epDie p.src
  let p := { p with dst := niEp (rctDie e), dstPkg := if s.foreign (rctPkg e) then rctPkg e else 0,
                    va := spadCell (rctPcl e) (p.va % 2 ^ 22) }
  let s := s.rankWhy p false
  let n := s.ni d
  (s.setNi d { n with rankSent := n.rankSent ++ [p] }).sendFrom d p
/-- Traffic to a rank (R43): sent, held, or completed NOT_MAPPED, by the source NI's entry. -/
def State.sendRanked (s : State) (p : Pkt) : State :=
  let d := epDie p.src
  let e := s.rct d p.dstRank
  let p := { p with ranked := true }
  if rctState e = 1 then s.sendTo p e
  else if rctState e = 2 then
    let s := s.rankWhy p true
    let n := s.ni d
    s.setNi d { n with rankHold := n.rankHold ++ [p] }
  else s.failPkt p 3
/-- The source NI has no room to hold one more packet for a rank IN_TRANSIT (R43). -/
def State.rankFull (s : State) (d rank : Nat) : Bool :=
  rctState (s.rct d rank) == 2 && decide (256 ≤ (s.ni d).rankHold.length)
/-- A ranked packet is answered. -/
def State.rankDone (s : State) (d tag : Nat) : State :=
  let n := s.ni d
  if n.rankSent.any (fun p => p.tag == tag) then s.setNi d { n with rankSent := n.rankSent.filter fun p => p.tag != tag }
  else s
/-- The held packets of a rank go on as its entry now says: sent in their order while VALID, completed NOT_MAPPED while INVALID
(R43). -/
def State.flushRank (s : State) (d rank : Nat) : State :=
  let e := s.rct d rank
  if rctState e = 2 then s
  else
    let n := s.ni d
    let held := n.rankHold.filter fun p => p.dstRank == rank
    let s := s.setNi d { n with rankHold := n.rankHold.filter fun p => p.dstRank != rank }
    held.foldl (fun s p => if rctState e = 1 then s.sendTo p e else s.failPkt p 3) s
/-- A MSG.SEND or BAT.SEND.R that has waited for space in the hold queue goes on from there: its packet, as its payload was read, is sent, and the
baton waits for the answer (R43, R217). -/
def State.sendHeld (s : State) (rec' : Nat) : State :=
  match s.waitOf rec' with
  | .rankSend p rd baton self => (s.setWait rec' (if baton then .send p.tag rd self else .msgSend p.tag rd none)).sendRanked p
  | _ => s
/-- The sends that wait for space in a die's hold queue go on (R43). -/
def State.wakeRankWaiters (s : State) (d : Nat) : State :=
  s.waiting.foldl (fun s w =>
    match w.2 with
    | .rankSend p .. => if recPcl w.1 / 24 = d && !s.rankFull d p.dstRank then s.sendHeld w.1 else s
    | _ => s) s
/-- An entry after a change: kind 0 SET, 1 HOLD, 2 RELEASE (R42, R43). -/
def rctChanged (old : Dword) (kind : Nat) (v : Dword) : Dword :=
  if kind = 0 then rctSet old v else if kind = 1 then rctHold old else rctRelease old
/-- The B-die's own table takes a change as it is sent, so that a die that returns receives it (R42). -/
def State.masterRct (s : State) (rank kind : Nat) (v : Dword) : State :=
  { s with pkg := { s.pkg with rct := kset rank (rctChanged (kget rctReset s.pkg.rct rank) kind v) s.pkg.rct } }
/-- A change applied to a die's entry of a rank, with what it does to held packets (R42, R43). -/
def State.applyRct (s : State) (d rank kind : Nat) (v : Dword) : State :=
  let n := s.ni d
  let s := s.setNi d { n with rct := kset rank (rctChanged (s.rct d rank) kind v) n.rct }
  (s.flushRank d rank).wakeRankWaiters d
/-- MSG_MOVED for a request (R44): the packet and every later unacknowledged one to the same rank go back to the head of the hold
queue in issue order, and are sent again once the entry is VALID. A message that a full queue has answered stands apart until it is resent
(`forwarded`, R231). -/
def State.rankMoved (s : State) (d tag attempt : Nat) : State :=
  let n := s.ni d
  match n.rankSent.findIdx? (fun p => p.tag == tag && p.attempt == attempt) with
  | none => s
  | some i =>
    let later := n.rankSent.drop i
    let rank := (later.head?.map fun p => p.dstRank).getD 0
    let moves := fun (p : Pkt) => p.dstRank == rank && !p.forwarded
    let back := (later.filter moves).map fun p => { p with attempt := p.attempt + 1 }
    let s := s.setNi d { n with rankSent := n.rankSent.take i ++ later.filter (fun p => !moves p),
                                rankHold := back ++ n.rankHold }
    (back.foldl (fun s p => s.rankWhy p true) s).flushRank d rank

/-! ## Domains (R96) -/

/-- The group record of a number. -/
def State.group (s : State) (g : Nat) : Group := kget Group.init s.relay.groups g
/-- DMR1 to DMR4 (R96) of a baton with CTRL [47:32] = `grp` on a compute core; level 1 to 4. -/
def State.dmr (s : State) (cid : Nat) (grp : BitVec 16) (level : Nat) : Dword :=
  let word := fun (dom size mem : Nat) => BitVec.ofNat 16 dom ++ 1#1 ++ 0#15 ++ BitVec.ofNat 16 size ++ BitVec.ofNat 16 mem
  if !isCore cid then 0
  else if level = 1 then word (cidPcl cid) 16 (cidMember cid)
  else if level = 2 then word (cidDie cid) 384 (cidRow cid * 24 + cidCol cid)
  else if level = 3 then word s.pkg.fabric 4608 (cidDie cid * 384 + cidRow cid * 24 + cidCol cid)
  else
    let g := s.group grp.toNat
    if grp.toNat < 1024 && g.defined then
      match s.groupRank (cidPcl cid) g with
      | some r => word grp.toNat g.ranks.length (g.ranks.findIdx (· == r))
      | none => 0
    else 0
/-- DMR.VALID. -/
def dmrValid (w : Dword) : Bool := w.getLsbD 47
/-- DMR.MEMBER. -/
def dmrMember (w : Dword) : Nat := (w.extractLsb' 0 16).toNat

end Sys2Proof.Machine
end

