-- ==== Sys2Proof/Machine/Home.lean ====
section
/-!
DEFINITION. What a home does with a request (R59): performing it, the fault queue (R61, R62), walks, held and forwarded requests (R68),
the NI register block (R51), and hurdle operations and batons that arrive as packets (R226, R220).
-/
namespace Sys2Proof.Machine

/-! ## Read-modify-writes -/

/-- An AMO on a value of `w` bits (R191). -/
def amoApply (op : AmoOp) {w : Nat} (old src : BitVec w) : BitVec w :=
  match op with
  | .swap => src
  | .add => old + src
  | .xor => old ^^^ src
  | .and => old &&& src
  | .or => old ||| src
  | .min => if old.slt src then old else src
  | .max => if old.slt src then src else old
  | .minu => if old.ult src then old else src
  | .maxu => if old.ult src then src else old
  | .lr => old
  | .sc => src
/-- The value that an AMO of 4 or 8 bytes stores. -/
def amoResult (op : AmoOp) (bytes old src : Nat) : Nat :=
  if bytes = 4 then (amoApply op (BitVec.ofNat 32 old) (BitVec.ofNat 32 src)).toNat
  else (amoApply op (BitVec.ofNat 64 old) (BitVec.ofNat 64 src)).toNat
/-- The value that a load or AMO of `bytes` bytes leaves in an x register. -/
def loadValue (bytes : Nat) (sgn : Bool) (v : Nat) : Dword :=
  if bytes = 1 then (if sgn then (BitVec.ofNat 8 v).signExtend 64 else (BitVec.ofNat 8 v).zeroExtend 64)
  else if bytes = 2 then (if sgn then (BitVec.ofNat 16 v).signExtend 64 else (BitVec.ofNat 16 v).zeroExtend 64)
  else if bytes = 4 then (if sgn then (BitVec.ofNat 32 v).signExtend 64 else (BitVec.ofNat 32 v).zeroExtend 64)
  else BitVec.ofNat 64 v
/-- Setting a slot's reservation on the 8 bytes that hold a cell (R193). -/
def State.reserve (s : State) (k cell : Nat) : State :=
  s.setSlotAt k { s.slotAt k with reserved := some (cell / 8 * 8) }
/-- Does a slot's reservation cover a cell (R193). -/
def Slot.holds (t : Slot) (cell : Nat) : Bool := t.reserved == some (cell / 8 * 8)
/-- The reservation of a baton on a location that another package homes, as its own core keeps it (R193). -/
def farReservation (pkg va : Nat) : Nat := 2 ^ 128 + pkg * 2 ^ 64 + va / 8 * 8
/-- An AMO, LR or SC on a cell by a party: the value for its destination, before sign extension, and the state (R191, R193). -/
def State.amoCell (s : State) (who : Option Nat) (op : AmoOp) (cell bytes src : Nat) : Nat × State :=
  let old := s.loadLE cell bytes
  match op with
  | .lr => (old, match who with | some k => s.reserve k cell | none => s)
  | .sc =>
    match who with
    | some k =>
      let ok := (s.slotAt k).holds cell
      let s := s.setSlotAt k { s.slotAt k with reserved := none }
      if ok then (0, s.storeLE (some k) cell bytes src) else (1, s)
    | none => (1, s)
  | _ => (old, s.storeLE who cell bytes (amoResult op bytes old src))

/-- The same for a party of another package, whose reservation this package keeps (R193). -/
def State.farAmoCell (s : State) (party : Nat) (op : AmoOp) (cell bytes src : Nat) : Nat × State :=
  match op with
  | .lr => (s.loadLE cell bytes, { s with farReserved := kset party (cell / 8 * 8) s.farReserved })
  | .sc =>
    let ok := kfind s.farReserved party == some (cell / 8 * 8)
    let s := { s with farReserved := kdel party s.farReserved }
    if ok then (0, s.storeLE (some party) cell bytes src) else (1, s)
  | _ => s.amoCell (some party) op cell bytes src

/-- One element of an accumulate batch (R288): FADD32, or STATMERGE with the destination as the left operand; none where a STAT128
operand is malformed. -/
def atomElem (merge : Bool) (dst src : Nat) : Option Nat :=
  if merge then
    let a : Streg := BitVec.ofNat 128 dst
    let b : Streg := BitVec.ofNat 128 src
    if statMalformed a || statMalformed b then none else some (statTo (statMerge (statOf a) (statOf b))).toNat
  else some (add32 dst src)
/-- A batch over a cell range: the lowest element index that is malformed, and the state. -/
def State.atomBatch (s : State) (merge : Bool) (cell : Nat) (data : List Byte) : Option Nat × State :=
  let n := if merge then 16 else 4
  (List.range (data.length / n)).foldl (fun r i =>
    let a := cell + i * n
    match atomElem merge (r.2.loadLE a n) (natLE ((data.drop (i * n)).take n)) with
    | some v => (r.1, r.2.storeLE none a n v)
    | none => (match r.1 with | some j => some j | none => some i, r.2)) (none, s)

/-! ## Performing a request (R59 step 6) -/

/-- The slot whose baton caused a request, while it is resident. -/
def State.slotOfTag (s : State) (tag : Nat) : Option Nat :=
  match kfind s.owners tag with
  | some (.baton r) => s.findSlot r
  | some (.posted r) => s.findSlot r
  | _ => none
/-- A core of another package as a party (R193): a request's header names no slot of it (log entry 120). -/
def Pkt.party (p : Pkt) : Nat := 2 ^ 32 + p.srcPkg * 2 ^ 16 + p.src
/-- The party that a request comes from. Another package's tag names nothing here. -/
def State.requester (s : State) (p : Pkt) : Option Nat := if p.srcPkg = 0 then s.slotOfTag p.tag else some p.party
/-- The address of the first element of a read that holds poisoned data. -/
def State.poisonVa (s : State) (p : Pkt) (rs : Ranges) : Nat :=
  ((p.elems.zip rs).find? fun q => s.poisoned q.2.1 q.2.2).elim p.va fun q => q.1.1
/-- Performing a request on its cells, and the answer to it. -/
def State.perform (s : State) (d : Nat) (p : Pkt) (rs : Ranges) : State :=
  let who := s.requester p
  match p.ty with
  | .read =>
    if s.poisonedRanges rs then s.refuse d p 4 (s.poisonVa p rs)
    else s.answer d p .readReply 0 0 0 (s.readRanges rs)
  | .amo =>
    match rs with
    | [(cell, n)] =>
      if p.amo != .sc && s.poisonedRanges rs then s.refuse d p 4 p.va
      else
        let r := if p.srcPkg = 0 then s.amoCell who p.amo cell n p.a.toNat else s.farAmoCell p.party p.amo cell n p.a.toNat
        r.2.answer d p .readReply 0 0 0 (bytesLE n r.1)
    | _ => s.refuse d p 1 p.va
  | .atomBatch =>
    match rs with
    | [(cell, n)] =>
      if s.poisoned cell n then s.refuse d p 4 p.va
      else
        let merge := p.sub == 1
        let r := s.atomBatch merge cell p.data
        match r.1 with
        | some i => r.2.refuse d p 1 (p.va + i * (if merge then 16 else 4))
        | none => r.2.answer d p .writeAck 0 0 0 []
    | _ => s.refuse d p 1 p.va
  | .chunk => (s.writeRanges none rs p.data).answer d p .writeAck 0 0 0 []
  | _ =>
    let s := s.writeRanges who rs p.data
    let s := if p.poison then s.poisonRanges rs else s
    s.answer d p .writeAck 0 0 0 []

/-! ## The fault queue (R61, R62) -/

/-- A free record number: a record is free again once its request has been answered (R61). -/
def Ni.freeRecord (n : Ni) : Option Nat :=
  (List.range 256).find? fun i => (kget FaultRec.free n.fq i).held.isNone
/-- A NOT_MAPPED outcome enters the fault queue and holds the request; each append arrives on the die's fault hurdle, unchecked. A host
access does not enter it (R72). -/
def State.faultAppend (s : State) (d : Nat) (p : Pkt) : State :=
  let n := s.ni d
  match if p.master = 6 then none else n.freeRecord with
  | none => s.refuse d p 3 p.va
  | some i =>
    let r : FaultRec :=
      { va := p.va, track := p.track, src := BitVec.ofNat 16 p.src, tag := BitVec.ofNat 16 p.tag,
        ty := BitVec.ofNat 8 p.ty.code, cause := 3, time := BitVec.ofNat 64 (s.swcAt d), action := 0, status := 0,
        order := (kvals n.fq).foldl (fun m r => max m (r.order + 1)) 0, held := some p }
    (s.setNi d { n with fq := kset i r n.fq }).hurdleArrive none 3 (faultHurdle d) 0xFFFFFFFF 0
/-- Starting a walk (R54): the request waits, and others go on. -/
def State.startWalk (s : State) (d : Nat) (p : Pkt) : State :=
  let n := s.ni d
  let id := n.walks.foldl (fun m w => max m (w.id + 1)) 0
  s.setNi d { n with walks := n.walks ++ [{ id := id, pkt := p, started := s.swcAt d }] }
/-- A request for a MIGRATING page is held (R68). -/
def State.holdMigrating (s : State) (d : Nat) (p : Pkt) : State :=
  let n := s.ni d
  s.setNi d { n with migrating := n.migrating ++ [p] }
/-- Forwarding a request once to a new home, with its SRC and TAG (R68). -/
def State.forwardPkt (s : State) (d : Nat) (p : Pkt) (h : Nat) : State :=
  s.sendFrom d { p with dst := niEp h, forwarded := true }
/-- A request has left a die's NI for good: the record under which its RETRY re-entered it is free (R61). -/
def State.settleRecord (s : State) (d : Nat) (p : Pkt) : State :=
  let n := s.ni d
  let mine := fun (r : FaultRec) => r.action != 0 && (match r.held with | some q => q.tag == p.tag && q.src == p.src && q.srcPkg == p.srcPkg | none => false)
  if n.fq.any fun r => mine r.2 then
    s.setNi d { n with fq := kmap (fun _ r => if mine r then { r with held := none } else r) n.fq }
  else s
/-- Two requests of one track that touch a common 64-byte line. -/
def sameLine (p q : Pkt) : Bool :=
  p.track == q.track && p.elems.any fun a => q.elems.any fun b => decide (a.1 / 64 ≤ (b.1 + b.2 - 1) / 64) && decide (b.1 / 64 ≤ (a.1 + a.2 - 1) / 64)
/-- The baton whose access a request makes. -/
def State.batonOf (s : State) (p : Pkt) : Option Nat :=
  if p.srcPkg ≠ 0 then none
  else
    match kfind s.owners p.tag with
    | some (.baton r) | some (.posted r) => some r
    | _ => none
/-- Do two requests come from one baton; of another package, whose tags name nothing here, from one core. -/
def State.sameBaton (s : State) (p q : Pkt) : Bool :=
  if p.srcPkg = 0 then (s.batonOf p).isSome && s.batonOf p == s.batonOf q else p.srcPkg == q.srcPkg && p.src == q.src
/-- Does a request come behind one that its home has not answered, to a line of which it asks too, so that the order of their line stays (R183): one
in a walk, or one of the same baton that a record of the fault queue holds. -/
def State.lineHeld (s : State) (d : Nat) (p : Pkt) : Bool :=
  let n := s.ni d
  n.walks.any (fun w => sameLine w.pkt p) || n.behind.any (sameLine p) ||
    n.fq.any fun r => match r.2.held with | some q => s.sameBaton q p && sameLine q p | none => false
/-- A request at its home (R59): `walked` where its walk has just ended. -/
def State.homeRun (s : State) (d : Nat) (p : Pkt) (walked : Bool) : State :=
  match s.homeCheck d p walked with
  | .ok rs => (s.perform d p rs).settleRecord d p
  | .walk => s.startWalk d p
  | .held => if (s.ni d).migrating.length < 1024 then s.holdMigrating d p else (s.refuse d p 3 p.va).settleRecord d p
  | .forward h => (s.forwardPkt d p h).settleRecord d p
  | .miss => (s.faultAppend d p).settleRecord d p
  | .refuse st => (s.refuse d p st (s.failVa d p walked)).settleRecord d p
/-- A request that arrives at its home, behind those of its line that wait for a walk. -/
def State.homeEnter (s : State) (d : Nat) (p : Pkt) : State :=
  if s.lineHeld d p then let n := s.ni d; s.setNi d { n with behind := n.behind ++ [p] } else s.homeRun d p false
/-- The requests behind one that has left the home enter again, in their order. -/
def State.releaseBehind (s : State) (d : Nat) : State :=
  let n := s.ni d
  n.behind.foldl (fun s p => s.homeEnter d p) (s.setNi d { n with behind := [] })
/-- The cells that a packet reaches at its die, by which it waits for banks (R156): the record of a baton, a hurdle, the bytes of a request. -/
def State.pktCells (s : State) (d : Nat) (p : Pkt) : List Nat :=
  if p.enqueue.isSome || p.ty == .arrive || p.ty == .copyDone then [p.va]
  else if !p.ty.isRequest || addrClass p.va == .niBlock then []
  else
    match s.homeCheck d p false with
    | .ok rs => rs.map Prod.fst
    | _ => []
/-- A walk ends (R56): the translation is cached where it is PRESENT, and the request goes on. -/
def State.walkDone (s : State) (d : Nat) (w : Walk) : State :=
  let n := s.ni d
  let s := s.setNi d { n with walks := n.walks.filter fun x => x.id != w.id }
  let s :=
    match s.trackEntry d w.pkt.track with
    | none => s
    | some ent =>
      match s.walk d w.pkt.track ent w.pkt.va w.pkt.memOp.changes with
      | .present e => let n := s.ni d; s.setNi d { n with tcache := tcInsert e n.tcache }
      | _ => s
  (s.homeRun d w.pkt true).releaseBehind d
/-- The answer to a fault record (R62): 1 RETRY re-enters the request at step 2, and the record stays in use until that answers it (R61), 2 REFUSE
answers with STATUS; every other ACTION but PENDING, and a STATUS of 0, counts as REFUSE with NOT_MAPPED. DESIGN CHOICE (log entry 134): a write to a
record whose RETRY is still in progress does nothing. -/
def State.faultAnswer (s : State) (d i : Nat) (action : BitVec 8) : State :=
  let n := s.ni d
  let r := kget FaultRec.free n.fq i
  let act := (action.extractLsb' 0 4).toNat
  match r.held with
  | none => s.setNi d { n with fq := kset i { r with action := action.extractLsb' 0 4, status := action.extractLsb' 4 4 } n.fq }
  | some p =>
    let put := fun (held : Option Pkt) =>
      s.setNi d { n with fq := kset i { r with action := action.extractLsb' 0 4, status := action.extractLsb' 4 4, held := held } n.fq }
    if act = 0 then s.setNi d { n with fq := kset i { r with status := action.extractLsb' 4 4 } n.fq }
    else if r.action ≠ 0 then s
    else if act = 1 then ((put (some p)).homeRun d p false).releaseBehind d
    else
      let st := (action.extractLsb' 4 4).toNat
      ((put none).refuse d p (if act = 2 ∧ st ≠ 0 then st else 3) p.va).releaseBehind d

/-! ## The NI register block (R51) -/

/-- The pending records of a fault queue, by number. -/
def Ni.pending (n : Ni) : List (Nat × FaultRec) := n.fq.filter fun p => p.2.held.isSome && p.2.action == 0
/-- The oldest pending record's number. -/
def Ni.oldest (n : Ni) : Nat :=
  ((n.pending).foldl (fun m p => match m with | some (q : Nat × FaultRec) => if p.2.order < q.2.order then some p else some q
                                                | none => some p) none).elim 0 Prod.fst
/-- A doubleword of a fault record. -/
def FaultRec.word (r : FaultRec) (w : Nat) : Dword :=
  if w = 0 then BitVec.ofNat 64 r.va
  else if w = 1 then 0#4 ++ r.cause ++ r.ty ++ r.tag ++ r.src ++ r.track
  else if w = 2 then r.time
  else 0#56 ++ r.status ++ r.action
/-- The number of access-table targets of a die (R51). -/
def niTargets (d : Nat) : Nat := if isCDie d then 26 else 1
/-- A doubleword of a die's NI register block; bytes that nothing names read zero (R51). -/
def State.niRead (s : State) (d off : Nat) : Dword :=
  let n := s.ni d
  if off < 0x2000 ∧ (isCDie d ∨ isFDie d) then (kget FaultRec.free n.fq (off / 32)).word (off % 32 / 8)
  else if off = 0x2000 ∧ (isCDie d ∨ isFDie d) then
    BitVec.ofNat 64 ((n.pending).length + n.oldest * 2 ^ 16)
  else if 0x4000 ≤ off ∧ off < 0x8000 then (kget 0 n.trk ((off - 0x4000) / 16)).extractLsb' (off % 16 * 8) 64
  else if 0x10000 ≤ off ∧ off < 0x10000 + 0x8000 * niTargets d then kget 0 n.acc ((off - 0x10000) / 8)
  else 0
/-- A store to a die's NI register block (R51, R61, R62). A store to an access-table entry is performed in the table; whether the
target acts on it at once or goes on with the copy it holds is a free value (log entry 6). -/
def State.niWrite (s : State) (d off : Nat) (v : Dword) : State :=
  let n := s.ni d
  if off < 0x2000 ∧ (isCDie d ∨ isFDie d) then
    let i := off / 32
    let r := kget FaultRec.free n.fq i
    if off % 32 = 0 then s.setNi d { n with fq := kset i { r with va := v.toNat } n.fq }
    else if off % 32 = 8 then
      s.setNi d { n with fq := kset i { r with track := v.extractLsb' 0 16, src := v.extractLsb' 16 16,
                                               tag := v.extractLsb' 32 16, ty := v.extractLsb' 48 8,
                                               cause := v.extractLsb' 56 4 } n.fq }
    else if off % 32 = 16 then s.setNi d { n with fq := kset i { r with time := v } n.fq }
    else s.faultAnswer d i (v.extractLsb' 0 8)
  else if 0x10000 ≤ off ∧ off < 0x10000 + 0x8000 * niTargets d then
    let i := (off - 0x10000) / 8
    let old := kget 0 n.acc i
    let held := match kfind n.accHeld i with | some h => h | none => old
    let e : Dword := BitVec.ofBool (v.getLsbD 63) ++ 0#15 ++ v.extractLsb' 0 48
    let keep := (Config.freeValue s.fresh).getLsbD 0
    let n := { n with acc := kset i e n.acc, accHeld := if keep then kset i held n.accHeld else kdel i n.accHeld }
    { s.setNi d n with fresh := s.fresh + 1 }
  else s
/-- An access to an NI register block that has arrived at its die: naturally aligned 8 bytes under track 0, not checked against access
tables (R51). -/
def State.niAccess (s : State) (d : Nat) (p : Pkt) : State :=
  let off := p.va % 2 ^ 24
  if p.track ≠ 0 then s.refuse d p 1 p.va
  else if p.ty = .read then s.answer d p .readReply 0 0 0 (bytesLE 8 (s.niRead d off).toNat)
  else (s.niWrite d off (BitVec.ofNat 64 (natLE p.data))).answer d p .writeAck 0 0 0 []

/-! ## Ranked arrivals, hurdle operations and sent batons -/

/-- Does the rank that a packet is addressed to still name the cluster, of this package, that it has reached (R44). -/
def State.rankHere (s : State) (d : Nat) (p : Pkt) : Bool :=
  let e := s.rct d p.dstRank
  !p.ranked || (rctPcl e == hurdlePcl p.va && !s.foreign (rctPkg e))
/-- Answering a packet that has reached a cluster which no longer holds its rank (R44). -/
def State.movedPkt (s : State) (d : Nat) (p : Pkt) : State :=
  s.answer d p .msgMoved 0 (BitVec.ofNat 64 p.attempt) 0 []
/-- The master class of an arrival (R355): an engine's or the Relay's own; of a core, 0 on its own die and 1 on another. -/
def arriveClass (d : Nat) (p : Pkt) : Nat :=
  if p.master = 2 ∨ p.master = 3 then p.master else if p.srcPkg = 0 ∧ epDie p.src = d then 0 else 1
/-- An ARRIVE packet at a hurdle's die (R226, R101, R355): `b` holds the operation, 0 arrive, 1 withdraw, 2 join, 3 a LAP.END arrival;
`a` the member index, `c` [31:0] the status bits and, from an engine, [63:32] the generation. The X-die NI's own arrivals with status 5 are not
checked (R355). -/
def State.arrivePkt (s : State) (d : Nat) (p : Pkt) : State :=
  let h := p.va
  let m := p.a.toNat
  let st : BitVec 32 := p.c.extractLsb' 0 32
  let unchecked := p.master == 3 && p.src == niEp xDie
  if !s.rankHere d p then s.movedPkt d p
  else if !unchecked && (s.trackEntry d p.track).isNone then s.refuse d p 1 h
  else if !isHurdleCell h || hurdlePcl h / 24 != d then s.refuse d p 3 h
  else if !unchecked && !s.hurdleAdmits h p.track (arriveClass d p) .amo then s.refuse d p 1 h
  else
    let who := s.requester p
    if p.master = 2 ∨ p.master = 3 then
      let src := if p.master = 3 then 1 else if p.srcPkg = 0 ∧ p.src = engineEp (hurdlePcl h) then 0 else 2
      let r := s.engineArrive h (p.c.extractLsb' 32 32) m st src
      r.1.answer d p .writeAck 0 (if r.2 then 1 else 0) 0 []
    else if p.b = 1 then (s.hurdleWithdraw who p.scope h m).answer d p .writeAck 0 0 0 []
    else if p.b = 2 then (s.hurdleJoin who h).answer d p .writeAck 0 0 0 []
    else if p.b = 3 then
      if (s.hurdle h).refusesOver m then
        let s := s.hurdleArrive who p.scope h m st
        s.answer d p .writeAck (((s.hurdle h).word true)) 0 0 []
      else
        let n := s.ni d
        let s := s.setNi d { n with lapHeld := n.lapHeld ++ [(h, p)] }
        s.hurdleArrive who p.scope h m st
    else (s.hurdleArrive who p.scope h m st).answer d p .writeAck 0 0 0 []
/-- A baton record that BAT.SEND has brought to its destination cluster: checked there as a write under the sender's track (R49, R58, R59), written
to its slot and enqueued READY (R220). -/
def State.enqueuePkt (s : State) (d : Nat) (p : Pkt) (launch : Nat) : State :=
  if !s.ataperAdmits d (2 + recPcl p.va % 24) p.track (p.classAt d) .write then s.refuse d p 1 p.va
  else
    let s := s.hwStore p.va p.data
    (s.enqueue p.va launch).answer d p .writeAck 0 0 0 []

/-- A request packet delivered to a die. -/
def State.homePkt (s : State) (d : Nat) (p : Pkt) : State :=
  if !s.rankHere d p then s.movedPkt d p
  else
    match p.enqueue with
    | some l => s.enqueuePkt d p l
    | none => if addrClass p.va = .niBlock then s.niAccess d p else s.homeEnter d p
/-- The delivery of a packet of one of some types: malformed packets are dealt with under R32, and a request whose cells lie in a gated
bank starts the wake and waits (R156). A packet that cannot be delivered now changes nothing. -/
def State.deliverPkt (s : State) (pid : Nat) (tys : List PType) (f : State → Pkt → State) : State :=
  match s.canDeliver pid with
  | none => s
  | some p =>
    if !(tys.contains p.ty || p.ty == .reserved) || (s.foreign p.dstPkg && p.hopDst == xDie) then s
    else if p.malformed then (s.takePkt pid p).malformedPkt p
    else
      let cells := s.pktCells p.hopDst p
      if !s.granted (pktKey pid) cells then s.stallPkt pid cells
      else (f (s.takePkt pid p) p).unstallAt p.hopDst (pktKey pid)

end Sys2Proof.Machine
end

