-- ==== Sys2Proof/Machine/Engine.lean ====
section
/-!
DEFINITION. The cluster copy engines (R279 to R290): operands of a command, the promise (R46), pieces and their packets (R283), feeds
(R285), multicast branches (R286), completion and arrival (R282), and waits on a command (R154).
-/
namespace Sys2Proof.Machine

/-! ## Command fields -/

/-- Fields of CTL (R281). -/
def ctlRank (c : Dword) : Nat := (c.extractLsb' 52 12).toNat
/-- See `ctlRank`. -/
def ctlDrank (c : Dword) : Bool := c.getLsbD 51
/-- See `ctlRank`. -/
def ctlSrank (c : Dword) : Bool := c.getLsbD 50
/-- The member index of the arrival: 0xFFFF is count mode (R281). -/
def ctlArrm (c : Dword) : Nat := if c.extractLsb' 32 16 = 0xFFFF then 0xFFFFFFFF else (c.extractLsb' 32 16).toNat
/-- See `ctlRank`. -/
def ctlSpec (c : Dword) : Nat := (c.extractLsb' 0 24).toNat
/-- The element size of CP.GATH and CP.SCAT. -/
def gathSize (c : Dword) : Nat := 2 ^ (ctlSpec c / 2 ^ 20)
/-- The element count of CP.GATH and CP.SCAT. -/
def gathCount (c : Dword) : Nat := ctlSpec c % 2 ^ 16
/-- FMT, TRANS and ROWS of CP.FEED (R285). -/
def feedFmt (c : Dword) : Nat := ctlSpec c / 2 ^ 22
/-- See `feedFmt`. -/
def feedTrans (c : Dword) : Bool := (ctlSpec c).testBit 21
/-- See `feedFmt`. -/
def feedRows (c : Dword) : Nat := ctlSpec c % 64 + 1
/-- KLEN of CP.FEED. -/
def feedKlen (g0 : Dword) : Nat := (g0.extractLsb' 32 17).toNat
/-- K positions per panel (R270) for a feed format. -/
def feedKpp (fmt : Nat) : Nat := if fmt = 0 then 32 else if fmt = 1 then 64 else 128
/-- Panels of a feed (R285). -/
def feedPanels (g0 c : Dword) : Nat := (feedKlen g0 + feedKpp (feedFmt c) - 1) / feedKpp (feedFmt c)

/-- A cell range that the engine of a cluster reaches itself: the TCM of the issuing core, the own scratchpad and its windows, a TCM of
the own cluster, the own die's shared SRAM (R142, R145, R149); `.error` gives the status of an address that fails. -/
inductive Side
  /-- Cells that the engine reaches itself, and the access-table target that checks them. -/
  | cells (rs : Ranges) (target : Nat)
  /-- A packet to this endpoint, of this package, for this address. -/
  | away (ep pkg va : Nat)
  /-- A rank IN_TRANSIT (R43). -/
  | held
  | fail (status : Nat)
  deriving DecidableEq, Repr

/-- Where an operand address of a command lies (R50, R142, R281, R284). -/
def State.sideOf (s : State) (pcl cid : Nat) (tk : BitVec 16) (a n : Nat) (write : Bool) (rank : Option Nat) : Side :=
  let d := pcl / 24
  match rank with
  | some r =>
    let e := s.rct d r
    if !(decide (spadBase ≤ a) && decide (a + n ≤ spadBase + 2 ^ 22)) then .fail 1
    else if rctState e = 2 then .held
    else if rctState e ≠ 1 then .fail 3
    else .away (niEp (rctDie e)) (if s.foreign (rctPkg e) then rctPkg e else 0) (spadCell (rctPcl e) (a - spadBase))
  | none =>
    match addrClass a with
    | .tcm => if a + n ≤ 2 ^ 18 then .cells [(tcmCell cid a, n)] (2 + pcl % 24) else .fail 1
    | .spad =>
      if a + n ≤ spadBase + 2 ^ 22 then
        match s.engineSpad pcl (a - spadBase) n write with
        | some rs => .cells rs (2 + pcl % 24)
        | none => .fail 1
      else .fail 1
    | .dsram => if a + n ≤ 0x4C00000 then .cells [(dsramCell d (a - 0x1000000), n)] 1 else .fail 1
    | .copyTcm =>
      let c := (a - 0x00F000000000) / 2 ^ 18
      if !isCore c && !isOsCore c then .fail 3
      else if cidPcl c ≠ pcl ∨ 2 ^ 18 < a % 2 ^ 18 + n then .fail 1
      else .cells [(a, n)] (2 + pcl % 24)
    | .copySpad =>
      let o := a - 0x00F800000000
      if !isCDie (o / 2 ^ 27) ∨ 24 ≤ o / 2 ^ 22 % 32 then .fail 3
      else .away (niEp (o / 2 ^ 27)) 0 a
    | .niBlock => if isDie ((a - 0x00FC00000000) / 2 ^ 24) then .fail 1 else .fail 3
    | .global =>
      match s.homeOf d tk a with
      | .die h => .away (niEp h) 0 a
      | .package p => .away (niEp xDie) p a
    | .none => .fail 1

/-! ## The promise (R46) -/

/-- Payload bytes per cycle of the link between two dies (R29). -/
def linkPayload (a b : Nat) : Nat :=
  if a == bDie || b == bDie then 32
  else if isCDie a && isCDie b then 64
  else if (isCDie a && b == xDie) || (a == xDie && isCDie b) then 256
  else 64
/-- One leg of a command: hops, switch hops, bytes per cycle. -/
structure Leg where
  hu : Nat
  hs : Nat
  pb : Nat
  deriving DecidableEq, Repr
/-- The rank whose entry speaks for a foreign package: the lowest-numbered VALID one (R46). -/
def State.pkgEntry (s : State) (d p : Nat) : Option Dword :=
  ((s.ni d).rct.find? fun r => rctState r.2 == 1 && rctPkg r.2 == p).map Prod.snd
/-- Planes up and allowed by an entry's mask (R42, R46). -/
def State.planesFor (s : State) (e : Option Dword) : Nat :=
  let up := s.planesUp
  match e with
  | none => up.length
  | some e =>
    let ok := up.filter fun p => (rctPlanes e).getLsbD p
    if ok = [] then up.length else ok.length
/-- A leg between the engine's die and a die of this package. -/
def dieLeg (d h : Nat) : Leg := if d = h then ⟨0, 0, 128⟩ else ⟨1, 0, linkPayload d h⟩
/-- A leg to another package, by the entry of the rank that stands for it (R46). The home die over there is not known here: DESIGN CHOICE (log entry
130), its package's link counts as a C-die link, and its hu is 2. -/
def State.pkgLeg (s : State) (e : Option Dword) : Leg :=
  ⟨2, (match e with | some e => rctHops e | none => 15), min 256 (125 * s.planesFor e)⟩
/-- The leg that a command's operand address adds. A range or a list of elements may have several homes; that of the base address counts
(DESIGN CHOICE, log entry 106). -/
def State.legOf (s : State) (pcl : Nat) (tk : BitVec 16) (a : Nat) (rank : Option Nat) : Leg :=
  let d := pcl / 24
  match rank with
  | some r =>
    let e := s.rct d r
    if s.foreign (rctPkg e) then s.pkgLeg (some e) else dieLeg d (rctDie e)
  | none =>
    match addrClass a with
    | .copyTcm => dieLeg d (cidDie ((a - 0x00F000000000) / 2 ^ 18))
    | .copySpad => dieLeg d ((a - 0x00F800000000) / 2 ^ 27)
    | .niBlock => dieLeg d ((a - 0x00FC00000000) / 2 ^ 24)
    | .global =>
      match s.homeOf d tk a with
      | .die h => dieLeg d h
      | .package p => s.pkgLeg (s.pkgEntry d p)
    | _ => ⟨0, 0, 128⟩
/-- Is a command's target bank power-gated at issue, or, across packages, assumed so by GATE (R46). Of a range of die shared SRAM that spans
several banks any gated one counts (DESIGN CHOICE, log entry 106). -/
def State.gatedTarget (s : State) (pcl cid : Nat) (tk : BitVec 16) (a n : Nat) (rank : Option Nat) : Bool :=
  let d := pcl / 24
  let off := fun (c k : Nat) => (List.range ((c % 2 ^ 20 + k + (2 ^ 20 - 1)) / 2 ^ 20)).any fun j =>
    match bankOf (c + j * 2 ^ 20) with
    | some x => s.bankOff x
    | none => false
  match rank with
  | some r =>
    let e := s.rct d r
    if s.foreign (rctPkg e) then rctGate e else off (spadCell (rctPcl e) (a % 2 ^ 22)) 1
  | none =>
    match addrClass a with
    | .tcm => off (tcmCell cid a) 1
    | .spad => off (spadCell pcl (a - spadBase)) 1
    | .dsram => off (dsramCell d (a - 0x1000000)) n
    | .copyTcm => off a 1
    | .copySpad => off a 1
    | .global =>
      match s.homeOf d tk a with
      | .die _ => false
      | .package p => match s.pkgEntry d p with | some e => rctGate e | none => true
    | _ => false
/-- The promise of a command issued now with these legs (R46); what a path with no plane up counts for the bytes is free (log entry 18). -/
def promiseOf (swc : Nat) (legs : List Leg) (bytes : Nat) (gated : Bool) : Nat :=
  let hu := legs.foldl (fun n l => n + l.hu) 0
  let hs := legs.foldl (fun n l => n + l.hs) 0
  let pb := legs.foldl (fun n l => min n l.pb) 128
  swc + 48 + 8 * hu + 220 * hs + (if pb = 0 then Config.noPlaneTime bytes else (bytes + pb - 1) / pb) + (if gated then 3200 else 0)

/-! ## Entries and handles (R280) -/

/-- The handle of an entry: pcluster, sequence number, entry. -/
def cpHandle (pcl order entry : Nat) : Dword :=
  0#7 ++ BitVec.ofNat 9 pcl ++ BitVec.ofNat 32 (order % (2 ^ 32 - 1) + 1) ++ 0#10 ++ BitVec.ofNat 6 entry
/-- The entry number of a handle. -/
def handleEntry (h : Dword) : Nat := (h.extractLsb' 0 6).toNat
/-- The entry that a handle still names in its own cluster, none where it is untracked. -/
def State.tracked (s : State) (pcl : Nat) (h : Dword) : Option CpEntry :=
  match kfind (s.cluster pcl).engine (handleEntry h) with
  | some e => if e.handle = h then some e else none
  | none => none
/-- An entry set. -/
def State.setEntry (s : State) (pcl i : Nat) (e : CpEntry) : State :=
  let c := s.cluster pcl
  s.setCluster pcl { c with engine := kset i e c.engine }
/-- An entry freed. -/
def State.freeEntry (s : State) (pcl i : Nat) : State :=
  let c := s.cluster pcl
  s.setCluster pcl { c with engine := kdel i c.engine }
/-- The lowest free entry number. -/
def Cluster.freeSlot (c : Cluster) : Option Nat := (List.range 64).find? fun i => (kfind c.engine i).isNone
/-- What a WAIT.PROMISE finds on a command (R154): it goes on waiting, traps, or returns. -/
inductive Promise
  | wait
  | stray
  | fault (status : Nat)
  | done
  | missed
  deriving DecidableEq, Repr
/-- R154 on an entry at a count. -/
def promiseCheck (e : CpEntry) (swc : Nat) : Promise :=
  let late := decide (e.promise < swc)
  if !e.complete && (e.missed || !late) then .wait
  else if e.stray && !e.told then .stray
  else if e.complete then if e.status ≠ 0 then .fault e.status else .done
  else .missed
/-- What a WAIT.PROMISE that is parked finds: where the count has passed the promise with the command not complete, its trap struck then,
before any later completion (R154). -/
def parkedPromise (e : CpEntry) (swc : Nat) : Promise :=
  if e.complete && !e.missed && decide (e.promise < e.completeAt) then .missed else promiseCheck e swc
/-- The parked WAIT.PROMISEs on a handle, acted on (R154, R94). -/
def State.wakePromise (s : State) (pcl : Nat) (h : Dword) : State :=
  s.waiting.foldl (fun s w =>
    if w.2 = .promise h && recPcl w.1 = pcl then
      match s.tracked pcl h with
      | none => (s.acquireLog (pcl / 24) 3).finishWait w.1 .none
      | some e =>
        match parkedPromise e (s.swcAt (pcl / 24)) with
        | .wait => s
        | .stray => (s.setEntry pcl (handleEntry h) { e with told := true }).failWait w.1 30 h 0
        | .fault st => (s.freeEntry pcl (handleEntry h)).failWait w.1 25 h st
        | .done => ((s.freeEntry pcl (handleEntry h)).acquireLog (pcl / 24) 3).finishWait w.1 .none
        | .missed => (s.setEntry pcl (handleEntry h) { e with missed := true }).failWait w.1 24 h 0
    else s) s
/-- The status of an exchange-phase copy is noted with its baton (R98). -/
def State.noteLapCopy (s : State) (rec handle status : Nat) : State :=
  let upd := fun (l : List LapCopy) => l.map fun c => if c.handle = handle then { c with status := some status } else c
  match s.findSlot rec with
  | some k => s.setSlotAt k { s.slotAt k with lapCopies := upd (s.slotAt k).lapCopies }
  | none => match s.findAway rec with
    | some a => s.setAway rec { a with lapCopies := upd a.lapCopies }
    | none => s
/-- A command completes with its status (R282): its baton's waits go on, and an entry whose handle was dropped is freed. -/
def State.completeEntry (s : State) (pcl i : Nat) (e : CpEntry) : State :=
  let e := { e with complete := true, completeAt := s.swcAt (pcl / 24), arriving := false }
  let s := if e.dropped then s.freeEntry pcl i else s.setEntry pcl i e
  (s.noteLapCopy e.baton e.handle.toNat e.status).wakePromise pcl e.handle

/-! ## Pieces (R283) -/

/-- How a run of bytes is cut: unit `i` covers 256 bytes (64 where the source is read by packets), and its parts end at 4 KiB boundaries of
source and destination. Part `j` of at most three, as offset and length. -/
def pieceCut (unit n src dst i j : Nat) : Nat × Nat :=
  let a := unit * i
  let b := min n (a + unit)
  let c1 := 4096 - (src + a) % 4096
  let c2 := 4096 - (dst + a) % 4096
  let lo := min (min c1 c2) (b - a)
  let hi := min (max c1 c2) (b - a)
  if j = 0 then (a, lo) else if j = 1 then (a + lo, hi - lo) else (a + hi, b - a - hi)
/-- What one piece of a command moves: its source (none for a fill), its destination, its length and its branch. -/
structure Move1 where
  src : Nat
  dst : Nat
  len : Nat
  branch : Nat
  /-- An element that is refused before it moves (R287). -/
  bad : Option Nat
  deriving DecidableEq, Repr

/-- The unit in which a command's bytes are cut. A READ_REPLY carries one data flit (R34), so a source that is reached by packets is read in
64-byte pieces (log entry 19). -/
def pieceUnit (e : CpEntry) : Nat :=
  if e.kind == .fill || e.kind == .put || e.kind == .mcast || e.kind == .atom then 256 else 64
/-- Bytes moved by each branch or by the command. -/
def cpBytes (e : CpEntry) : Nat :=
  match e.kind with
  | .gath | .scat => gathCount e.ctl * gathSize e.ctl
  | .feed => 4096 * feedPanels e.g0 e.ctl
  | _ => e.g2.toNat % 2 ^ 32
/-- Piece numbers of a command: three parts of each unit; of a multicast, whose pieces are read once and replicated (R45), two. -/
def cpUnits (kind : CpKind) (bytes unit count : Nat) : Nat :=
  match kind with
  | .gath | .scat => count * 12
  | .mcast => (bytes + 255) / 256 * 2
  | .feed => 0
  | _ => (bytes + unit - 1) / unit * 3
/-- The piece with a number (R283, R286, R287); of a multicast's piece `dst` is the offset in each branch's destination. -/
def moveOf (e : CpEntry) (n : Nat) : Move1 :=
  match e.kind with
  | .gath | .scat =>
    let size := gathSize e.ctl
    let j := n / 12
    match kfind e.reads j with
    | none => ⟨0, (e.g0.toNat + j * size) % 2 ^ 64, 0, 0, none⟩
    | some (st + 1, _) => ⟨0, (e.g0.toNat + j * size) % 2 ^ 64, if n % 12 = 0 then size else 0, 0, some (st + 1)⟩
    | some (0, l) =>
      let x := natLE l
      let src := if e.kind = .gath then (e.g1.toNat + x * size) % 2 ^ 64 else (e.g1.toNat + j * size) % 2 ^ 64
      let dst := if e.kind = .gath then (e.g0.toNat + j * size) % 2 ^ 64 else (e.g0.toNat + x * size) % 2 ^ 64
      let al := min size 8
      if src % al ≠ 0 ∨ dst % al ≠ 0 then ⟨src, dst, if n % 12 = 0 then size else 0, 0, some 1⟩
      else
        let c := pieceCut 64 size src dst (n % 12 / 3) (n % 3)
        ⟨src + c.1, dst + c.1, c.2, 0, none⟩
  | .mcast =>
    let a := 256 * (n / 2)
    let k := min (cpBytes e) (a + 256) - a
    let lo := min (4096 - (e.g1.toNat + a) % 4096) k
    if n % 2 = 0 then ⟨(e.g1.toNat + a) % 2 ^ 64, a, lo, 0, none⟩ else ⟨(e.g1.toNat + a + lo) % 2 ^ 64, a + lo, k - lo, 0, none⟩
  | .fill =>
    let c := pieceCut 256 (cpBytes e) e.g0.toNat e.g0.toNat (n / 3) (n % 3)
    ⟨0, (e.g0.toNat + c.1) % 2 ^ 64, c.2, 0, none⟩
  | _ =>
    let c := pieceCut (pieceUnit e) (cpBytes e) e.g1.toNat e.g0.toNat (n / 3) (n % 3)
    ⟨(e.g1.toNat + c.1) % 2 ^ 64, (e.g0.toNat + c.1) % 2 ^ 64, c.2, 0, none⟩

/-- The rank of a command's destination, and of its source (R281, R286). -/
def dstRankOf (e : CpEntry) (branch : Nat) : Option Nat :=
  if e.kind = .mcast then
    match e.branches[branch]? with
    | some b => if b.ctl.getLsbD 51 then some (ctlRank b.ctl) else none
    | none => none
  else if ctlDrank e.ctl then some (ctlRank e.ctl) else none
/-- See `dstRankOf`. -/
def srcRankOf (e : CpEntry) : Option Nat := if ctlSrank e.ctl then some (ctlRank e.ctl) else none

/-- A piece has been performed: its bytes count. -/
def CpEntry.performed (e : CpEntry) (p : Piece) : CpEntry :=
  { e with flight := e.flight.filter (fun q => q.idx != p.idx), moved := e.moved + p.len }
/-- A piece has failed: the command's status is that of the failing piece with the lowest destination address (R283), a branch's its own
(R286). -/
def CpEntry.pieceFailed (e : CpEntry) (p : Piece) (status : Nat) : CpEntry :=
  let e := { e with flight := e.flight.filter fun q => q.idx != p.idx }
  if e.kind = .mcast then
    match e.branches[p.branch]? with
    | some b =>
      if b.status.isNone || decide (p.dst < b.failAddr) then
        { e with branches := e.branches.set p.branch { b with status := some status, failAddr := p.dst } }
      else e
    | none => e
  else if !e.failed || decide (p.dst < e.failAddr) then { e with failed := true, status := status, failAddr := p.dst }
  else e
/-- The packets of a multicast's piece: one branch's copy of its data, cut where the branch's destination crosses 4 KiB (R45, R283). -/
def CpEntry.replicas (e : CpEntry) (p : Piece) (data : List Byte) : List Piece :=
  (List.range e.branches.length).flatMap fun j =>
    match e.branches[j]? with
    | none => []
    | some b =>
      if b.status.isSome then []
      else
        let dst := (b.dst.toNat + p.dst) % 2 ^ 64
        let k := min (4096 - dst % 4096) data.length
        let one := fun (h at' : Nat) (l : List Byte) =>
          if l = [] then []
          else [({ idx := e.units + (p.idx * 64 + j) * 2 + h, dst := at' % 2 ^ 64, len := l.length, branch := j, data := some l, tag := 0,
                   writing := false } : Piece)]
        one 0 dst (data.take k) ++ one 1 (dst + k) (data.drop k)
/-- A multicast's piece that cannot be read fails in every branch. -/
def CpEntry.unread (e : CpEntry) (p : Piece) (status : Nat) : CpEntry :=
  (List.range e.branches.length).foldl (fun e j =>
    match e.branches[j]? with
    | some b => e.pieceFailed { p with branch := j, dst := b.dst.toNat + p.dst } status
    | none => e) e
/-- The engine's own check of a range that it reaches itself (R59, R284): class 2 at the target that holds it. -/
def State.engineAdmits (s : State) (pcl : Nat) (tk : BitVec 16) (target : Nat) (op : MemOp) : Bool :=
  s.ataperAdmits (pcl / 24) target tk 2 op
/-- A request of the engine for a piece. -/
def State.pieceRequest (s : State) (pcl i : Nat) (e : CpEntry) (p : Piece) (ty : PType) (ep pkg va n : Nat) (data : List Byte)
    (rank : Option Nat) (op : Nat) : State :=
  let (t, s) := s.newTag (.piece pcl (handleEntry e.handle) p.idx)
  let e := { e with flight := (e.flight.filter fun q => q.idx != p.idx) ++ [{ p with tag := t, writing := ty != .read, data := if ty = .read then none else some data }] }
  (s.setEntry pcl i e).send
    { Pkt.blank with ty := ty, va := va, track := e.track, src := engineEp pcl, dst := ep, dstPkg := pkg,
                     srcRank := s.srcRank pcl, dstRank := rank.getD 0, ranked := rank.isSome, tag := t, sub := op,
                     elems := [(va, n)], data := data, master := 2 }
/-- A piece waits for the banks that it reaches (R156). -/
def State.stallPiece (s : State) (pcl i : Nat) (e : CpEntry) (idx : Nat) (cells : List Nat) : State :=
  s.stallKey (pieceKey pcl i idx) (BitVec.ofNat 64 e.order) cells
/-- The write leg of a piece whose data has been read. -/
def State.writePiece (s : State) (pcl i : Nat) (e : CpEntry) (p : Piece) (data : List Byte) : State :=
  let op : MemOp := if e.kind = .atom then .amo else .write
  let rank := dstRankOf e p.branch
  match s.sideOf pcl e.cid e.track p.dst p.len true rank with
  | .fail st => s.setEntry pcl i (e.pieceFailed p st)
  | .held => s.setEntry pcl i { e with flight := (e.flight.filter fun q => q.idx != p.idx) ++ [{ p with data := some data, tag := 0 }] }
  | .away ep pkg va =>
    let ty : PType := if e.kind = .atom then .atomBatch else if e.kind = .mcast then .mcastData else .copyData
    s.pieceRequest pcl i e p ty ep pkg va p.len data rank (if e.kind = .atom then ctlSpec e.ctl % 4 else e.kind.code)
  | .cells rs target =>
    if !s.engineAdmits pcl e.track target op then s.setEntry pcl i (e.pieceFailed p 1)
    else if !s.granted (pieceKey pcl i p.idx) (rs.map Prod.fst) then
      (s.stallPiece pcl i e p.idx (rs.map Prod.fst)).setEntry pcl i
        { e with flight := (e.flight.filter fun q => q.idx != p.idx) ++ [{ p with data := some data, tag := 0 }] }
    else
      let s := s.unstallAt (pcl / 24) (pieceKey pcl i p.idx)
      if e.kind = .atom then
      match rs with
      | [(c, _)] =>
        let r := s.atomBatch (ctlSpec e.ctl % 4 == 1) c data
        match r.1 with
        | some j => r.2.setEntry pcl i (e.pieceFailed { p with dst := p.dst + j * 16 } 1)
        | none => r.2.setEntry pcl i (e.performed p)
      | _ => s.setEntry pcl i (e.pieceFailed p 1)
    else (s.writeRanges none rs data).setEntry pcl i (e.performed p)
/-- What reading source bytes gives: bytes, a failure, or a wait with nothing read. -/
inductive SrcRead
  | ok (l : List Byte)
  | fail (status : Nat)
  /-- A translation that the home must first find or serve (R61), or bytes that it does not have at hand: the engine asks by a READ packet. -/
  | miss (ep pkg va : Nat)
  | wait (cells : List Nat)
  deriving DecidableEq, Repr
/-- The engine's read of cells that it reaches itself: class 2 at their target, powered banks, no poison (R59, R156). -/
def State.readCells (s : State) (pcl : Nat) (tk : BitVec 16) (key : Nat) (rs : Ranges) (target : Nat) : SrcRead :=
  if !s.engineAdmits pcl tk target .read then .fail 1
  else if !s.granted key (rs.map Prod.fst) then .wait (rs.map Prod.fst)
  else if s.poisonedRanges rs then .fail 4
  else .ok (s.readRanges rs)
/-- The engine's read of a list in local memory (R286, R287). -/
def State.listRead (s : State) (pcl cid : Nat) (tk : BitVec 16) (key a n : Nat) : SrcRead :=
  match s.sideOf pcl cid tk a n false none with
  | .cells rs target => s.readCells pcl tk key rs target
  | .fail st => .fail st
  | _ => .fail 1
/-- CP.FILL's bytes: byte (a − DST) mod 8 of the pattern at address a (R284). -/
def fillBytes (pat : Dword) (off n : Nat) : List Byte :=
  (List.range n).map fun k => pat.extractLsb' (8 * ((off + k) % 8)) 8
/-- The read leg of a piece. -/
def State.readPiece (s : State) (pcl i : Nat) (e : CpEntry) (p : Piece) (src : Nat) : State :=
  if e.kind = .fill then s.writePiece pcl i e p (fillBytes e.g1 ((p.dst + 2 ^ 64 - e.g0.toNat) % 2 ^ 64) p.len)
  else
    let fail := fun (st : Nat) => s.setEntry pcl i (if e.kind = .mcast then e.unread p st else e.pieceFailed p st)
    match s.sideOf pcl e.cid e.track src p.len false (srcRankOf e) with
    | .fail st => fail st
    | .held => s.setEntry pcl i { e with begun := e.begun.filter (· != p.idx), flight := e.flight.filter fun q => q.idx != p.idx }
    | .away ep pkg va => s.pieceRequest pcl i e p .read ep pkg va p.len [] (srcRankOf e) 0
    | .cells rs target =>
      match s.readCells pcl e.track (pieceKey pcl i p.idx) rs target with
      | .wait cells =>
        (s.stallPiece pcl i e p.idx cells).setEntry pcl i
          { e with begun := e.begun.filter (· != p.idx), flight := e.flight.filter fun q => q.idx != p.idx }
      | .ok l =>
        let s := s.unstallAt (pcl / 24) (pieceKey pcl i p.idx)
        if e.kind = .mcast then s.setEntry pcl i { e with flight := (e.flight.filter fun q => q.idx != p.idx) ++ e.replicas p l }
        else s.writePiece pcl i e p l
      | .fail st => fail st
      | .miss .. => s
/-- May a piece begin: not begun yet; a rank on either side is not IN_TRANSIT (R281); scatter elements in ascending order (R287); a branch's
GEN has been read and the branch has not failed. -/
def State.mayBegin (s : State) (pcl : Nat) (e : CpEntry) (n : Nat) : Bool :=
  let d := pcl / 24
  let clear := fun (r : Option Nat) => match r with | some r => rctState (s.rct d r) != 2 | none => true
  decide (n < e.units) && !e.begun.contains n && !e.complete && !e.cancelled && !e.arriving && !e.gathering &&
    clear (srcRankOf e) &&
    (e.kind == .mcast || clear (dstRankOf e 0)) &&
    (e.kind != .scat || (e.flight == [] && (List.range n).all e.begun.contains))
/-- The element of a gather or scatter whose index is still to be read before a piece begins (R287). -/
def needsIndex (e : CpEntry) (n : Nat) : Option Nat :=
  if (e.kind = .gath ∨ e.kind = .scat) ∧ (kfind e.reads (n / 12)).isNone then some (n / 12) else none
/-- Reading an entry of the index list, once for each element. -/
def State.readIndex (s : State) (pcl i : Nat) (e : CpEntry) (n j : Nat) : State :=
  let key := pieceKey pcl i n
  let put := fun (s : State) (r : Nat × List Byte) => s.setEntry pcl i { e with reads := kset j r e.reads }
  match s.listRead pcl e.cid e.track key (e.g2.toNat + 4 * j) 4 with
  | .ok l => put (s.unstallAt (pcl / 24) key) (0, l)
  | .fail st => put s (st, [])
  | .wait cells => s.stallPiece pcl i e n cells
  | .miss .. => s
/-- Has the branch of a multicast's packet failed. -/
def branchFailed (e : CpEntry) (p : Piece) : Bool :=
  e.kind == .mcast && (match e.branches[p.branch]? with | some b => b.status.isSome | none => false)
/-- One move of a command entry: a piece that has its data goes on with its write leg, a piece not begun begins. A branch that has failed receives
nothing more (R45). -/
def State.pieceStep (s : State) (pcl i n : Nat) : State :=
  match kfind (s.cluster pcl).engine i with
  | none => s
  | some e =>
    match e.flight.find? (fun p => p.idx == n && p.tag == 0) with
    | some p =>
      if branchFailed e p then s.setEntry pcl i { e with flight := e.flight.filter fun q => q.idx != p.idx }
      else match p.data with | some data => s.writePiece pcl i e p data | none => s
    | none =>
      if !s.mayBegin pcl e n then s
      else
        match needsIndex e n with
        | some j => s.readIndex pcl i e n j
        | none =>
          let m := moveOf e n
          let e := { e with begun := n :: e.begun }
          let p : Piece := { idx := n, dst := m.dst, len := m.len, branch := m.branch, data := none, tag := 0, writing := false }
          if m.len == 0 then s.setEntry pcl i e
          else
            match m.bad with
            | some st => s.setEntry pcl i (e.pieceFailed p st)
            | none => s.readPiece pcl i { e with flight := e.flight ++ [p] } p m.src
/-- The answer to a piece's request: data of a read goes on to the write leg, an acknowledged write has been performed; of a feed the element's
bytes, or its failure, are kept for its panel. -/
def State.pieceAnswer (s : State) (pcl i n tag : Nat) (data : List Byte) (fault : Option Nat) (va : Nat) : State :=
  match kfind (s.cluster pcl).engine i with
  | none => s
  | some e =>
    match e.flight.find? (fun p => p.idx == n && p.tag == tag) with
    | none => s
    | some p =>
      if e.kind = .feed then
        s.setEntry pcl i { e with flight := [], reads := kset p.dst (fault.getD 0, data) e.reads }
      else
      match fault with
      | some st => s.setEntry pcl i (e.pieceFailed (if e.kind = .atom && p.writing then { p with dst := va } else p) st)
      | none => if p.writing then s.setEntry pcl i (e.performed p) else s.writePiece pcl i e p data
/-- A piece whose packet reached a cluster that no longer holds its rank is sent again with its data, or read again (R44). -/
def State.pieceMoved (s : State) (pcl i n : Nat) : State :=
  match kfind (s.cluster pcl).engine i with
  | none => s
  | some e =>
    if e.flight.any fun q => q.idx == n && q.writing then
      s.setEntry pcl i { e with flight := e.flight.map fun q => if q.idx = n then { q with tag := 0, writing := false } else q }
    else s.setEntry pcl i { e with begun := e.begun.filter (· != n), flight := e.flight.filter fun q => q.idx != n }

/-! ## Feeds (R285) -/

/-- A stream port of a core: sta for false, stb for true. -/
def Core.port (c : Core) (b : Bool) : Port := if b then c.stb else c.sta
/-- The core with a port set. A port that holds a panel ends the stall of an MM.TILE on it (R271). -/
def Core.setPort (c : Core) (b : Bool) (p : Port) : Core :=
  let dq := if p.panels = [] then c.dq else c.dq.map fun e => if e.stalled = some b then { e with stalled := none } else e
  if b then { c with stb := p, dq := dq } else { c with sta := p, dq := dq }
/-- A panel that reaches a port lowers its expected count (R269, R276). -/
def Port.push (p : Port) (panel : BitVec 32768) : Port :=
  { p with panels := p.panels ++ [panel], exp := if p.exp = 0 then 0 else p.exp - 1 }
/-- The core and port that a feed delivers into. -/
def feedTarget (pcl : Nat) (e : CpEntry) : Nat × Bool := (coreOf pcl (e.g0.extractLsb' 0 4).toNat, e.g0.getLsbD 4)
/-- The address of an element of a feed's source, and how many bytes it reads (R285). -/
def feedAddr (e : CpEntry) (r k : Nat) : Nat :=
  let fmt := feedFmt e.ctl
  let esize : Int := if fmt = 0 then 2 else 1
  let src : Int := e.g1.toNat
  let pitch : Int := e.g2.toInt
  let a : Int :=
    if fmt = 2 then src + r * pitch + (k / 2 : Nat)
    else if feedTrans e.ctl then src + k * pitch + r * esize
    else src + r * pitch + k * esize
  (a % 2 ^ 64).toNat
/-- Reading bytes for a feed: what a READ packet has brought, what the engine reaches itself, and mapped global bytes at their home. -/
def State.feedRead (s : State) (pcl i : Nat) (e : CpEntry) (a n : Nat) : SrcRead :=
  match kfind e.reads a with
  | some (0, l) => .ok l
  | some (st, _) => .fail st
  | none =>
    match s.sideOf pcl e.cid e.track a n false (srcRankOf e) with
    | .fail st => .fail st
    | .held => .wait []
    | .cells rs target => s.readCells pcl e.track (pieceKey pcl i 0) rs target
    | .away ep pkg va =>
      if pkg ≠ 0 then .miss ep pkg va
      else if !s.dieUp (epDie ep) || !s.linkUp (pcl / 24) (epDie ep) then .fail 5
      else
        let q := { Pkt.blank with ty := .read, va := va, track := e.track, master := 2, elems := [(va, n)] }
        match s.homeCheck (epDie ep) q false with
        | .ok rs => if !s.banksReady (rs.map Prod.fst) then .miss ep pkg va else if s.poisonedRanges rs then .fail 4 else .ok (s.readRanges rs)
        | .refuse st => .fail st
        | _ => .miss ep pkg va
/-- The source elements of one panel, by row and position: (row, K position in the panel, address). -/
def feedElems (e : CpEntry) (q : Nat) : List (Nat × Nat × Nat) :=
  let kpp := feedKpp (feedFmt e.ctl)
  let kl := feedKlen e.g0
  (List.range (feedRows e.ctl)).flatMap fun r =>
    (List.range kpp).filterMap fun c => if q * kpp + c < kl then some (r, c, feedAddr e r (q * kpp + c)) else none
/-- One element's bits in its panel: BF16 elements of 16 bits, AQ8 of 8, AQ4 nibbles, row r at 64 × r bytes (R163, R167). -/
def panelPut (fmt : Nat) (panel : BitVec 32768) (r c v : Nat) : BitVec 32768 :=
  let w := if fmt = 0 then 16 else if fmt = 1 then 8 else 4
  panel ||| BitVec.ofNat 32768 (v % 2 ^ w * 2 ^ (512 * r + w * c))
/-- What assembling a panel comes to. -/
inductive Panel
  | ok (p : BitVec 32768)
  | fail (status va : Nat)
  | miss (ep pkg va n src : Nat)
  | wait (cells : List Nat)
  deriving DecidableEq, Repr
/-- Assembling panel `q` of a feed (R285): it fails with the status of the failing read with the lowest source address. -/
def State.assemble (s : State) (pcl i : Nat) (e : CpEntry) (q : Nat) : Panel :=
  let fmt := feedFmt e.ctl
  let n := if fmt = 0 then 2 else 1
  (feedElems e q).foldl (fun acc x =>
    match acc with
    | .miss .. => acc
    | .wait .. => acc
    | .fail st va =>
      (match s.feedRead pcl i e x.2.2 n with
       | .fail st' => if x.2.2 < va then .fail st' x.2.2 else .fail st va
       | .miss ep pkg a => .miss ep pkg a n x.2.2
       | _ => .fail st va)
    | .ok p =>
      match s.feedRead pcl i e x.2.2 n with
      | .ok l =>
        let v := natLE l
        let v := if fmt = 2 then v / 2 ^ (4 * (x.2.1 % 2)) else v
        .ok (panelPut fmt p x.1 x.2.1 v)
      | .fail st => .fail st x.2.2
      | .miss ep pkg a => .miss ep pkg a n x.2.2
      | .wait cs => .wait cs) (.ok 0)
/-- Feeds into a port of a core, in issue order. -/
def State.feedsTo (s : State) (pcl cid : Nat) (b : Bool) : List (Nat × CpEntry) :=
  sortBy (fun x => x.2.order) ((s.cluster pcl).engine.filter fun p => p.2.kind == .feed && !p.2.complete && feedTarget pcl p.2 == (cid, b))
/-- Panels that a feed has delivered. -/
def feedDelivered (e : CpEntry) : Nat := e.moved / 4096
/-- Has a feed no panel left to deliver. -/
def feedOver (e : CpEntry) : Bool := e.failed || decide (feedPanels e.g0 e.ctl ≤ feedDelivered e)
/-- The next panel of the oldest feed into a port goes in, where the port has room (R152, R285). -/
def State.feedPanel (s : State) (cid : Nat) (b : Bool) : State :=
  let pcl := cidPcl cid
  match (s.feedsTo pcl cid b).head? with
  | none => s
  | some (i, e) =>
    if feedOver e || e.cancelled || e.arriving || e.gathering || e.flight != [] || decide (8 ≤ ((s.core cid).port b).panels.length) then s
    else
      match s.assemble pcl i e (feedDelivered e) with
      | .ok panel =>
        let c := s.core cid
        ((s.setCore cid (c.setPort b ((c.port b).push panel))).setEntry pcl i { e with moved := e.moved + 4096, reads := [] }).unstallAt
          (pcl / 24) (pieceKey pcl i 0)
      | .fail st va => s.setEntry pcl i { e with failed := true, status := st, failAddr := va }
      | .wait cells => s.stallPiece pcl i e 0 cells
      | .miss ep pkg va n src =>
        let p : Piece := { idx := 0, dst := src, len := 0, branch := 0, data := none, tag := 0, writing := false }
        s.pieceRequest pcl i e p .read ep pkg va n [] (srcRankOf e) 0

/-! ## Completion (R282, R286) -/

/-- The failed-branch bitmap (R45). -/
def branchBits (e : CpEntry) : Dword :=
  BitVec.ofNat 64 ((List.range e.branches.length).foldl (fun n i =>
    match e.branches[i]? with
    | some b => if b.status.isSome then n + 2 ^ i else n
    | none => n) 0)
/-- The status of a multicast from its branches (R45). -/
def mcastStatus (bs : List Branch) : Nat :=
  let bad := bs.filterMap Branch.status
  if bad = [] then 0 else if bad.length < bs.length then 7 else bad.headD 0
/-- Every piece has been performed, has failed or has been abandoned. -/
def piecesEnded (e : CpEntry) : Bool :=
  e.flight == [] && !e.gathering && (e.cancelled || (if e.kind == .feed then feedOver e else decide (e.units ≤ e.begun.length)))
/-- The engine's arrival on a hurdle of its own cluster (R101, R282, R355): a refusal gives REFUSED_ACCESS, a stray one is told; a gated bank
holds it up. -/
def State.arriveLocal (s : State) (pcl i : Nat) (e : CpEntry) (h : Nat) (g : BitVec 32) (m status : Nat)
    (done : State → Bool → Option Nat → State) : State :=
  let key := pieceKey pcl i (2 ^ 40)
  if !s.hurdleAdmits h e.track 2 .amo then done s false (some 1)
  else if !s.granted key [h] then s.stallKey key (BitVec.ofNat 64 e.order) [h]
  else
    let r := s.engineArrive h g m (statusBits [status]) 0
    done (r.1.unstallAt (pcl / 24) key) r.2 none
/-- The engine's arrival (R282) for a command or a branch with hurdle `h`: by rank, as the source NI's entry stands now (R43); on its own cluster's
hurdle at once; else by a COPY_DONE behind the data in VC 2, after which the destination's NI makes the arrival (R34). -/
def State.arriveBy (s : State) (pcl i : Nat) (e : CpEntry) (rank : Option Nat) (h pkg : Nat) (near : Bool) (g : BitVec 32) (m status : Nat)
    (o : Owner) (done : State → Bool → Option Nat → State) : State :=
  let p := { Pkt.blank with ty := .copyDone, va := h, track := e.track, src := engineEp pcl, dst := niEp (hurdlePcl h / 24), dstPkg := pkg,
                            srcRank := s.srcRank pcl, a := BitVec.ofNat 64 m, c := g ++ statusBits [status], master := 2 }
  let send := fun (go : State → Pkt → State) (p : Pkt) =>
    let (t, s) := s.newTag o
    go (s.setEntry pcl i { e with arriving := true }) { p with tag := t }
  match rank with
  | some r =>
    let x := s.rct (pcl / 24) r
    if rctState x = 1 ∧ !s.foreign (rctPkg x) ∧ rctPcl x = pcl then s.arriveLocal pcl i e (spadCell pcl (h % 2 ^ 22)) g m status done
    else if s.rankFull (pcl / 24) r then s
    else send State.sendRanked { p with dstRank := r, ranked := true }
  | none => if near then s.arriveLocal pcl i e h g m status done else send State.send p
/-- The hurdle of a multicast branch, as a cell of the issuing cluster: at the same offset of the receiving one where DST is ranked (R282, R286);
none for HOFF 0. -/
def branchHurdle (pcl : Nat) (b : Branch) : Option Nat :=
  let off := (b.ctl.extractLsb' 5 18).toNat * 32
  if off = 0 then none else some (spadCell pcl (off - spadBase))
/-- The next branch of a multicast whose arrival is still to be made: one that has not failed. -/
def nextArrival (e : CpEntry) : Option (Nat × Branch) :=
  (List.range e.branches.length).findSome? fun j =>
    match e.branches[j]? with
    | some b => if b.status.isNone && !b.arrived then some (j, b) else none
    | none => none
/-- All pieces of a command have ended: the arrival is made, and the command completes with it, or once it is answered (R282). A failed branch of a
multicast makes none (R45). -/
def State.copyComplete (s : State) (pcl i : Nat) : State :=
  match kfind (s.cluster pcl).engine i with
  | none => s
  | some e =>
    if e.complete || e.arriving || !piecesEnded e then s
    else
      let st := if e.cancelled then 6 else if e.failed then e.status else if e.kind = .mcast then mcastStatus e.branches else e.status
      let e := { e with status := st }
      if e.kind = .mcast then
        match nextArrival e with
        | none => s.completeEntry pcl i e
        | some (j, b) =>
          let e' := { e with branches := e.branches.set j { b with arrived := true } }
          match branchHurdle pcl b with
          | none => s.setEntry pcl i e'
          | some h =>
            s.arriveBy pcl i e' (dstRankOf e j) h 0 true (b.gen.getD 0) (ctlArrm b.ctl) (if e.cancelled then 6 else 0)
              (.branch pcl (handleEntry e.handle) j) fun s stray fault =>
                match kfind (s.cluster pcl).engine i with
                | none => s
                | some x => s.setEntry pcl i { x with stray := x.stray || stray, branches := e.branches.set j { b with arrived := true, status := fault } }
      else
        match e.hurdle with
        | none => s.completeEntry pcl i e
        | some h =>
          s.arriveBy pcl i e (dstRankOf e 0) h e.hurdlePkg (!e.remote) e.gen (ctlArrm e.ctl) st (.copyArrive pcl (handleEntry e.handle))
            fun s stray fault =>
              match kfind (s.cluster pcl).engine i with
              | none => s
              | some x => s.completeEntry pcl i { x with status := if st = 0 then fault.getD 0 else st, stray := stray }
/-- The answer to a command's arrival (R282, R355). -/
def State.arriveAnswer (s : State) (pcl i : Nat) (stray : Bool) (fault : Option Nat) : State :=
  match kfind (s.cluster pcl).engine i with
  | none => s
  | some e =>
    if !e.arriving then s
    else
      let st := match fault with | some f => if e.status = 0 then f else e.status | none => e.status
      s.completeEntry pcl i { e with status := st, stray := e.stray || stray }
/-- The answer to a branch's arrival or to the READ of its hurdle's GEN. -/
def State.branchAnswer (s : State) (pcl i j : Nat) (stray : Bool) (fault : Option Nat) : State :=
  match kfind (s.cluster pcl).engine i with
  | none => s
  | some e =>
    match e.branches[j]? with
    | none => s
    | some b =>
      let b' := match fault with | some f => { b with status := some f } | none => b
      s.setEntry pcl i { e with arriving := false, stray := e.stray || stray, branches := e.branches.set j b' }
/-- A COPY_DONE applied at its destination: the NI then makes the hurdle arrival, an ARRIVE on its own die (R34, R282). -/
def State.copyDonePkt (s : State) (d : Nat) (p : Pkt) : State := s.accept d d { p with ty := .arrive }
/-- An entry whose completed command nobody claims is freed 65,536 cycles after completion (R280). -/
def State.lapseEntry (s : State) (pcl i : Nat) : State :=
  match kfind (s.cluster pcl).engine i with
  | some e => if e.complete && decide (e.completeAt + 65536 ≤ s.swcAt (pcl / 24)) then s.freeEntry pcl i else s
  | none => s

end Sys2Proof.Machine
end

