-- ==== Sys2Proof/Machine/Matrix.lean ====
section
/-!
DEFINITION. The dispatch queues and the Pacer (R104, R105), and what the matrix and stream entries of a queue do (R161 to R169, R266
to R278).
-/
namespace Sys2Proof.Machine

/-! ## Words of matrix and stream instructions (R266) -/

/-- An XM instruction word from its fields. -/
def xmWord (f4 acc pm opt rs1 f3 rd : Nat) : Word32 :=
  BitVec.ofNat 32 (f4 * 2 ^ 28 + acc * 2 ^ 26 + pm * 2 ^ 24 + opt * 2 ^ 20 + rs1 * 2 ^ 15 + f3 * 2 ^ 12 + rd * 2 ^ 7 + 0x5B)
/-- The queue-entry instructions of custom-2. -/
inductive MatOp | tile | zero | wait | drain | load | mset | tostrm | bind | fill | skip | other
  deriving DecidableEq, Repr
/-- funct3 of a word. -/
def wordF3 (w : Word32) : Nat := (w.extractLsb' 12 3).toNat
/-- funct4 of an XM word. -/
def wordF4 (w : Word32) : Nat := (w.extractLsb' 28 4).toNat
/-- The accumulator field. -/
def wordAcc (w : Word32) : Nat := (w.extractLsb' 26 2).toNat
/-- The pair field. -/
def wordPm (w : Word32) : Nat := (w.extractLsb' 24 2).toNat
/-- The option field. -/
def wordOpt (w : Word32) : Nat := (w.extractLsb' 20 4).toNat
/-- The rd field. -/
def wordRd (w : Word32) : Nat := (w.extractLsb' 7 5).toNat
/-- The operation that funct3 and funct4 name. -/
def matName (w : Word32) : MatOp :=
  match wordF3 w, wordF4 w with
  | 0, 0 => .tile
  | 0, 1 => .zero
  | 0, 2 => .wait
  | 1, 0 => .drain
  | 1, 1 => .load
  | 1, 2 => .mset
  | 1, 3 => .tostrm
  | 2, 0 => .bind
  | 2, 1 => .fill
  | 2, 2 => .skip
  | _, _ => .other
/-- A word that enters the dispatch queue as a matrix or stream entry (R266), with its reserved fields as its row has them. -/
def matEnters (w : Word32) : Bool :=
  let zero := fun (lo n : Nat) => w.toNat / 2 ^ lo % 2 ^ n == 0
  w.extractLsb' 0 7 == 0x5B#7 &&
  match matName w with
  | .tile => zero 15 5 && zero 7 5 && zero 21 3
  | .zero => zero 15 5 && zero 7 5 && zero 20 4
  | .drain => decide (wordOpt w % 8 < 6)
  | .load => decide (wordOpt w < 6)
  | .mset => zero 26 2 && decide (wordOpt w < 2)
  | .tostrm => zero 15 5 && zero 7 5 && zero 22 2
  | .bind => zero 24 4 && zero 21 3 && zero 7 5
  | .fill => zero 24 4 && zero 7 5
  | .skip => zero 24 4 && zero 21 3
  | _ => false
/-- What an entry's word does; a replayed word that is none of these instructions does nothing but trap (R111). -/
def matOp (w : Word32) : MatOp := if matEnters w then matName w else .other
/-- Does an operation bind the matrix array: MM.TILE, MM.ZERO, MM.DRAIN, MM.LOAD, MM.TOSTRM. -/
def MatOp.array : MatOp → Bool
  | .tile | .zero | .drain | .load | .tostrm => true
  | _ => false
/-- The operation of an entry, none for a vector entry. -/
def DqEntry.op (e : DqEntry) : Option MatOp :=
  match e.kind with
  | .vector .. => none
  | .matrix w _ _ _ => some (matOp w)
/-- Is the entry a matrix or stream entry. -/
def DqEntry.isMatrix (e : DqEntry) : Bool := e.op.isSome
/-- A fresh entry. -/
def DqEntry.new (slot : Nat) (k : DqKind) : DqEntry :=
  { slot := slot, kind := k, bound := false, doneAt := 0, started := false, stalled := none, trapped := false }
/-- The matrix CSRs of a slot, as an entry takes them. -/
def Slot.matCsr (t : Slot) : MatCsr :=
  { mfmt := t.csr.mfmt, msca := t.csr.msca, mscb := t.csr.mscb, mklen := t.csr.mklen, mgrp := t.csr.mgrp }
/-- Entries of a queue that have not bound, of which it holds 8 at most (R104). -/
def Core.queued (c : Core) : Nat := (c.dq.filter fun e => !e.bound).length
/-- The core with an entry at the tail of its queue. -/
def Core.enter (c : Core) (e : DqEntry) : Core := { c with dq := c.dq ++ [e], lastEntered := some e.slot }
/-- The core with entry `i` replaced. -/
def Core.setDq (c : Core) (i : Nat) (e : DqEntry) : Core := { c with dq := c.dq.set i e }
/-- The core without entry `i`. -/
def Core.dropDq (c : Core) (i : Nat) : Core := { c with dq := c.dq.eraseIdx i }
/-- The matrix and stream entries of a slot that have not completed (R266, R273); `skipStalled` leaves out one that stalls on a port. -/
def Core.matrixPending (c : Core) (slot : Nat) (skipStalled : Bool) : Bool :=
  c.dq.any fun e => e.slot == slot && e.isMatrix && !(skipStalled && e.stalled.isSome)
/-- The port on which an entry of a slot stalls. -/
def Core.stalledPort (c : Core) (slot : Nat) : Option Bool := (c.dq.find? fun e => e.slot == slot && e.stalled.isSome).bind DqEntry.stalled
/-- An MM.DRAIN or MM.LOAD of a slot has not performed (R266). -/
def Core.drainPending (c : Core) (slot : Nat) : Bool :=
  c.dq.any fun e => e.slot == slot && (e.op == some .drain || e.op == some .load)

/-! ## Accumulators and masks (R153) -/

/-- The 4,096 elements of a tile, row by row. -/
def tileElems (a : BitVec 131072) : List Nat := (List.range 4096).map fun i => (a.extractLsb' (32 * i) 32).toNat
/-- A tile from its elements. -/
def tileOf (l : List Nat) : BitVec 131072 := BitVec.ofNat 131072 (packNat 32 l)
/-- A tile of a core. -/
def Core.tileAt (c : Core) (a : Nat) : BitVec 131072 := vcGet c.acc a
/-- The core with a tile set. -/
def Core.setTile (c : Core) (a : Nat) (t : BitVec 131072) : Core := { c with acc := vcSet c.acc a t }
/-- Is element (i, j) active under a pair (R153). -/
def Core.active (c : Core) (pm i j : Nat) : Bool := (vcGet c.pmRow pm).getLsbD i && (vcGet c.pmCol pm).getLsbD j
/-- A tile with every active element replaced by a function of its row, column and value. -/
def Core.mapTile (c : Core) (a pm : Nat) (f : Nat → Nat → Nat → Nat) : Core :=
  let l := tileElems (c.tileAt a)
  c.setTile a (tileOf (l.mapIdx fun n v => if c.active pm (n / 64) (n % 64) then f (n / 64) (n % 64) v else v))
/-- The FMT field (R267). -/
def matFmt (m : MatCsr) : Nat := (m.mfmt.extractLsb' 0 3).toNat
/-- Integer-only mode: accumulators hold INT32. -/
def matInt (m : MatCsr) : Bool := decide (3 ≤ matFmt m)
/-- Do the operands have scale records (R163, R164): not in BF16 mode, nor in integer-only mode. -/
def matScaled (m : MatCsr) : Bool := matFmt m != 0 && !matInt m
/-- The SIGNED field (R267). -/
def matSigned (m : MatCsr) : Bool := m.mfmt.getLsbD 3
/-- K positions per panel (R270). -/
def matKpp (m : MatCsr) : Nat := if matFmt m = 0 then 32 else if matFmt m = 1 ∨ matFmt m = 3 then 64 else 128
/-- The K length (R268). -/
def matK (m : MatCsr) : Nat := (m.mklen.extractLsb' 0 17).toNat
/-- The panels of a tile (R270). -/
def matPanels (m : MatCsr) : Nat := (matK m + matKpp m - 1) / matKpp m
/-- The group size (R164). -/
def matGrp (m : MatCsr) : Nat := max 32 m.mgrp.toNat

/-! ## One panel step (R167 to R169) -/

/-- Element `c` of row `r` of a panel of elements of `w` bits (R163, R167). -/
def panelElem (w : Nat) (p : BitVec 32768) (r c : Nat) : Nat := (p.extractLsb' (512 * r + w * c) w).toNat
/-- The first `n` elements of every row of a panel. -/
def panelRows (w : Nat) (p : BitVec 32768) (n : Nat) : List (List Nat) :=
  (List.range 64).map fun r => (List.range n).map fun c => panelElem w p r c
/-- The pieces of groups in one panel: group, first position and end, relative to the panel (R168). -/
def panelPieces (grp k0 n : Nat) : List (Nat × Nat × Nat) :=
  if n = 0 then []
  else (List.range ((k0 + n - 1) / grp + 1 - k0 / grp)).map fun i =>
    let g := k0 / grp + i
    (g, max (g * grp) k0 - k0, min ((g + 1) * grp) (k0 + n) - k0)
/-- Scale and zero point of a record (R163). -/
def scaleOf (four : Bool) (r : BitVec 32) : FVal × Int :=
  (flushSub .f16 (fdecode .f16 (r.extractLsb' 0 16).toNat),
   if four then ((r.extractLsb' 16 4).toNat : Int) else ((r.extractLsb' 16 8).toNat : Int))
/-- An exact sum of products of two lists of integers. -/
def dot : List Int → List Int → Int
  | a :: as, b :: bs => a * b + dot as bs
  | _, _ => 0
/-- The fold of one piece into an element for grouped operands (R168): `qa` and `qb` are the piece's elements less their zero
points. -/
def foldPiece (acc : Nat) (sa sb : FVal) (qa qb : List Int) : Nat :=
  let d := dot qa qb
  add32 acc (roundV .f32 .rne (mulExact (mulExact sa sb) (.fin (decide (d < 0)) d.natAbs 0))).bits
/-- The chunk sum of BF16 operands as a value (R169). Every finite product is a multiple of 2^−266. -/
def chunkSum (a b : List FVal) : FVal :=
  let ps := List.zipWith mulExact a b
  if ps.any isNan then .nan false
  else
    let infs := ps.filterMap fun p => match p with | .inf n => some n | _ => none
    if infs.contains true && infs.contains false then .nan false
    else if infs ≠ [] then .inf (infs.contains true)
    else
      let terms : List Int := ps.map fun p => match p with | .fin n s e => signed n (scaleNum s (e + 266)) | _ => 0
      let s := terms.foldl (· + ·) 0
      let allNegZero := ps.all fun p => match p with | .fin n s _ => n && s == 0 | _ => false
      .fin (decide (s < 0) || allNegZero) s.natAbs (-266)
/-- The value of a BF16 element in the matrix array (R161). -/
def bfVal (x : Nat) : FVal := flushSub .bf16 (fdecode .bf16 x)
/-- A panel step on a tile: panel `s`, with the records read so far. -/
def Core.foldPanel (c : Core) (m : MatCsr) (a pm s : Nat) (pa pb : BitVec 32768) : Core :=
  let k0 := s * matKpp m
  let n := min (matK m - k0) (matKpp m)
  if matFmt m = 0 then
    let ra := (panelRows 16 pa n).map fun r => r.map bfVal
    let rb := (panelRows 16 pb n).map fun r => r.map bfVal
    c.mapTile a pm fun i j v => (addV .f32 .rne (fdecode .f32 v) (chunkSum (ra.getD i []) (rb.getD j []))).bits
  else
    let four := matFmt m == 2 || matFmt m == 4
    let w := if four then 4 else 8
    let read := fun (p : BitVec 32768) => (panelRows w p n).map fun r => r.map fun x => asInt (matInt m && matSigned m) w x
    let ra := read pa
    let rb := read pb
    (panelPieces (matGrp m) k0 n).foldl (fun c q =>
      let cut := fun (l : List Int) => (l.take q.2.2).drop q.2.1
      let qa := ra.map cut
      let qb := rb.map cut
      if matInt m then c.mapTile a pm fun i j v => wrapInt 32 (v + dot (qa.getD i []) (qb.getD j []))
      else
        let recs := fun (side : Nat) => (List.range 64).map fun i => scaleOf four (kget 0 c.scales (128 * q.1 + 64 * side + i))
        let sa := recs 0
        let sb := recs 1
        let less := fun (l : List (List Int)) (sc : List (FVal × Int)) => List.zipWith (fun r z => r.map fun x => x - z.2) l sc
        let qa := less qa sa
        let qb := less qb sb
        c.mapTile a pm fun i j v =>
          foldPiece v (sa.getD i (.fin false 0 0, 0)).1 (sb.getD j (.fin false 0 0, 0)).1 (qa.getD i []) (qb.getD j [])) c
/-- The cell of a byte of a TCM, addresses taken modulo 256 KiB. -/
def tcmWrap (cid a : Nat) : Nat := tcmCell cid (a % 2 ^ 18)
/-- A scale record in the TCM of a core (R164). -/
def State.scaleRecord (s : State) (cid a : Nat) : BitVec 32 :=
  BitVec.ofNat 32 (natLE ((List.range 4).map fun b => readByte s.mem (tcmWrap cid (a + b))))
/-- The core with the records of the groups of a panel read, each once (R164). -/
def State.readScales (s : State) (cid : Nat) (c : Core) (m : MatCsr) (step : Nat) : Core :=
  if !matScaled m then c
  else
    let k0 := step * matKpp m
    let n := min (matK m - k0) (matKpp m)
    let groups := (matK m + matGrp m - 1) / matGrp m
    (panelPieces (matGrp m) k0 n).foldl (fun c q =>
      if (kfind c.scales (128 * q.1)).isSome then c
      else
        let add := fun (c : Core) (side base : Nat) => (List.range 64).foldl (fun (c : Core) i =>
          { c with scales := kset (128 * q.1 + 64 * side + i) (s.scaleRecord cid (base + 4 * (i * groups + q.1))) c.scales }) c
        add (add c 0 m.msca.toNat) 1 m.mscb.toNat) c

/-! ## Traps and waits of queue entries -/

/-- An instruction of a slot that waits on the matrix context or in MM.WAIT has something to issue for: the context is free or its own, and
its entries have completed or one of them stalls (R110, R273). -/
def Core.matrixReady (c : Core) (slot : Nat) : Bool :=
  (c.owner.isNone || c.owner == some slot) && (!c.matrixPending slot false || (c.stalledPort slot).isSome)
/-- The core whose matrix context a wait is for. -/
def Wait.contextOf : Wait → Option Nat
  | .matrix cid | .restore _ _ cid | .ctxTake cid => some cid
  | _ => Option.none
/-- The batons that are out of any slot and wait for a core's matrix context go READY once it is free (R93, R94). -/
def State.wakeAwayMatrix (s : State) (cid : Nat) : State :=
  if (s.core cid).owner.isSome then s
  else
    (s.cluster (cidPcl cid)).away.foldl (fun s a =>
      if !a.2.satisfied && a.2.wait.contextOf == some cid then s.reissue a.1 else s) s
/-- The slots of a core that wait on its matrix context or queue issue again where they can. -/
def State.wakeMatrix (s : State) (cid : Nat) : State :=
  ((List.range 4).foldl (fun s i =>
    let t := s.slotAt (slotKey cid i)
    if t.mode = .parked ∧ (t.wait = .mmWait ∨ t.wait = .matrix cid) ∧ (s.core cid).matrixReady i then s.setSlotAt (slotKey cid i) t.unpark
    else s) s).wakeAwayMatrix cid
/-- A trap of a queue entry (R266): at the MM.WAIT in which the baton is parked, or at its next instruction boundary. -/
def State.queueTrap (s : State) (cid slot c : Nat) (v : Dword) : State :=
  let k := slotKey cid slot
  let t := s.slotAt k
  if t.mode = .parked ∧ t.wait = .mmWait then s.failWaitAs false (slotRecord k t) c v 0
  else s.addDeferred (slotRecord k t) { cause := c, value := v, status := 0, posted := false, sync := false, at' := none }
/-- MMPROG of a slot as software reads it: the owner's expected counts are those of the ports (R269). -/
def Core.mmprog (c : Core) (slot : Nat) (m : Dword) : Dword :=
  if c.owner = some slot then m.extractLsb' 48 16 ++ c.stb.exp ++ c.sta.exp ++ m.extractLsb' 0 32 else m
/-- MMPROG with its progress fields cleared (R270). -/
def mmprogDone (m : Dword) : Dword := 0#6 ++ m.extractLsb' 24 34 ++ 0#24
/-- MMPROG of a stopped MM.TILE (R271). -/
def mmprogStop (m : Dword) (w : Word32) (step : Nat) : Dword :=
  1#1 ++ BitVec.ofBool (w.getLsbD 20) ++ w.extractLsb' 26 2 ++ w.extractLsb' 24 2 ++ m.extractLsb' 24 34 ++ BitVec.ofNat 24 step
/-- Does MMPROG name a stopped tile as this word (R270). -/
def mmprogMatch (m : Dword) (w : Word32) : Bool := m.getLsbD 63 && mmprogStop m w (m.extractLsb' 0 24).toNat == m
/-- The state with MMPROG of a slot replaced. -/
def State.setMmprog (s : State) (k : Nat) (f : Dword → Dword) : State :=
  let t := s.slotAt k
  s.setSlotAt k { t with csr := { t.csr with mmprog := f t.csr.mmprog } }

/-! ## MM.TILE (R270, R271) -/

/-- The start of an MM.TILE at the head of its queue: progress from MMPROG with the scale records that a restore brought (R164), or from the beginning
with INIT's clearing. -/
def State.startTile (s : State) (cid : Nat) (e : DqEntry) (w : Word32) : State :=
  let c := s.core cid
  let prog := (s.slotAt (slotKey cid e.slot)).csr.mmprog
  let step := if mmprogMatch prog w then (prog.extractLsb' 0 24).toNat else 0
  let c := if !mmprogMatch prog w && w.getLsbD 20 then c.mapTile (wordAcc w) (wordPm w) fun _ _ _ => 0 else c
  s.setCore cid ({ c with tile := some step, scales := if mmprogMatch prog w then c.scales else [] }.setDq 0 { e with started := true })
/-- The end of an MM.TILE: MMPROG is cleared but for the expected counts (R270). -/
def State.endTile (s : State) (cid : Nat) (e : DqEntry) (doneAt : Nat) : State :=
  let c := s.core cid
  (s.setCore cid ({ c with tile := none, scales := [] }.setDq 0 { e with started := true, bound := true, doneAt := doneAt, stalled := none })).setMmprog
    (slotKey cid e.slot) mmprogDone
/-- The port on which a panel step would wait. -/
def Core.emptyPort (c : Core) : Option Bool :=
  if c.sta.panels = [] then some false else if c.stb.panels = [] then some true else none
/-- Panels are still to come to a port: a feed in flight, or expected panels (R271). -/
def State.panelsDue (s : State) (cid : Nat) (b : Bool) : Bool :=
  s.feedsTo (cidPcl cid) cid b != [] || ((s.core cid).port b).exp != 0
/-- An underrun of the MM.TILE at the head of a queue (R271): it waits for panels that are due, and otherwise stalls, with one
STREAM_UNDERRUN until it takes a further panel; a baton in MM.WAIT takes one there as well (R273). -/
def State.underrun (s : State) (cid : Nat) (e : DqEntry) (w : Word32) (b : Bool) : State :=
  let c := s.core cid
  if e.stalled = some b then s
  else if s.panelsDue cid b then s.setCore cid (c.setDq 0 { e with stalled := none })
  else
    let k := slotKey cid e.slot
    let s := s.setCore cid (c.setDq 0 { e with stalled := some b, trapped := true })
    let s := s.setMmprog k fun m => mmprogStop m w (c.tile.getD 0)
    let v : Dword := if b then 1 else 0
    let t := s.slotAt k
    let rec' := slotRecord k t
    let s := if t.mode = .parked ∧ t.wait = .mmWait then s.failWait rec' 31 v 0 else s
    if e.trapped then s
    else s.addDeferred rec' { cause := 31, value := v, status := 0, posted := false, sync := false, at' := none }
/-- One panel step of the MM.TILE at the head of a queue: the head panels of both ports are folded in, and the array is busy for
32 or 64 cycles. -/
def State.stepTile (s : State) (cid : Nat) (e : DqEntry) (w : Word32) (m : MatCsr) : State :=
  let c := s.core cid
  match c.sta.panels, c.stb.panels with
  | pa :: ra, pb :: rb =>
    let step := c.tile.getD 0
    let now := s.swcAt (cidDie cid)
    let cost := if matFmt m = 0 then 64 else 32
    let c := s.readScales cid c m step
    let c := c.foldPanel m (wordAcc w) (wordPm w) step pa pb
    let e := { e with stalled := none, trapped := false }
    let c := { c with sta := { c.sta with panels := ra }, stb := { c.stb with panels := rb }, tile := some (step + 1) }.setDq 0 e
    let q := cidPcl cid * 4 + cidQuad cid
    let s := (s.setCore cid c).setQuad q { s.quad q with arrayBusy := now + cost }
    if matPanels m ≤ step + 1 then s.endTile cid e (now + cost) else s
  | _, _ => s

/-! ## The Pacer (R104) -/

/-- The core at a queue of a quad. -/
def quadCid (q i : Nat) : Nat := coreOf (q / 4) (q % 4 * 4 + i)
/-- The head of a queue: the first entry that has not bound, with its index. -/
def Core.head (c : Core) : Option (Nat × DqEntry) :=
  match c.dq.findIdx? fun e => !e.bound with
  | some i => (c.dq[i]?).map fun e => (i, e)
  | none => none
/-- The credit that a pointer takes on a queue (R104). -/
def State.robinCredit (s : State) (q i : Nat) : Nat :=
  let cid := quadCid q i
  let c := s.core cid
  match c.head, c.lastEntered with
  | some (_, e), _ => (s.slotAt (slotKey cid e.slot)).csr.xshare.toNat
  | none, some k => (s.slotAt (slotKey cid k)).csr.xshare.toNat
  | none, none => 4
/-- The pointer moved to the next queue. -/
def State.robinNext (s : State) (q : Nat) (r : Robin) : Robin :=
  let i := (r.queue + 1) % 4
  ⟨i, some (s.robinCredit q i)⟩
/-- One opportunity: at most four offers, until a queue's head can bind. -/
def State.offer (s : State) (q : Nat) (ok : Nat → Bool) : Nat → Robin → Option Nat × Robin
  | 0, r => (none, r)
  | n + 1, r => if ok r.queue then (some r.queue, r) else s.offer q ok n (s.robinNext q r)
/-- A round robin at an opportunity: its first credit is taken there. -/
def State.opportunity (s : State) (q : Nat) (ok : Nat → Bool) (r : Robin) : Option Nat × Robin :=
  let r := if r.credit.isNone then { r with credit := some (s.robinCredit q r.queue) } else r
  s.offer q ok 4 r
/-- A round robin after a binding. -/
def State.spend (s : State) (q : Nat) (r : Robin) : Robin :=
  let n := r.credit.getD 1 - 1
  if n = 0 then s.robinNext q r else { r with credit := some n }
/-- The entries of a gang-wide instruction with a function applied. -/
def State.mapWide (s : State) (id : Nat) (f : DqEntry → Option DqEntry) : State :=
  { s with cores := kmap (fun _ (c : Core) => { c with dq := c.dq.filterMap fun e =>
      match e.kind with
      | .vector _ _ _ w => if w = id then f e else some e
      | .matrix .. => some e }) s.cores }
/-- A gang-wide instruction has not bound in every member (R248). -/
def State.wideOpen (s : State) (id : Nat) : Bool :=
  id != 0 && ((s.gangs.any fun g => g.2.wide == id) ||
    s.cores.any fun c => c.2.dq.any fun e => !e.bound && (match e.kind with | .vector _ _ _ w => w == id | .matrix .. => false))
/-- A queue's head is a vector entry. Its operands were ready when it issued (R103). -/
def State.laneHead (s : State) (q i : Nat) : Bool :=
  match (s.core (quadCid q i)).head with
  | some (_, e) => !e.isMatrix
  | none => false
/-- The binding opportunity of one free lane group. -/
def State.bindLane (s : State) (q g : Nat) : State :=
  let now := s.swcAt (q / 4 / 24)
  let x := s.quad q
  if now < vcGet x.laneBusy g then s
  else
    match s.opportunity q (s.laneHead q) x.lanes with
    | (none, r) => s.setQuad q { x with lanes := r }
    | (some i, r) =>
      let cid := quadCid q i
      let c := s.core cid
      match c.head with
      | some (n, e) =>
        match e.kind with
        | .vector occ lat _ wide =>
          let s := s.setCore cid (c.setDq n { e with bound := true, doneAt := now + lat })
          let s := if wide = 0 then s else s.mapWide wide fun e => some { e with doneAt := now + lat }
          s.setQuad q { x with lanes := s.spend q r, laneBusy := vcSet x.laneBusy g (now + occ) }
        | _ => s
      | none => s
/-- The matrix entry at the very head of a queue, every earlier entry having completed (R266). -/
def Core.matrixHead (c : Core) : Option (DqEntry × Word32 × MatCsr) :=
  match c.dq with
  | e :: _ =>
    match e.kind with
    | .matrix w _ _ m => if e.bound then none else some (e, w, m)
    | _ => none
  | [] => none
/-- The entries of a slot stand still while its CTX.SAVE waits for the writes of an image that holds them (R240). -/
def State.entryHeld (s : State) (cid slot : Nat) : Bool :=
  match (s.slotAt (slotKey cid slot)).wait with
  | .ctxSave _ _ owned => owned
  | _ => false
/-- The matrix array can bind a queue's head: its operands are ready. -/
def State.arrayHead (s : State) (q i : Nat) : Bool :=
  let c := s.core (quadCid q i)
  match c.matrixHead with
  | some (e, w, m) =>
    if s.entryHeld (quadCid q i) e.slot then false
    else if matOp w = .tile then e.started && decide (0 < matPanels m) && c.emptyPort.isNone else (matOp w).array
  | none => false
/-- Cycles for which a matrix or stream entry runs once it has begun (R272, R274, R275, R277). -/
def matCycles (w : Word32) : Nat :=
  match matOp w with
  | .zero => 4
  | .drain => 64
  | .load => 64
  | .tostrm => 64
  | .fill => 64 * (wordOpt w / 2 + 1)
  | _ => 0
/-- The panel-boundary opportunity of the matrix array. A queue whose head is an MM.TILE is left to the tile's own panel step. -/
def State.bindArray (s : State) (q : Nat) : State :=
  let now := s.swcAt (q / 4 / 24)
  let x := s.quad q
  if now < x.arrayBusy then s
  else
    match s.opportunity q (s.arrayHead q) x.matrix with
    | (none, r) => s.setQuad q { x with matrix := r }
    | (some i, r) =>
      let cid := quadCid q i
      let c := s.core cid
      match c.matrixHead with
      | some (e, w, _) =>
        if matOp w = .tile then s
        else
          let s := s.setCore cid (c.setDq 0 { e with bound := true, doneAt := now + matCycles w })
          s.setQuad q { x with matrix := s.spend q r, arrayBusy := now + matCycles w }
      | none => s
/-- An entry that needs no array begins once it is at the head of its queue. -/
def State.beginFree (s : State) (cid : Nat) : State :=
  let c := s.core cid
  match c.matrixHead with
  | some (e, w, _) =>
    if (matOp w).array || s.entryHeld cid e.slot then s
    else s.setCore cid (c.setDq 0 { e with bound := true, doneAt := s.swcAt (cidDie cid) + matCycles w })
  | none => s
/-- A restored replay list goes into its core's dispatch queue as far as there is room (R104, R111). -/
def State.pullReplay (s : State) (cid slot : Nat) : Nat → State
  | 0 => s
  | n + 1 =>
    let k := slotKey cid slot
    let t := s.slotAt k
    match t.replay with
    | [] => s
    | (w, a, b) :: r =>
      if 8 ≤ (s.core cid).queued then s
      else
        ((s.setSlotAt k { t with replay := r }).setCore cid ((s.core cid).enter (DqEntry.new slot (.matrix w a b t.matCsr)))).pullReplay cid slot n
/-- The replay lists of a core's slots, of which only the context's owner has one. -/
def State.pullReplays (s : State) (cid : Nat) : State := (List.range 4).foldl (fun s i => s.pullReplay cid i 8) s
/-- One cycle of a quad's Pacer (R104): the replay lists, the free lane groups in order, then the matrix array. -/
def State.pacerBind (s : State) (q : Nat) : State :=
  let s := (List.range 4).foldl (fun s i => (s.pullReplays (quadCid q i)).beginFree (quadCid q i)) s
  let s := (List.range 4).foldl (fun s g => s.bindLane q g) s
  s.bindArray q
/-- PANEL_STEP: the MM.TILE at the head of a core's queue starts, waits, stalls, or takes its next panels when the Pacer's opportunity
is its queue's (R104, R270, R271). -/
def State.panelStep (s : State) (cid : Nat) : State :=
  let q := cidPcl cid * 4 + cidQuad cid
  match (s.core cid).matrixHead with
  | none => s
  | some (e, w, m) =>
    if matOp w ≠ .tile ∨ s.entryHeld cid e.slot then s
    else
      let s := if e.started then s else s.startTile cid e w
      let e := { e with started := true }
      let c := s.core cid
      let now := s.swcAt (cidDie cid)
      if matPanels m ≤ c.tile.getD 0 then s.endTile cid e now
      else
        match c.emptyPort with
        | some b => s.underrun cid e w b
        | none =>
          let tcm := (List.range 4).map fun _ => tcmCell cid 0
          let needs := matFmt m == 1 || matFmt m == 2
          if needs && !s.granted (unitKey cid) tcm then s.stallKey (unitKey cid) 0 tcm
          else if now < (s.quad q).arrayBusy then s
          else
            match s.opportunity q (s.arrayHead q) (s.quad q).matrix with
            | (some i, r) =>
              if i = cidCore cid then
                let s := s.stepTile cid e w m
                s.setQuad q { s.quad q with matrix := s.spend q r }
              else s
            | (none, _) => s

/-! ## Completion of queue entries -/

/-- The formats of MM.DRAIN and MM.LOAD (R274). -/
def drainTy (f : Nat) : VTy :=
  match f with
  | 0 => .f32
  | 1 => .bf16
  | 2 => .f16
  | 3 => .s32
  | 4 => .s8
  | _ => .n8
/-- The element type of an accumulator (R267). -/
def accTy (m : MatCsr) : VTy := if matInt m then .s32 else .f32
/-- Conversion between an accumulator and memory (R274): equal types copy the bits, float to integer saturates, integers sign-extend or
saturate, all under RNE (R162). -/
def matConvert (src dst : VTy) (x : Nat) : Nat := if src = dst then x else convertElem .rne src dst x
/-- Bytes of an element. -/
def vtyBytes (t : VTy) : Nat := vtyWidth t / 8
/-- The pitch of MM.DRAIN and MM.LOAD (R274). -/
def matPitch (w : Word32) (rdv : Dword) : Int := if wordRd w = 0 then 64 * (vtyBytes (drainTy (wordOpt w % 8)) : Int) else rdv.toInt
/-- The address of element (i, j). -/
def matAddr (w : Word32) (rs1 rdv : Dword) (i j : Nat) : Nat :=
  ((rs1.toInt + i * matPitch w rdv + (j * vtyBytes (drainTy (wordOpt w % 8)) : Nat)) % 2 ^ 64).toNat
/-- The active columns of a row. -/
def Core.activeCols (c : Core) (pm i : Nat) : List Nat := (List.range 64).filter fun j => c.active pm i j
/-- The cells of a row's active elements, of the entry of slot `k`: column, address and cell, none in an unmapped window or without the right that R58
asks for. -/
def State.rowCells (s : State) (k : Nat) (w : Word32) (rs1 rdv : Dword) (i : Nat) : List (Nat × Nat × Option Nat) :=
  ((s.core (keyCid k)).activeCols (wordPm w) i).map fun j =>
    let a := matAddr w rs1 rdv i j
    (j, a, s.coreCell k (if matOp w = .drain then .write else .read) a)
/-- The least of a list of numbers. -/
def leastOf (l : List Nat) : Nat := l.foldl min (l.headD 0)
/-- One row of MM.DRAIN or MM.LOAD, whose elements all have cells. -/
def State.moveRow (s : State) (cid : Nat) (e : DqEntry) (w : Word32) (m : MatCsr) (i : Nat) (cells : List (Nat × Nat × Option Nat)) : State :=
  let t := drainTy (wordOpt w % 8)
  let n := vtyBytes t
  let a := wordAcc w
  cells.foldl (fun s x =>
    match x.2.2 with
    | none => s
    | some cell =>
      let c := s.core cid
      let at' := 32 * (64 * i + x.1)
      let tile := c.tileAt a
      let put := fun (v : Nat) =>
        tileOf ((tileElems tile).set (64 * i + x.1) v)
      if matOp w = .drain then
        let s := s.storeLE (some (slotKey cid e.slot)) cell n (matConvert (accTy m) t (tile.extractLsb' at' 32).toNat)
        if (wordOpt w).testBit 3 then s.setCore cid (c.setTile a (put 0)) else s
      else s.setCore cid (c.setTile a (put (matConvert t (accTy m) (s.loadLE cell n))))) s
/-- MM.DRAIN and MM.LOAD, row by row in ascending order, up to a row that meets an unmapped window (R274). -/
def State.moveRows (s : State) (cid : Nat) (e : DqEntry) (w : Word32) (rs1 rdv : Dword) (m : MatCsr) : Nat → Nat → State
  | 0, _ => s
  | n + 1, i =>
    let cells := s.rowCells (slotKey cid e.slot) w rs1 rdv i
    let bad := cells.filter fun x => x.2.2.isNone
    if bad ≠ [] then
      s.queueTrap cid e.slot (if matOp w = .drain then 7 else 5) (BitVec.ofNat 64 (leastOf (bad.map fun x => x.2.1)))
    else (s.moveRow cid e w m i cells).moveRows cid e w rs1 rdv m n (i + 1)
/-- The cells that a drain or load reaches, for its banks. -/
def State.drainCells (s : State) (k : Nat) (w : Word32) (rs1 rdv : Dword) : List Nat :=
  (List.range 64).flatMap fun i => (s.rowCells k w rs1 rdv i).filterMap fun x => x.2.2
/-- One of the two panels that MM.TOSTRM appends (R275). -/
def Core.streamPanel (c : Core) (w : Word32) (m : MatCsr) (p : Nat) : BitVec 32768 :=
  let l := tileElems (c.tileAt (wordAcc w))
  BitVec.ofNat 32768 (packNat 16 ((List.range 2048).map fun n =>
    let r := n / 32
    let col := 32 * p + n % 32
    let i := if (wordOpt w).testBit 1 then col else r
    let j := if (wordOpt w).testBit 1 then r else col
    if c.active (wordPm w) i j then matConvert (accTy m) .bf16 (l.getD (64 * i + j) 0) else 0))
/-- ST.FILL's panels at their cells, 64 bytes at a time, each window sampled once; or the lowest address in an unmapped window. -/
def State.fillCells (s : State) (k a n : Nat) : List (Nat × Option Nat) :=
  (List.range (64 * n)).map fun i => (a + 64 * i, s.coreCell k .read (a + 64 * i))
/-- The effect of a matrix or stream entry at its completion (R272 to R277). -/
def State.matEffect (s : State) (cid : Nat) (e : DqEntry) (w : Word32) (rs1 rdv : Dword) (m : MatCsr) : State :=
  let c := s.core cid
  let b := (wordOpt w).testBit 0
  match matOp w with
  | .zero => s.setCore cid (c.mapTile (wordAcc w) (wordPm w) fun _ _ _ => 0)
  | .mset =>
    let ones := fun (v : Dword) => if 64 ≤ v.toNat then BitVec.allOnes 64 else BitVec.ofNat 64 (2 ^ v.toNat - 1)
    let f := fun (v : Dword) => if b then ones v else v
    s.setCore cid { c with pmRow := vcSet c.pmRow (wordPm w) (f rs1), pmCol := vcSet c.pmCol (wordPm w) (f rdv) }
  | .drain => s.moveRows cid e w rs1 rdv m 64 0
  | .load => s.moveRows cid e w rs1 rdv m 64 0
  | .tostrm =>
    let p := c.port b
    if 6 < p.panels.length then s.setCore cid (c.setPort b { p with ovf := true })
    else s.setCore cid (c.setPort b ((p.push (c.streamPanel w m 0)).push (c.streamPanel w m 1)))
  | .bind =>
    let p := c.port b
    s.setCore cid (c.setPort b { p with exp := BitVec.ofNat 8 (min 255 (p.exp.toNat + (rs1.extractLsb' 0 8).toNat)) })
  | .fill =>
    let n := wordOpt w / 2 + 1
    let p := c.port b
    if 8 < p.panels.length + n then s.setCore cid (c.setPort b { p with ovf := true })
    else
      let cells := s.fillCells (slotKey cid e.slot) rs1.toNat n
      let bad := cells.filter fun x => x.2.isNone
      if bad ≠ [] then s.queueTrap cid e.slot 5 (BitVec.ofNat 64 (leastOf (bad.map Prod.fst)))
      else
        let bytes := cells.flatMap fun x => match x.2 with | some a => s.load a 64 | none => []
        let panels := (List.range n).map fun i => BitVec.ofNat 32768 (natLE ((bytes.drop (4096 * i)).take 4096))
        s.setCore cid (c.setPort b (panels.foldl Port.push p))
  | .skip =>
    let p := c.port b
    let n := min rs1.toNat p.panels.length
    let s := s.setCore cid (c.setPort b { p with panels := p.panels.drop n })
    let k := slotKey cid e.slot
    s.setSlotAt k ((s.slotAt k).setX (BitVec.ofNat 5 (wordRd w)) (BitVec.ofNat 64 n))
  | _ => s
/-- The banks that an entry's completion reaches. -/
def State.matCells (s : State) (k : Nat) (w : Word32) (rs1 rdv : Dword) : List Nat :=
  match matOp w with
  | .drain => s.drainCells k w rs1 rdv
  | .load => s.drainCells k w rs1 rdv
  | .fill => (s.fillCells k rs1.toNat (wordOpt w / 2 + 1)).filterMap Prod.snd
  | _ => []
/-- DISPATCH_ENTRY_COMPLETE: a bound entry of a core's queue finishes (R248, R266). -/
def State.dispatchDone (s : State) (cid i : Nat) : State :=
  let c := s.core cid
  match c.dq[i]? with
  | none => s
  | some e =>
    if !e.bound || s.entryHeld cid e.slot || decide (s.swcAt (cidDie cid) < e.doneAt) then s
    else
      match e.kind with
      | .vector _ _ _ wide => if s.wideOpen wide then s else (s.setCore cid (c.dropDq i)).wakeMatrix cid
      | .matrix w rs1 rdv m =>
        if matOp w = .tile then (s.setCore cid (c.dropDq i)).wakeMatrix cid
        else if !matEnters w then
          ((s.setCore cid (c.dropDq i)).queueTrap cid e.slot 2 (zext64 w)).wakeMatrix cid
        else
          let cells := s.matCells (slotKey cid e.slot) w rs1 rdv
          if !s.granted (unitKey cid) cells then s.stallKey (unitKey cid) 0 cells
          else (((s.setCore cid (c.dropDq i)).matEffect cid e w rs1 rdv m).wakeMatrix cid).unstallAt (cidDie cid) (unitKey cid)

end Sys2Proof.Machine
end

