-- ==== Sys2Proof/Machine/Save.lean ====
section
/-!
DEFINITION. Context switches, each of which makes the die apply its log (R65): the values that slot CSRs can hold (R136, R267 to R269), the frame
(R109), saving and restoring a baton (R111), pick-up (R91, R133) and eviction (R95).
-/
namespace Sys2Proof.Machine

/-! ## The legal values of slot CSRs (R136) -/

/-- XUTVEC: bit 0 and bits [63:56] read zero. -/
def csrXutvec (v : Dword) : Dword := v &&& 0x00FFFFFFFFFFFFFE#64
/-- XUEPC: bit 0 reads zero. -/
def csrXuepc (v : Dword) : Dword := v &&& ~~~1#64
/-- XUCAUSE (R137): reserved bits read zero. -/
def csrXucause (v : Dword) : Dword := v &&& 0x6000000000000FFF#64
/-- XAGE: clamped to 8 to 4,096. -/
def csrXage (v : Dword) : BitVec 13 := BitVec.ofNat 13 (max 8 (min 4096 v.toNat))
/-- XSHARE: clamped to 1 to 15. -/
def csrXshare (v : Dword) : BitVec 4 := BitVec.ofNat 4 (max 1 (min 15 v.toNat))
/-- MFMT (R267): a write of FMT 5 to 7 leaves FMT unchanged. -/
def csrMfmt (old v : Dword) : Dword :=
  let f : BitVec 3 := if v.extractLsb' 0 3 ≤ 4#3 then v.extractLsb' 0 3 else old.extractLsb' 0 3
  0#60 ++ v.extractLsb' 3 1 ++ f
/-- MSCA and MSCB: bits [17:1]. -/
def csrMsc (v : Dword) : Dword := v &&& 0x3FFFE#64
/-- MKLEN (R268): at most 65,536. -/
def csrMklen (v : Dword) : Dword := if v ≤ 65536#64 then v else 65536#64
/-- MMPROG (R269): reserved bits read zero. -/
def csrMmprog (v : Dword) : Dword := v &&& 0xFC00FFFF00FFFFFF#64
/-- MGRP: 32, 64 or 128; any other write leaves it unchanged. -/
def csrMgrp (old : BitVec 8) (v : Dword) : BitVec 8 := if v = 32 ∨ v = 64 ∨ v = 128 then v.setWidth 8 else old

/-! ## The frame (R109) -/

/-- The CSRs that a frame holds, in its order; MMPROG with the ports' counts for the owner of the context (R269). -/
def Slot.csrList (t : Slot) (mmprog : Dword) : List Dword :=
  let c := t.csr
  [c.xutvec, c.xuepc, c.xucause, c.xutval, c.xufmask, zext64 c.xrrb, zext64 c.xmscope, zext64 c.xage, zext64 c.xshare, c.mfmt,
   c.msca, c.mscb, c.mklen, mmprog, zext64 c.mgrp]
/-- The slot with the CSRs of a frame. -/
def Slot.putCsrs (t : Slot) (l : List Dword) (fcsr : BitVec 8) : Slot :=
  let g := fun (i : Nat) => l.getD i 0
  { t with csr := { t.csr with
      fflags := fcsr.extractLsb' 0 5, frm := fcsr.extractLsb' 5 3, xutvec := csrXutvec (g 0), xuepc := csrXuepc (g 1),
      xucause := csrXucause (g 2), xutval := g 3, xufmask := g 4, xrrb := (g 5).setWidth 4, xmscope := (g 6).setWidth 2,
      xage := csrXage (g 7), xshare := csrXshare (g 8), mfmt := csrMfmt t.csr.mfmt (g 9), msca := csrMsc (g 10),
      mscb := csrMsc (g 11), mklen := csrMklen (g 12), mmprog := csrMmprog (g 13), mgrp := csrMgrp t.csr.mgrp (g 14) } }
/-- The matrix and stream entries of a slot that have not completed, in queue order, at most 8 (R111 step 4). -/
def Core.replay (c : Core) (t : Slot) (slot : Nat) : List (Word32 × Dword × Dword) :=
  (((c.dq.filter fun e => e.slot == slot && !(e.bound && e.op == some .tile)).filterMap fun e =>
    match e.kind with
    | .matrix w a b _ => some (w, a, b)
    | _ => none) ++ t.replay).take 8
/-- fcsr of a slot. -/
def Slot.fcsr (t : Slot) : BitVec 8 := t.csr.frm ++ t.csr.fflags
/-- FLAGS of a saved baton. -/
def frameFlags (t : Slot) (c : Core) (slot : Nat) (owned : Bool) (orig : Nat) : Dword :=
  BitVec.ofNat 28 0 ++ BitVec.ofNat 8 orig ++ t.fcsr ++ t.phases ++
    BitVec.ofNat 4 (if owned then min 8 c.stb.panels.length else 0) ++ BitVec.ofNat 4 (if owned then min 8 c.sta.panels.length else 0) ++
    BitVec.ofNat 4 (if owned then (c.replay t slot).length else 0) ++ 0#1 ++ BitVec.ofBool t.token ++ BitVec.ofBool t.disband.isSome ++
    BitVec.ofBool owned
/-- FLAGS of an explicit image (R240). -/
def imageFlags (t : Slot) (owned : Bool) : Dword := 0#36 ++ t.fcsr ++ 0#19 ++ BitVec.ofBool owned
/-- The parts of a frame or image: offset and bytes, in offset order (R109). -/
def frameSegs (t : Slot) (c : Core) (slot : Nat) (owned : Bool) (live flags : Dword) : List (Nat × List Byte) :=
  let xs := (List.range 31).filterMap fun i =>
    let n := i + 1
    if live.getLsbD n then some (8 * n, bytesLE 8 (t.getX (BitVec.ofNat 5 n)).toNat) else none
  let vs := (List.range 32).filterMap fun n =>
    if live.getLsbD (32 + n) then some (0x100 + 32 * n, bytesLE 32 ((t.v.toList).getD n 0).toNat) else none
  let sts := (0x500, t.sr.toList.flatMap fun v => bytesLE 16 v.toNat)
  let csrs := (0x580, ((t.csrList (c.mmprog slot t.csr.mmprog)) ++ [flags]).flatMap fun v => bytesLE 8 v.toNat)
  let ctx := if owned then
      [(0x600, (c.replay t slot).flatMap fun e => bytesLE 8 e.1.toNat ++ bytesLE 8 e.2.1.toNat ++ bytesLE 8 e.2.2.toNat),
       (0x6C0, (List.range 4).flatMap fun p => bytesLE 8 (vcGet c.pmRow p).toNat ++ bytesLE 8 (vcGet c.pmCol p).toNat),
       (0x700, c.acc.toList.flatMap fun a => bytesLE 16384 a.toNat),
       (0x10700, c.sta.panels.flatMap fun p => bytesLE 4096 p.toNat),
       (0x18700, c.stb.panels.flatMap fun p => bytesLE 4096 p.toNat)]
    else []
  xs ++ vs ++ [sts, csrs] ++ ctx
/-- Writing the parts of a frame; none where a part cannot be written. -/
def State.writeSegs (s : State) (pcl : Nat) (tk : BitVec 16) (base : Nat) : List (Nat × List Byte) → Option State
  | [] => some s
  | (o, l) :: r =>
    if l = [] then s.writeSegs pcl tk base r
    else match s.frameWrite pcl tk (base + o) l with
      | some s => s.writeSegs pcl tk base r
      | none => none

/-! ## Saving (R111) -/

/-- The most panels that one save moves into a port. -/
def settleFuel : Nat := 9
/-- Feeds into a port deliver while they can (R111 step 5). -/
def State.settlePort (s : State) (cid : Nat) (b : Bool) : Nat → State
  | 0 => s
  | n + 1 =>
    let before := ((s.core cid).port b).panels.length
    let s' := s.feedPanel cid b
    if ((s'.core cid).port b).panels.length = before then s' else s'.settlePort cid b n
/-- Feeds whose next panel finds the port full are stopped with PARTIAL (R111 step 5). -/
def State.stopFeeds (s : State) (cid : Nat) (b : Bool) : State :=
  let pcl := cidPcl cid
  if ((s.core cid).port b).panels.length < 8 then s
  else (s.feedsTo pcl cid b).foldl (fun s p =>
    if feedOver p.2 then s else s.setEntry pcl p.1 { p.2 with failed := true, status := 7, failAddr := 0, flight := [] }) s
/-- Every feed into a port has ended its deliveries. -/
def State.feedsSettled (s : State) (cid : Nat) (b : Bool) : Bool :=
  (s.feedsTo (cidPcl cid) cid b).all fun p => feedOver p.2 || p.2.cancelled
/-- Steps 2 to 5 of R111 as far as they can be taken now. -/
def State.settle (s : State) (k : Nat) : State :=
  let cid := keyCid k
  if (s.core cid).owner = some (keySlot k) then
    [false, true].foldl (fun s b => (s.settlePort cid b settleFuel).stopFeeds cid b) s
  else s
/-- The slot's baton can be saved now: its vector entries have completed, its posted stores are acknowledged (R177), and the feeds into
its ports have ended or been stopped. -/
def State.canSave (s : State) (k : Nat) : Bool :=
  let cid := keyCid k
  let c := s.core cid
  !((s.slotAt k).posted.any Posted.store) && (c.dq.all fun e => e.slot != keySlot k || e.isMatrix) &&
    (c.owner != some (keySlot k) || (s.feedsSettled cid false && s.feedsSettled cid true))
/-- An MM.TILE in progress writes MMPROG and stays pending (R111 step 3, R271). -/
def State.stopTile (s : State) (k : Nat) : State :=
  let c := s.core (keyCid k)
  match c.dq.find? fun e => e.slot == keySlot k && e.started && !e.bound with
  | some e =>
    match e.kind with
    | .matrix w _ _ _ => s.setMmprog k fun m => mmprogStop m w (c.tile.getD 0)
    | _ => s
  | none => s
/-- FLAGS [35:28] of a baton's frame, the original wait reason of a pre-empted baton (R109, R112). -/
def State.origReason (s : State) (rec' : Nat) : Nat :=
  match s.frameRead (recPcl rec') ((s.recRead rec' 0x18).extractLsb' 16 16) ((s.recRead rec' 0x08).toNat + 0x5F8) 8 with
  | some l => natLE l / 2 ^ 28 % 256
  | none => 0
/-- Steps 4, 6 and 7 of R111: the frame is obtained and written, PC, FRAME and LIVE go to the record, and the slot and the matrix context
are free; none where no frame can be obtained or written (R148). `orig` goes to FLAGS [35:28]. A baton that still waits for the matrix
context with which it was saved keeps that frame. -/
def State.saveFrame (s : State) (k orig : Nat) : Option State :=
  let t := s.slotAt k
  let rec' := slotRecord k t
  let pcl := keyPcl k
  match t.wait with
  | .restore .. => some ((if orig = 0 then s else s.setOrig rec' orig).setSlotAt k Slot.empty)
  | _ =>
    let s := s.stopTile k
    let t := s.slotAt k
    let c := s.core (keyCid k)
    let owned := c.owner == some (keySlot k)
    match s.allocFrame pcl t.launch t.track owned with
    | none => none
    | some (a, s) =>
      match s.writeSegs pcl t.track a (frameSegs t c (keySlot k) owned t.live (frameFlags t c (keySlot k) owned orig)) with
      | none => none
      | some s =>
        let s := ((s.recWrite rec' 0x00 t.pc).recWrite rec' 0x08 (BitVec.ofNat 64 a)).recWrite rec' 0x10 t.live
        let s := s.setCore (keyCid k) (c.leave (keySlot k))
        some ((s.setSlotAt k Slot.empty).wakeMatrix (keyCid k))
/-- Saving a slot's baton, as soon as its cluster's scratchpad and its frame can be written. -/
def State.saving (s : State) (k : Nat) (f : State → State) : State :=
  s.onSpad k fun s =>
    let t := s.slotAt k
    let owned := (s.core (keyCid k)).owner == some (keySlot k)
    match t.wait, s.allocFrame (keyPcl k) t.launch t.track owned with
    | .restore .., _ => f s
    | _, none => f s
    | _, some (a, _) => s.withFrame (slotRecord k t) t.track .write a (frameBytes owned) f
/-- The entry of a saved baton, with the scale records `scales` that its MM.TILE has read (R164; log entry 123). An MM.WAIT waits for entries that the
save takes out of the queue and that only a restore puts back, so its baton is READY at once and issues it again (log entry 102). -/
def Slot.toAway (t : Slot) (rec' : Nat) (owned preempted : Bool) (scales : KMap (BitVec 32)) : Away :=
  { record := rec', launch := t.launch, wait := t.wait, waitLen := t.waitLen, wkey := t.wkey, wtime := t.wtime, reason := t.reason,
    preempted := preempted, satisfied := t.wait == .none || t.wait == .mmWait,
    large := (match t.wait with | .restore _ large _ => large | _ => owned), posted := t.posted,
    deferred := t.deferred, disband := t.disband, lapCopies := t.lapCopies, image := t.image, scales := scales, goes := t.goes }
/-- A wake token that is not in a frame stays with the cluster (R94). -/
def State.keepToken (s : State) (rec' : Nat) : State :=
  let c := s.cluster (recPcl rec')
  if c.tokens.contains rec' then s else s.setCluster (recPcl rec') { c with tokens := c.tokens ++ [rec'] }
/-- A saved baton goes WAITING, with its wait armed (R93); one with no wait goes READY (R93, R110). -/
def State.putAway (s : State) (k : Nat) (t : Slot) (owned preempted : Bool) (scales : KMap (BitVec 32)) : State :=
  let rec' := slotRecord k t
  let a := t.toAway rec' owned preempted scales
  let s1 := s.recWrite rec' 0x18 (t.ctrl 3 (if preempted then 13 else t.reason.toNat))
  let s1 := (s1.recWrite rec' 0x20 t.wkey).recWrite rec' 0x28 t.wtime
  let s1 := s1.setAway rec' a
  let s1 := match t.wait with | .restore .. => if t.token then s1.keepToken rec' else s1 | _ => s1
  if a.satisfied && !preempted then s1.enqueue rec' t.launch else s1
/-- Saving a baton as a whole and putting it out of its slot; none where no frame can be had. -/
def State.saveOut (s : State) (k orig : Nat) (preempted : Bool) : Option State :=
  let t := s.slotAt k
  let owned := (s.core (keyCid k)).owner == some (keySlot k)
  let scales := if owned then (s.core (keyCid k)).scales else t.scales
  (s.saveFrame k orig).map fun s => (s.putAway k t owned preempted scales).applyLog (keyDie k)

/-! ## Restoring (R111, R133) -/

/-- Doubleword `i` of a list of bytes. -/
def dwordAt (l : List Byte) (off : Nat) : Dword := BitVec.ofNat 64 (natLE ((l.drop off).take 8))
/-- The registers of a frame's first 1,536 bytes: those that LIVE names, zero for the others (R109), or the slot's own ones where `keep`
(R241). -/
def Slot.putRegs (t : Slot) (l : List Byte) (live : Dword) (keep : Bool) : Slot :=
  let flags := dwordAt l 0x5F8
  let x := Vector.ofFn fun (i : Fin 32) =>
    if i.val = 0 then 0
    else if live.getLsbD i.val then dwordAt l (8 * i.val) else if keep then t.x[i.val] else 0
  let v := Vector.ofFn fun (i : Fin 32) =>
    if live.getLsbD (32 + i.val) then BitVec.ofNat 256 (natLE ((l.drop (0x100 + 32 * i.val)).take 32))
    else if keep then t.v[i.val] else 0
  let sr := Vector.ofFn fun (i : Fin 8) => BitVec.ofNat 128 (natLE ((l.drop (0x500 + 16 * i.val)).take 16))
  ({ t with x := x, v := v, sr := sr }).putCsrs ((List.range 15).map fun i => dwordAt l (0x580 + 8 * i)) (flags.extractLsb' 20 8)
/-- A port after a restore: the saved panels, then those it held, eight at most (R153); its count from the saved MMPROG (R269). -/
def Port.restored (p : Port) (saved : List (BitVec 32768)) (exp : Nat) : Port :=
  let all := saved ++ p.panels
  { panels := all.take 8, ovf := p.ovf || decide (8 < all.length),
    exp := BitVec.ofNat 8 (exp - min p.panels.length (8 - saved.length)) }
/-- The matrix context of a frame or image, taken by a slot: masks, accumulators, panels, replay list (R111, R153, R241). -/
def State.putContext (s : State) (k : Nat) (l : List Byte) : State :=
  let cid := keyCid k
  let c := s.core cid
  let t := s.slotAt k
  let flags := dwordAt l 0x5F8
  let count := fun (lo : Nat) => min 8 (flags.extractLsb' lo 4).toNat
  let panels := fun (base n : Nat) => (List.range n).map fun i => BitVec.ofNat 32768 (natLE ((l.drop (base + 4096 * i)).take 4096))
  let row := Vector.ofFn fun (i : Fin 4) => dwordAt l (0x6C0 + 16 * i.val)
  let col := Vector.ofFn fun (i : Fin 4) => dwordAt l (0x6C8 + 16 * i.val)
  let acc := Vector.ofFn fun (i : Fin 4) => BitVec.ofNat 131072 (natLE ((l.drop (0x700 + 16384 * i.val)).take 16384))
  let entries := (List.range (count 4)).map fun i =>
    ((dwordAt l (0x600 + 24 * i)).setWidth 32, dwordAt l (0x608 + 24 * i), dwordAt l (0x610 + 24 * i))
  ((s.setSlotAt k { t with replay := entries, scales := [] }).setCore cid { c with
    owner := some (keySlot k), acc := acc, pmRow := row, pmCol := col,
    sta := c.sta.restored (panels 0x10700 (count 8)) (t.csr.mmprog.extractLsb' 32 8).toNat,
    stb := c.stb.restored (panels 0x18700 (count 12)) (t.csr.mmprog.extractLsb' 40 8).toNat,
    tile := none, scales := t.scales }).pullReplays cid
/-- A baton ends at pick-up with its launch ABORTED (R92, R148). -/
def State.abortReady (s : State) (rec' launch : Nat) (large : Bool) : State :=
  let ctrl := s.recRead rec' 0x18
  let tk : BitVec 16 := ctrl.extractLsb' 16 16
  let frame := (s.recRead rec' 0x08).toNat
  let s := s.recWrite rec' 0x18 (ctrlWord (ctrl.extractLsb' 0 2) (ctrl.extractLsb' 2 2) 4 0 tk (ctrl.extractLsb' 32 16) 0 0 0)
  let s := if frame = 0 then s else s.freeFrame (recPcl rec') launch tk frame large
  let s := (s.dropAway rec').markAborted launch
  let c := s.cluster (recPcl rec')
  ((s.setCluster (recPcl rec') { c with tokens := c.tokens.filter (· != rec') })).batonDone launch
/-- A baton's slot before its registers: what the record and the cluster hold of it. -/
def State.slotFor (s : State) (rec' launch : Nat) : Slot :=
  let ctrl := s.recRead rec' 0x18
  let fvec := s.recRead rec' 0x30
  let c := s.cluster (recPcl rec')
  let base := { Slot.empty with
    mode := .running, pc := s.recRead rec' 0x00 &&& ~~~1#64, xbaton := recLocal rec', rsv := ctrl.extractLsb' 2 2, track := ctrl.extractLsb' 16 16,
    group := ctrl.extractLsb' 32 16, gangIdx := ctrl.extractLsb' 48 4, gangSize := ctrl.extractLsb' 52 4, fvec := fvec,
    live := BitVec.allOnes 64, launch := launch, token := c.tokens.contains rec',
    csr := { SlotCsrs.first fvec (ctrl.extractLsb' 0 2) with xgangidx := ctrl.extractLsb' 48 3 } }
  match s.findAway rec' with
  | some a =>
    { base with posted := a.posted, deferred := a.deferred, lapCopies := a.lapCopies, disband := a.disband, image := a.image, scales := a.scales, goes := a.goes }
  | none => base
/-- First start (R133): ARG in a0, every other register zero. -/
def State.firstStart (s : State) (k rec' launch : Nat) : State :=
  let t := s.slotFor rec' launch
  s.setSlotAt k (t.setX 10 (s.recRead rec' 0x38))
/-- The size of a baton's frame: large once it holds a matrix context (R147). -/
def State.frameLarge (s : State) (rec' : Nat) : Bool := match s.findAway rec' with | some a => a.large | none => false
/-- A baton restored from its frame into a slot that holds what the record and the cluster say of it (R111); none where the frame cannot be
read (R148). A core whose context another slot owns makes it wait for the context, reason MATRIX (R110). A CTX.RESTORE that has read its image
takes its registers here and completes, or waits to take the image whose matrix context it needs (R241). A baton that was enqueued to go on from its
wait is PARKED there (R217). -/
def State.restoreFrame (s : State) (k rec' : Nat) (t : Slot) (frame : Nat) (large : Bool) : Option State :=
  let pcl := recPcl rec'
  let cid := keyCid k
  let now := s.swcAt (keyDie k)
  match s.frameRead pcl t.track frame 1536 with
  | none => none
  | some l =>
    let flags := dwordAt l 0x5F8
    let owned := flags.getLsbD 0
    match if owned then s.frameRead pcl t.track frame 132864 else some l with
    | none => none
    | some l =>
      match owned, (s.core cid).owner with
      | true, some o =>
        some (s.setSlotAt k { t with mode := .parked, wait := .restore frame large cid, reason := 12, wkey := BitVec.ofNat 64 o, parkedAt := now })
      | _, _ =>
        let live := s.recRead rec' 0x10
        let (disband, fresh) :=
          if flags.getLsbD 1 then
            match t.disband with
            | some v => (some v, s.fresh)
            | none => (some (Config.freeValue s.fresh), s.fresh + 1)
          else (none, s.fresh)
        let t := { t.putRegs l live false with
          live := live, token := t.token || flags.getLsbD 2, phases := flags.extractLsb' 16 4, disband := disband, frame := 0 }
        let t := match t.image with
          | none => t
          | some (image, mask) =>
            if (dwordAt image 0x5F8).getLsbD 0 then
              { t with mode := .parked, wait := .ctxTake cid, reason := 12, waitLen := 4, parkedAt := now,
                       wkey := match (s.core cid).owner with | some o => BitVec.ofNat 64 o | none => 0 }
            else { t.putRegs image mask true with image := none, pc := t.pc + 4 }
        let t := match t.goes with
          | none => t
          | some h => { t with mode := .parked, wait := h.wait, reason := h.reason, wkey := h.wkey, wtime := h.wtime, waitLen := h.waitLen,
                               parkedAt := now, goes := none }
        let s := { s.setSlotAt k t with fresh := fresh }
        let s := if owned then s.putContext k l else s
        some ((s.freeFrame pcl t.launch t.track frame (large || owned)).recWrite rec' 0x08 0)
/-- A baton that waits for the context of its core is restored once that is free (R110, R111). -/
def State.restoreWaiting (s : State) (k : Nat) : State :=
  let t := s.slotAt k
  let rec' := slotRecord k t
  match t.wait with
  | .restore frame large _ =>
    if t.mode = .parked ∧ (s.core (keyCid k)).owner = none then
      s.onSpad k fun s => s.withFrame rec' t.track .read frame (frameBytes large) fun s =>
        match s.restoreFrame k rec' t.unpark frame large with
        | some s => s
        | none => (s.setSlotAt k Slot.empty).abortReady rec' t.launch large
    else s
  | _ => s

/-! ## Pick-up (R91) -/

/-- Free slots of a core, lowest first. -/
def State.freeSlots (s : State) (cid : Nat) : List Nat := (List.range 4).filter fun i => (s.slotAt (slotKey cid i)).mode == .empty
/-- The core of a cluster with the most free slots, the lowest member index on a tie; none while no slot is free. -/
def State.pickCore (s : State) (pcl : Nat) : Option Nat :=
  let best := (List.range 16).foldl (fun (b : Nat × Nat) m =>
    let n := (s.freeSlots (coreOf pcl m)).length
    if b.2 < n then (m, n) else b) (0, 0)
  if best.2 = 0 then none else some (coreOf pcl best.1)
/-- The head of a ready queue that the dispatcher may take. -/
def State.readyHead (s : State) (c : Cluster) (role : BitVec 2) : Option Ready := (c.queue role).find? fun r => !s.launchHeld r.launch
/-- The age of a READY baton (R91). -/
def State.ageOf (s : State) (rec' : Nat) : Nat := ((s.recRead rec' 0x18).extractLsb' 56 8).toNat
/-- The baton that the dispatcher dequeues next (R91), with its role's queue. -/
def State.nextReady (s : State) (pcl : Nat) : Option (BitVec 2 × Ready) :=
  let c := s.cluster pcl
  let heads := (List.range 4).filterMap fun r => (s.readyHead c (BitVec.ofNat 2 r)).map fun h => (BitVec.ofNat 2 r, h)
  let aged := heads.filter fun h => 16 ≤ s.ageOf h.2.record
  match aged with
  | a :: r => some (r.foldl (fun m h => if h.2.order < m.2.order then h else m) a)
  | [] => heads.head?
/-- The queue without a record; WKEY of the one before it links to the one after (R90). -/
def State.dequeue (s : State) (pcl : Nat) (role : BitVec 2) (r : Ready) : State :=
  let c := s.cluster pcl
  let q := c.queue role
  let s := match q.findIdx? (fun x => x.record == r.record) with
    | some (i + 1) =>
      (match q[i]? with
       | some p => s.recWrite p.record 0x20 (match q[i + 2]? with | some n => recLocal n.record | none => 0)
       | none => s)
    | _ => s
  let c := s.cluster pcl
  s.setCluster pcl (c.setQueue role (q.filter fun x => x.record != r.record))
/-- A record that is not run at pick-up: a reserved state or reason code (R92). -/
def ctrlReserved (ctrl : Dword) : Bool := decide (4 < (ctrl.extractLsb' 4 4).toNat) || decide (13 < (ctrl.extractLsb' 8 8).toNat)
/-- A READY baton that has been dequeued starts in a slot, or is restored into it (R91, R133). -/
def State.pickUp (s : State) (pcl k : Nat) (r : Ready) : State :=
  let frame := s.recRead r.record 0x08
  let large := s.frameLarge r.record
  let started :=
    if frame = 0 then some (s.firstStart k r.record r.launch)
    else s.restoreFrame k r.record (s.slotFor r.record r.launch) frame.toNat large
  let s := match started with
    | none => s.abortReady r.record r.launch large
    | some s =>
      let t := s.slotAt k
      (s.dropAway r.record).recWrite r.record 0x18 (if t.mode = SlotMode.parked then t.ctrl 2 t.reason.toNat else t.ctrl 1 0)
  let c := s.cluster pcl
  (s.setCluster pcl { c with tokens := c.tokens.filter (· != r.record) }).applyLog (pcl / 24)
/-- BATON_DISPATCH: one pick-up of a cluster's dispatcher (R91), as soon as the record and the frame can be read, into the lowest free slot of the core
(DESIGN CHOICE, log entry 139). -/
def State.dispatch (s : State) (pcl : Nat) : State :=
  match s.pickCore pcl, s.nextReady pcl with
  | some cid, some (role, r) =>
    if !s.dieUp (pcl / 24) then s
    else
      s.inTurn (pcl / 24) (schedKey pcl) 0 [spadCell pcl 0] fun s =>
        let ctrl := s.recRead r.record 0x18
        if ctrlReserved ctrl then (s.dequeue pcl role r).abortReady r.record r.launch (s.frameLarge r.record)
        else
          s.withFrame r.record (ctrl.extractLsb' 16 16) .read (s.recRead r.record 0x08).toNat (frameBytes (s.frameLarge r.record)) fun s =>
            (s.dequeue pcl role r).pickUp pcl (slotKey cid ((s.freeSlots cid).headD 0)) r
  | _, _ => s

/-! ## Eviction (R95) -/

/-- The cluster has a READY baton that the dispatcher may take and no free slot. -/
def State.evictNeeded (s : State) (pcl : Nat) : Bool :=
  (s.pickCore pcl).isNone && (s.nextReady pcl).isSome
/-- May a parked baton be evicted. -/
def State.evictable (s : State) (k : Nat) : Bool :=
  let t := s.slotAt k
  let now := s.swcAt (keyDie k)
  t.mode == .parked && (decide (t.parkedAt + 256 ≤ now) || decide (now + 4096 < t.wtime.toNat)) && (s.gangOf (slotRecord k t)).isNone
/-- The victim of a cluster: a baton without the matrix context before one with it, then the one parked longest; of several, the one of the lowest
member and slot (DESIGN CHOICE, log entry 138). -/
def State.victim (s : State) (pcl : Nat) : Option Nat :=
  let ks := ((List.range 16).flatMap fun m => (List.range 4).map fun i => slotKey (coreOf pcl m) i).filter s.evictable
  let key := fun (k : Nat) => ((if (s.core (keyCid k)).owner = some (keySlot k) then 1 else 0), (s.slotAt k).parkedAt)
  match ks with
  | [] => none
  | k :: r => some (r.foldl (fun m j =>
      let a := key m
      let b := key j
      if b.1 < a.1 ∨ (b.1 = a.1 ∧ b.2 < a.2) then j else m) k)
/-- BATON_EVICT: the victim of its cluster is saved and made WAITING; one that cannot get a frame stays PARKED (R95, R148). -/
def State.evict (s : State) (cid slot : Nat) : State :=
  let k := slotKey cid slot
  if s.evictNeeded (cidPcl cid) && s.victim (cidPcl cid) == some k then
    let s := s.settle k
    if s.canSave k then s.saving k fun s => (s.saveOut k 0 false).getD s else s
  else s
/-- BAT.YIELD's save (R222): READY at the tail of its queue, the pc at the next instruction; false where it is a no-op (R148). -/
def State.yieldOut (s : State) (k : Nat) (live next : Dword) : Option State :=
  let s := s.setSlotAt k { s.slotAt k with live := live, pc := next }
  s.saveOut k 0 false

end Sys2Proof.Machine
end

