-- ==== Sys2Proof/Machine/Gang.lean ====
section
/-!
DEFINITION. Gangs: member sets, formation and its end (R106, R236), faults that reach a member (R108), and a gang that is saved
(R112).
-/
namespace Sys2Proof.Machine

/-- The member index of a core in a gang of a size (R106). -/
def gangIndex (cid log2 : Nat) : Nat :=
  if log2 = 1 then cidCol cid % 2 else if log2 = 2 then cidCore cid else cidQuad cid % 2 * 4 + cidCore cid
/-- The cores of the gang of a size that contains a core, by member index (R106). -/
def gangSet (cid log2 : Nat) : List Nat :=
  if log2 = 1 then (List.range 2).map fun i => mkCid (cidDie cid) (cidRow cid) (cidCol cid / 2 * 2 + i)
  else if log2 = 2 then (List.range 4).map fun i => coreOf (cidPcl cid) (cidQuad cid * 4 + i)
  else (List.range 8).map fun i => coreOf (cidPcl cid) (cidQuad cid / 2 * 8 + i)
/-- A gang, forming or active, of which a record's baton is a member: its key, the gang and the member index. -/
def State.anyGangOf (s : State) (rec' : Nat) : Option (Nat × Gang × Nat) :=
  s.gangs.findSome? fun p => (p.2.members.findIdx? (· == some rec')).map fun i => (p.1, p.2, i)
/-- A gang, forming or active, in which some slot of a core is. -/
def State.gangAt (s : State) (cid : Nat) : Option (Nat × Gang) :=
  s.gangs.find? fun p =>
    match p.2.cids.findIdx? (· == cid) with
    | some i => (p.2.members.getD i none).isSome
    | none => false
/-- A gang becomes active: every member's rd receives its index, CTRL [55:48] takes the size and index, and every member stands at the
leader's next instruction (R106, R236). -/
def State.formGang (s : State) (key : Nat) (g : Gang) : State :=
  let s := { s with gangs := kdel key s.gangs }
  let s := (List.range g.members.length).foldl (fun s i =>
    match g.members.getD i none with
    | none => s
    | some r =>
      let gi := BitVec.ofNat 4 i
      let gs := BitVec.ofNat 4 g.log2
      let rd : Reg := match s.waitOf r with | .gang rd _ _ _ => rd | _ => 0
      let s := match s.findSlot r with
        | some k =>
          let t := s.slotAt k
          s.setSlotAt k { t with gangSize := gs, gangIdx := gi, csr := { t.csr with xgangidx := BitVec.ofNat 3 i } }
        | none =>
          let c := s.recRead r 0x18
          s.recWrite r 0x18 (c.extractLsb' 56 8 ++ gs ++ gi ++ c.extractLsb' 0 48)
      s.finishWait r (.x rd (BitVec.ofNat 64 i))) s
  let lead := (g.members.getD g.leader none).getD 0
  let pc := match s.findSlot lead with | some k => (s.slotAt k).pc | none => s.recRead lead 0x00
  let s := (List.range g.members.length).foldl (fun s i =>
    match g.members.getD i none with
    | none => s
    | some r =>
      match s.findSlot r with
      | some k => s.setSlotAt k { s.slotAt k with pc := pc }
      | none => s.recWrite r 0x00 pc) s
  s.setGang key { g with active := true, issued := [], nextPc := pc }
/-- A waiting baton's WKEY, in its slot or out of it. -/
def State.setWkey (s : State) (r : Nat) (v : Dword) : State :=
  match s.findSlot r with
  | some k => s.setSlotAt k { s.slotAt k with wkey := v }
  | none => match s.findAway r with | some a => (s.setAway r { a with wkey := v }).recWrite r 0x20 v | none => s
/-- A record joins a forming gang at its core's place, its WKEY the leader's CID (R92); the last one makes it active. -/
def State.joinGang (s : State) (key : Nat) (g : Gang) (i r : Nat) : State :=
  let g := { g with members := g.members.set i (some r) }
  let s := s.setWkey r (BitVec.ofNat 64 (g.cids.getD g.leader 0))
  if g.members.all Option.isSome then s.formGang key g else s.setGang key g
/-- The forming gang that a joiner of a core, size and track can join. -/
def State.joinable (s : State) (cid log2 : Nat) (tk : BitVec 16) : Option (Nat × Gang × Nat) :=
  s.gangs.findSome? fun p =>
    if !p.2.active && p.2.log2 == log2 && p.2.track == tk then
      match p.2.cids.findIdx? (· == cid) with
      | some i => if (p.2.members.getD i none).isNone then some (p.1, p.2, i) else none
      | none => none
    else none
/-- The track of a baton, in a slot or out of it. -/
def State.trackOf (s : State) (r : Nat) : BitVec 16 :=
  match s.findSlot r with
  | some k => (s.slotAt k).track
  | none => (s.recRead r 0x18).extractLsb' 16 16
/-- Waiting joiners enter a gang that has begun to form. -/
def State.absorbJoiners (s : State) (key : Nat) : State :=
  s.waiting.foldl (fun s w =>
    match w.2, kfind s.gangs key with
    | .gang _ log2 cid false, some g =>
      if !g.active && (s.anyGangOf w.1).isNone && g.log2 == log2 && g.track == s.trackOf w.1 then
        match g.cids.findIdx? (· == cid) with
        | some i => if (g.members.getD i none).isNone then s.joinGang key g i w.1 else s
        | none => s
      else s
    | _, _ => s) s
/-- A baton's formation deadline, in its slot or out of it. -/
def State.formationEnd (s : State) (r : Nat) : Dword :=
  match s.findSlot r with
  | some k => (s.slotAt k).wtime
  | none => match s.findAway r with | some a => a.wtime | none => 0
/-- A gang overlaps a set of cores: some of its members' cores lie in it, by its whole member set. -/
def State.overlaps (s : State) (cids : List Nat) : Bool := s.gangs.any fun p => p.2.cids.any cids.contains
/-- GANG.LEAD in a slot, with its formation deadline (R106, R236): while another slot of its core is in a gang it waits, a set that overlaps another
gang traps at once with GANG_DISBAND, the pc at the following instruction, and otherwise a gang begins to form. -/
def State.leadGang (s : State) (k : Nat) (rd : Reg) (n : Nat) (by' : Dword) : State :=
  let cid := keyCid k
  let t := s.slotAt k
  let cids := gangSet cid n
  if (s.gangAt cid).isSome then s.parkSlot k (.gang rd n cid true) 11 (BitVec.ofNat 64 cid) by' 4
  else if s.overlaps cids then (s.retire cid).deliver k 27 (BitVec.allOnes 64) 0 (t.pc + 4) false
  else
    let i := gangIndex cid n
    let r := slotRecord k t
    let g : Gang := { log2 := n, track := t.track, members := (List.replicate (2 ^ n) none).set i (some r), cids := cids, leader := i,
                      active := false, deadline := by'.toNat, code := [], issued := [], nextPc := 0, ending := false, wide := 0 }
    ((s.parkSlot k (.gang rd n cid false) 11 (BitVec.ofNat 64 cid) by' 4).setGang r g).absorbJoiners r
/-- A GANG.LEAD's wait for another slot's gang ends when that gang has disbanded (R236): it goes on, and the wait has counted against its deadline. -/
def State.wakeLeads (s : State) : State :=
  s.waiting.foldl (fun s w =>
    match w.2 with
    | .gang rd n cid true =>
      if (s.anyGangOf w.1).isNone && (s.gangAt cid).isNone then
        s.goOn w.1 (fun _ => []) fun s' => s'.leadGang s'.focus rd n (s.formationEnd w.1)
      else s
    | _ => s) s
/-- GANG_DISBAND for a baton whose formation has failed: it goes on at the following instruction, where it takes the trap (R106, R138). -/
def State.failFormation (s : State) (r : Nat) : State :=
  match s.findSlot r with
  | some k =>
    let t := s.slotAt k
    s.setSlotAt k { t.unpark with pc := t.pc + BitVec.ofNat 64 t.waitLen, disband := some (BitVec.allOnes 64) }
  | none =>
    match s.findAway r with
    | none => s
    | some a =>
      let s := s.disbandAway r (BitVec.allOnes 64)
      let s := s.recWrite r 0x00 (s.recRead r 0x00 + BitVec.ofNat 64 a.waitLen)
      let s := s.setAway r { a with wait := .none, waitLen := 0, satisfied := true, disband := some (BitVec.allOnes 64) }
      if a.preempted then s else s.enqueue r a.launch
/-- The formation deadline of a baton, in a slot or out of it, has passed: every member that has lead or joined takes GANG_DISBAND (R106). -/
def State.formationPoll (s : State) (r : Nat) : State :=
  match s.waitOf r with
  | .gang .. =>
    if (s.formationEnd r).toNat ≤ s.swcAt (recPcl r / 24) then
      match s.anyGangOf r with
      | some (key, g, _) =>
        if g.active then s
        else
          let s := { s with gangs := kdel key s.gangs }
          ((g.members.filterMap id).foldl State.failFormation s).wakeLeads
      | none => s.failFormation r
    else s
  | _ => s
/-- GANG_FORMATION_TIMEOUT of a slot's baton. -/
def State.formationTimeout (s : State) (cid slot : Nat) : State :=
  let k := slotKey cid slot
  if (s.slotAt k).mode = .parked then s.formationPoll (slotRecord k (s.slotAt k)) else s
/-- The fault that a baton takes at an instruction boundary, and those it keeps: the trap of the instruction at which it stands first, then
the oldest held fault, which waits while BUSY is 1 (R138). -/
def Slot.nextFault (t : Slot) : Option (Deferred × List Deferred) :=
  match t.deferred.find? Deferred.sync with
  | some d => some (d, t.deferred.erase d)
  | none =>
    if t.busy then none
    else match t.deferred with | d :: r => some (d, r) | [] => none
/-- Whose delivery of a fault reads FVEC in its record: a REMOTE_FAULT's (R138). -/
def State.readsFvec (s : State) (k : Nat) : Bool := (s.slotAt k).nextFault.any fun f => f.1.cause == 26
/-- The delivery of faults to slots: where one reads its FVEC it takes its turn at the scratchpad (R138, R156). -/
def State.withFvec (s : State) : List Nat → (State → State) → State
  | [], f => f s
  | k :: ks, f => if s.readsFvec k then s.onSpad k fun s => s.withFvec ks f else s.withFvec ks f
/-- A deferred fault of members of an active gang, at a boundary between two instructions (R108): each member with a deliverable fault takes
its own, every other GANG_DISBAND with the lowest index among the faulted, all at the next instruction. -/
def State.gangFaults (s : State) (key : Nat) (g : Gang) : State :=
  if g.issued ≠ [] then s
  else
    let ms := s.gangSlots g
    let faulted := ms.filter fun m => (s.slotAt m.2).nextFault.isSome
    match faulted with
    | [] => s
    | f :: _ => s.withFvec (faulted.map Prod.snd) fun s =>
      let low := BitVec.ofNat 64 (faulted.foldl (fun n m => min n m.1) f.1)
      let s := (s.gangAway g).foldl (fun s m => s.disbandAway m.2 low) (s.disbandGang key g)
      (ms.foldl (fun s m =>
        let t := s.slotAt m.2
        if faulted.contains m then
          match t.nextFault with
          | some (d, r) => (s.setSlotAt m.2 { t with deferred := r }).deliver m.2 d.cause d.value d.status (d.at'.getD t.pc) d.posted
          | none => s
        else s.deliver m.2 27 low 0 t.pc false) s).wakeLeads
/-- A deferred fault at a slot's instruction boundary (R138): a pending GANG_DISBAND first (R111), then the baton's next fault. -/
def State.deliverDeferred (s : State) (k : Nat) : State :=
  let t := s.slotAt k
  if t.mode ≠ .running then s
  else
    match s.gangOf (slotRecord k t) with
    | some (key, g, _) => s.gangFaults key g
    | none =>
      match t.disband with
      | some v => (s.setSlotAt k { t with disband := none }).deliver k 27 v 0 t.pc false
      | none =>
        match t.nextFault with
        | some (d, r) => s.withFvec [k] fun s =>
          (s.setSlotAt k { t with deferred := r }).deliver k d.cause d.value d.status (d.at'.getD t.pc) d.posted
        | none => s
/-- A slot has a deferred fault or GANG_DISBAND to take before its next instruction. -/
def State.faultDue (s : State) (k : Nat) : Bool :=
  let t := s.slotAt k
  match s.gangOf (slotRecord k t) with
  | some (_, g, _) => g.issued == [] && (s.gangSlots g).any fun m => (s.slotAt m.2).nextFault.isSome
  | none => t.disband.isSome || t.nextFault.isSome
/-- An active gang ends because it is saved (R112): a member that has completed the current instruction stands at the next one, every other member
stands at the instruction, where one in which it trapped will trap again, and every member takes GANG_DISBAND at its first instruction (log entry
91). A gang-wide instruction that some members have issued is taken out of their queues, and every member stands at it (R246). The XUTVAL of that
GANG_DISBAND is stated nowhere: a free value. -/
def State.breakGang (s : State) (key : Nat) (g : Gang) : State :=
  let ms := s.gangSlots g
  let leaderDone := g.issued.any fun p => p.1 == g.leader && p.2 == .completed
  let away := s.gangAway g
  let s := if g.wide = 0 then s.disbandGang key g else (s.disbandGang key g).mapWide g.wide fun _ => none
  let s := ms.foldl (fun s m =>
    let t := s.slotAt m.2
    let v := Config.freeValue s.fresh
    let s := { s with fresh := s.fresh + 1 }
    let done := g.wide == 0 && g.issued.any fun p => p.1 == m.1 && p.2 == .completed
    s.setSlotAt m.2 { t with
      pc := if !done then t.pc else if leaderDone then g.nextPc else t.pc + BitVec.ofNat 64 g.code.length, disband := some v }) s
  (away.foldl (fun s m => { s with fresh := s.fresh + 1 }.disbandAway m.2 (Config.freeValue s.fresh)) s).wakeLeads

end Sys2Proof.Machine
end

