-- ==== Sys2Proof/Machine/Operands.lean ====
section
/-!
DEFINITION. Operand forms: addresses and targets of the standard instructions (R191), compressed registers and immediates (Zca), the
words of custom instructions (R196), and the x registers that an instruction names (R103).
-/
namespace Sys2Proof.Machine

/-- The address of a load, store, JALR or immediate operand: xreg[rs1] + sext(imm12). -/
def State.ea (s : State) (rs1 : Reg) (imm : BitVec 12) : Dword := s.x rs1 + sext64 imm
/-- A target relative to the pc: a signed offset in halfwords. -/
def State.target {n : Nat} (s : State) (off : BitVec n) : Dword := s.me.pc + sext64 off <<< 1
/-- The pc of the instruction that executes. -/
def State.pc (s : State) : Dword := s.me.pc
/-- A W result: the low 32 bits, sign-extended. -/
def sextW (v : Dword) : Dword := (v.extractLsb' 0 32).signExtend 64
/-- The low word of a register. -/
def lowW (v : Dword) : BitVec 32 := v.extractLsb' 0 32
/-- An immediate of 6 bits, sign-extended (Zca). -/
def simm6 (i : BitVec 6) : Dword := sext64 i
/-- An unsigned scaled immediate (Zca). -/
def uimm {n : Nat} (i : BitVec n) (sh : Nat) : Dword := zext64 i <<< sh
/-- A custom word in the XR or XG format (R196). -/
def xrWord (op4 opt3 rs2 rs1 f3 rd op : Nat) : Word32 :=
  BitVec.ofNat 32 (op4 * 2 ^ 28 + opt3 * 2 ^ 25 + rs2 * 2 ^ 20 + rs1 * 2 ^ 15 + f3 * 2 ^ 12 + rd * 2 ^ 7 + op)
/-- The scope that a two-bit field names (R198), as a level: 0 CLUSTER to 3 SYSTEM. -/
def scopeOf (b : BitVec 2) : Nat := b.toNat

/-- A number for every register of a slot: 0 to 31 the x registers, 32 to 63 the v registers, and from 64 on the st registers. -/
def regOfX (r : Reg) : Nat := r.toNat
/-- See `regOfX`. -/
def regOfV (phys : Nat) : Nat := 32 + phys
/-- See `regOfX`. -/
def regOfSt (i : BitVec 3) : Nat := 64 + i.toNat
/-- The even register of a pair field, and the odd one after it. -/
def pairReg (p : BitVec 4) (odd : Bool) : Reg := p ++ BitVec.ofBool odd

/-- The x registers that an instruction names, which are not ready while an ST.SKIP that writes one has not completed (R103, R277). An
event names none. -/
def instrXregs : Instr → List Reg
  | .lui rd _ => [rd]
  | .auipc rd _ => [rd]
  | .jal rd _ => [rd]
  | .jalr rd rs1 _ => [rd, rs1]
  | .beq rs1 rs2 _ => [rs1, rs2]
  | .bne rs1 rs2 _ => [rs1, rs2]
  | .blt rs1 rs2 _ => [rs1, rs2]
  | .bge rs1 rs2 _ => [rs1, rs2]
  | .bltu rs1 rs2 _ => [rs1, rs2]
  | .bgeu rs1 rs2 _ => [rs1, rs2]
  | .lb rd rs1 _ => [rd, rs1]
  | .lh rd rs1 _ => [rd, rs1]
  | .lw rd rs1 _ => [rd, rs1]
  | .ld rd rs1 _ => [rd, rs1]
  | .lbu rd rs1 _ => [rd, rs1]
  | .lhu rd rs1 _ => [rd, rs1]
  | .lwu rd rs1 _ => [rd, rs1]
  | .sb rs1 rs2 _ => [rs1, rs2]
  | .sh rs1 rs2 _ => [rs1, rs2]
  | .sw rs1 rs2 _ => [rs1, rs2]
  | .sd rs1 rs2 _ => [rs1, rs2]
  | .addi rd rs1 _ => [rd, rs1]
  | .slti rd rs1 _ => [rd, rs1]
  | .sltiu rd rs1 _ => [rd, rs1]
  | .xori rd rs1 _ => [rd, rs1]
  | .ori rd rs1 _ => [rd, rs1]
  | .andi rd rs1 _ => [rd, rs1]
  | .slli rd rs1 _ => [rd, rs1]
  | .srli rd rs1 _ => [rd, rs1]
  | .srai rd rs1 _ => [rd, rs1]
  | .addiw rd rs1 _ => [rd, rs1]
  | .slliw rd rs1 _ => [rd, rs1]
  | .srliw rd rs1 _ => [rd, rs1]
  | .sraiw rd rs1 _ => [rd, rs1]
  | .add rd rs1 rs2 => [rd, rs1, rs2]
  | .sll rd rs1 rs2 => [rd, rs1, rs2]
  | .slt rd rs1 rs2 => [rd, rs1, rs2]
  | .sltu rd rs1 rs2 => [rd, rs1, rs2]
  | .xor rd rs1 rs2 => [rd, rs1, rs2]
  | .srl rd rs1 rs2 => [rd, rs1, rs2]
  | .or rd rs1 rs2 => [rd, rs1, rs2]
  | .and rd rs1 rs2 => [rd, rs1, rs2]
  | .sub rd rs1 rs2 => [rd, rs1, rs2]
  | .sra rd rs1 rs2 => [rd, rs1, rs2]
  | .mul rd rs1 rs2 => [rd, rs1, rs2]
  | .mulh rd rs1 rs2 => [rd, rs1, rs2]
  | .mulhsu rd rs1 rs2 => [rd, rs1, rs2]
  | .mulhu rd rs1 rs2 => [rd, rs1, rs2]
  | .div rd rs1 rs2 => [rd, rs1, rs2]
  | .divu rd rs1 rs2 => [rd, rs1, rs2]
  | .rem rd rs1 rs2 => [rd, rs1, rs2]
  | .remu rd rs1 rs2 => [rd, rs1, rs2]
  | .addw rd rs1 rs2 => [rd, rs1, rs2]
  | .sllw rd rs1 rs2 => [rd, rs1, rs2]
  | .srlw rd rs1 rs2 => [rd, rs1, rs2]
  | .subw rd rs1 rs2 => [rd, rs1, rs2]
  | .sraw rd rs1 rs2 => [rd, rs1, rs2]
  | .mulw rd rs1 rs2 => [rd, rs1, rs2]
  | .divw rd rs1 rs2 => [rd, rs1, rs2]
  | .divuw rd rs1 rs2 => [rd, rs1, rs2]
  | .remw rd rs1 rs2 => [rd, rs1, rs2]
  | .remuw rd rs1 rs2 => [rd, rs1, rs2]
  | .fence rd rs1 _ _ => [rd, rs1]
  | .fenceTso rd rs1 _ _ => [rd, rs1]
  | .fenceI rd rs1 _ => [rd, rs1]
  | .ecall => [10, 17]
  | .ebreak => []
  | .wfi => []
  | .csrrw rd rs1 _ => [rd, rs1]
  | .csrrs rd rs1 _ => [rd, rs1]
  | .csrrc rd rs1 _ => [rd, rs1]
  | .csrrwi rd _ _ => [rd]
  | .csrrsi rd _ _ => [rd]
  | .csrrci rd _ _ => [rd]
  | .lr rd rs1 _ _ _ => [rd, rs1]
  | .sc rd rs1 rs2 _ _ _ => [rd, rs1, rs2]
  | .amoswap rd rs1 rs2 _ _ _ => [rd, rs1, rs2]
  | .amoadd rd rs1 rs2 _ _ _ => [rd, rs1, rs2]
  | .amoxor rd rs1 rs2 _ _ _ => [rd, rs1, rs2]
  | .amoand rd rs1 rs2 _ _ _ => [rd, rs1, rs2]
  | .amoor rd rs1 rs2 _ _ _ => [rd, rs1, rs2]
  | .amomin rd rs1 rs2 _ _ _ => [rd, rs1, rs2]
  | .amomax rd rs1 rs2 _ _ _ => [rd, rs1, rs2]
  | .amominu rd rs1 rs2 _ _ _ => [rd, rs1, rs2]
  | .amomaxu rd rs1 rs2 _ _ _ => [rd, rs1, rs2]
  | .faddS rd rs1 rs2 _ => [rd, rs1, rs2]
  | .fsubS rd rs1 rs2 _ => [rd, rs1, rs2]
  | .fmulS rd rs1 rs2 _ => [rd, rs1, rs2]
  | .fdivS rd rs1 rs2 _ => [rd, rs1, rs2]
  | .fsqrtS rd rs1 _ => [rd, rs1]
  | .fsgnjS rd rs1 rs2 => [rd, rs1, rs2]
  | .fsgnjnS rd rs1 rs2 => [rd, rs1, rs2]
  | .fsgnjxS rd rs1 rs2 => [rd, rs1, rs2]
  | .fminS rd rs1 rs2 => [rd, rs1, rs2]
  | .fmaxS rd rs1 rs2 => [rd, rs1, rs2]
  | .fleS rd rs1 rs2 => [rd, rs1, rs2]
  | .fltS rd rs1 rs2 => [rd, rs1, rs2]
  | .feqS rd rs1 rs2 => [rd, rs1, rs2]
  | .fcvtWS rd rs1 _ => [rd, rs1]
  | .fcvtWuS rd rs1 _ => [rd, rs1]
  | .fcvtLS rd rs1 _ => [rd, rs1]
  | .fcvtLuS rd rs1 _ => [rd, rs1]
  | .fcvtSW rd rs1 _ => [rd, rs1]
  | .fcvtSWu rd rs1 _ => [rd, rs1]
  | .fcvtSL rd rs1 _ => [rd, rs1]
  | .fcvtSLu rd rs1 _ => [rd, rs1]
  | .fclassS rd rs1 => [rd, rs1]
  | .fmaddS rd rs1 rs2 rs3 _ => [rd, rs1, rs2, rs3]
  | .fmsubS rd rs1 rs2 rs3 _ => [rd, rs1, rs2, rs3]
  | .fnmsubS rd rs1 rs2 rs3 _ => [rd, rs1, rs2, rs3]
  | .fnmaddS rd rs1 rs2 rs3 _ => [rd, rs1, rs2, rs3]
  | .cAddi4spn rd _ => [creg rd, 2]
  | .cLw rd rs1 _ => [creg rd, creg rs1]
  | .cLd rd rs1 _ => [creg rd, creg rs1]
  | .cSw rs1 rs2 _ => [creg rs1, creg rs2]
  | .cSd rs1 rs2 _ => [creg rs1, creg rs2]
  | .cAddi rd _ => [rd]
  | .cNop _ => []
  | .cAddiw rd _ => [rd]
  | .cLi rd _ => [rd]
  | .cAddi16sp _ => [2]
  | .cLui rd _ => [rd]
  | .cSrli rd _ => [creg rd]
  | .cSrai rd _ => [creg rd]
  | .cAndi rd _ => [creg rd]
  | .cSub rd rs2 => [creg rd, creg rs2]
  | .cXor rd rs2 => [creg rd, creg rs2]
  | .cOr rd rs2 => [creg rd, creg rs2]
  | .cAnd rd rs2 => [creg rd, creg rs2]
  | .cSubw rd rs2 => [creg rd, creg rs2]
  | .cAddw rd rs2 => [creg rd, creg rs2]
  | .cJ _ => []
  | .cBeqz rs1 _ => [creg rs1]
  | .cBnez rs1 _ => [creg rs1]
  | .cSlli rd _ => [rd]
  | .cLwsp rd _ => [rd, 2]
  | .cLdsp rd _ => [rd, 2]
  | .cJr rs1 => [rs1]
  | .cMv rd rs2 => [rd, rs2]
  | .cEbreak => []
  | .cJalr rs1 => [rs1, 1]
  | .cAdd rd rs2 => [rd, rs2]
  | .cSwsp rs2 _ => [rs2, 2]
  | .cSdsp rs2 _ => [rs2, 2]
  | .illegalInstruction _ => []
  | .batSpawn rd rs1 => [rd, rs1]
  | .batSend rd rs1 rs2 => [rd, rs1, rs2, 10]
  | .batSendR rd rs1 rs2 => [rd, rs1, rs2, 10]
  | .batExit => []
  | .batYield rs1 => [rs1]
  | .batPark rd rs1 rs2 => [rd, rs1, rs2]
  | .batWake rs1 => [rs1]
  | .batRole rd rs1 => [rd, rs1]
  | .batSelf rd _ => [rd]
  | .hdInit rd rs1 rs2 _ => [rd, rs1, rs2]
  | .hdArrive rs1 rs2 _ => [rs1, rs2]
  | .hdArriveR rs1 rs2 _ => [rs1, rs2]
  | .hdWait rd rs1 rs2 => [rd, rs1, rs2]
  | .hdArrwait rd rs1 rs2 _ => [rd, rs1, rs2]
  | .hdTest rd rs1 => [rd, rs1]
  | .hdWithdraw rs1 rs2 _ => [rs1, rs2]
  | .hdWithdrawR rs1 rs2 _ => [rs1, rs2]
  | .hdJoin rs1 => [rs1]
  | .hdJoinR rs1 => [rs1]
  | .lapEnd rd _ => [rd]
  | .domRd rd _ => [rd]
  | .waitUntil rd rs1 => [rd, rs1]
  | .waitPromise rs1 => [rs1]
  | .msgSend rd rs1 rs2 => [rd, rs1, rs2]
  | .msgRecv rd rs1 _ => [rd, rs1]
  | .msgPoll rd rs1 _ => [rd, rs1]
  | .rctSet rs1 rs2 => [rs1, rs2]
  | .rctHold rs1 => [rs1]
  | .rctRelease rs1 => [rs1]
  | .ldAq rd rs1 _ _ _ => [rd, rs1]
  | .stRl rs1 rs2 _ _ _ => [rs1, rs2]
  | .gangLead rd _ => [rd]
  | .gangJoin rd _ => [rd]
  | .gangEnd => []
  | .rrbSet rd rs1 => [rd, rs1]
  | .loopRot rd _ => [rd]
  | .xuret => []
  | .ctxSave rs1 rs2 => [rs1, rs2]
  | .ctxRestore rs1 rs2 => [rs1, rs2]
  | .stamClaim rd rs1 => [rd, rs1]
  | .stamRd rd _ => [rd]
  | .ivlPost rd rs1 => [rd, rs1]
  | .ivlSync rs1 => [rs1]
  | .grLaunch rd rs1 => [rd, rs1]
  | .grWait rd rs1 => [rd, rs1]
  | .xfence _ => []
  | .vaddFloat _ _ _ _ => []
  | .vsubFloat _ _ _ _ => []
  | .vmulFloat _ _ _ _ => []
  | .vminFloat _ _ _ _ => []
  | .vmaxFloat _ _ _ _ => []
  | .vabsFloat _ _ _ => []
  | .vnegFloat _ _ _ => []
  | .vdiv _ _ _ _ => []
  | .vsqrt _ _ _ _ => []
  | .vrsq _ _ _ _ => []
  | .vaddInt _ _ _ _ => []
  | .vsubInt _ _ _ _ => []
  | .vmulInt _ _ _ _ => []
  | .vminInt _ _ _ _ => []
  | .vmaxInt _ _ _ _ => []
  | .vabsInt _ _ _ => []
  | .vnegInt _ _ _ => []
  | .vand _ _ _ _ => []
  | .vor _ _ _ _ => []
  | .vxor _ _ _ _ => []
  | .vshl _ _ _ _ => []
  | .vshr _ _ _ _ => []
  | .vsra _ _ _ _ => []
  | .vcmp _ _ _ _ _ => []
  | .vsel _ _ _ _ => []
  | .vcvt _ _ _ _ _ => []
  | .vqnt _ _ _ => []
  | .vdqnt _ _ _ => []
  | .vredsum _ _ _ => []
  | .vredmax _ _ _ => []
  | .vperm _ _ _ _ => []
  | .vshuf _ _ _ _ => []
  | .vslide _ _ _ _ => []
  | .vsplat _ rs1 _ => [rs1]
  | .vins _ rs1 rs2 _ => [rs1, rs2]
  | .vext rd rs1 _ _ => [rd, rs1]
  | .vld _ rs1 _ => [rs1]
  | .vlds _ rs1 rs2 _ => [rs1, rs2]
  | .vldx _ rs1 _ _ => [rs1]
  | .vldb _ rs1 _ => [rs1]
  | .vldq _ rs1 rs2 _ => [rs1, rs2]
  | .vst _ rs1 _ => [rs1]
  | .vsts _ rs1 rs2 _ => [rs1, rs2]
  | .vstx _ rs1 _ _ => [rs1]
  | .vfma _ _ _ _ => []
  | .vfms _ _ _ _ => []
  | .vfnma _ _ _ _ => []
  | .vfnms _ _ _ _ => []
  | .mmTile _ _ _ => []
  | .panelStep _ => []
  | .mmZero _ _ => []
  | .mmWait => []
  | .mmDrain rs1 rs2 _ _ _ _ => [rs1, rs2]
  | .mmLoad rs1 rs2 _ _ _ => [rs1, rs2]
  | .mmMset rs1 rs2 _ _ => [rs1, rs2]
  | .mmTostrm _ _ _ _ => []
  | .stBind rs1 _ => [rs1]
  | .stFill rs1 _ _ => [rs1]
  | .stSkip rd rs1 _ => [rd, rs1]
  | .stStat rd _ => [rd]
  | .stFlush _ => []
  | .cpGet rd xg rs2 => [rd, xg, xg + 1, xg + 2, xg + 3, rs2]
  | .cpPut rd xg rs2 => [rd, xg, xg + 1, xg + 2, xg + 3, rs2]
  | .cpXfer rd xg rs2 => [rd, xg, xg + 1, xg + 2, xg + 3, rs2]
  | .cpFeed rd xg rs2 => [rd, xg, xg + 1, xg + 2, xg + 3, rs2]
  | .cpMcast rd xg => [rd, xg, xg + 1, xg + 2, xg + 3]
  | .cpFill rd xg rs2 => [rd, xg, xg + 1, xg + 2, xg + 3, rs2]
  | .cpGath rd xg rs2 => [rd, xg, xg + 1, xg + 2, xg + 3, rs2]
  | .cpScat rd xg rs2 => [rd, xg, xg + 1, xg + 2, xg + 3, rs2]
  | .cpAtom rd xg rs2 => [rd, xg, xg + 1, xg + 2, xg + 3, rs2]
  | .cpStat rd xg rs2 => [rd, xg, xg + 1, xg + 2, xg + 3, rs2]
  | .cpCancel rd xg => [rd, xg, xg + 1, xg + 2, xg + 3]
  | .bufMap rd rs1 rs2 => [rd, rs1, rs2]
  | .bufUnmap rd rs1 => [rd, rs1]
  | .bufShadow rd rs1 rs2 => [rd, rs1, rs2]
  | .bufPub rd rs1 => [rd, rs1]
  | .statInit _ => []
  | .statUpd _ rs1 => [rs1]
  | .statUpdw _ rs1 rs2 => [rs1, rs2]
  | .statMerge _ _ _ => []
  | .statLd _ rs1 => [rs1]
  | .statSt rs1 _ => [rs1]
  | .vstatUpd _ _ _ => []
  | .vstatUpdw _ _ _ _ => []
  | .statDrain rd _ rs2 _ => [rd, rs2, rd + 1]
  | .vstatNorm _ _ _ pair => [pairReg pair false, pairReg pair true]
  | .cycOpen rd rs1 => [rd, rs1]
  | .cycFreeze rd rs1 rs2 => [rd, rs1, rs2]
  | .cycIter rd rs1 => [rd, rs1]
  | .cycRes rs1 _ => [rs1]
  | .cycPass rs1 rs2 => [rs1, rs2]
  | .cycTake rd rs1 => [rd, rs1]
  | .cycNext rd rs1 => [rd, rs1]
  | .cycBwd rs1 rs2 => [rs1, rs2]
  | .cycStat rd rs1 _ => [rd, rs1]
  | .cycClose rs1 => [rs1]
  | .cycAbort rs1 => [rs1]
  | .clLoad rd rs1 rs2 => [rd, rs1, rs2]
  | .clRun rd rs1 rs2 => [rd, rs1, rs2]
  | .clWait rd rs1 => [rd, rs1]
  | .clCancel rs1 => [rs1]
  | .clGrp rd rs1 rs2 => [rd, rs1, rs2]
  | .clJoin rd rs1 rs2 => [rd, rs1, rs2]
  | .clLeave rd rs1 rs2 => [rd, rs1, rs2]
  | .clPause rs1 => [rs1]
  | .clResume rs1 => [rs1]
  | .powerOnReset => []
  | .resetRequest => []
  | .inputUndervoltage => []
  | .thermalReport _ _ => []
  | .dieReset _ => []
  | .dieReturn _ => []
  | .farModuleLoss _ => []
  | .relayDown _ => []
  | .linkFlit _ _ _ _ => []
  | .linkRetrain _ _ => []
  | .slotSyncMarker _ _ => []
  | .slotSync _ _ _ => []
  | .read _ => []
  | .write _ => []
  | .amo _ => []
  | .readReply _ => []
  | .writeAck _ => []
  | .faultReply _ => []
  | .msg _ => []
  | .msgAck _ => []
  | .msgResend _ => []
  | .msgMoved _ => []
  | .arrive _ => []
  | .copyData _ => []
  | .copyDone _ => []
  | .mcastData _ => []
  | .atomBatch _ => []
  | .chunk _ => []
  | .pause _ => []
  | .resume _ => []
  | .ivl _ => []
  | .rctUpd _ => []
  | .swcSync _ => []
  | .swcSyncSend => []
  | .swcSlew _ => []
  | .e2eAck _ => []
  | .e2eAckSend _ => []
  | .gatewayOutbound _ => []
  | .gatewayInbound _ => []
  | .replayTimeout _ _ => []
  | .planeIdleTimeout _ _ => []
  | .walkDone _ _ => []
  | .faultAnswer _ _ _ => []
  | .faultRecordTimeout _ _ => []
  | .logApply _ => []
  | .appliedIndexReport _ => []
  | .tierMove _ _ _ _ _ => []
  | .homeMove _ _ _ _ _ _ => []
  | .vaultCopyDone _ _ => []
  | .trkload _ => []
  | .trkloadDone => []
  | .hostApertureAccess _ _ _ _ _ => []
  | .intakeWrite _ => []
  | .intakecommit _ _ => []
  | .grdef _ => []
  | .grdefCopyDone => []
  | .prectlPreempt _ => []
  | .prectlResume _ => []
  | .prestatDone => []
  | .ckctlStart _ => []
  | .ckctlQuiesce _ => []
  | .ckctlRestore _ => []
  | .quiesceDone => []
  | .checkpointCopyDone => []
  | .restoreDone => []
  | .tftpResend => []
  | .fetchRestart => []
  | .imageVerify => []
  | .bankGate _ _ _ => []
  | .bankWake _ _ _ => []
  | .bankWakeDone _ _ _ => []
  | .registerWrite _ _ => []
  | .resourceReport _ => []
  | .launchAdmit => []
  | .admissionDeadline _ => []
  | .launchPlace => []
  | .placementTimeout _ => []
  | .energyMeasure _ _ => []
  | .batonDispatch _ => []
  | .ageTick => []
  | .slotPromotion _ => []
  | .pacerBind _ => []
  | .batonEvict _ _ => []
  | .waitDeadline _ _ => []
  | .gangFormationTimeout _ _ => []
  | .deferredFaultDelivery _ _ => []
  | .promiseMissed _ _ => []
  | .copyComplete _ _ => []
  | .feedPanel _ _ => []
  | .handleEntryLapse _ _ => []
  | .nodeStart _ _ _ => []
  | .nodeEnd _ _ _ => []
  | .stallTimeout _ _ => []
  | .pauseLimit _ _ => []
  | .reservationRelease _ _ => []
  | .functionReady _ => []
  | .functionFailure _ => []
  | .dispatchEntryComplete _ _ => []
  | .cycleControllerRequest => []
  | .managementEthernetFrame _ => []

/-- The v registers that an instruction names. -/
def instrVregs : Instr → List Reg
  | .vaddFloat vd vs1 vs2 _ => [vd, vs1, vs2]
  | .vsubFloat vd vs1 vs2 _ => [vd, vs1, vs2]
  | .vmulFloat vd vs1 vs2 _ => [vd, vs1, vs2]
  | .vminFloat vd vs1 vs2 _ => [vd, vs1, vs2]
  | .vmaxFloat vd vs1 vs2 _ => [vd, vs1, vs2]
  | .vabsFloat vd vs1 _ => [vd, vs1]
  | .vnegFloat vd vs1 _ => [vd, vs1]
  | .vdiv vd vs1 vs2 _ => [vd, vs1, vs2]
  | .vsqrt vd vs1 _ _ => [vd, vs1]
  | .vrsq vd vs1 _ _ => [vd, vs1]
  | .vaddInt vd vs1 vs2 _ => [vd, vs1, vs2]
  | .vsubInt vd vs1 vs2 _ => [vd, vs1, vs2]
  | .vmulInt vd vs1 vs2 _ => [vd, vs1, vs2]
  | .vminInt vd vs1 vs2 _ => [vd, vs1, vs2]
  | .vmaxInt vd vs1 vs2 _ => [vd, vs1, vs2]
  | .vabsInt vd vs1 _ => [vd, vs1]
  | .vnegInt vd vs1 _ => [vd, vs1]
  | .vand vd vs1 vs2 _ => [vd, vs1, vs2]
  | .vor vd vs1 vs2 _ => [vd, vs1, vs2]
  | .vxor vd vs1 vs2 _ => [vd, vs1, vs2]
  | .vshl vd vs1 vs2 _ => [vd, vs1, vs2]
  | .vshr vd vs1 vs2 _ => [vd, vs1, vs2]
  | .vsra vd vs1 vs2 _ => [vd, vs1, vs2]
  | .vcmp vd vs1 vs2 _ _ => [vd, vs1, vs2]
  | .vsel vd vs1 vs2 _ => [vd, vs1, vs2]
  | .vcvt vd vs1 _ _ _ => [vd, vs1]
  | .vqnt vd vs1 _ => [vd, pairReg vs1 false, pairReg vs1 true]
  | .vdqnt vd vs1 _ => [pairReg vd false, pairReg vd true, vs1]
  | .vredsum vd vs1 _ => [vd, vs1]
  | .vredmax vd vs1 _ => [vd, vs1]
  | .vperm vd vs1 vs2 _ => [vd, vs1, vs2]
  | .vshuf vd vs1 vs2 _ => [vd, vs1, vs2]
  | .vslide vd vs1 _ _ => [vd, vs1]
  | .vsplat vd _ _ => [vd]
  | .vins vd _ _ _ => [vd]
  | .vext _ _ vs2 _ => [vs2]
  | .vld vd _ _ => [vd]
  | .vlds vd _ _ _ => [vd]
  | .vldx vd _ vs2 _ => [vd, vs2]
  | .vldb vd _ _ => [vd]
  | .vldq vd _ _ _ => [vd]
  | .vst vs _ _ => [vs]
  | .vsts vs _ _ _ => [vs]
  | .vstx vs _ vs2 _ => [vs, vs2]
  | .vfma vd vs1 vs2 vs3 => [vd, vs1, vs2, vs3]
  | .vfms vd vs1 vs2 vs3 => [vd, vs1, vs2, vs3]
  | .vfnma vd vs1 vs2 vs3 => [vd, vs1, vs2, vs3]
  | .vfnms vd vs1 vs2 vs3 => [vd, vs1, vs2, vs3]
  | .vstatUpd _ vs1 _ => [vs1]
  | .vstatUpdw _ vs1 vs2 _ => [vs1, vs2]
  | .vstatNorm vd vs1 _ _ => [vd, vs1]
  | _ => []
/-- The st registers that an instruction names. -/
def instrStregs : Instr → List (BitVec 3)
  | .statInit std => [std]
  | .statUpd std _ => [std]
  | .statUpdw std _ _ => [std]
  | .statMerge std st1 st2 => [std, st1, st2]
  | .statLd std _ => [std]
  | .statSt _ st2 => [st2]
  | .vstatUpd std _ _ => [std]
  | .vstatUpdw std _ _ _ => [std]
  | .statDrain _ st1 _ _ => [st1]
  | .cycRes _ st2 => [st2]
  | _ => []
/-- Instructions that enter the dispatch queue of their core (R248, R266, R295). -/
def entersQueue : Instr → Bool
  | .vaddFloat .. | .vsubFloat .. | .vmulFloat .. | .vminFloat .. | .vmaxFloat .. | .vabsFloat .. | .vnegFloat .. | .vdiv .. => true
  | .vsqrt .. | .vrsq .. | .vaddInt .. | .vsubInt .. | .vmulInt .. | .vminInt .. | .vmaxInt .. | .vabsInt .. => true
  | .vnegInt .. | .vand .. | .vor .. | .vxor .. | .vshl .. | .vshr .. | .vsra .. | .vcmp .. => true
  | .vsel .. | .vcvt .. | .vqnt .. | .vdqnt .. | .vredsum .. | .vredmax .. | .vperm .. | .vshuf .. => true
  | .vslide .. | .vsplat .. | .vins .. | .vext .. | .vfma .. | .vfms .. | .vfnma .. | .vfnms .. => true
  | .mmTile .. | .mmZero .. | .mmDrain .. | .mmLoad .. | .mmMset .. | .mmTostrm .. | .stBind .. | .stFill .. => true
  | .stSkip .. | .vstatUpd .. | .vstatUpdw .. | .vstatNorm .. => true
  | _ => false

end Sys2Proof.Machine
end

