-- ==== Sys2Proof/Machine/Flags.lean ====
section
/-!
DEFINITION. The flags of a compute core: the accrued exceptions and the rounding mode of fcsr (R136, R191), which are all the flags that
a program sees.
-/
namespace Sys2Proof.Machine

/-- fflags from the exceptions of a result, in the order NV DZ OF UF NX. -/
def flagBits (f : FFlags) : BitVec 5 :=
  BitVec.ofBool f.nv ++ BitVec.ofBool f.dz ++ BitVec.ofBool f.of ++ BitVec.ofBool f.uf ++ BitVec.ofBool f.nx
/-- Two sets of exceptions together. -/
def flagsOr (a b : FFlags) : FFlags :=
  { nv := a.nv || b.nv, dz := a.dz || b.dz, of := a.of || b.of, uf := a.uf || b.uf, nx := a.nx || b.nx }
/-- The slot with exceptions accrued: fflags bits are only ever set by an operation. -/
def Slot.accrue (t : Slot) (f : FFlags) : Slot := { t with csr := { t.csr with fflags := t.csr.fflags ||| flagBits f } }
/-- The state with exceptions accrued by the focus slot. -/
def State.accrue (s : State) (f : FFlags) : State := s.setMe (s.me.accrue f)
/-- The mode that a rounding-mode field selects: 7 takes frm; 5 and 6, and a dynamic mode whose frm is 5 to 7, are illegal (R191). -/
def rmodeOf (rm frm : BitVec 3) : Option RMode :=
  let m := if rm = 7#3 then frm else rm
  match m.toNat with
  | 0 => some .rne
  | 1 => some .rtz
  | 2 => some .rdn
  | 3 => some .rup
  | 4 => some .rmm
  | _ => none

end Sys2Proof.Machine
end

