-- ==== Sys2Proof/Machine/Issue.lean ====
section
/-!
DEFINITION. How an instruction of the focus slot ends (R107, R138, R139), and the accesses of scalar loads, stores, LR, SC and AMOs
(R50, R177, R192, R193, R234).
-/
namespace Sys2Proof.Machine

/-! ## Ends of an instruction -/

/-- The instruction completes; the pc goes to the instruction after it, `len` bytes on. -/
def State.fin (s : State) (len : Nat) : State := s.complete s.focus (s.me.pc + BitVec.ofNat 64 len)
/-- The instruction completes with a result in rd. -/
def State.finX (s : State) (rd : Reg) (v : Dword) (len : Nat) : State := (s.setX rd v).fin len
/-- The instruction completes with the pc at a target, whose bit 0 is cleared. -/
def State.jump (s : State) (target : Dword) : State := s.complete s.focus (target &&& ~~~1#64)
/-- The instruction traps with a cause and a value. -/
def State.trap (s : State) (c : Nat) (v : Dword) : State := s.trapSlot s.focus c v 0
/-- The instruction is illegal: cause 2, with the instruction word (R139, R200). -/
def State.illegal (s : State) (w : Word32) : State := s.trap 2 (zext64 w)
/-- The baton is a member of an active gang: the gang's key, the gang and the member index. -/
def State.myGang (s : State) : Option (Nat × Gang × Nat) := s.gangOf (slotRecord s.focus s.me)
/-- Is the baton a member of an active gang. -/
def State.ganged (s : State) : Bool := s.myGang.isSome
/-- The slot of the gang's leader, or the own slot outside a gang. -/
def State.leaderSlot (s : State) : Slot :=
  match s.myGang with
  | none => s.me
  | some (_, g, _) =>
    match g.members.getD g.leader none with
    | none => s.me
    | some r => match s.findSlot r with | some k => s.slotAt k | none => s.me
/-- An instruction that an active gang may not execute (R217): cause 2 in every member. -/
def State.unlessGanged (s : State) (w : Word32) (f : State → State) : State := if s.ganged then s.illegal w else f s
/-- The record of the focus baton. -/
def State.myRecord (s : State) : Nat := slotRecord s.focus s.me
/-- The baton parks; the state before its request is sent. -/
def State.park (s : State) (w : Wait) (reason : Nat) (wkey wtime : Dword) (len : Nat) : State :=
  s.parkSlot s.focus w reason wkey wtime len

/-! ## Posted stores and releases (R177, R179, R218) -/

/-- Is a posted store's location within an instance of a scope at the baton (R176): a global address lies in its home die. -/
def postedWithin (myDie scope : Nat) (p : Posted) : Bool :=
  match scope with
  | 0 => false
  | 1 => p.pkg == 0 && p.die == myDie
  | 2 => p.pkg == 0
  | _ => true
/-- A release or fence of a scope need not wait: for the posted stores within the scope (R177), and for a posted hurdle operation wherever it is, which
is an earlier event as any other (R175, R180, R182; DEDUCED, log entry 100). -/
def State.released (s : State) (scope : Nat) : Bool :=
  !(s.me.posted.any fun p => p.rmw || (p.store && postedWithin s.myDie scope p))
/-- Every posted store of the baton is acknowledged (R177). -/
def State.storesDone (s : State) : Bool := !(s.me.posted.any Posted.store)
/-- XMSCOPE. -/
def State.mscope (s : State) : Nat := s.me.csr.xmscope.toNat
/-- An acquire of a scope: at PACKAGE and beyond, the die first applies its log (R65). -/
def State.acquired (s : State) (acq : Bool) (scope : Nat) : State := if acq then s.acquireLog s.myDie scope else s
/-- The step in which the instruction still waits for posted stores: nothing changes and it will issue again. -/
def State.whenReleased (s : State) (scope : Nat) (f : State → State) : State := if s.released scope then f s else s

/-! ## Requests to a home -/

/-- A request packet of the focus baton for an address (R33, R53). -/
def State.requestPkt (s : State) (ty : PType) (a n tag : Nat) : Pkt :=
  let r := s.routeTo s.myDie s.me.track a
  { Pkt.blank with ty := ty, va := a, track := s.me.track, src := s.myCid, dst := r.1, dstPkg := r.2, srcRank := s.srcRank s.myPcl,
                   tag := tag, elems := [(a, n)] }
/-- The baton parks on a request to a home, reason REMOTE with the request's tag (R92, R177). -/
def State.parkOn (s : State) (wait : Nat → Wait) (len : Nat) (pkt : State → Nat → Pkt) : State :=
  let (t, s) := s.newTag (.baton s.myRecord)
  let p := pkt s t
  (s.park (wait t) 1 (tagKey t) 0 len).send p
/-- The baton parks on an answer that takes no packet of its own, reason REMOTE with a tag of its own (R92, R217). -/
def State.parkReq (s : State) (w : Wait) (len : Nat) : State :=
  { s with nextTag := s.nextTag + 1 }.park w 1 (tagKey s.nextTag) 0 len
/-- The instruction has acted where it is answered, and the answer goes back to the baton, which parks until it is there (R217). -/
def State.finReply (s : State) (rd : Reg) (v : Dword) (len : Nat) : State := s.parkReq (.reply rd v) len
/-- A posted request, a store or a hurdle operation: the baton goes on once its NI has accepted the packet (R177, R226). -/
def State.post (s : State) (store : Bool) (pkt : State → Nat → Pkt) : State :=
  let (t, s) := s.newTag (.posted s.myRecord)
  let p := pkt s t
  let me := s.me
  (s.setMe { me with posted := me.posted ++ [{ tag := t, pkg := p.dstPkg, die := epDie p.dst, store := store, rmw := !store }] }).send p

/-! ## Scalar accesses -/

/-- A local access to cells: it stalls on a gated or waking bank and behind earlier accesses that wait for it (R156, R157), and otherwise goes on with the stall over. -/
def State.onCells (s : State) (cells : List Nat) (f : State → State) : State :=
  if s.granted s.focus cells then (f s).unstall s.focus else s.stallOn s.focus cells
/-- Does a plain access of 8 bytes reach an NI register block: under track 0 (R50, R51). -/
def State.niOk (s : State) (bytes : Nat) : Bool := bytes == 8 && s.me.track == 0
/-- A load or LR (R192, R193), an acquire at a scope where it has one: misaligned, outside the classes of a plain
access or refused by ATAPER, cause 5. -/
def State.loadX (s : State) (rd : Reg) (a bytes : Nat) (sgn lr : Bool) (acq : Option Nat) (len : Nat) : State :=
  let bad := s.trap 5 (BitVec.ofNat 64 a)
  let s := s.acquired acq.isSome (acq.getD 0)
  if a % bytes ≠ 0 then bad
  else if isLocal a then
    match s.ownCell .read a with
    | none => bad
    | some c =>
      s.onCells [c] fun s =>
        let v := loadValue bytes sgn (s.loadLE c bytes)
        (if lr then s.reserve s.focus c else s).finX rd v len
  else if addrClass a = .global then
    s.parkOn (fun t => .load t rd bytes sgn lr) len fun s t =>
      { s.requestPkt (if lr then .amo else .read) a bytes t with amo := if lr then .lr else .swap, acq := acq.isSome, scope := acq.getD 0 }
  else if addrClass a = .niBlock ∧ s.niOk bytes ∧ !lr then
    s.parkOn (fun t => .load t rd bytes sgn false) len fun s t => s.requestPkt .read a bytes t
  else bad
/-- A store (R177, R192): cause 7 where it is misaligned, outside the classes or refused by ATAPER. A release scope makes it wait for earlier posted stores
and is never posted (R234). -/
def State.storeX (s : State) (a bytes : Nat) (v : Dword) (rel : Option Nat) (len : Nat) : State :=
  let bad := s.trap 7 (BitVec.ofNat 64 a)
  let data := bytesLE bytes v.toNat
  if a % bytes ≠ 0 then bad
  else
    let go := fun (s : State) =>
      if isLocal a then
        match s.ownCell .write a with
        | none => bad
        | some c => s.onCells [c] fun s => (s.store (some s.focus) c data).fin len
      else if addrClass a = .global then
        match rel with
        | none => (s.post true fun s t => { s.requestPkt .write a bytes t with data := data }).fin len
        | some sc =>
          s.parkOn Wait.store len fun s t => { s.requestPkt .write a bytes t with data := data, rel := true, scope := sc }
      else if addrClass a = .niBlock ∧ s.niOk bytes then
        s.parkOn Wait.store len fun s t => { s.requestPkt .write a bytes t with data := data, rel := rel.isSome }
      else bad
    match rel with
    | none => go s
    | some sc => s.whenReleased sc go
/-- An AMO or SC on an address (R191 to R193): cause 7 where it is misaligned, outside the classes or refused; with rl it is a release at XMSCOPE. An SC
without the reservation fails at once where another package homes its location, since only the baton's own core knows whether it has kept it. -/
def State.amoX (s : State) (op : AmoOp) (rd : Reg) (a bytes : Nat) (src : Dword) (aq rl : Bool) (len : Nat) : State :=
  let bad := s.trap 7 (BitVec.ofNat 64 a)
  if a % bytes ≠ 0 then bad
  else
    let go := fun (s : State) =>
      if isLocal a then
        match s.ownCell .amo a with
        | none => bad
        | some c =>
          s.onCells [c] fun s =>
            let r := s.amoCell (some s.focus) op c bytes (src.toNat % 2 ^ (8 * bytes))
            r.2.finX rd (if op = .sc then BitVec.ofNat 64 r.1 else loadValue bytes true r.1) len
      else if addrClass a = .global then
        let pkg := (s.routeTo s.myDie s.me.track a).2
        if op = .sc ∧ s.foreign pkg ∧ s.me.reserved ≠ some (farReservation pkg a) then (s.setMe { s.me with reserved := none }).finX rd 1 len
        else s.parkOn (fun t => if op = .sc then .sc t rd else .amo t rd bytes) len fun s t =>
          { s.requestPkt .amo a bytes t with amo := op, a := src, acq := aq, rel := rl, scope := s.mscope }
      else bad
    let go := fun (s : State) => go (s.acquired aq s.mscope)
    if rl then s.whenReleased s.mscope go else go s

end Sys2Proof.Machine
end

