-- ==== Sys2Proof/Machine/Rv64.lean ====
section
/-!
DEFINITION. The meanings of the standard RV64IM instructions (R190 to R192): arithmetic, branches, loads and stores, fences, ECALL,
EBREAK and WFI.
-/
namespace Sys2Proof.Machine

/-- What a meaning answers. -/
abbrev Res := Host.Outcome State Fault Refusal

/-! ## Shared results -/

/-- Signed division (M): by zero all ones, and the overflow case gives the dividend. -/
def divS {w : Nat} (a b : BitVec w) : BitVec w := if b = 0 then BitVec.allOnes w else a.sdiv b
/-- Unsigned division: by zero all ones. -/
def divU {w : Nat} (a b : BitVec w) : BitVec w := if b = 0 then BitVec.allOnes w else a / b
/-- Signed remainder: by zero the dividend, and the overflow case gives zero. -/
def remS {w : Nat} (a b : BitVec w) : BitVec w := if b = 0 then a else a.srem b
/-- Unsigned remainder: by zero the dividend. -/
def remU {w : Nat} (a b : BitVec w) : BitVec w := if b = 0 then a else a % b
/-- The high half of a product of two integers. -/
def mulHigh (a b : Int) : Dword := BitVec.ofInt 64 (a * b / 2 ^ 64)
/-- 1 or 0 by a condition. -/
def boolX (b : Bool) : Dword := if b then 1 else 0
/-- A register result of two registers. -/
def State.opRR (s : State) (rd rs1 rs2 : Reg) (f : Dword → Dword → Dword) (len : Nat) : State :=
  s.finX rd (f (s.x rs1) (s.x rs2)) len
/-- A register result of a register and an immediate. -/
def State.opRI (s : State) (rd rs1 : Reg) (i : Dword) (f : Dword → Dword → Dword) (len : Nat) : State :=
  s.finX rd (f (s.x rs1) i) len
/-- A W result: the operation on the low words, sign-extended. -/
def onW (f : BitVec 32 → BitVec 32 → BitVec 32) (a b : Dword) : Dword := (f (lowW a) (lowW b)).signExtend 64
/-- A conditional branch: the pc goes to the target, or to the next instruction. -/
def State.branchIf (s : State) (c : Bool) (target : Dword) (len : Nat) : State := if c then s.jump target else s.fin len
/-- A jump that writes the address of the following instruction to rd. -/
def State.jumpLink (s : State) (rd : Reg) (target : Dword) (len : Nat) : State :=
  let next := s.pc + BitVec.ofNat 64 len
  (s.setX rd next).jump target
/-- EBREAK and C.EBREAK: cause 3 with the pc. -/
def State.breakpoint (s : State) : State := s.trap 3 s.pc

/-! ## Upper immediates and jumps -/

/-- LUI (R191). -/
def execLui (rd : Reg) (imm : BitVec 20) (s : State) : Res :=
  .next (s.finX rd (sext64 (imm ++ 0#12)) 4)
/-- AUIPC (R191). -/
def execAuipc (rd : Reg) (imm : BitVec 20) (s : State) : Res :=
  .next (s.finX rd (s.pc + sext64 (imm ++ 0#12)) 4)
/-- JAL (R191); in a gang the target is the leader's (R107). -/
def execJal (rd : Reg) (off : BitVec 20) (s : State) : Res :=
  .next (s.jumpLink rd (s.target off) 4)
/-- JALR (R191); the target is taken from the register before rd is written. -/
def execJalr (rd rs1 : Reg) (imm : BitVec 12) (s : State) : Res :=
  .next (s.jumpLink rd (s.ea rs1 imm) 4)

/-! ## Branches -/

/-- BEQ: branch if equal (R191). -/
def execBeq (rs1 rs2 : Reg) (off : BitVec 12) (s : State) : Res :=
  .next (s.branchIf (s.x rs1 == s.x rs2) (s.target off) 4)
/-- BNE: branch if not equal (R191). -/
def execBne (rs1 rs2 : Reg) (off : BitVec 12) (s : State) : Res :=
  .next (s.branchIf (s.x rs1 != s.x rs2) (s.target off) 4)
/-- BLT: branch if less, signed (R191). -/
def execBlt (rs1 rs2 : Reg) (off : BitVec 12) (s : State) : Res :=
  .next (s.branchIf ((s.x rs1).slt (s.x rs2)) (s.target off) 4)
/-- BGE: branch if greater or equal, signed (R191). -/
def execBge (rs1 rs2 : Reg) (off : BitVec 12) (s : State) : Res :=
  .next (s.branchIf (!(s.x rs1).slt (s.x rs2)) (s.target off) 4)
/-- BLTU: branch if less, unsigned (R191). -/
def execBltu (rs1 rs2 : Reg) (off : BitVec 12) (s : State) : Res :=
  .next (s.branchIf ((s.x rs1).ult (s.x rs2)) (s.target off) 4)
/-- BGEU: branch if greater or equal, unsigned (R191). -/
def execBgeu (rs1 rs2 : Reg) (off : BitVec 12) (s : State) : Res :=
  .next (s.branchIf (!(s.x rs1).ult (s.x rs2)) (s.target off) 4)

/-! ## Loads and stores -/

/-- LB (R191, R192). -/
def execLb (rd rs1 : Reg) (imm : BitVec 12) (s : State) : Res :=
  .next (s.loadX rd (s.ea rs1 imm).toNat 1 true false none 4)
/-- LH (R191, R192). -/
def execLh (rd rs1 : Reg) (imm : BitVec 12) (s : State) : Res :=
  .next (s.loadX rd (s.ea rs1 imm).toNat 2 true false none 4)
/-- LW (R191, R192). -/
def execLw (rd rs1 : Reg) (imm : BitVec 12) (s : State) : Res :=
  .next (s.loadX rd (s.ea rs1 imm).toNat 4 true false none 4)
/-- LD (R191, R192). -/
def execLd (rd rs1 : Reg) (imm : BitVec 12) (s : State) : Res :=
  .next (s.loadX rd (s.ea rs1 imm).toNat 8 true false none 4)
/-- LBU (R191, R192). -/
def execLbu (rd rs1 : Reg) (imm : BitVec 12) (s : State) : Res :=
  .next (s.loadX rd (s.ea rs1 imm).toNat 1 false false none 4)
/-- LHU (R191, R192). -/
def execLhu (rd rs1 : Reg) (imm : BitVec 12) (s : State) : Res :=
  .next (s.loadX rd (s.ea rs1 imm).toNat 2 false false none 4)
/-- LWU (R191, R192). -/
def execLwu (rd rs1 : Reg) (imm : BitVec 12) (s : State) : Res :=
  .next (s.loadX rd (s.ea rs1 imm).toNat 4 false false none 4)
/-- SB (R191, R192, R177). -/
def execSb (rs1 rs2 : Reg) (imm : BitVec 12) (s : State) : Res :=
  .next (s.storeX (s.ea rs1 imm).toNat 1 (s.x rs2) none 4)
/-- SH (R191, R192, R177). -/
def execSh (rs1 rs2 : Reg) (imm : BitVec 12) (s : State) : Res :=
  .next (s.storeX (s.ea rs1 imm).toNat 2 (s.x rs2) none 4)
/-- SW (R191, R192, R177). -/
def execSw (rs1 rs2 : Reg) (imm : BitVec 12) (s : State) : Res :=
  .next (s.storeX (s.ea rs1 imm).toNat 4 (s.x rs2) none 4)
/-- SD (R191, R192, R177). -/
def execSd (rs1 rs2 : Reg) (imm : BitVec 12) (s : State) : Res :=
  .next (s.storeX (s.ea rs1 imm).toNat 8 (s.x rs2) none 4)

/-! ## Immediate arithmetic -/

/-- ADDI (R191). -/
def execAddi (rd rs1 : Reg) (imm : BitVec 12) (s : State) : Res :=
  .next (s.opRI rd rs1 (sext64 imm) (fun a b => a + b) 4)
/-- SLTI (R191). -/
def execSlti (rd rs1 : Reg) (imm : BitVec 12) (s : State) : Res :=
  .next (s.opRI rd rs1 (sext64 imm) (fun a b => boolX (a.slt b)) 4)
/-- SLTIU (R191). -/
def execSltiu (rd rs1 : Reg) (imm : BitVec 12) (s : State) : Res :=
  .next (s.opRI rd rs1 (sext64 imm) (fun a b => boolX (a.ult b)) 4)
/-- XORI (R191). -/
def execXori (rd rs1 : Reg) (imm : BitVec 12) (s : State) : Res :=
  .next (s.opRI rd rs1 (sext64 imm) (fun a b => a ^^^ b) 4)
/-- ORI (R191). -/
def execOri (rd rs1 : Reg) (imm : BitVec 12) (s : State) : Res :=
  .next (s.opRI rd rs1 (sext64 imm) (fun a b => a ||| b) 4)
/-- ANDI (R191). -/
def execAndi (rd rs1 : Reg) (imm : BitVec 12) (s : State) : Res :=
  .next (s.opRI rd rs1 (sext64 imm) (fun a b => a &&& b) 4)
/-- SLLI (R191). -/
def execSlli (rd rs1 : Reg) (sh : BitVec 6) (s : State) : Res :=
  .next (s.opRI rd rs1 (zext64 sh) (fun a b => a <<< b.toNat) 4)
/-- SRLI (R191). -/
def execSrli (rd rs1 : Reg) (sh : BitVec 6) (s : State) : Res :=
  .next (s.opRI rd rs1 (zext64 sh) (fun a b => a >>> b.toNat) 4)
/-- SRAI (R191). -/
def execSrai (rd rs1 : Reg) (sh : BitVec 6) (s : State) : Res :=
  .next (s.opRI rd rs1 (zext64 sh) (fun a b => a.sshiftRight b.toNat) 4)
/-- ADDIW (R191). -/
def execAddiw (rd rs1 : Reg) (imm : BitVec 12) (s : State) : Res :=
  .next (s.opRI rd rs1 (sext64 imm) (onW fun a b => a + b) 4)
/-- SLLIW (R191). -/
def execSlliw (rd rs1 sh : Reg) (s : State) : Res :=
  .next (s.opRI rd rs1 (zext64 sh) (onW fun a b => a <<< b.toNat) 4)
/-- SRLIW (R191). -/
def execSrliw (rd rs1 sh : Reg) (s : State) : Res :=
  .next (s.opRI rd rs1 (zext64 sh) (onW fun a b => a >>> b.toNat) 4)
/-- SRAIW (R191). -/
def execSraiw (rd rs1 sh : Reg) (s : State) : Res :=
  .next (s.opRI rd rs1 (zext64 sh) (onW fun a b => a.sshiftRight b.toNat) 4)

/-! ## Register arithmetic -/

/-- ADD (R191). -/
def execAdd (rd rs1 rs2 : Reg) (s : State) : Res :=
  .next (s.opRR rd rs1 rs2 (fun a b => a + b) 4)
/-- SLL (R191). -/
def execSll (rd rs1 rs2 : Reg) (s : State) : Res :=
  .next (s.opRR rd rs1 rs2 (fun a b => a <<< (b.toNat % 64)) 4)
/-- SLT (R191). -/
def execSlt (rd rs1 rs2 : Reg) (s : State) : Res :=
  .next (s.opRR rd rs1 rs2 (fun a b => boolX (a.slt b)) 4)
/-- SLTU (R191). -/
def execSltu (rd rs1 rs2 : Reg) (s : State) : Res :=
  .next (s.opRR rd rs1 rs2 (fun a b => boolX (a.ult b)) 4)
/-- XOR (R191). -/
def execXor (rd rs1 rs2 : Reg) (s : State) : Res :=
  .next (s.opRR rd rs1 rs2 (fun a b => a ^^^ b) 4)
/-- SRL (R191). -/
def execSrl (rd rs1 rs2 : Reg) (s : State) : Res :=
  .next (s.opRR rd rs1 rs2 (fun a b => a >>> (b.toNat % 64)) 4)
/-- OR (R191). -/
def execOr (rd rs1 rs2 : Reg) (s : State) : Res :=
  .next (s.opRR rd rs1 rs2 (fun a b => a ||| b) 4)
/-- AND (R191). -/
def execAnd (rd rs1 rs2 : Reg) (s : State) : Res :=
  .next (s.opRR rd rs1 rs2 (fun a b => a &&& b) 4)
/-- SUB (R191). -/
def execSub (rd rs1 rs2 : Reg) (s : State) : Res :=
  .next (s.opRR rd rs1 rs2 (fun a b => a - b) 4)
/-- SRA (R191). -/
def execSra (rd rs1 rs2 : Reg) (s : State) : Res :=
  .next (s.opRR rd rs1 rs2 (fun a b => a.sshiftRight (b.toNat % 64)) 4)
/-- MUL (R191). -/
def execMul (rd rs1 rs2 : Reg) (s : State) : Res :=
  .next (s.opRR rd rs1 rs2 (fun a b => a * b) 4)
/-- MULH (R191). -/
def execMulh (rd rs1 rs2 : Reg) (s : State) : Res :=
  .next (s.opRR rd rs1 rs2 (fun a b => mulHigh a.toInt b.toInt) 4)
/-- MULHSU (R191). -/
def execMulhsu (rd rs1 rs2 : Reg) (s : State) : Res :=
  .next (s.opRR rd rs1 rs2 (fun a b => mulHigh a.toInt b.toNat) 4)
/-- MULHU (R191). -/
def execMulhu (rd rs1 rs2 : Reg) (s : State) : Res :=
  .next (s.opRR rd rs1 rs2 (fun a b => mulHigh a.toNat b.toNat) 4)
/-- DIV (R191). -/
def execDiv (rd rs1 rs2 : Reg) (s : State) : Res :=
  .next (s.opRR rd rs1 rs2 (fun a b => divS a b) 4)
/-- DIVU (R191). -/
def execDivu (rd rs1 rs2 : Reg) (s : State) : Res :=
  .next (s.opRR rd rs1 rs2 (fun a b => divU a b) 4)
/-- REM (R191). -/
def execRem (rd rs1 rs2 : Reg) (s : State) : Res :=
  .next (s.opRR rd rs1 rs2 (fun a b => remS a b) 4)
/-- REMU (R191). -/
def execRemu (rd rs1 rs2 : Reg) (s : State) : Res :=
  .next (s.opRR rd rs1 rs2 (fun a b => remU a b) 4)
/-- ADDW (R191). -/
def execAddw (rd rs1 rs2 : Reg) (s : State) : Res :=
  .next (s.opRR rd rs1 rs2 (onW fun a b => a + b) 4)
/-- SLLW (R191). -/
def execSllw (rd rs1 rs2 : Reg) (s : State) : Res :=
  .next (s.opRR rd rs1 rs2 (onW fun a b => a <<< (b.toNat % 32)) 4)
/-- SRLW (R191). -/
def execSrlw (rd rs1 rs2 : Reg) (s : State) : Res :=
  .next (s.opRR rd rs1 rs2 (onW fun a b => a >>> (b.toNat % 32)) 4)
/-- SUBW (R191). -/
def execSubw (rd rs1 rs2 : Reg) (s : State) : Res :=
  .next (s.opRR rd rs1 rs2 (onW fun a b => a - b) 4)
/-- SRAW (R191). -/
def execSraw (rd rs1 rs2 : Reg) (s : State) : Res :=
  .next (s.opRR rd rs1 rs2 (onW fun a b => a.sshiftRight (b.toNat % 32)) 4)
/-- MULW (R191). -/
def execMulw (rd rs1 rs2 : Reg) (s : State) : Res :=
  .next (s.opRR rd rs1 rs2 (onW fun a b => a * b) 4)
/-- DIVW (R191). -/
def execDivw (rd rs1 rs2 : Reg) (s : State) : Res :=
  .next (s.opRR rd rs1 rs2 (onW fun a b => divS a b) 4)
/-- DIVUW (R191). -/
def execDivuw (rd rs1 rs2 : Reg) (s : State) : Res :=
  .next (s.opRR rd rs1 rs2 (onW fun a b => divU a b) 4)
/-- REMW (R191). -/
def execRemw (rd rs1 rs2 : Reg) (s : State) : Res :=
  .next (s.opRR rd rs1 rs2 (onW fun a b => remS a b) 4)
/-- REMUW (R191). -/
def execRemuw (rd rs1 rs2 : Reg) (s : State) : Res :=
  .next (s.opRR rd rs1 rs2 (onW fun a b => remU a b) 4)

/-! ## Fences and system instructions -/

/-- A full fence of a scope (R180, R218): it waits for posted stores, and is an acquire. -/
def State.fullFence (s : State) (scope : Nat) : State := s.whenReleased scope fun s => (s.acquired true scope).fin 4
/-- A standard FENCE (R180): with both sets non-empty it is an XFENCE at XMSCOPE, which waits for posted stores (R218); with either set
empty it has no effect. -/
def State.stdFence (s : State) (pred succ : BitVec 4) : State :=
  if pred = 0 ∨ succ = 0 then s.fin 4 else s.fullFence s.mscope
/-- FENCE (R180, R192). The rd and rs1 fields are ignored. -/
def execFence (_rd _rs1 : Reg) (pred succ : BitVec 4) (s : State) : Res := .next (s.stdFence pred succ)
/-- FENCE.TSO counts as a FENCE with both sets non-empty (R192). -/
def execFenceTso (_rd _rs1 : Reg) (_pred _succ : BitVec 4) (s : State) : Res :=
  .next (s.fullFence s.mscope)
/-- FENCE.I has no effect (R192). -/
def execFenceI (_rd _rs1 : Reg) (_imm : BitVec 12) (s : State) : Res := .next (s.fin 4)
/-- EBREAK (R192): cause 3. -/
def execEbreak (s : State) : Res := .next s.breakpoint
/-- The slot's dispatch-queue entries have all completed. -/
def State.queueIdle (s : State) : Bool := (s.core s.myCid).dq.all fun e => e.slot != keySlot s.focus
/-- BAT.EXIT (R222): it waits for the slot's queue entries and for its posted stores; the baton is then DONE. -/
def State.exitBaton (s : State) : State :=
  if s.queueIdle && s.storesDone then (s.retire s.myCid).endBaton s.focus false else s
/-- ECALL (R141): it waits for the baton's posted stores (R177). Function 0 ends the baton, and is illegal in an active gang; 1 returns the
interface version, and any other function all ones. In a gang the function number is the leader's. -/
def execEcall (s : State) : Res :=
  .next (
    let f := s.leaderSlot.getX 17
    if f = 0 then s.unlessGanged 0x73 State.exitBaton
    else if !s.storesDone then s
    else if f = 1 then s.finX 10 0x10000 4
    else s.finX 10 (BitVec.allOnes 64) 4)
/-- WFI (R192): a wake token is consumed, which acquires as in BAT.PARK (R179); without one the baton parks on WAKE with no deadline. -/
def execWfi (s : State) : Res :=
  .next (
    if s.me.token then ((s.acquireLog s.myDie 3).setMe { s.me with token := false }).fin 4
    else s.park (.wake 0 (BitVec.allOnes 64)) 6 s.me.xbaton 0 4)
/-- A word that is no instruction (R200): cause 2 with the word. -/
def execIllegalInstruction (word : BitVec 32) (s : State) : Res := .next (s.illegal word)

end Sys2Proof.Machine
end

