-- ==== Sys2Proof/Machine/Amo.lean ====
section
/-!
DEFINITION. The meanings of LR, SC and the AMOs (R191 to R193), and of LD.AQ and ST.RL (R234).
-/
namespace Sys2Proof.Machine

/-- The width in bytes of an AMO: .D or .W. -/
def amoBytes (dbl : Bool) : Nat := if dbl then 8 else 4

/-- LR (R193): the address is naturally aligned, or cause 5. -/
def execLr (rd rs1 : Reg) (aq rl dbl : Bool) (s : State) : Res :=
  .next (if rl then s.whenReleased s.mscope fun s => s.loadX rd (s.x rs1).toNat (amoBytes dbl) true true (if aq then some s.mscope else none) 4
    else s.loadX rd (s.x rs1).toNat (amoBytes dbl) true true (if aq then some s.mscope else none) 4)
/-- SC (R191, R193). -/
def execSc (rd rs1 rs2 : Reg) (aq rl dbl : Bool) (s : State) : Res :=
  .next (s.amoX .sc rd (s.x rs1).toNat (amoBytes dbl) (s.x rs2) aq rl 4)
/-- AMOSWAP (R191, R193). -/
def execAmoswap (rd rs1 rs2 : Reg) (aq rl dbl : Bool) (s : State) : Res :=
  .next (s.amoX .swap rd (s.x rs1).toNat (amoBytes dbl) (s.x rs2) aq rl 4)
/-- AMOADD (R191, R193). -/
def execAmoadd (rd rs1 rs2 : Reg) (aq rl dbl : Bool) (s : State) : Res :=
  .next (s.amoX .add rd (s.x rs1).toNat (amoBytes dbl) (s.x rs2) aq rl 4)
/-- AMOXOR (R191, R193). -/
def execAmoxor (rd rs1 rs2 : Reg) (aq rl dbl : Bool) (s : State) : Res :=
  .next (s.amoX .xor rd (s.x rs1).toNat (amoBytes dbl) (s.x rs2) aq rl 4)
/-- AMOAND (R191, R193). -/
def execAmoand (rd rs1 rs2 : Reg) (aq rl dbl : Bool) (s : State) : Res :=
  .next (s.amoX .and rd (s.x rs1).toNat (amoBytes dbl) (s.x rs2) aq rl 4)
/-- AMOOR (R191, R193). -/
def execAmoor (rd rs1 rs2 : Reg) (aq rl dbl : Bool) (s : State) : Res :=
  .next (s.amoX .or rd (s.x rs1).toNat (amoBytes dbl) (s.x rs2) aq rl 4)
/-- AMOMIN (R191, R193). -/
def execAmomin (rd rs1 rs2 : Reg) (aq rl dbl : Bool) (s : State) : Res :=
  .next (s.amoX .min rd (s.x rs1).toNat (amoBytes dbl) (s.x rs2) aq rl 4)
/-- AMOMAX (R191, R193). -/
def execAmomax (rd rs1 rs2 : Reg) (aq rl dbl : Bool) (s : State) : Res :=
  .next (s.amoX .max rd (s.x rs1).toNat (amoBytes dbl) (s.x rs2) aq rl 4)
/-- AMOMINU (R191, R193). -/
def execAmominu (rd rs1 rs2 : Reg) (aq rl dbl : Bool) (s : State) : Res :=
  .next (s.amoX .minu rd (s.x rs1).toNat (amoBytes dbl) (s.x rs2) aq rl 4)
/-- AMOMAXU (R191, R193). -/
def execAmomaxu (rd rs1 rs2 : Reg) (aq rl dbl : Bool) (s : State) : Res :=
  .next (s.amoX .maxu rd (s.x rs1).toNat (amoBytes dbl) (s.x rs2) aq rl 4)
/-- Bytes of a scoped access by its width code (R234). -/
def scopedBytes (w : Nat) : Nat := 2 ^ (w % 4)
/-- LD.AQ (R234): a load that acquires at its scope; widths 4 to 6 zero-extend. -/
def execLdAq (rd rs1 : Reg) (scope : BitVec 2) (width : BitVec 3) (off : BitVec 7) (s : State) : Res :=
  .next (
    let a := (s.x rs1 + sext64 off).toNat
    s.loadX rd a (scopedBytes width.toNat) (decide (width.toNat < 4)) false (some (scopeOf scope)) 4)
/-- ST.RL (R234): a store that releases at its scope and is never posted. -/
def execStRl (rs1 rs2 : Reg) (scope width : BitVec 2) (off : BitVec 7) (s : State) : Res :=
  .next (s.storeX (s.x rs1 + sext64 off).toNat (scopedBytes width.toNat) (s.x rs2) (some (scopeOf scope)) 4)

end Sys2Proof.Machine
end

