-- ==== Sys2Proof/Machine/Bat.lean ====
section
/-!
DEFINITION. The meanings of the baton instructions BAT.* (R219 to R224).
-/
namespace Sys2Proof.Machine

/-- The custom-0 opcode. -/
def custom0 : Nat := 0x0B
/-- Is an address a record slot of the own scratchpad: 64-byte aligned in its lower 3 MiB (R219). -/
def ownRecord (a : Nat) : Bool := a % 64 == 0 && decide (spadBase ≤ a) && decide (a < spadBase + spadLow)
/-- Is an address in the copy aperture at a scratchpad that exists, with an offset below a limit (R50). -/
def apertureSpad (a limit : Nat) : Bool :=
  addrClass a == .copySpad && isCDie ((a - 0x00F800000000) / 2 ^ 27) && decide ((a - 0x00F800000000) / 2 ^ 22 % 32 < 24) &&
    decide (a % 2 ^ 22 < limit)

/-- A record with fields replaced: FRAME and LIVE 0, CTRL READY with no gang and age 0 (R219, R220). -/
def freshRecord (pc ctrl wkey wtime fvec arg : Dword) : BitVec 512 :=
  arg ++ fvec ++ wtime ++ wkey ++
    ctrlWord (ctrl.extractLsb' 0 2) (ctrl.extractLsb' 2 2) 0 0 (ctrl.extractLsb' 16 16) (ctrl.extractLsb' 32 16) 0 0 0 ++ 0#128 ++ pc
/-- BAT.SPAWN (R219), a release at SYSTEM scope to the new baton (R179, R218). Its record is read and written under the baton's track (R49, R58; the
cause of a refused one is DEDUCED, log entry 7). -/
def execBatSpawn (rd rs1 : Reg) (s : State) : Res :=
  .next (
    let a := (s.x rs1).toNat
    if !ownRecord a || !s.spadAdmits .read || !s.spadAdmits .write then s.trap 7 (s.x rs1)
    else
      let r := spadCell s.myPcl (a - spadBase)
      s.whenReleased 3 fun s => s.onCells [r] fun s =>
        let ctrl := s.recRead r 0x18
        if ctrl.extractLsb' 16 16 ≠ s.me.track ∧ s.me.track ≠ 0 then s.finReply rd 1 4
        else
          let bits := freshRecord (s.recRead r 0x00) ctrl (s.recRead r 0x20) (s.recRead r 0x28) (s.recRead r 0x30) (s.recRead r 0x38)
          let s := s.store (some s.focus) r (bytesLE 64 bits.toNat)
          (s.enqueue r s.me.launch).finReply rd 0 4)

/-- The destination of a BAT.SEND: a cell, a rank and offset, or the status that it completes with. -/
inductive SendDst
  | cell (a : Nat)
  | rank (r off : Nat)
  | bad (status : Nat)
  deriving DecidableEq, Repr
/-- The destination of the address form (R220). -/
def State.sendDst (s : State) (v : Dword) : SendDst :=
  let a := v.toNat
  if ownRecord a then .cell (spadCell s.myPcl (a - spadBase))
  else if addrClass a = .copySpad ∧ a % 64 = 0 ∧ a % 2 ^ 22 < spadLow then
    if apertureSpad a spadLow then .cell a else .bad 3
  else .bad 1
/-- The destination of the rank form (R220). -/
def sendDstR (v : Dword) : SendDst :=
  let off := (v.extractLsb' 0 22).toNat
  if v.extractLsb' 22 30 ≠ 0 ∨ off % 64 ≠ 0 ∨ spadLow ≤ off then .bad 1 else .rank (v.extractLsb' 52 12).toNat off
/-- The record that a BAT.SEND reads: its bits, or the status for a record that may not be sent. -/
def State.sendRecord (s : State) (c : Nat) : Except Nat (BitVec 512) :=
  let ctrl := s.recRead c 0x18
  if s.recRead c 0x10 ≠ 0 ∨ (ctrl.extractLsb' 16 16 ≠ s.me.track ∧ s.me.track ≠ 0) then .error 1
  else .ok (freshRecord (s.recRead c 0x00) ctrl (s.recRead c 0x20) (s.recRead c 0x28) (s.recRead c 0x30) (s.recRead c 0x38))
/-- The record of the running baton, for the self form: its pc is the instruction after the BAT.SEND and its ARG the current a0. -/
def State.selfRecord (s : State) : BitVec 512 :=
  freshRecord (s.pc + 4) (s.me.ctrl 0 0) 0 0 (s.recRead s.myRecord 0x30) (s.x 10)
/-- A baton goes out to a destination: the baton parks until it is enqueued there, with reason RANK while the rank is IN_TRANSIT (`State.rankWhy`). -/
def State.sendBaton (s : State) (rd : Reg) (self : Bool) (bits : BitVec 512) (dst : SendDst) : State :=
  let base := fun (s : State) (t a : Nat) =>
    { Pkt.blank with ty := .write, va := a, track := s.me.track, src := s.myCid, srcRank := s.srcRank s.myPcl, tag := t,
                     elems := [(a, 64)], data := bytesLE 64 bits.toNat, enqueue := some s.me.launch }
  match dst with
  | .bad st => s.finX rd (BitVec.ofNat 64 st) 4
  | .cell a => s.parkOn (fun t => .send t rd self) 4 fun s t => { base s t a with dst := niEp (recPcl a / 24) }
  | .rank r off =>
    if s.rankFull s.myDie r then
      let (t, s) := s.newTag (.baton s.myRecord)
      s.park (.rankSend { base s t (spadCell 0 off) with dstRank := r, rel := true } rd true self) 10 (BitVec.ofNat 64 r) 0 4
    else
      let (t, s) := s.newTag (.baton s.myRecord)
      let p := { base s t (spadCell 0 off) with dstRank := r, rel := true }
      (s.park (.send t rd self) 1 (tagKey t) 0 4).sendRanked p
/-- BAT.SEND in either destination form (R220): it waits for the baton's posted stores (R177), in its self form for the slot's queue
entries as well, and is illegal in its self form in an active gang. -/
def State.batSend (s : State) (opt : Nat) (rd rs1 rs2 : Reg) (dst : SendDst) : State :=
  let self := rs1 == 0
  if self && s.ganged then s.illegal (xrWord 1 opt rs2.toNat rs1.toNat 0 rd.toNat custom0)
  else if !s.released 3 || (self && !s.queueIdle) then s
  else if self then s.onCells [s.myRecord] fun s => s.sendBaton rd true s.selfRecord dst
  else
    let a := (s.x rs1).toNat
    match (if a % 64 = 0 then s.ownCell .read a else none) with
    | none => s.trap 5 (s.x rs1)
    | some c =>
      s.onCells [c] fun s =>
        match s.sendRecord c with
        | .error st => s.finX rd (BitVec.ofNat 64 st) 4
        | .ok bits => s.sendBaton rd false bits dst
/-- BAT.SEND (R220). -/
def execBatSend (rd rs1 rs2 : Reg) (s : State) : Res := .next (s.batSend 0 rd rs1 rs2 (s.sendDst (s.x rs2)))
/-- BAT.SEND.R (R220). -/
def execBatSendR (rd rs1 rs2 : Reg) (s : State) : Res := .next (s.batSend 1 rd rs1 rs2 (sendDstR (s.x rs2)))

/-- BAT.EXIT (R222). -/
def execBatExit (s : State) : Res := .next (s.unlessGanged (xrWord 2 0 0 0 0 0 custom0) State.exitBaton)
/-- The live mask of a field: all ones for field 0. -/
def State.liveMask (s : State) (r : Reg) : Dword := if r = 0 then BitVec.allOnes 64 else s.x r
/-- BAT.YIELD (R222, R148). -/
def execBatYield (rs1 : Reg) (s : State) : Res :=
  .next (s.unlessGanged (xrWord 3 0 0 rs1.toNat 0 0 custom0) fun s =>
    let s := s.settle s.focus
    if !s.canSave s.focus then s
    else
      s.saving s.focus fun s =>
        match (s.retire s.myCid).yieldOut s.focus (s.liveMask rs1) (s.pc + 4) with
        | some s => s
        | none => s.fin 4)
/-- BAT.PARK (R223). -/
def execBatPark (rd rs1 rs2 : Reg) (s : State) : Res :=
  .next (s.unlessGanged (xrWord 4 0 rs2.toNat rs1.toNat 0 rd.toNat custom0) fun s =>
    if s.me.token then ((s.acquireLog s.myDie 3).setMe { s.me with token := false }).finX rd 0 4
    else if rs2 ≠ 0 ∧ (s.x rs2).toNat ≤ s.mySwc then s.finX rd 1 4
    else
      let live := s.liveMask rs1
      let wtime := if rs2 = 0 then 0 else s.x rs2
      let s := s.setMe { s.me with live := live }
      s.park (.wake rd live) 6 s.me.xbaton wtime 4)
/-- A wake of the baton of a record (R94, R223): a baton whose wait is WAKE has it satisfied; any other baton's token is set. -/
def State.wakeRecord (s : State) (r : Nat) : State :=
  match s.waitOf r with
  | .wake rd _ => (s.acquireLog (recPcl r / 24) 3).finishWait r (.x rd 0)
  | _ =>
    match s.findSlot r with
    | some k => s.setSlotAt k { s.slotAt k with token := true }
    | none =>
      if (s.findAway r).isSome || s.isReady r then
        let c := s.cluster (recPcl r)
        s.setCluster (recPcl r) { c with tokens := if c.tokens.contains r then c.tokens else c.tokens ++ [r] }
      else s
/-- BAT.WAKE (R223): it is a release at SYSTEM scope. -/
def execBatWake (rs1 : Reg) (s : State) : Res :=
  .next (
    let a := (s.x rs1).toNat
    let own := a % 64 == 0 && addrClass a == .spad
    let far := a % 64 == 0 && apertureSpad a (2 ^ 22)
    if !own && !far then s.trap 7 (s.x rs1)
    else s.whenReleased 3 fun s =>
      (s.wakeRecord (if own then spadCell s.myPcl (a - spadBase) else a)).fin 4)
/-- BAT.ROLE (R224). -/
def execBatRole (rd rs1 : Reg) (s : State) : Res :=
  .next (
    let old := s.me.csr.xrole
    let new := (s.x rs1).extractLsb' 0 2
    (s.setMe { s.me with csr := { s.me.csr with xrole := new } }).finX rd (zext64 old) 4)
/-- BAT.SELF (R224). FVEC and FRAME are read in the record (R156). -/
def execBatSelf (rd : Reg) (sel : BitVec 3) (s : State) : Res :=
  .next (
    match sel.toNat with
    | 0 => s.finX rd s.me.xbaton 4
    | 1 => s.finX rd (s.me.ctrl 1 0) 4
    | 2 => s.onCells [s.myRecord] fun s => s.finX rd (s.recRead s.myRecord 0x30) 4
    | _ => s.onCells [s.myRecord] fun s => s.finX rd (s.recRead s.myRecord 0x08) 4)

end Sys2Proof.Machine
end

