-- ==== Sys2Proof/Machine/Hd.lean ====
section
/-!
DEFINITION. The meanings of the hurdle, lap, domain, time and promise instructions (R225 to R230, R98, R154).
-/
namespace Sys2Proof.Machine

/-- A hurdle operand (R225). -/
inductive HdRef
  /-- A hurdle of the own cluster. -/
  | near (h : Nat)
  /-- A hurdle reached through the copy aperture. -/
  | far (h : Nat)
  | rank (r off : Nat)
  | bad
  deriving DecidableEq, Repr
/-- A hurdle operand in the local or aperture form. -/
def State.hdRef (s : State) (v : Dword) : HdRef :=
  let a := v.toNat
  if a % 32 ≠ 0 then .bad
  else if spadBase ≤ a ∧ a < spadBase + spadLow then .near (spadCell s.myPcl (a - spadBase))
  else if apertureSpad a spadLow then .far a
  else .bad
/-- A hurdle operand in the rank form. -/
def hdRefR (v : Dword) : HdRef :=
  let off := (v.extractLsb' 0 22).toNat
  if v.extractLsb' 22 30 ≠ 0 ∨ off % 32 ≠ 0 ∨ spadLow ≤ off then .bad else .rank (v.extractLsb' 52 12).toNat off
/-- The member index of an arrival (R225). -/
def State.memberOf (s : State) (rs2 : Reg) (scope : Nat) : Nat :=
  if rs2 ≠ 0 then (lowW (s.x rs2)).toNat
  else
    let w := s.dmr s.myCid s.me.group (scope + 1)
    if dmrValid w then dmrMember w else 0xFFFFFFFF
/-- The local form only: HURDLE_ERROR for any other operand, cause 7 or 5 with the hurdle's address where the target refuses (R225,
R355). -/
def State.onHurdle (s : State) (rs1 : Reg) (changes : Bool) (f : State → Nat → State) : State :=
  match s.hdRef (s.x rs1) with
  | .near h =>
    s.onCells [h] fun s =>
      if s.hurdleAdmits h s.me.track 0 (if changes then .amo else .read) then f s h
      else s.trap (if changes then 7 else 5) (s.x rs1)
  | _ => s.trap 30 (s.x rs1)
/-- An ARRIVE packet of a core for a hurdle (R226): `op` 0 arrive, 1 withdraw, 2 join, 3 LAP.END, at a scope. -/
def State.arriveReq (s : State) (scope h m op : Nat) (st : BitVec 32) (tag : Nat) : Pkt :=
  { Pkt.blank with ty := .arrive, va := h, track := s.me.track, src := s.myCid, dst := niEp (hurdlePcl h / 24),
                   srcRank := s.srcRank s.myPcl, tag := tag, a := BitVec.ofNat 64 m, b := BitVec.ofNat 64 op, c := zext64 st, scope := scope,
                   master := if hurdlePcl h / 24 = s.myDie then 0 else 1 }
/-- A posted hurdle operation to a rank (R43, R226): held while the rank is IN_TRANSIT; with no room to hold it the baton parks. -/
def State.postRank (s : State) (scope r off m op : Nat) : State :=
  if s.rankFull s.myDie r then s.park (.rankHd scope r off m op) 10 (BitVec.ofNat 64 r) 0 4
  else
    let (t, s) := s.newTag (.posted s.myRecord)
    let p := { s.arriveReq scope (spadCell 0 off) m op 0 t with dstRank := r, master := 1 }
    let e := s.rct s.myDie r
    let me := s.me
    let s := s.setMe { me with posted := me.posted ++
      [{ tag := t, pkg := if s.foreign (rctPkg e) then rctPkg e else 0, die := rctDie e, store := false, rmw := true }] }
    (s.sendRanked p).fin 4
/-- A hurdle operation that has waited for space in the hold queue goes on (R43, R217). -/
def State.rankGo (s : State) (rec' : Nat) : State :=
  match s.waitOf rec' with
  | .rankHd scope r off m op =>
    if s.rankFull (recPcl rec' / 24) r then s else s.goOn rec' (fun _ => []) fun s => s.postRank scope r off m op
  | _ => s
/-- HD.ARRIVE, HD.WITHDRAW and HD.JOIN on an operand of any form (R225, R226). -/
def State.hurdleOp (s : State) (rs1 : Reg) (ref : HdRef) (scope op m : Nat) : State :=
  match ref with
  | .bad => s.trap 30 (s.x rs1)
  | .far h => (s.post false fun s t => s.arriveReq scope h m op 0 t).fin 4
  | .rank r off => s.postRank scope r off m op
  | .near _ =>
    s.onHurdle rs1 true fun s h =>
      let who := some s.focus
      (if op = 0 then s.hurdleArrive who scope h m 0 else if op = 1 then s.hurdleWithdraw who scope h m else s.hurdleJoin who h).fin 4

/-- HD.INIT (R228): it returns GEN as it stood before. -/
def execHdInit (rd rs1 rs2 : Reg) (flags : BitVec 3) (s : State) : Res :=
  .next (s.onHurdle rs1 true fun s h =>
    let v := s.x rs2
    let gen := (s.hurdle h).gen
    (s.hurdleInit (some s.focus) h (v.extractLsb' 0 32) (zext64 flags |>.extractLsb' 0 32) (v.extractLsb' 32 32)).finX rd (zext64 gen) 4)
/-- HD.ARRIVE (R226): a release at its scope. -/
def execHdArrive (rs1 rs2 : Reg) (scope : BitVec 2) (s : State) : Res :=
  .next (s.whenReleased (scopeOf scope) fun s => s.hurdleOp rs1 (s.hdRef (s.x rs1)) (scopeOf scope) 0 (s.memberOf rs2 (scopeOf scope)))
/-- HD.ARRIVE.R. -/
def execHdArriveR (rs1 rs2 : Reg) (scope : BitVec 2) (s : State) : Res :=
  .next (s.whenReleased (scopeOf scope) fun s => s.hurdleOp rs1 (hdRefR (s.x rs1)) (scopeOf scope) 0 (s.memberOf rs2 (scopeOf scope)))
/-- HD.WITHDRAW (R226): a release at its scope where it completes the hurdle. -/
def execHdWithdraw (rs1 rs2 : Reg) (scope : BitVec 2) (s : State) : Res :=
  .next (s.whenReleased (scopeOf scope) fun s => s.hurdleOp rs1 (s.hdRef (s.x rs1)) (scopeOf scope) 1 (s.memberOf rs2 (scopeOf scope)))
/-- HD.WITHDRAW.R. -/
def execHdWithdrawR (rs1 rs2 : Reg) (scope : BitVec 2) (s : State) : Res :=
  .next (s.whenReleased (scopeOf scope) fun s => s.hurdleOp rs1 (hdRefR (s.x rs1)) (scopeOf scope) 1 (s.memberOf rs2 (scopeOf scope)))
/-- HD.JOIN: a relaxed read-modify-write. -/
def execHdJoin (rs1 : Reg) (s : State) : Res := .next (s.hurdleOp rs1 (s.hdRef (s.x rs1)) 0 2 0)
/-- HD.JOIN.R. -/
def execHdJoinR (rs1 : Reg) (s : State) : Res := .next (s.hurdleOp rs1 (hdRefR (s.x rs1)) 0 2 0)
/-- HD.WAIT (R228): an acquire of the completion that it returns (R179). -/
def execHdWait (rd rs1 rs2 : Reg) (s : State) : Res :=
  .next (s.onHurdle rs1 false fun s h =>
    let x := s.hurdle h
    let g : Option (BitVec 32) := if rs2 = 0 then none else some (lowW (s.x rs2))
    let ready := match g with | none => x.arr == x.exp | some g => genPassed x.gen g
    if ready then (s.seesCompletion s.myDie h).finX rd (x.word true) 4 else s.park (.hurdle rd h g) 2 (s.x rs1) 0 4)
/-- HD.ARRWAIT (R228): it arrives and waits for a completion beyond the GEN read with the arrival. -/
def execHdArrwait (rd rs1 rs2 : Reg) (scope : BitVec 2) (s : State) : Res :=
  .next (s.whenReleased (scopeOf scope) fun s => s.onHurdle rs1 true fun s h =>
    let m := s.memberOf rs2 (scopeOf scope)
    let g := (s.hurdle h).gen
    (s.park (.hurdle rd h (some g)) 2 (s.x rs1) 0 4).hurdleArrive (some s.focus) (scopeOf scope) h m 0)
/-- HD.TEST (R227): DONE where ARR equals EXP, which is then an acquire of that completion (R179). -/
def execHdTest (rd rs1 : Reg) (s : State) : Res :=
  .next (s.onHurdle rs1 false fun s h =>
    let x := s.hurdle h
    let done := x.arr == x.exp
    (if done then s.seesCompletion s.myDie h else s).finX rd (x.word done) 4)

/-! ## Laps and domains (R98, R229) -/

/-- The lap hurdle of a level 1 to 4 (R97, R229), as an operand of HD.ARRIVE. -/
def State.lapHurdle (s : State) (level : Nat) : HdRef :=
  if level = 1 then .near (spadCell s.myPcl 0x2FFF00)
  else if level = 2 then .far (spadCell (s.myDie * 24) 0x2FFF20)
  else if level = 3 then .far (spadCell 0 0x2FFF40)
  else .rank ((s.group s.me.group.toNat).ranks.headD 0) 0x2FFF60
/-- A lap hurdle's operand value. -/
def HdRef.value : HdRef → Dword
  | .near h => recLocal h
  | .far h => BitVec.ofNat 64 h
  | .rank r off => BitVec.ofNat 64 (r * 2 ^ 52 + off)
  | .bad => 0
/-- The level of a two-bit field. -/
def levelOf (l : BitVec 2) : Nat := l.toNat + 1
/-- Does the baton stand in EXCHANGE at a level. -/
def Slot.exchange (t : Slot) (level : Nat) : Bool := t.phases.getLsbD (level - 1)
/-- The statuses of the copy commands issued in EXCHANGE at a level, as a set of ERR bits. -/
def lapStatus (l : List LapCopy) (level : Nat) : BitVec 32 :=
  statusBits ((l.filter fun c => c.level == level).filterMap LapCopy.status)
/-- The arrival of a LAP.END in EXCHANGE (R98, R229). -/
def State.lapArrive (s : State) (rd : Reg) (level : Nat) : State :=
  let st := lapStatus s.me.lapCopies level
  let ref := s.lapHurdle level
  let drop := fun (s : State) => s.setMe { s.me with lapCopies := s.me.lapCopies.filter fun c => c.level != level }
  let m := 0xFFFFFFFF
  match ref with
  | .near h =>
    s.onCells [h] fun s =>
      if !s.hurdleAdmits h s.me.track 0 .amo then s.trap 7 ref.value
      else if (s.hurdle h).refusesOver m then
        let s := ((drop s).hurdleArrive (some s.focus) (level - 1) h m st).seesCompletion s.myDie h
        (s.setPhase s.myRecord level false).finX rd ((s.hurdle h).word true) 4
      else ((drop s).park (.lap rd level h 0) 2 ref.value 0 4).hurdleArrive (some s.focus) (level - 1) h m st
  | .far h =>
    let s := drop s
    let (t, s) := s.newTag (.baton s.myRecord)
    let p := s.arriveReq (level - 1) h m 3 st t
    (s.park (.lap rd level h t) 2 ref.value 0 4).send p
  | .rank r off =>
    if s.rankFull s.myDie r then s.park (.lapCopies rd level) 10 (BitVec.ofNat 64 r) 0 4
    else
      let s := drop s
      let (t, s) := s.newTag (.baton s.myRecord)
      let p := { s.arriveReq (level - 1) (spadCell 0 off) m 3 st t with dstRank := r, master := 1 }
      (s.park (.lap rd level 0 t) 2 ref.value 0 4).sendRanked p
  | .bad => s
/-- The copy commands that a baton issued in EXCHANGE at a level and that have not completed (R98). -/
def State.lapOpen (s : State) (rec' level : Nat) : Bool :=
  let l := match s.findSlot rec' with
    | some k => (s.slotAt k).lapCopies
    | none => match s.findAway rec' with | some a => a.lapCopies | none => []
  l.any fun c => c.level == level && c.status.isNone
/-- A LAP.END whose copy commands have completed, or that has waited for space in the hold queue, goes on with its arrival (R98, R217), which as a
release waits for posted stores (R218). -/
def State.lapGo (s : State) (rec' : Nat) : State :=
  match s.waitOf rec' with
  | .lapCopies rd level =>
    let here := { s with focus := (s.findSlot rec').getD s.focus }
    let full := match here.lapHurdle level with | .rank r _ => s.rankFull here.myDie r | _ => false
    if s.lapOpen rec' level || ((s.findSlot rec').isSome && (full || !here.released (level - 1))) then s
    else s.goOn rec' (fun s => match s.lapHurdle level with | .near h => [h] | _ => []) fun s => s.lapArrive rd level
  | _ => s
/-- LAP.END (R98, R229): in RUN the phase becomes EXCHANGE; in EXCHANGE it waits for its copy commands, arrives and waits. -/
def execLapEnd (rd : Reg) (level : BitVec 2) (s : State) : Res :=
  .next (
    let l := levelOf level
    if !dmrValid (s.dmr s.myCid s.me.group l) then s.trap 30 0
    else if !s.me.exchange l then (s.setPhase s.myRecord l true).finX rd 0 4
    else if s.me.lapCopies.any (fun c => c.level == l && c.status.isNone) then
      s.park (.lapCopies rd l) 2 (s.lapHurdle l).value 0 4
    else s.whenReleased (l - 1) fun s => s.lapArrive rd l)
/-- DOM.RD (R229). -/
def execDomRd (rd : Reg) (level : BitVec 2) (s : State) : Res :=
  .next (
    let l := levelOf level
    if !dmrValid (s.dmr s.myCid s.me.group l) then s.finX rd 0 4
    else s.finX rd ((s.lapHurdle l).value ||| boolX (s.me.exchange l) ||| 2 ||| (if l = 4 then 4 else 0)) 4)

/-! ## Time and promises -/

/-- WAIT.UNTIL (R230). -/
def execWaitUntil (rd rs1 : Reg) (s : State) : Res :=
  .next (
    if (s.x rs1).toNat ≤ s.mySwc then s.finX rd (BitVec.ofNat 64 s.mySwc) 4
    else s.park (.time rd) 3 0 (s.x rs1) 4)
/-- WAIT.PROMISE (R154, R230). A handle that its engine no longer tracks has completed OK. -/
def execWaitPromise (rs1 : Reg) (s : State) : Res :=
  .next (
    let h := s.x rs1
    let i := handleEntry h
    let pcl := s.myPcl
    match s.tracked pcl h with
    | none => (s.acquireLog s.myDie 3).fin 4
    | some e =>
      match promiseCheck e s.mySwc with
      | .wait => s.park (.promise h) 4 h (BitVec.ofNat 64 e.promise) 4
      | .stray => (s.setEntry pcl i { e with told := true }).trap 30 h
      | .fault st => (s.freeEntry pcl i).trapSlot s.focus 25 h st
      | .done => ((s.freeEntry pcl i).acquireLog s.myDie 3).fin 4
      | .missed => (s.setEntry pcl i { e with missed := true }).trap 24 h)

end Sys2Proof.Machine
end

