-- ==== Sys2Proof/Machine/Msg.lean ====
section
/-!
DEFINITION. The meanings of the message and rank-table instructions (R231 to R233).
-/
namespace Sys2Proof.Machine

/-- Cells of a byte range that lies wholly in one local aperture, none where it does not, meets an unmapped window, or is refused (R50, R58). -/
def State.localRange (s : State) (op : MemOp) (a n : Nat) : Option (List Nat) :=
  let last := a + (n - 1)
  if !isLocal a || addrClass a != addrClass last || !s.ataperAdmits s.myDie (ownTarget s.myPcl a) s.me.track 0 op then none
  else
    let cs := (List.range n).map fun i => s.localCell s.myCid (a + i)
    if cs.contains none then none else some (cs.filterMap id)
/-- The bytes at a list of cells. -/
def State.cellBytes (s : State) (cs : List Nat) : List Byte := cs.map fun c => readByte s.mem c
/-- Writing bytes to a list of cells, one by one. -/
def State.putCells (s : State) (who : Option Nat) : List Nat → List Byte → State
  | c :: cs, b :: bs => (s.store who c [b]).putCells who cs bs
  | _, _ => s

/-- Fields of MSG.SEND's xreg[rs2] (R231). -/
def msgRank (v : Dword) : Nat := (v.extractLsb' 52 12).toNat
/-- See `msgRank`. -/
def msgQueue (v : Dword) : Nat := (v.extractLsb' 32 3).toNat
/-- See `msgRank`. -/
def msgLen (v : Dword) : Nat := (v.extractLsb' 0 9).toNat
/-- Is xreg[rs2] well formed. -/
def msgOk (v : Dword) : Bool := v.extractLsb' 35 17 == 0 && v.extractLsb' 9 23 == 0 && decide (msgLen v ≤ 256)
/-- The MSG packet of a payload (R34, R231). -/
def State.msgPkt (s : State) (v : Dword) (data : List Byte) (tag : Nat) : Pkt :=
  { Pkt.blank with ty := .msg, va := spadCell 0 0, track := s.me.track, src := s.myCid, srcRank := s.srcRank s.myPcl,
                   dstRank := msgRank v, tag := tag, a := BitVec.ofNat 64 (msgQueue v), data := data, rel := true }
/-- MSG.SEND (R231): a malformed destination gives REFUSED_ACCESS; a payload that is not 8-byte aligned, or not wholly in one local
aperture, traps cause 5; the baton parks until the acknowledgement. -/
def execMsgSend (rd rs1 rs2 : Reg) (s : State) : Res :=
  .next (
    let v := s.x rs2
    let a := (s.x rs1).toNat
    if !msgOk v then s.finX rd 1 4
    else
      match (if a % 8 = 0 then s.localRange .read a (msgLen v) else none), isLocal a with
      | some cs, true =>
        s.whenReleased 3 fun s => s.onCells cs fun s =>
          let r := msgRank v
          let (t, s) := s.newTag (.baton s.myRecord)
          let p := s.msgPkt v (s.cellBytes cs) t
          if s.rankFull s.myDie r then s.park (.rankSend p rd false false) 10 (BitVec.ofNat 64 r) 0 4
          else (s.park (.msgSend t rd none) 5 v 0 4).sendRanked p
      | _, _ => s.trap 5 (s.x rs1))

/-- A queue of a cluster. -/
def Cluster.msgQueue (c : Cluster) (q : BitVec 3) : List Message := c.msgs[q.toNat]'q.isLt
/-- The cluster with a queue set. -/
def Cluster.setMsgs (c : Cluster) (q : BitVec 3) (l : List Message) : Cluster := { c with msgs := c.msgs.set q.toNat l q.isLt }
/-- The result of a taken message (R232). -/
def msgWord (m : Message) : Dword := BitVec.ofNat 64 (m.rank * 2 ^ 52 + 2 ^ 16 + m.data.length)
/-- The oldest message of a track in a queue of a cluster, with its place (R232). -/
def State.msgFor (s : State) (pcl : Nat) (queue : BitVec 3) (tk : BitVec 16) : Option (Nat × Message) :=
  let q := (s.cluster pcl).msgQueue queue
  (q.findIdx? fun m => m.track == tk).bind fun i => (q[i]?).map fun m => (i, m)
/-- MSG.RECV and MSG.POLL on a buffer (R232): the oldest message of the baton's track is written as plain stores; `wait` says what happens without
one. -/
def State.takeMsg (s : State) (rd : Reg) (buf : Dword) (queue : BitVec 3) (wait : State → State) : State :=
  let bad := s.trap 7 buf
  if buf.toNat % 8 ≠ 0 ∨ !isLocal buf.toNat then bad
  else
    match s.msgFor s.myPcl queue s.me.track with
    | none => wait s
    | some (i, m) =>
      match s.localRange .write buf.toNat m.data.length with
      | none => bad
      | some cs =>
        s.onCells cs fun s =>
          let c := s.cluster s.myPcl
          let s := s.setCluster s.myPcl (c.setMsgs queue ((c.msgQueue queue).eraseIdx i))
          ((s.acquireLog s.myDie 3).putCells (some s.focus) cs m.data).finX rd (msgWord m) 4
/-- MSG.RECV (R232): without a message the baton parks. -/
def execMsgRecv (rd rs1 : Reg) (queue : BitVec 3) (s : State) : Res :=
  .next (s.takeMsg rd (s.x rs1) queue fun s => s.park (.msgRecv rd queue (s.x rs1)) 5 (zext64 queue) 0 4)
/-- A MSG.RECV that waits takes a message that has come into the buffer that it named (R217, R232). -/
def State.recvGo (s : State) (rec' : Nat) : State :=
  match s.waitOf rec' with
  | .msgRecv rd queue buf =>
    match s.msgFor (recPcl rec') queue (s.batonTrack rec').1 with
    | none => s
    | some (_, m) =>
      s.goOn rec' (fun s => (s.localRange .write buf.toNat m.data.length).getD []) fun s => s.takeMsg rd buf queue id
  | _ => s
/-- MSG.POLL (R232): without a message it returns 0. -/
def execMsgPoll (rd rs1 : Reg) (queue : BitVec 3) (s : State) : Res := .next (s.takeMsg rd (s.x rs1) queue fun s => s.finX rd 0 4)

/-- A change of the rank table goes to every live NI, and the baton parks until each has applied it (R42, R233). Illegal under a track
other than 0, and with a rank operand above 4,095. -/
def State.rctChange (s : State) (w : Word32) (rs1 : Reg) (kind : Nat) (v : Dword) (ok : Bool) : State :=
  let r := s.x rs1
  if s.me.track ≠ 0 ∨ r.extractLsb' 12 52 ≠ 0 ∨ !ok then s.illegal w
  else
    let dies := allDies.filter s.dieUp
    let s := s.masterRct r.toNat kind v
    let (t, s) := s.newTag (.baton s.myRecord)
    let s := s.park (.rct t dies) 1 (tagKey t) 0 4
    dies.foldl (fun s d => s.send { Pkt.blank with
      ty := .rctUpd, src := mgmtEp, dst := niEp d, tag := t, a := BitVec.ofNat 64 kind, b := v, c := r }) s
/-- RCT.SET (R42, R233): an out-of-range DIE, CLUSTER or STATE is illegal. -/
def execRctSet (rs1 rs2 : Reg) (s : State) : Res :=
  .next (s.rctChange (xrWord 3 0 rs2.toNat rs1.toNat 3 0 custom0) rs1 0 (s.x rs2) (rctOk (s.x rs2)))
/-- RCT.HOLD (R43, R233). -/
def execRctHold (rs1 : Reg) (s : State) : Res := .next (s.rctChange (xrWord 4 0 0 rs1.toNat 3 0 custom0) rs1 1 0 true)
/-- RCT.RELEASE (R43, R233). -/
def execRctRelease (rs1 : Reg) (s : State) : Res := .next (s.rctChange (xrWord 5 0 0 rs1.toNat 3 0 custom0) rs1 2 0 true)

end Sys2Proof.Machine
end

