-- ==== Sys2Proof/Machine/Starter.lean ====
section
/-!
DEFINITION. The Starter: the intake (R80, R82), admission (R85, R86), resource reports (R87), placement (R88, R89), graph definitions
(R83, R84), energy (R28, R86), and what a C-die that goes down ends (R88).
-/
namespace Sys2Proof.Machine

/-- The function of a PKREADY bit (R18): the Starter. -/
def starterBit : Nat := 48
/-- The Starter is up. -/
def State.starterUp (s : State) : Bool := s.readyBit starterBit
/-- The state with the Starter set. -/
def State.setStarter (s : State) (x : Starter) : State := { s with starter := x }

/-! ## The intake (R80) -/

/-- Is an address global (R50). -/
def isGlobal (a : Nat) : Bool := addrClass a == .global
/-- A FRAME that can be used: 0, a host physical address, or a global address. -/
def frameOk (f : Dword) : Bool := f == 0 || f.getLsbD 63 || isGlobal f.toNat
/-- The must-be and reserved values of a launch record (R79), with its place and its spill. -/
def recordBroken (r : BitVec 512) : Bool :=
  let c := recCtrl r
  c.extractLsb' 2 2 != 0 || c.extractLsb' 4 4 != 0 || c.extractLsb' 48 8 != 0 || c.extractLsb' 56 8 != 0 ||
    r.extractLsb' 176 16 != 0 || decide (1 < recKind r) ||
    (if recKind r = 1 then decide (1024 ≤ recWkey r) else recWkey r != 0) ||
    !frameOk (recFrame r) || (recPlace r != 0xFFFF && decide (287 < recPlace r)) || decide (3072 < recSpill r)
/-- CAP and BUDGET of STAMCFG (R86). -/
def State.stamCap (s : State) : Nat := (s.pkg.stamcfg.extractLsb' 32 32).toNat
/-- See `State.stamCap`. -/
def State.stamBudget (s : State) : Nat := (s.pkg.stamcfg.extractLsb' 0 12).toNat
/-- The current version of a graph. -/
def Starter.current (st : Starter) (gnum : Nat) : Option GraphVer := st.graphs.find? fun v => v.gnum == gnum && v.current
/-- A record breaks a check other than that of its claim (R80). -/
def State.recordBad (s : State) (r : BitVec 512) : Bool :=
  recordBroken r || (s.trackEntry bDie (recTrack r)).isNone || (recKind r == 1 && (s.starter.current (recWkey r)).isNone)
/-- Rejecting a record: counted, and answered where it names a usable FRAME; then MSI-X fires, as for a written record where the write fails
(R80, R82). -/
def State.rejectRecord (s : State) (r : BitVec 512) (status : Nat) : State :=
  let s := s.setStarter { s.starter with rejected := s.starter.rejected + 1 }
  if recFrame r = 0 ∨ !frameOk (recFrame r) then s
  else
    let (tags, s) := s.writeCompletion .rejection (recFrame r) (recTrack r) (completionRecord (s.swcAt bDie) 0 0 status)
    if tags = [] then s.fireMsi else s.setStarter { s.starter with rejecting := s.starter.rejecting ++ [tags] }
/-- Taking a record: its sequence number, 0 where it is rejected, and the state (R80). -/
def State.takeRecord (s : State) (r : BitVec 512) (forbidden : Bool) : Nat × State :=
  if forbidden || s.recordBad r then (0, s.rejectRecord r 1)
  else if s.stamCap < recClaim r then (0, s.rejectRecord r 2)
  else
    let seq := s.starter.seq + 1
    let l : Launch := { record := r, state := .queued, remainder := 0, measured := 0, placed := none, ended := none,
                        preempted := false, node := none }
    let s := s.setLaunch seq l
    (seq, s.setStarter { s.starter with seq := seq, admission := s.starter.admission ++ [seq] })
/-- A write dropped at the intake. -/
def State.dropIntake (s : State) : State := s.setStarter { s.starter with dropped := s.starter.dropped + 1 }
/-- The writes of the host that are still to be performed at their homes, by tag. -/
def State.hostPosted (s : State) : List Nat := s.owners.filterMap fun o => match o.2 with | .host false => some o.1 | _ => none
/-- A record joins the intake queue; a full queue of 256 records, and a Starter that is down, drop it (R19, R80). -/
def State.intakeJoin (s : State) (r : BitVec 512) (baton slot : Option Nat) (forbidden : Bool) : State :=
  if !s.starterUp ∨ 256 ≤ s.starter.intake.length then s.dropIntake
  else s.setStarter { s.starter with
    intake := s.starter.intake ++ [{ record := r, after := s.hostPosted, baton := baton, slot := slot, forbidden := forbidden }] }
/-- The oldest records are taken, each once every write that the host posted before it has been performed (R81). A baton that has submitted one
receives its sequence number, or 0 (R244). -/
def State.drainIntake : Nat → State → State
  | 0, s => s
  | fuel + 1, s =>
    match s.starter.intake with
    | [] => s
    | x :: rest =>
      if !s.starterUp ∨ x.after.any s.hostPosted.contains then s
      else
        let (seq, s) := (s.setStarter { s.starter with intake := rest }).takeRecord x.record x.forbidden
        let s := match x.baton with
          | some b => (match s.waitOf b with | .intake rd => s.finishWait b (.x rd (BitVec.ofNat 64 seq)) | _ => s)
          | none => s
        State.drainIntake fuel s
/-- The intake takes what it can. -/
def State.takeIntake (s : State) : State := s.drainIntake 256
/-- INTAKE_WRITE: a host write to the intake window is accepted as one write of 64 aligned bytes with all byte enables; any other is dropped (R19,
R80). -/
def State.intakeWrite (s : State) (w : IntakeWrite) : State :=
  if !s.readyBit 55 then s
  else if w.offset % 64 ≠ 0 ∨ w.len ≠ 64 ∨ !w.full then s.dropIntake
  else (s.intakeJoin w.record none none false).takeIntake
/-- INTAKECOMMIT: the OS core whose slot it names submits it (R75). `core` is the OS core that writes, none for any other master. A write to the
slot while its record waits in the intake may reach the record or not (`State.stage`). -/
def State.intakeCommit (s : State) (core : Option Nat) (v : Dword) : State :=
  if h : v.toNat < 16 then
    if core ≠ some v.toNat then s.dropIntake else (s.intakeJoin (s.pkg.staging[v.toNat]'h) none (some v.toNat) false).takeIntake
  else s.dropIntake

/-! ## Admission (R85, R86) -/

/-- Does a SINGLE graph launch wait for the running instance (R85). -/
def State.singleHeld (s : State) (l : Launch) : Bool :=
  recKind l.record == 1 &&
    match s.starter.current (recWkey l.record) with
    | some v => v.single && s.starter.instances.any fun p => p.2.gnum == v.gnum
    | none => false
/-- Is a launch set aside in admission, so that it does not block those behind it. -/
def State.isAside (s : State) (l : Launch) : Bool := l.node.isSome || s.singleHeld l
/-- May a launch be admitted now: its claim is covered, its deadline has not passed, it is not held. -/
def State.admissible (s : State) (l : Launch) : Bool :=
  decide ((recClaim l.record : Int) ≤ s.available) && (recWtime l.record == 0 || decide (s.swcAt bDie ≤ recWtime l.record)) &&
    !s.singleHeld l &&
    (match l.node with
     | some (g, _) => (match s.launchOf g with | some gl => !gl.preempted | none => true)
     | none => true)
/-- The launch that is admitted next: set-aside launches do not block, and nothing passes a waiting head (R86). A graph node stands in the queue in the
order of its submission, and passes no waiting head either (DESIGN CHOICE, log entry 117). -/
def State.nextAdmit (s : State) : List Nat → Option (Nat × Launch)
  | [] => none
  | n :: r =>
    match s.launchOf n with
    | none => s.nextAdmit r
    | some l => if s.admissible l then some (n, l) else if s.isAside l then s.nextAdmit r else none
/-- LAUNCH_ADMIT: its claim becomes its remainder; a graph launch binds the current version and starts its nodes (R85, R86). -/
def State.launchAdmit (s : State) : State :=
  if !s.starterUp || s.starter.stopped then s
  else
    match s.nextAdmit s.starter.admission with
    | none => s
    | some (n, l) =>
      let st := s.starter
      let s := s.setStarter { st with admission := st.admission.filter (· != n) }
      let l := { l with remainder := recClaim l.record }
      if recKind l.record = 1 then
        match st.current (recWkey l.record) with
        | none => s.finishLaunch n 5
        | some v =>
          let s := s.setLaunch n { l with state := .running }
          (s.setStarter { s.starter with
            instances := kset n { gnum := v.gnum, version := v.version, nodes := v.nodes.map fun _ => .waiting, writes := [] }
              s.starter.instances }).graphProgress n
      else
        let s := s.setLaunch n { l with state := .placing (s.swcAt bDie) }
        s.setStarter { s.starter with placement := s.starter.placement ++ [n] }
/-- ADMISSION_DEADLINE: the SWC exceeds WTIME before admission (R82). -/
def State.admissionDeadline (s : State) (n : Nat) : State :=
  match s.launchOf n with
  | none => s
  | some l =>
    if s.starter.admission.contains n && recWtime l.record != 0 && decide (recWtime l.record < s.swcAt bDie) then s.finishLaunch n 4
    else s

/-! ## Resource reports (R87) -/

/-- The carve-out area of a scratchpad (R88). -/
def carveLow : Nat := 0x400000
/-- See `carveLow`. -/
def carveHigh : Nat := 0x6FFC00
/-- The lowest KiB position of the area, from a position upwards, at which `n` KiB lie unreserved (R88). -/
def freeRun (cs : List (Nat × Nat)) (n : Nat) : Nat → Nat → Option Nat
  | 0, _ => none
  | fuel + 1, p =>
    if 3071 < p + n then none
    else
      match cs.find? fun c => decide (c.1 < p + n) && decide (p < c.2) with
      | none => some p
      | some c => freeRun cs n fuel c.2
/-- The reservations of a cluster as KiB positions of the area. A launch that has none there holds no range (R146). -/
def State.reserved (s : State) (pcl : Nat) : List (Nat × Nat) :=
  ((s.cluster pcl).carves.filter fun c => c.2.base < c.2.fin).map fun c => ((c.2.base - carveLow) / 1024, (c.2.fin - carveLow) / 1024)
/-- The largest unreserved run of a cluster's area, in KiB. -/
def State.spillFree (s : State) (pcl : Nat) : Nat :=
  let cs := s.reserved pcl
  let starts := 0 :: cs.map Prod.snd
  starts.foldl (fun m p =>
    if cs.any (fun c => decide (c.1 ≤ p) && decide (p < c.2)) then m
    else max m ((cs.filterMap fun c => if p ≤ c.1 then some c.1 else none).foldl min 3071 - p)) 0
/-- The resource word of a cluster but for RSEQ. -/
def State.resourceWord (s : State) (pcl : Nat) : Dword :=
  let cp := 64 - (s.cluster pcl).engine.length
  let slots := (List.range 16).foldl (fun n m => n + (s.freeSlots (coreOf pcl m)).length) 0
  0#16 ++ 0#7 ++ BitVec.ofNat 7 cp ++ 0#15 ++ BitVec.ofNat 12 (s.spillFree pcl) ++ BitVec.ofNat 7 slots
/-- Fields of a resource word. -/
def resCp (w : Dword) : Nat := (w.extractLsb' 34 7).toNat
/-- See `resCp`. -/
def resSpill (w : Dword) : Nat := (w.extractLsb' 7 12).toNat
/-- See `resCp`. -/
def resSlots (w : Dword) : Nat := (w.extractLsb' 0 7).toNat
/-- A distance of numbers. -/
def absDiff (a b : Nat) : Nat := (a - b) + (b - a)
/-- A field has changed by more than an eighth of its maximum. -/
def resChanged (a b : Dword) : Bool :=
  decide (64 < 8 * absDiff (resCp a) (resCp b)) || decide (3071 < 8 * absDiff (resSpill a) (resSpill b)) ||
    decide (64 < 8 * absDiff (resSlots a) (resSlots b))
/-- Does a cluster have room for a launch by the Starter's word (R88). -/
def resFits (w : Dword) (l : Launch) : Bool := decide (max (recSpill l.record) 1 ≤ resSpill w)
/-- The word of a cluster in the Starter's table. -/
def State.resource (s : State) (pcl : Nat) : Dword := kget 0 s.starter.resources pcl
/-- A cluster's word in the Starter's table; fixed-PLACE launches that it shows cannot be taken complete NO_PLACEMENT (R82, R87). -/
def State.reported (s : State) (pcl : Nat) (word : Dword) : State :=
  let s := s.setStarter { s.starter with resources := kset pcl word s.starter.resources }
  s.starter.placement.foldl (fun s n =>
    match s.launchOf n with
    | none => s
    | some l => if recPlace l.record = pcl ∧ (!s.dieUp (pcl / 24) || !resFits word l) then s.finishLaunch n 3 else s) s
/-- The offset of a cluster's word in the management block (R87). -/
def resourceOffset (pcl : Nat) : Nat := 0x2000 + 8 * pcl
/-- A WRITE packet at the management block, target 0 of the B-die, which checks it (R51, R58): a report of a C-die's NI reaches its word of the table
(R87). -/
def State.mgmtPkt (s : State) (p : Pkt) : State :=
  let pcl := (p.va - 0x2000) / 8
  let took := if p.ty = .write ∧ p.va = resourceOffset pcl ∧ pcl < 288 ∧ p.src = niEp (pcl / 24) ∧ p.data.length = 8 ∧ s.dieUp (pcl / 24) then
      s.reported pcl (BitVec.ofNat 64 (natLE p.data))
    else s
  if s.ataperAdmits bDie 0 p.track (p.classAt bDie) .write then took.answer bDie p .writeAck 0 0 0 [] else s.refuse bDie p 1 p.va
/-- RESOURCE_REPORT: a C-die's NI sends a cluster's word, under track 0 with master class 1 (R87). A cluster of a die that is down has its word
zeroed. -/
def State.resourceReport (s : State) (pcl : Nat) : State :=
  if 288 ≤ pcl then s
  else
    let d := pcl / 24
    let c := s.cluster pcl
    let now := s.swcAt d
    let w := s.resourceWord pcl
    if !s.dieUp d then s.reported pcl 0
    else if c.rseq != 0 && decide (now < c.reportAt + 1024) && !resChanged w c.reported then s
    else
      let word := (c.rseq + 1) ++ w.extractLsb' 0 48
      (s.setCluster pcl { c with rseq := c.rseq + 1, reportAt := now, reported := w }).send
        { Pkt.blank with ty := .write, op := .write, va := resourceOffset pcl, src := niEp d, dst := mgmtEp, master := 1,
                         elems := [(resourceOffset pcl, 8)], data := bytesLE 8 word.toNat }

/-! ## Placement (R88, R89) -/

/-- The cluster that a launch is placed on now, by the Starter's table. -/
def State.pickCluster (s : State) (l : Launch) : Option Nat :=
  let fits := fun (p : Nat) => s.readyBit (p / 24) && resFits (s.resource p) l
  if recPlace l.record ≠ 0xFFFF then if fits (recPlace l.record) then some (recPlace l.record) else none
  else
    let loader := (recCtrl l.record).extractLsb' 0 2 == 0#2
    let key := fun (p : Nat) =>
      let w := s.resource p
      if loader then (resCp w, resSlots w) else (resSlots w, resSpill w)
    ((List.range 288).filter fits).foldl (fun b p =>
      match b with
      | none => some p
      | some q =>
        let x := key q
        let y := key p
        if x.1 < y.1 ∨ (x.1 = y.1 ∧ x.2 < y.2) then some p else some q) none
/-- The first launch in placement that qualifies, with its cluster. -/
def State.nextPlace (s : State) : List Nat → Option (Nat × Launch × Nat)
  | [] => none
  | n :: r =>
    match s.launchOf n with
    | none => s.nextPlace r
    | some l =>
      match s.pickCluster l with
      | some p => some (n, l, p)
      | none => s.nextPlace r
/-- The first baton's record (R79, R89). -/
def firstRecord (r : BitVec 512) : BitVec 512 :=
  let ctrl := ctrlWord ((recCtrl r).extractLsb' 0 2) 0 0 0 (recTrack r) 0xFFFF 0 0 0
  r.extractLsb' 448 64 ++ r.extractLsb' 384 64 ++ 0#128 ++ ctrl ++ 0#128 ++ recPc r
/-- LAUNCH_PLACE: the first launch that qualifies is placed, at most one every 16 cycles: its carve-out is reserved, its first baton's record
is written at the carve-out's start, and the baton is enqueued READY. -/
def State.launchPlace (s : State) : State :=
  let now := s.swcAt bDie
  let early := match s.starter.placedAt with | some t => decide (now < t + 16) | none => false
  if !s.starterUp || early then s
  else
    match s.nextPlace s.starter.placement with
    | none => s
    | some (n, l, p) => s.inTurn (p / 24) (placeKey p) 0 [spadCell p 0] fun s =>
      let kib := max (recSpill l.record) 1
      match freeRun (s.reserved p) kib ((s.reserved p).length + 1) 0 with
      | none => s
      | some pos =>
        let base := carveLow + pos * 1024
        let fin := base + kib * 1024
        let w := s.resource p
        let word : Dword := w.extractLsb' 19 45 ++ BitVec.ofNat 12 (resSpill w - kib) ++ BitVec.ofNat 7 (resSlots w - 1)
        let st := s.starter
        let s := s.setStarter { st with placement := st.placement.filter (· != n), placedAt := some now,
                                        resources := kset p word st.resources }
        let s := s.setLaunch n { l with state := .running, placed := some p }
        let s := s.setCarve p n { base := base, fin := fin, low := base + 64, high := fin, xovf := 0, small := 0, large := 0 }
        let rec' := spadCell p (base - spadBase)
        (s.storeLE none rec' 64 (firstRecord l.record).toNat).enqueue rec' n
/-- PLACEMENT_TIMEOUT (R88). -/
def State.placementTimeout (s : State) (n : Nat) : State :=
  match s.launchOf n with
  | some l =>
    match l.state with
    | .placing since =>
      if recPlace l.record = 0xFFFF ∧ since + 1048576 ≤ s.swcAt bDie then s.finishLaunch n 3 else s
    | _ => s
  | none => s

/-! ## Graph definitions (R83, R84) -/

/-- GRSTAT while a copy is in progress. -/
def State.grBusy (s : State) : Bool := s.starter.grstat.getLsbD 4
/-- Asking for `n` lines of a graph image from an offset on, each by a READ of its own; a line whose address is not global cannot be read. -/
def State.grdefAsk (s : State) (g : GraphCopy) (off n : Nat) : GraphCopy × State :=
  (List.range n).foldl (fun (r : GraphCopy × State) i =>
    let o := off + 64 * i
    if !isGlobal (g.addr + o) then ({ r.1 with failed := true }, r.2)
    else
      let (t, u) := r.2.newTag .grdef
      ({ r.1 with parts := r.1.parts ++ [(t, o)] }, u.send (u.starterPkt .read g.track (g.addr + o) 64 t []))) (g, s)
/-- The Starter with a graph copy in progress. -/
def State.setCopying (s : State) (r : GraphCopy × State) : State := r.2.setStarter { r.2.starter with copying := some r.1, grstat := s.starter.grstat ||| 16#64 }
/-- GRDEF: a copy starts with the image's header, unless one is in progress. -/
def State.grdefWrite (s : State) (v : Dword) : State :=
  if s.grBusy then s
  else s.setCopying (s.grdefAsk { gnum := (v.extractLsb' 48 10).toNat, addr := (v.extractLsb' 6 42).toNat * 64,
                                  track := s.pkg.grtrk.extractLsb' 0 16, parts := [], got := [], failed := false, body := false } 0 1)
/-- A piece of the image is answered, with none for a failure. -/
def State.grdefPiece (s : State) (tag : Nat) (data : Option (List Byte)) : State :=
  match s.starter.copying with
  | none => s
  | some g =>
    match g.parts.find? fun p => p.1 == tag with
    | none => s
    | some p =>
      let g := { g with parts := g.parts.filter fun q => q.1 != tag }
      let g := match data with | some l => { g with got := g.got ++ [(p.2, l)] } | none => { g with failed := true }
      s.setStarter { s.starter with copying := some g }
/-- The bytes of the image that have come. -/
def GraphCopy.bytes (g : GraphCopy) : List Byte := (sortBy Prod.fst g.got).flatMap Prod.snd
/-- A graph image that R83 allows. -/
def graphOf (gnum version : Nat) (tk : BitVec 16) (header : BitVec 512) (body : List Byte) : Option GraphVer :=
  let n := (header.extractLsb' 0 9).toNat
  let nodes := (List.range n).map fun i => BitVec.ofNat 512 (natLE ((body.drop (64 * i)).take 64))
  let succ := (List.range n).map fun i => BitVec.ofNat 256 (natLE ((body.drop (64 * n + 32 * i)).take 32))
  let edgesOk := (List.range n).all fun i => (List.range 256).all fun j => !(succ.getD i 0).getLsbD j || (decide (i < j) && decide (j < n))
  if n = 0 ∨ 256 < n ∨ header.extractLsb' 10 6 ≠ 0 ∨ header.extractLsb' 32 480 ≠ 0 ∨ header.extractLsb' 16 16 ≠ tk ∨
      nodes.any (fun r => recordBroken r || recKind r != 0) ∨ !edgesOk then none
  else some { gnum := gnum, version := version, current := true, single := header.getLsbD 9, track := tk, nodes := nodes, succ := succ }
/-- GRSTAT's result. The version that a refused definition reports is stated nowhere: a free value. -/
def State.grResult (s : State) (version : Option Nat) (code : Nat) : State :=
  let v : BitVec 32 := match version with
    | some n => BitVec.ofNat 32 n
    | none => (Config.freeValue s.fresh).extractLsb' 0 32
  { s.setStarter { s.starter with copying := none, grstat := v ++ BitVec.ofNat 32 code } with fresh := s.fresh + 1 }
/-- GRDEF_COPY_DONE: what has been asked for of the image has come. After the header the nodes and edges are asked for, where their number is one that
R83 allows; the whole image is checked and becomes the current version. DESIGN CHOICE: of several results FAULT comes before BAD_IMAGE and that before
FULL (log entry 135), and the first version of a graph is 1 (log entry 136). -/
def State.grdefDone (s : State) : State :=
  match s.starter.copying with
  | none => s
  | some g =>
    if g.parts ≠ [] then s
    else if g.failed then s.grResult none 3
    else
      let header := BitVec.ofNat 512 (natLE (g.bytes.take 64))
      let n := (header.extractLsb' 0 9).toNat
      if !g.body && decide (1 ≤ n) && decide (n ≤ 256) then s.setCopying (s.grdefAsk { g with body := true } 64 ((96 * n + 63) / 64))
      else
        let prev := match s.starter.current g.gnum with | some v => v.version | none => 0
        match graphOf g.gnum (prev + 1) g.track header ((g.bytes.drop 64).take (96 * n)) with
        | none => s.grResult none 1
        | some v =>
          if 128 ≤ s.starter.graphs.length then s.grResult none 2
          else
            let st := s.starter
            let old := st.graphs.map fun x => if x.gnum == g.gnum then { x with current := false } else x
            ((s.setStarter { st with graphs := old ++ [v] }).grResult (some v.version) 0).freeVersions

/-! ## Energy (R28, R86) -/

/-- The reservoir after `n` cycles of refill: it saturates at CAP. DESIGN CHOICE (log entry 137): one that stands above a CAP written lower stays. -/
def State.refill (s : State) (n : Nat) : State :=
  let cap : Int := (s.stamCap : Int) * mJ
  let r := s.starter.reservoir
  s.setStarter { s.starter with reservoir := if cap ≤ r then r else min cap (r + (s.stamBudget * n : Nat)) }
/-- The slots that batons occupy on each die count `n` cycles more for their launches (R86), by launch × 32 + die. A pre-empted launch draws no
energy (R113). -/
def State.countSlots (s : State) (n : Nat) : State :=
  let add := fun (m : KMap Nat) (p : Nat × Slot) =>
    if p.2.mode = .empty ∨ s.launchHeld p.2.launch then m
    else
      let k := p.2.launch * 32 + keyDie p.1
      kset k (kget 0 m k + n) m
  s.setStarter { s.starter with slotCycles := s.slots.foldl add s.starter.slotCycles }
/-- ENERGY_MEASURE: the millijoules drawn on a die since its last measurement are debited, and split among the running launches in proportion to their
occupied slot-cycles there, each share rounded down (R86; log entry 118). -/
def State.energyMeasure (s : State) (d energy : Nat) : State :=
  if !s.dieUp d then s
  else
    let mine := s.starter.slotCycles.filter fun p => p.1 % 32 == d
    let total := (mine.map Prod.snd).sum
    let s := s.setStarter { s.starter with reservoir := s.starter.reservoir - (energy : Int) * mJ,
                                           slotCycles := s.starter.slotCycles.filter fun p => p.1 % 32 != d }
    mine.foldl (fun s p =>
      match s.launchOf (p.1 / 32) with
      | some l =>
        let share := energy * p.2 / total
        if l.state == .running then s.setLaunch (p.1 / 32) { l with measured := l.measured + share, remainder := l.remainder - share } else s
      | none => s) s

/-! ## A C-die that goes down (R19, R88) -/

/-- The launches that hold a baton on a die, or were placed there and still run. -/
def State.launchesOn (s : State) (d : Nat) : List Nat :=
  let inSlots := s.slots.filterMap fun p => if p.2.mode ≠ .empty ∧ keyDie p.1 = d then some p.2.launch else none
  let inQueues := (s.clusters.filter fun c => c.1 / 24 == d).flatMap fun c =>
    (c.2.ready.toList.flatMap fun q => q.map fun r => r.launch) ++ c.2.lost ++ c.2.away.map fun a => a.2.launch
  let placed := s.starter.launches.filterMap fun p => match p.2.placed with
    | some c => if c / 24 = d then some p.1 else none
    | none => none
  (inSlots ++ inQueues ++ placed).eraseDups
/-- Every baton that a C-die's clusters hold ends, and each launch that had one there will complete ABORTED (R88). The reports of its
clusters are zeroed (R87). What counts since package reset goes on: retired instructions (R136) and stray arrivals (R102). -/
def State.endDie (s : State) (d : Nat) : State :=
  let hit := s.launchesOn d
  let gone := fun (k : Nat) => keyDie k == d
  let s := { s with
    slots := s.slots.filter fun p => !gone p.1,
    cores := kmap (fun cid (c : Core) => if cidDie cid = d then { Core.init with instret := c.instret } else c) s.cores,
    quads := s.quads.filter fun p => p.1 / 4 / 24 != d,
    gangs := s.gangs.filter fun p => recPcl p.1 / 24 != d,
    clusters := kmap (fun pcl (c : Cluster) => if pcl / 24 = d then { Cluster.init with xstray := c.xstray } else c) s.clusters }
  let s := s.setStarter { s.starter with
    resources := s.starter.resources.filter fun p => p.1 / 24 != d }
  let s := hit.foldl State.markAborted s
  hit.foldl State.batonDone s

end Sys2Proof.Machine
end

