-- ==== Sys2Proof/Machine/Sys.lean ====
section
/-!
DEFINITION. The meanings of the gang, rotation and system instructions (R235 to R244).
-/
namespace Sys2Proof.Machine

/-! ## Gangs and rotating windows -/

/-- The formation deadline of a GANG.LEAD or GANG.JOIN issued now (R106, R236). -/
def State.formBy (s : State) : Dword := BitVec.ofNat 64 (s.mySwc + 65536)
/-- GANG.LEAD (R106, R236). -/
def execGangLead (rd : Reg) (log2 : BitVec 3) (s : State) : Res :=
  .next (s.unlessGanged (xrWord 0 log2.toNat 0 0 6 rd.toNat custom0) fun s => s.leadGang s.focus rd log2.toNat s.formBy)
/-- GANG.JOIN (R106, R236): it joins the forming gang of its size, track and core, or waits for one to form. -/
def execGangJoin (rd : Reg) (log2 : BitVec 3) (s : State) : Res :=
  .next (s.unlessGanged (xrWord 1 log2.toNat 0 0 6 rd.toNat custom0) fun s =>
    let n := log2.toNat
    let r := s.myRecord
    match s.joinable s.myCid n s.me.track with
    | some (key, g, i) =>
      let lead := keyCid ((s.findSlot key).getD 0)
      (s.park (.gang rd n s.myCid false) 11 (BitVec.ofNat 64 lead) s.formBy 4).joinGang key g i r
    | none => s.park (.gang rd n s.myCid false) 11 0 s.formBy 4)
/-- GANG.END (R237): the gang disbands once every member has issued it; outside a gang it has no effect. -/
def execGangEnd (s : State) : Res :=
  .next (
    match s.myGang with
    | some (key, g, _) => ((s.setGang key { g with ending := true }).fin 4).wakeLeads
    | none => s.fin 4)
/-- RRB.SET (R238). -/
def execRrbSet (rd rs1 : Reg) (s : State) : Res :=
  .next (
    let old := s.me.csr.xrrb
    let new := (s.x rs1).extractLsb' 0 4
    (s.setMe { s.me with csr := { s.me.csr with xrrb := new } }).finX rd (zext64 old) 4)
/-- LOOP.ROT (R238); in a gang the branch follows the leader's counter (R107). -/
def execLoopRot (rd : Reg) (off : BitVec 11) (s : State) : Res :=
  .next (
    let c := s.x rd - 1
    let target := s.target off
    let s := s.setX rd c
    let s := s.setMe { s.me with csr := { s.me.csr with xrrb := s.me.csr.xrrb - 1 } }
    s.branchIf (c != 0) target 4)

/-! ## Returns and context images -/

/-- XURET (R239): the return from a trap. -/
def execXuret (s : State) : Res :=
  .next (s.unlessGanged (xrWord 0 0 0 0 7 0 custom0) fun s =>
    let t := s.me.xuret
    (s.setMe { s.me with csr := t.csr }).complete s.focus t.pc)
/-- Bytes of an image (R240): with a matrix context or without. -/
def imageBytes (owned : Bool) : Nat := if owned then 132864 else 1536
/-- Where an image lies: local cells, global memory, or an operand that is refused (R240). -/
inductive ImageAt
  | cells (cs : List Nat)
  | global
  | bad
  deriving DecidableEq, Repr
/-- The place of an image of `n` bytes. -/
def State.imageAt (s : State) (op : MemOp) (a n : Nat) : ImageAt :=
  if a % 64 ≠ 0 then .bad
  else if isLocal a then
    match s.localRange op a n with
    | some cs => .cells cs
    | none => .bad
  else if addrClass a = .global ∧ addrClass (a + n - 1) = .global then .global
  else .bad
/-- The parts of an image cut at lines of 64 bytes, one WRITE each (R34), so that no part crosses a page. -/
def cutSeg (limit : Nat) (base : Nat) : Nat → Nat → List Byte → List (Nat × List Byte)
  | 0, _, _ => []
  | fuel + 1, off, l =>
    if l = [] then []
    else
      let n := limit - (base + off) % limit
      (off, l.take n) :: cutSeg limit base fuel (off + n) (l.drop n)
/-- The owner's matrix context is released after a save (R240): its queue entries went into the image. -/
def State.releaseContext (s : State) (k : Nat) : State :=
  (s.setCore (keyCid k) ((s.core (keyCid k)).leave (keySlot k))).wakeMatrix (keyCid k)
/-- The writes of an image to global memory, one request for each part. -/
def State.sendImage (s : State) (a : Nat) : List (Nat × List Byte) → List Nat → List Nat × State
  | [], ts => (ts, s)
  | (o, l) :: r, ts =>
    let (t, s) := s.newTag (.baton s.myRecord)
    let p := { s.requestPkt .write (a + o) l.length t with data := l }
    (s.send p).sendImage a r (ts ++ [t])
/-- CTX.SAVE (R240). -/
def State.ctxSave (s : State) (rs1 rs2 : Reg) : State :=
  let k := s.focus
  let owned := (s.core s.myCid).owner == some (keySlot k)
  let a := (s.x rs1).toNat
  match s.imageAt .write a (imageBytes owned) with
  | .bad => s.trap 7 (s.x rs1)
  | place =>
    let live := s.liveMask rs2
    let s := if owned then s.settle k else s
    let c := s.core s.myCid
    if owned && !(s.feedsSettled s.myCid false && s.feedsSettled s.myCid true && c.dq.all fun e => e.slot != keySlot k || e.isMatrix) then s
    else
      let s := if owned then s.stopTile k else s
      let t := s.me
      let segs := frameSegs t (s.core s.myCid) (keySlot k) owned live (imageFlags t owned)
      match place with
      | .cells cs =>
        s.onCells cs fun s =>
          let s := segs.foldl (fun s g => s.putCells (some k) (cs.drop g.1) g.2) s
          (if owned then s.releaseContext k else s).fin 4
      | _ =>
        let parts := segs.flatMap fun g => cutSeg 64 a (g.2.length / 64 + 2) g.1 g.2
        let s := s.park .none 1 0 0 4
        let (ts, s) := s.sendImage a parts []
        s.setMe { s.me with wait := .ctxSave ts none owned, wkey := tagKey (ts.headD 0) }
/-- CTX.SAVE (R240); illegal in an active gang. -/
def execCtxSave (rs1 rs2 : Reg) (s : State) : Res :=
  .next (s.unlessGanged (xrWord 1 0 rs2.toNat rs1.toNat 7 0 custom0) fun s => s.ctxSave rs1 rs2)
/-- The registers of an image, and the matrix context where it holds one, taken by the slot (R241). A context replaces the slot's own with its entries
in the dispatch queue; without one, MMPROG stays while an entry of the slot is in progress or stalled (DEDUCED from R266, log entry 129). -/
def State.takeImage (s : State) (k : Nat) (l : List Byte) (live : Dword) : State :=
  let t := s.slotAt k
  let c := s.core (keyCid k)
  let t' := t.putRegs l live true
  if (dwordAt l 0x5F8).getLsbD 0 then
    ((s.setSlotAt k t').setCore (keyCid k) { c with dq := c.dq.filter fun e => e.slot != keySlot k || !e.isMatrix }).putContext k l
  else
    s.setSlotAt k (if c.matrixPending (keySlot k) false then { t' with csr := { t'.csr with mmprog := t.csr.mmprog } } else t')
/-- Whether a CTX.RESTORE can go on: the slot's queue entries have completed, or one of them stalls on a port (R266, log entry 129). -/
def State.queueSettled (s : State) : Bool := s.queueIdle || ((s.core s.myCid).stalledPort (keySlot s.focus)).isSome
/-- Another slot owns the core's matrix context. -/
def State.contextHeld (s : State) (k : Nat) : Bool :=
  match (s.core (keyCid k)).owner with
  | some o => o != keySlot k
  | none => false
/-- READ requests of a baton of a core for a range of an image, 64 bytes each (R34). -/
def State.readImage (s : State) (rec' cid : Nat) (a : Nat) : List Nat → List (Nat × Nat) → List (Nat × Nat) × State
  | [], ts => (ts, s)
  | o :: r, ts =>
    let (t, s) := s.newTag (.baton rec')
    let tk := s.trackOf rec'
    let home := s.routeTo (cidDie cid) tk (a + o)
    let p := { Pkt.blank with ty := .read, va := a + o, track := tk, src := cid, dst := home.1, dstPkg := home.2,
                              srcRank := s.srcRank (cidPcl cid), tag := t, elems := [(a + o, 64)] }
    (s.send p).readImage rec' cid a r (ts ++ [(t, o)])
/-- A slot whose CTX.RESTORE has read its image waits for the core's context, reason MATRIX (R110, R241). -/
def State.waitContext (s : State) (k : Nat) (l : List Byte) (live : Dword) : State :=
  let o := BitVec.ofNat 64 ((s.core (keyCid k)).owner.getD 0)
  (s.setSlotAt k { s.slotAt k with image := some (l, live) }).parkSlot k (.ctxTake (keyCid k)) 12 o 0 4
/-- CTX.RESTORE takes the image that it has read once the context is free (R241). -/
def State.takeWaiting (s : State) (rec' : Nat) : State :=
  match s.waitOf rec', s.findSlot rec' with
  | .ctxTake _, some k =>
    match (s.slotAt k).image with
    | some (l, live) =>
      if s.contextHeld k then s else ((s.setSlotAt k { s.slotAt k with image := none }).takeImage k l live).finishWait rec' .none
    | none => s
  | _, _ => s
/-- CTX.RESTORE (R241): it waits for the slot's own queue entries, unless one stalls, and reads the image once; then it waits, reason MATRIX, while another slot owns
the context that the image needs. -/
def State.ctxRestore (s : State) (rs1 rs2 : Reg) : State :=
  let k := s.focus
  let a := (s.x rs1).toNat
  let live := s.liveMask rs2
  match s.imageAt .read a 1536 with
  | .bad => s.trap 7 (s.x rs1)
  | .cells cs =>
    if !s.queueSettled then s
    else s.onCells cs fun s =>
      let l := s.cellBytes cs
      if !(dwordAt l 0x5F8).getLsbD 0 then (s.takeImage k l live).fin 4
      else
        match s.imageAt .read a 132864 with
        | .cells cs =>
          s.onCells cs fun s =>
            if s.contextHeld k then s.waitContext k (s.cellBytes cs) live else (s.takeImage k (s.cellBytes cs) live).fin 4
        | _ => s.trap 7 (s.x rs1)
  | .global =>
    if !s.queueSettled then s
    else
      let s := s.park .none 1 0 0 4
      let (ts, s) := s.readImage s.myRecord s.myCid a ((List.range 24).map fun i => 64 * i) []
      s.setMe { s.me with wait := .ctxRestore ts [] none a live s.myCid, wkey := tagKey (ts.headD (0, 0)).1 }
/-- CTX.RESTORE (R241); illegal in an active gang. -/
def execCtxRestore (rs1 rs2 : Reg) (s : State) : Res :=
  .next (s.unlessGanged (xrWord 2 0 rs2.toNat rs1.toNat 7 0 custom0) fun s => s.ctxRestore rs1 rs2)

/-! ## Stamina, the log, launches -/

/-- STAM.CLAIM (R242): it never waits for energy. -/
def execStamClaim (rd rs1 : Reg) (s : State) : Res :=
  .next (
    let v := s.x rs1
    match s.launchOf s.me.launch with
    | some l =>
      if v.extractLsb' 32 32 = 0 ∧ (v.toNat : Int) ≤ s.available then
        (s.setLaunch s.me.launch { l with remainder := l.remainder + v.toNat }).finReply rd 1 4
      else s.finReply rd 0 4
    | none => s.finReply rd 0 4)
/-- STAM.RD (R242). -/
def execStamRd (rd : Reg) (sel : BitVec 3) (s : State) : Res :=
  .next (
    let l := s.launchOf s.me.launch
    let v : Int := match sel.toNat with
      | 0 => s.stamina
      | 1 => ((l.map Launch.remainder).getD 0 : Nat)
      | 2 => ((l.map Launch.measured).getD 0 : Nat)
      | _ => s.available
    s.finReply rd (BitVec.ofInt 64 v) 4)
/-- IVL.POST (R65, R66, R243): illegal under a track other than 0; a record that may not be posted returns 0. -/
def execIvlPost (rd rs1 : Reg) (s : State) : Res :=
  .next (
    let a := (s.x rs1).toNat
    if s.me.track ≠ 0 then s.illegal (xrWord 5 0 0 rs1.toNat 7 rd.toNat custom0)
    else
      match (if a % 32 = 0 then s.localRange .read a 32 else none) with
      | none => s.trap 5 (s.x rs1)
      | some cs =>
        s.onCells cs fun s =>
          let r : BitVec 256 := BitVec.ofNat 256 (natLE (s.cellBytes cs))
          if !ivlOk r then s.finReply rd 0 4
          else if s.ivlFull r then s.parkReq (.ivlRing rd r) 4
          else
            let p := s.ivlPost r
            p.2.finReply rd (BitVec.ofNat 64 p.1) 4)
/-- IVL.SYNC (R65, R243). -/
def execIvlSync (rs1 : Reg) (s : State) : Res :=
  .next (
    let i := min (s.x rs1).toNat s.pkg.ivlIndex
    if s.me.track ≠ 0 then s.illegal (xrWord 6 0 0 rs1.toNat 7 0 custom0)
    else if s.ivlSynced i then s.fin 4
    else s.parkReq (.ivlSync i) 4)
/-- GR.LAUNCH (R80, R244), a release at SYSTEM scope to the launched program (R179): the record joins the intake queue, and the baton parks until
the Starter has validated it. -/
def execGrLaunch (rd rs1 : Reg) (s : State) : Res :=
  .next (
    let a := (s.x rs1).toNat
    match (if a % 64 = 0 then s.localRange .read a 64 else none) with
    | none => s.trap 5 (s.x rs1)
    | some cs =>
      s.whenReleased 3 fun s => s.onCells cs fun s =>
        let r : BitVec 512 := BitVec.ofNat 512 (natLE (s.cellBytes cs))
        (s.parkReq (.intake rd) 4).intakeJoin r (some s.myRecord) none (decide (s.me.track ≠ 0 ∧ recTrack r ≠ s.me.track)))
/-- The status that GR.WAIT returns for a launch that is not outstanding: 255 where none is kept (R244). -/
def State.keptStatus (s : State) (seq : Nat) : Nat :=
  match s.starter.statuses.find? fun p => p.1 == seq with
  | some p => p.2
  | none => 255
/-- GR.WAIT (R244): the completion that it returns is a release to it at SYSTEM scope. -/
def execGrWait (rd rs1 : Reg) (s : State) : Res :=
  .next (
    let n := (s.x rs1).toNat
    if (s.launchOf n).isSome then s.park (.graph rd n) 7 (s.x rs1) 0 4
    else (s.acquireLog s.myDie (if s.keptStatus n = 255 then 0 else 3)).finX rd (BitVec.ofNat 64 (s.keptStatus n)) 4)
/-- XFENCE (R180, R235). -/
def execXfence (scope : BitVec 2) (s : State) : Res := .next (s.fullFence (scopeOf scope))

end Sys2Proof.Machine
end

