-- ==== Sys2Proof/Machine/Vector.lean ====
section
/-!
DEFINITION. The meanings of the vector instructions of custom-1 (R245 to R265). A result is written as the instruction issues; its
dispatch-queue entry then binds a lane group for its occupancy (R248).
-/
namespace Sys2Proof.Machine

/-! ## Issue (R246, R248) -/

/-- An arithmetic instruction enters the dispatch queue of the core with its lane-group occupancy, its latency and the registers that it writes,
and takes its effect; while the queue is full it does not issue (R104, R248). -/
def State.enterVec (s : State) (occ lat : Nat) (outs : List Nat) (wide : Nat) (f : State → State) : State :=
  let c := s.core s.myCid
  if 8 ≤ c.queued then s
  else f (s.setCore s.myCid (c.enter (DqEntry.new (keySlot s.focus) (.vector occ lat outs wide))))
/-- A vector register of the focus slot among the registers of a slot. -/
def State.outV (s : State) (r : Reg) : Nat := regOfV (vphys s.me.csr.xrrb r).val
/-- An element-wise instruction: a result for the own vd. -/
def State.vecOp (s : State) (vd : Reg) (occ lat : Nat) (v : Vreg) : State :=
  s.enterVec occ lat [s.outV vd] 0 fun s => (s.setV vd v).fin 4
/-- The slots of the gang in member order, the own one outside a gang. -/
def State.gangMembers (s : State) : List Nat :=
  match s.myGang with
  | none => [s.focus]
  | some (_, g, _) => (s.gangSlots g).map Prod.snd
/-- Every other member has issued the current instruction. -/
def State.lastMember (s : State) : Bool :=
  match s.myGang with
  | none => true
  | some (_, g, _) => g.issued.length + 1 == g.members.length && g.issued.all fun p => p.2 == .completed
/-- The own member index, and the size of the gang as a log2. -/
def State.memberIdx (s : State) : Nat := match s.myGang with | none => 0 | some (_, _, i) => i
/-- See `memberIdx`. -/
def State.gangLog (s : State) : Nat := match s.myGang with | none => 0 | some (_, g, _) => g.log2
/-- The number of the gang-wide instruction that the gang issues now, a new one where this member is the first; 0 outside a gang. -/
def State.wideId (s : State) : Nat :=
  match s.myGang with
  | none => 0
  | some (_, g, _) => if g.wide = 0 then s.nextTag else g.wide
/-- The gang in the middle of its gang-wide instruction. -/
def State.openWide (s : State) (id : Nat) : State :=
  match s.myGang with
  | none => s
  | some (key, g, _) => { s.setGang key { g with wide := id } with nextTag := if g.wide = 0 then s.nextTag + 1 else s.nextTag }
/-- A gang-wide instruction (R246): performed once, at the issue of the last member, on the slots of all members in member order and with
the scalar operands of the leader. -/
def State.gangWide (s : State) (occ lat : Nat) (outs : List Nat) (f : List Slot → Slot → List Slot) : State :=
  let id := s.wideId
  s.enterVec occ (lat + 2 * s.gangLog) outs id fun s =>
    let s := s.openWide id
    if s.lastMember then
      let ks := s.gangMembers
      let ts := f (ks.map s.slotAt) s.leaderSlot
      ((ks.zip ts).foldl (fun s p => s.setSlotAt p.1 p.2) s).fin 4
    else s.fin 4
/-- The gang elements of a register, in order of g (R245). -/
def gangElems (t : VTy) (r : Reg) (ts : List Slot) : List Nat := ts.flatMap fun u => vlist t (u.getV r)
/-- The members with a register written from gang elements. -/
def gangPut (t : VTy) (r : Reg) (l : List Nat) (ts : List Slot) : List Slot :=
  ts.mapIdx fun m u => u.setV r (vpack (vtyWidth t) ((l.drop (m * vtyCount t)).take (vtyCount t)))
/-- The members with one value written to a register of each. -/
def gangAll (r : Reg) (v : Vreg) (ts : List Slot) : List Slot := ts.map fun u => u.setV r v

/-! ## Shared operations -/

/-- The type that a ty field names. -/
def tyOf (ty : BitVec 3) : VTy := vtyOfCode ty.toNat
/-- A float element-wise operation on two registers (R253). -/
def State.vFloat2 (s : State) (op : VOp2) (vd vs1 vs2 : Reg) (ty : BitVec 3) (occ lat : Nat) : State :=
  s.vecOp vd occ lat (vmap2 (tyOf ty) (felem2 op (vtyFmt (tyOf ty))) (s.v vs1) (s.v vs2))
/-- An integer or bitwise element-wise operation on two registers (R255). -/
def State.vInt2 (s : State) (op : VOp2) (vd vs1 vs2 : Reg) (ty : BitVec 3) : State :=
  s.vecOp vd 1 4 (vmap2 (tyOf ty) (ielem2 op (tyOf ty)) (s.v vs1) (s.v vs2))
/-- An element-wise operation on one register. -/
def State.vMap (s : State) (vd vs1 : Reg) (ty : BitVec 3) (occ lat : Nat) (g : Nat → Nat) : State :=
  s.vecOp vd occ lat (vmap1 (tyOf ty) g (s.v vs1))
/-- An FP32 fused multiply-add with the signs of a and c inverted or kept (R254). -/
def fmaElem (na nc : Bool) (a b c : Nat) : Nat :=
  let av := fdecode .f32 a
  let cv := fdecode .f32 c
  (fmaV .f32 .rne (if na then negV av else av) (fdecode .f32 b) (if nc then negV cv else cv)).bits
/-- The fused multiply-add instructions. -/
def State.vFma (s : State) (na nc : Bool) (vd vs1 vs2 vs3 : Reg) : State :=
  let a := vlist .f32 (s.v vs1)
  let b := vlist .f32 (s.v vs2)
  let c := vlist .f32 (s.v vs3)
  s.vecOp vd 1 5 (vpack 32 ((a.zip (b.zip c)).map fun p => fmaElem na nc p.1 p.2.1 p.2.2))
/-- VSEL (R256): bit w − 1 of the old vd chooses. -/
def vsel (t : VTy) (d a b : Vreg) : Vreg :=
  let w := vtyWidth t
  vpack w (((vlist t d).zip ((vlist t a).zip (vlist t b))).map fun p => if p.1.testBit (w - 1) then p.2.1 else p.2.2)
/-- VCMP (R256): all ones or zero. -/
def vcmp (c : VCond) (t : VTy) (a b : Vreg) : Vreg :=
  vmap2 t (fun x y => if vcond c t x y then 2 ^ vtyWidth t - 1 else 0) a b

/-! ## Quantisation (R258, R259) -/

/-- The 32-byte-a-member vector of a quantised group: q bytes or nibbles, the scale record after them, zero above. -/
def qntBytes (four : Bool) (n : Nat) (xs : List Nat) : List Byte :=
  let (s, z, q) := quantise (if four then 15 else 255) xs
  let body := if four then (List.range (q.length / 2)).map fun k => q.getD (2 * k) 0 + 16 * q.getD (2 * k + 1) 0 else q
  let l := body.map (BitVec.ofNat 8) ++ bytesLE 4 (z * 2 ^ 16 + s)
  l ++ List.replicate (32 * n - l.length) 0
/-- VQNT over the members. -/
def gangQnt (four : Bool) (vd : Reg) (vs1 : BitVec 4) (ts : List Slot) : List Slot :=
  let xs := gangElems .f32 (pairReg vs1 false) ts ++ gangElems .f32 (pairReg vs1 true) ts
  let b := qntBytes four ts.length xs
  ts.mapIdx fun m u => u.setV vd (BitVec.ofNat 256 (natLE ((b.drop (32 * m)).take 32)))
/-- The FP32 elements that a quantised group stands for. -/
def dqntElems (four : Bool) (n : Nat) (b : List Nat) : List Nat :=
  let g := 16 * n
  let p := if four then g / 2 else g
  let at' := fun k => b.getD k 0
  let s := at' p + 256 * at' (p + 1)
  let z := if four then at' (p + 2) % 16 else at' (p + 2)
  (List.range g).map fun k =>
    dequantise .f32 s z (if four then (if k % 2 = 0 then at' (k / 2) % 16 else at' (k / 2) / 16) else at' k)
/-- VDQNT over the members. -/
def gangDqnt (four : Bool) (vd : BitVec 4) (vs1 : Reg) (ts : List Slot) : List Slot :=
  let n := ts.length
  let x := dqntElems four n (gangElems .n8 vs1 ts)
  gangPut .f32 (pairReg vd true) (x.drop (8 * n)) (gangPut .f32 (pairReg vd false) (x.take (8 * n)) ts)

/-! ## Loads and stores (R249 to R252, R264)

The elements of an access that lie in one aperture or page are performed in one step: one of the orders that R251 admits (DESIGN CHOICE, log
entry 124). -/

/-- Bytes of element `i` of a vector access: of VLDQ the scale record comes first, then q bytes. -/
def vSize (deq : Option Nat) (width i : Nat) : Nat := if deq.isSome then (if i = 0 then 4 else 1) else width / 8
/-- An element's address is admitted (R250): naturally aligned, and global or local with the right that R58 asks for. -/
def State.vAdmits (s : State) (op : MemOp) (a n : Nat) : Bool :=
  a % n == 0 && ((s.ownCell op a).isSome || addrClass a == .global)
/-- Every address of an access is admitted. -/
def State.vChecks (s : State) (op : MemOp) (addrs : List Nat) (sz : Nat → Nat) : Bool :=
  (addrs.mapIdx fun i a => s.vAdmits op a (sz i)).all id
/-- The page of a global address of the focus baton, as its home's table has it (R55, R57): the home, and the base. An address that no entry covers,
and one homed in another package, counts as in a page of 4 KiB (DESIGN CHOICE, log entry 109). -/
def State.pageOf (s : State) (a : Nat) : Nat × Nat :=
  match s.homeOf s.myDie s.me.track a with
  | .package p => (32 + p, a / 4096)
  | .die h =>
    let sh := match s.trackEntry h s.me.track with
      | none => 12
      | some ent =>
        if ent.getLsbD 110 then (s.sv57Find h a 5 (entRoot ent)).elim 12 fun l => 12 + 9 * l.2.2
        else (s.hashedFind h s.me.track ent a).elim 12 fun c => pageLog ((s.entry32 c).extractLsb' 194 2).toNat
    (h, a / 2 ^ sh * 2 ^ (sh - 12))
/-- The indices of the global elements of an access, page by page (R70). -/
def State.globalGroups (s : State) (addrs : List Nat) : List (List Nat) :=
  let idx := (List.range addrs.length).filter fun i => addrClass (addrs.getD i 0) == .global
  let pages := idx.map fun i => (i, s.pageOf (addrs.getD i 0))
  ((pages.map Prod.snd).eraseDups).map fun pg => (pages.filter fun p => p.2 == pg).map Prod.fst
/-- The cells of the local elements. -/
def State.vCells (s : State) (op : MemOp) (addrs : List Nat) : List Nat := addrs.filterMap (s.ownCell op)
/-- The baton parks on one request a page, reason REMOTE with the tag of the first (R251). -/
def State.parkParts (s : State) (groups : List (List Nat)) (acc : VAccess) (wait : VAccess → Wait)
    (pkt : State → Nat → List Nat → Pkt) (len : Nat) : State :=
  let r := groups.foldl (fun (r : State × List VPart) g =>
    let (t, s) := r.1.newTag (.baton r.1.myRecord)
    (s, r.2 ++ [{ tag := t, elems := g }])) (s, [])
  let s := r.1
  let pkts := r.2.map fun p => pkt s p.tag p.elems
  let first := (r.2.head?).elim 0 VPart.tag
  let s := s.park (wait { acc with parts := r.2 }) 1 (tagKey first) 0 len
  pkts.foldl State.send s
/-- The request for some elements of an access. -/
def State.vPkt (s : State) (ty : PType) (addrs : List Nat) (sz : Nat → Nat) (t : Nat) (l : List Nat) : Pkt :=
  { s.requestPkt ty (addrs.getD (l.headD 0) 0) 0 t with elems := l.map fun i => (addrs.getD i 0, sz i) }
/-- An access that nothing has returned to yet. -/
def VAccess.start (addrs vals written : List Nat) : VAccess :=
  { addrs := addrs, vals := vals, parts := [], written := written, faultElem := none, faultStatus := 0 }
/-- The register that the values of a load leave: `deq` is the VLDQ type, plus 8 for AQ4. -/
def vloadValue (width : Nat) (spread : Bool) (deq : Option Nat) (vals : List Nat) : Vreg :=
  match deq with
  | none => vpack width (if spread then List.replicate (256 / width) (vals.headD 0) else vals)
  | some d =>
    let four := decide (8 ≤ d)
    let r := vals.headD 0
    let z := if four then r / 2 ^ 16 % 16 else r / 2 ^ 16 % 256
    let q := (vals.drop 1).mapIdx fun i x => if four then (if i % 2 = 0 then x % 16 else x / 16) else x
    vpack width (q.map (dequantise (vtyFmt (vtyOfCode d)) (r % 2 ^ 16) z))
/-- A vector load of a list of elements. -/
def State.vload (s : State) (vd : Reg) (width : Nat) (spread : Bool) (deq : Option Nat) (addrs : List Nat) : State :=
  let sz := vSize deq width
  if !s.vChecks .read addrs sz then s.trap 5 (BitVec.ofNat 64 (leastOf addrs))
  else
    s.onCells (s.vCells .read addrs) fun s =>
      let vals := addrs.mapIdx fun i a => match s.ownCell .read a with | some c => s.loadLE c (sz i) | none => 0
      let groups := s.globalGroups addrs
      if groups.isEmpty then (s.setV vd (vloadValue width spread deq vals)).fin 4
      else
        s.parkParts groups (VAccess.start addrs vals []) (.vload (vphys s.me.csr.xrrb vd).val width spread deq)
          (fun s t l => s.vPkt .read addrs sz t l) 4
/-- A vector store of a list of elements and their values, in ascending order (R249, R251). -/
def State.vstore (s : State) (width : Nat) (addrs vals : List Nat) : State :=
  let n := width / 8
  if !s.vChecks .write addrs (fun _ => n) then s.trap 7 (BitVec.ofNat 64 (leastOf addrs))
  else
    let cells := addrs.map (s.ownCell .write)
    s.onCells (s.vCells .write addrs) fun s =>
      let s := (cells.zip vals).foldl (fun s p =>
        match p.1 with
        | some c => s.storeLE (some s.focus) c n p.2
        | none => s) s
      let groups := s.globalGroups addrs
      if groups.isEmpty then s.fin 4
      else
        let local' := (List.range addrs.length).filter fun i => !(groups.flatten).contains i
        s.parkParts groups (VAccess.start addrs vals local') .vstore
          (fun s t l => { s.vPkt .write addrs (fun _ => n) t l with data := l.flatMap fun i => bytesLE n (vals.getD i 0) }) 4
/-- The values of some elements taken from the data of a reply, in their order. -/
def fillVals (sz : Nat → Nat) : List Nat → List Byte → List Nat → List Nat
  | [], _, vals => vals
  | i :: r, d, vals => fillVals sz r (d.drop (sz i)) (vals.set i (natLE (d.take (sz i))))
/-- An access with a part answered. -/
def VAccess.done (a : VAccess) (tag : Nat) (sz : Nat → Nat) (data : List Byte) : VAccess :=
  match a.parts.find? (·.tag == tag) with
  | none => a
  | some p =>
    { a with parts := a.parts.filter (·.tag != tag), written := a.written ++ p.elems,
             vals := if data.isEmpty then a.vals else fillVals sz p.elems data a.vals }
/-- An access with a part failed at an address: the lowest faulting element is kept (R70). -/
def VAccess.fail (a : VAccess) (tag va status : Nat) : VAccess :=
  match a.parts.find? (·.tag == tag) with
  | none => a
  | some p =>
    let i := (p.elems.find? fun i => a.addrs.getD i 0 == va).getD (p.elems.headD 0)
    let first := match a.faultElem with | none => true | some j => decide (i < j)
    { a with parts := a.parts.filter (·.tag != tag), faultElem := if first then some i else a.faultElem,
             faultStatus := if first then status else a.faultStatus }
/-- XUFMASK of a baton, in its slot or its frame (R109). -/
def State.setXufmask (s : State) (rec' : Nat) (m : Dword) : State :=
  match s.findSlot rec' with
  | some k => let t := s.slotAt k; s.setSlotAt k { t with csr := { t.csr with xufmask := m } }
  | none =>
    (s.frameWrite (recPcl rec') ((s.recRead rec' 0x18).extractLsb' 16 16) ((s.recRead rec' 0x08).toNat + 0x5A0)
      (bytesLE 8 m.toNat)).getD s
/-- The elements written, as XUFMASK shows them (R70). -/
def VAccess.mask (a : VAccess) : Dword := BitVec.ofNat 64 (a.written.foldl (fun m i => m ||| 2 ^ i) 0)
/-- A vector wait after an answer: it goes on while parts are out, and then completes or fails (R251). -/
def State.vSettle (s : State) (rec' : Nat) (acc : VAccess) (wait : VAccess → Wait) (eff : Effect) (isStore : Bool) : State :=
  if !acc.parts.isEmpty then s.setWait rec' (wait acc)
  else
    match acc.faultElem with
    | none => s.finishWait rec' eff
    | some i =>
      (if isStore then s.setXufmask rec' acc.mask else s).remoteFault rec' (acc.addrs.getD i 0) acc.faultStatus
/-- The gang element numbers of the own elements of a type. -/
def State.gIdx (s : State) (t : VTy) : List Nat := (List.range (vtyCount t)).map fun i => s.memberIdx * vtyCount t + i
/-- Addresses of a unit-stride access. -/
def State.unitAddrs (s : State) (rs1 : Reg) (t : VTy) : List Nat :=
  (s.gIdx t).map fun g => (s.x rs1 + BitVec.ofNat 64 (g * (vtyWidth t / 8))).toNat
/-- Addresses of a strided access. -/
def State.strideAddrs (s : State) (rs1 rs2 : Reg) (t : VTy) : List Nat :=
  (s.gIdx t).map fun g => (s.x rs1 + BitVec.ofNat 64 g * s.x rs2).toNat
/-- Addresses of an indexed access. -/
def State.indexAddrs (s : State) (rs1 vs2 : Reg) (t : VTy) : List Nat :=
  (vlist t (s.v vs2)).map fun x => (s.x rs1 + BitVec.ofInt 64 (asInt true (vtyWidth t) x * (vtyWidth t / 8 : Nat))).toNat
/-- VLDQ (R252). -/
def State.vloadq (s : State) (vd rs1 rs2 : Reg) (t : VTy) (code : Nat) : State :=
  let r := s.x rs2 &&& ~~~1#64
  let four := (s.x rs2).getLsbD 0
  if (s.x rs2).getLsbD 1 then s.trap 5 r
  else
    s.vload vd (vtyWidth t) false (some (code + if four then 8 else 0))
      (r.toNat :: (s.gIdx t).map fun g => (s.x rs1 + BitVec.ofNat 64 (if four then g / 2 else g)).toNat)

/-! ## The instructions -/

/-- VADD, float (R253). -/
def execVaddFloat (vd vs1 vs2 : Reg) (ty : BitVec 3) (s : State) : Res :=
  .next (s.vFloat2 .add vd vs1 vs2 ty 1 4)
/-- VSUB, float (R253). -/
def execVsubFloat (vd vs1 vs2 : Reg) (ty : BitVec 3) (s : State) : Res :=
  .next (s.vFloat2 .sub vd vs1 vs2 ty 1 4)
/-- VMUL, float (R253). -/
def execVmulFloat (vd vs1 vs2 : Reg) (ty : BitVec 3) (s : State) : Res :=
  .next (s.vFloat2 .mul vd vs1 vs2 ty 1 4)
/-- VMIN, float (R253). -/
def execVminFloat (vd vs1 vs2 : Reg) (ty : BitVec 3) (s : State) : Res :=
  .next (s.vFloat2 .min vd vs1 vs2 ty 1 4)
/-- VMAX, float (R253). -/
def execVmaxFloat (vd vs1 vs2 : Reg) (ty : BitVec 3) (s : State) : Res :=
  .next (s.vFloat2 .max vd vs1 vs2 ty 1 4)
/-- VABS, float (R253). -/
def execVabsFloat (vd vs1 : Reg) (ty : BitVec 3) (s : State) : Res :=
  .next (s.vMap vd vs1 ty 1 4 (fabsBits (vtyFmt (tyOf ty))))
/-- VNEG, float (R253). -/
def execVnegFloat (vd vs1 : Reg) (ty : BitVec 3) (s : State) : Res :=
  .next (s.vMap vd vs1 ty 1 4 (fnegBits (vtyFmt (tyOf ty))))
/-- VDIV (R253). -/
def execVdiv (vd vs1 vs2 : Reg) (ty : BitVec 3) (s : State) : Res :=
  .next (s.vFloat2 .div vd vs1 vs2 ty 8 14)
/-- VSQRT (R253). -/
def execVsqrt (vd vs1 : Reg) (ty : BitVec 3) (rm : BitVec 2) (s : State) : Res :=
  .next (s.vMap vd vs1 ty 8 14 fun x =>
    (sqrtV (vtyFmt (tyOf ty)) (rmodeOfCode rm.toNat) (fdecode (vtyFmt (tyOf ty)) x)).bits)
/-- VRSQ (R253). -/
def execVrsq (vd vs1 : Reg) (ty : BitVec 3) (rm : BitVec 2) (s : State) : Res :=
  .next (s.vMap vd vs1 ty 8 14 fun x =>
    (rsqrtV (vtyFmt (tyOf ty)) (rmodeOfCode rm.toNat) (fdecode (vtyFmt (tyOf ty)) x)).bits)
/-- VADD, integer (R255). -/
def execVaddInt (vd vs1 vs2 : Reg) (ty : BitVec 3) (s : State) : Res :=
  .next (s.vInt2 .add vd vs1 vs2 ty)
/-- VSUB, integer (R255). -/
def execVsubInt (vd vs1 vs2 : Reg) (ty : BitVec 3) (s : State) : Res :=
  .next (s.vInt2 .sub vd vs1 vs2 ty)
/-- VMUL, integer (R255). -/
def execVmulInt (vd vs1 vs2 : Reg) (ty : BitVec 3) (s : State) : Res :=
  .next (s.vInt2 .mul vd vs1 vs2 ty)
/-- VMIN, integer (R255). -/
def execVminInt (vd vs1 vs2 : Reg) (ty : BitVec 3) (s : State) : Res :=
  .next (s.vInt2 .min vd vs1 vs2 ty)
/-- VMAX, integer (R255). -/
def execVmaxInt (vd vs1 vs2 : Reg) (ty : BitVec 3) (s : State) : Res :=
  .next (s.vInt2 .max vd vs1 vs2 ty)
/-- VABS, integer: the most negative value stays (R255). -/
def execVabsInt (vd vs1 : Reg) (ty : BitVec 3) (s : State) : Res :=
  .next (s.vMap vd vs1 ty 1 4 fun x =>
    wrapInt (vtyWidth (tyOf ty)) ((asInt true (vtyWidth (tyOf ty)) x).natAbs : Int))
/-- VNEG, integer (R255). -/
def execVnegInt (vd vs1 : Reg) (ty : BitVec 3) (s : State) : Res :=
  .next (s.vMap vd vs1 ty 1 4 fun x => wrapInt (vtyWidth (tyOf ty)) (-asInt true (vtyWidth (tyOf ty)) x))
/-- VAND (R255). -/
def execVand (vd vs1 vs2 : Reg) (ty : BitVec 3) (s : State) : Res :=
  .next (s.vInt2 .and vd vs1 vs2 ty)
/-- VOR (R255). -/
def execVor (vd vs1 vs2 : Reg) (ty : BitVec 3) (s : State) : Res :=
  .next (s.vInt2 .or vd vs1 vs2 ty)
/-- VXOR (R255). -/
def execVxor (vd vs1 vs2 : Reg) (ty : BitVec 3) (s : State) : Res :=
  .next (s.vInt2 .xor vd vs1 vs2 ty)
/-- VSHL (R255). -/
def execVshl (vd vs1 vs2 : Reg) (ty : BitVec 3) (s : State) : Res :=
  .next (s.vInt2 .shl vd vs1 vs2 ty)
/-- VSHR (R255). -/
def execVshr (vd vs1 vs2 : Reg) (ty : BitVec 3) (s : State) : Res :=
  .next (s.vInt2 .shr vd vs1 vs2 ty)
/-- VSRA (R255). -/
def execVsra (vd vs1 vs2 : Reg) (ty : BitVec 3) (s : State) : Res :=
  .next (s.vInt2 .sra vd vs1 vs2 ty)
/-- VCMP (R256). -/
def execVcmp (vd vs1 vs2 : Reg) (ty cond : BitVec 3) (s : State) : Res :=
  .next (s.vecOp vd 1 4 (vcmp (vcondOfCode cond.toNat) (tyOf ty) (s.v vs1) (s.v vs2)))
/-- VSEL (R256). -/
def execVsel (vd vs1 vs2 : Reg) (ty : BitVec 3) (s : State) : Res :=
  .next (s.vecOp vd 1 4 (vsel (tyOf ty) (s.v vd) (s.v vs1) (s.v vs2)))
/-- VCVT (R257). -/
def execVcvt (vd vs1 : Reg) (ty : BitVec 3) (rm : BitVec 2) (dstTy : BitVec 3) (s : State) : Res :=
  .next (s.vecOp vd 1 4 (vconvert (rmodeOfCode rm.toNat) (tyOf ty) (tyOf dstTy) (s.v vs1)))
/-- VQNT (R258). -/
def execVqnt (vd : Reg) (vs1 : BitVec 4) (four : Bool) (s : State) : Res :=
  .next (s.gangWide 4 16 [s.outV vd] fun ts _ => gangQnt four vd vs1 ts)
/-- VDQNT (R259). -/
def execVdqnt (vd : BitVec 4) (vs1 : Reg) (four : Bool) (s : State) : Res :=
  .next (s.gangWide 4 16 [s.outV (pairReg vd false), s.outV (pairReg vd true)] fun ts _ => gangDqnt four vd vs1 ts)
/-- VREDSUM (R260). -/
def execVredsum (vd vs1 : Reg) (ty : BitVec 3) (s : State) : Res :=
  .next (s.gangWide 1 6 [s.outV vd] fun ts _ => gangAll vd (vpack 32 [reduceSum (tyOf ty) (gangElems (tyOf ty) vs1 ts)]) ts)
/-- VREDMAX (R260). -/
def execVredmax (vd vs1 : Reg) (ty : BitVec 3) (s : State) : Res :=
  .next (s.gangWide 1 6 [s.outV vd] fun ts _ =>
    gangAll vd (vpack (vtyWidth (tyOf ty)) [reduceMax (tyOf ty) (gangElems (tyOf ty) vs1 ts)]) ts)
/-- VPERM (R261). -/
def execVperm (vd vs1 vs2 : Reg) (ty : BitVec 3) (s : State) : Res :=
  .next (s.gangWide 1 6 [s.outV vd] fun ts _ =>
    let l := gangElems (tyOf ty) vs1 ts
    gangPut (tyOf ty) vd ((gangElems (tyOf ty) vs2 ts).map fun i => l.getD (i % l.length) 0) ts)
/-- VSHUF (R261). -/
def execVshuf (vd vs1 vs2 : Reg) (ty : BitVec 3) (s : State) : Res :=
  .next (s.gangWide 1 6 [s.outV vd] fun ts _ =>
    gangPut (tyOf ty) vd (((gangElems (tyOf ty) vs1 ts).zip (gangElems (tyOf ty) vs2 ts)).flatMap fun p => [p.1, p.2]) ts)
/-- VSLIDE (R261): bit 4 of the amount marks a negative one. -/
def execVslide (vd vs1 : Reg) (ty : BitVec 3) (amount : Reg) (s : State) : Res :=
  .next (s.gangWide 1 6 [s.outV vd] fun ts _ =>
    let l := gangElems (tyOf ty) vs1 ts
    let k := (amount.extractLsb' 0 4).toNat
    gangPut (tyOf ty) vd (if amount.getLsbD 4 then List.replicate k 0 ++ l else l.drop k ++ List.replicate k 0) ts)
/-- VSPLAT (R262). -/
def execVsplat (vd rs1 : Reg) (ty : BitVec 3) (s : State) : Res :=
  .next (s.vecOp vd 1 4 (vpack (vtyWidth (tyOf ty)) (List.replicate (vtyCount (tyOf ty)) (s.x rs1).toNat)))
/-- VINS (R262). -/
def execVins (vd rs1 rs2 : Reg) (ty : BitVec 3) (s : State) : Res :=
  .next (s.gangWide 1 6 [s.outV vd] fun ts ld =>
    let l := gangElems (tyOf ty) vd ts
    gangPut (tyOf ty) vd (l.set ((ld.getX rs2).toNat % l.length) (ld.getX rs1).toNat) ts)
/-- VEXT (R262). -/
def execVext (rd rs1 vs2 : Reg) (ty : BitVec 3) (s : State) : Res :=
  .next (s.gangWide 1 6 [regOfX rd] fun ts ld =>
    let l := gangElems (tyOf ty) vs2 ts
    let x := l.getD ((ld.getX rs1).toNat % l.length) 0
    let v := BitVec.ofInt 64 (asInt (vtyFloat (tyOf ty) || vtySigned (tyOf ty)) (vtyWidth (tyOf ty)) x)
    ts.map fun u => u.setX rd v)
/-- VLD (R249). -/
def execVld (vd rs1 : Reg) (ty : BitVec 3) (s : State) : Res :=
  .next (s.vload vd (vtyWidth (tyOf ty)) false none (s.unitAddrs rs1 (tyOf ty)))
/-- VLDS (R249). -/
def execVlds (vd rs1 rs2 : Reg) (ty : BitVec 3) (s : State) : Res :=
  .next (s.vload vd (vtyWidth (tyOf ty)) false none (s.strideAddrs rs1 rs2 (tyOf ty)))
/-- VLDX (R249). -/
def execVldx (vd rs1 vs2 : Reg) (ty : BitVec 3) (s : State) : Res :=
  .next (s.vload vd (vtyWidth (tyOf ty)) false none (s.indexAddrs rs1 vs2 (tyOf ty)))
/-- VLDB (R249): one element, read once and written to all. -/
def execVldb (vd rs1 : Reg) (ty : BitVec 3) (s : State) : Res :=
  .next (s.vload vd (vtyWidth (tyOf ty)) true none [(s.x rs1).toNat])
/-- VLDQ (R252). -/
def execVldq (vd rs1 rs2 : Reg) (ty : BitVec 3) (s : State) : Res :=
  .next (s.vloadq vd rs1 rs2 (tyOf ty) ty.toNat)
/-- VST (R249). -/
def execVst (vs rs1 : Reg) (ty : BitVec 3) (s : State) : Res :=
  .next (s.vstore (vtyWidth (tyOf ty)) (s.unitAddrs rs1 (tyOf ty)) (vlist (tyOf ty) (s.v vs)))
/-- VSTS (R249). -/
def execVsts (vs rs1 rs2 : Reg) (ty : BitVec 3) (s : State) : Res :=
  .next (s.vstore (vtyWidth (tyOf ty)) (s.strideAddrs rs1 rs2 (tyOf ty)) (vlist (tyOf ty) (s.v vs)))
/-- VSTX (R249). -/
def execVstx (vs rs1 vs2 : Reg) (ty : BitVec 3) (s : State) : Res :=
  .next (s.vstore (vtyWidth (tyOf ty)) (s.indexAddrs rs1 vs2 (tyOf ty)) (vlist (tyOf ty) (s.v vs)))
/-- VFMA: a × b + c (R254). -/
def execVfma (vd vs1 vs2 vs3 : Reg) (s : State) : Res :=
  .next (s.vFma false false vd vs1 vs2 vs3)
/-- VFMS: a × b − c (R254). -/
def execVfms (vd vs1 vs2 vs3 : Reg) (s : State) : Res :=
  .next (s.vFma false true vd vs1 vs2 vs3)
/-- VFNMA: −a × b − c (R254). -/
def execVfnma (vd vs1 vs2 vs3 : Reg) (s : State) : Res :=
  .next (s.vFma true true vd vs1 vs2 vs3)
/-- VFNMS: −a × b + c (R254). -/
def execVfnms (vd vs1 vs2 vs3 : Reg) (s : State) : Res :=
  .next (s.vFma true false vd vs1 vs2 vs3)

end Sys2Proof.Machine
end

