-- ==== Sys2Proof/Machine/Mm.lean ====
section
/-!
DEFINITION. The meanings of the matrix and stream instructions at issue (R266, R272 to R278). What their entries do when they reach the
head of the queue stands in Matrix.lean.
-/
namespace Sys2Proof.Machine

/-- A free context taken by a slot (R110, R153): every accumulator element +0, every mask bit 1, the ports as they stand. -/
def Core.take (c : Core) (slot : Nat) : Core :=
  { c with owner := some slot, acc := Vector.replicate 4 0, pmRow := Vector.replicate 4 (BitVec.allOnes 64),
           pmCol := Vector.replicate 4 (BitVec.allOnes 64), tile := none, scales := [] }
/-- An instruction that takes the matrix context: it goes on as the owner, a free context's counts replacing those of its MMPROG (R269), or parks with
reason MATRIX while another slot owns it (R110). -/
def State.withContext (s : State) (f : State → State) : State :=
  let cid := s.myCid
  let slot := keySlot s.focus
  match (s.core cid).owner with
  | none =>
    let c := (s.core cid).take slot
    f ((s.setCore cid c).setMmprog s.focus (c.mmprog slot))
  | some o => if o = slot then f s else s.park (.matrix cid) 12 (BitVec.ofNat 64 o) 0 4
/-- A matrix or stream instruction enters the dispatch queue with the register values that it samples; while the queue is full it does not
issue (R104, R266). -/
def State.xm (s : State) (w : Word32) (rs1 rdv : Dword) : State :=
  if 8 ≤ (s.core s.myCid).queued then s
  else
    s.withContext fun s =>
      let e := DqEntry.new (keySlot s.focus) (.matrix w rs1 rdv s.me.matCsr)
      (s.setCore s.myCid ((s.core s.myCid).enter e)).fin 4

/-! ## Tiles, masks and waiting -/

/-- MM.TILE (R270). Where its format has scale records, the TCM must admit their reads: one that does not is the access fault, at MSCA (R58, R164;
DEDUCED, log entry 7). -/
def execMmTile (acc pm : BitVec 2) (init : Bool) (s : State) : Res :=
  .next (
    let m := s.me.matCsr
    if matScaled m && !s.spadAdmits .read then s.trap 5 m.msca
    else s.xm (xmWord 0 acc.toNat pm.toNat init.toNat 0 0 0) 0 0)
/-- MM.ZERO (R272). -/
def execMmZero (acc pm : BitVec 2) (s : State) : Res :=
  .next (s.xm (xmWord 1 acc.toNat pm.toNat 0 0 0 0) 0 0)
/-- MM.WAIT (R273): it parks until every earlier matrix and stream entry of the slot has completed; with an entry stalled it takes
STREAM_UNDERRUN, XUTVAL naming the port. -/
def execMmWait (s : State) : Res :=
  .next (s.withContext fun s =>
    let c := s.core s.myCid
    let slot := keySlot s.focus
    match c.stalledPort slot with
    | some b => s.trap 31 (if b then 1 else 0)
    | none => if c.matrixPending slot false then s.park .mmWait 12 (BitVec.ofNat 64 slot) 0 4 else s.fin 4)
/-- MM.MSET (R272); the rd field of the word is its second source. -/
def execMmMset (rs1 rs2 : Reg) (pm : BitVec 2) (pre : Bool) (s : State) : Res :=
  .next (s.xm (xmWord 2 0 pm.toNat pre.toNat rs1.toNat 1 rs2.toNat) (s.x rs1) (s.x rs2))

/-! ## Drain, load and streaming of an accumulator -/

/-- The addresses of a tile's 4,096 elements (R274). -/
def elemAddrs (w : Word32) (rs1 rdv : Dword) : List Nat := (List.range 4096).map fun i => matAddr w rs1 rdv (i / 64) (i % 64)
/-- Those that are misaligned or outside the own TCM and scratchpad (R274). -/
def badElems (w : Word32) (rs1 rdv : Dword) : List Nat :=
  let n := vtyBytes (drainTy (wordOpt w % 8))
  (elemAddrs w rs1 rdv).filter fun a =>
    a % n != 0 || !(addrClass a == .tcm || addrClass a == .spad)
/-- MM.DRAIN and MM.LOAD at issue: every address is checked from the register values, and where the target admits no such access, none passes (R58,
log entry 7). -/
def State.drainLoad (s : State) (w : Word32) (rs1 rs2 : Reg) (cause : Nat) (op : MemOp) : State :=
  let bad := if s.spadAdmits op then badElems w (s.x rs1) (s.x rs2) else elemAddrs w (s.x rs1) (s.x rs2)
  if bad ≠ [] then s.trap cause (BitVec.ofNat 64 (leastOf bad)) else s.xm w (s.x rs1) (s.x rs2)
/-- MM.DRAIN (R274). -/
def execMmDrain (rs1 rs2 : Reg) (acc pm : BitVec 2) (clear : Bool) (fmt : BitVec 3) (s : State) : Res :=
  .next (s.drainLoad (xmWord 0 acc.toNat pm.toNat (fmt.toNat + 8 * clear.toNat) rs1.toNat 1 rs2.toNat) rs1 rs2 7 .write)
/-- MM.LOAD (R274). -/
def execMmLoad (rs1 rs2 : Reg) (acc pm : BitVec 2) (fmt : BitVec 3) (s : State) : Res :=
  .next (s.drainLoad (xmWord 1 acc.toNat pm.toNat fmt.toNat rs1.toNat 1 rs2.toNat) rs1 rs2 5 .read)
/-- MM.TOSTRM (R275). -/
def execMmTostrm (acc pm : BitVec 2) (tp : Bool) (port : BitVec 1) (s : State) : Res :=
  .next (s.xm (xmWord 3 acc.toNat pm.toNat (port.toNat + 2 * tp.toNat) 0 1 0) 0 0)

/-! ## Streams -/

/-- ST.BIND (R276): an operand above 255 is illegal. -/
def execStBind (rs1 : Reg) (port : BitVec 1) (s : State) : Res :=
  .next (
    let w := xmWord 0 0 0 port.toNat rs1.toNat 2 0
    if 256 ≤ (s.x rs1).toNat then s.illegal w else s.xm w (s.x rs1) 0)
/-- ST.FILL (R277): the panels are 64-byte aligned and lie in the own TCM or scratchpad. -/
def execStFill (rs1 : Reg) (cnt : BitVec 3) (port : BitVec 1) (s : State) : Res :=
  .next (
    let a := (s.x rs1).toNat
    let n := 4096 * (cnt.toNat + 1)
    let inside := decide (a + n ≤ 2 ^ 18) || (decide (spadBase ≤ a) && decide (a + n ≤ spadBase + 2 ^ 22))
    if a % 64 ≠ 0 || !inside || !s.spadAdmits .read then s.trap 5 (s.x rs1)
    else s.xm (xmWord 1 0 0 (port.toNat + 2 * cnt.toNat) rs1.toNat 2 0) (s.x rs1) 0)
/-- ST.SKIP (R277); rd is written when the entry executes, and an instruction that names it waits for that. -/
def execStSkip (rd rs1 : Reg) (port : BitVec 1) (s : State) : Res :=
  .next (s.xm (xmWord 2 0 0 port.toNat rs1.toNat 2 rd.toNat) (s.x rs1) 0)
/-- An MM.TOSTRM to a port is under way. -/
def Core.streaming (c : Core) (b : Bool) : Bool :=
  c.dq.any fun e => e.bound && match e.kind with
    | .matrix w _ _ _ => matOp w == .tostrm && (wordOpt w).testBit 0 == b
    | _ => false
/-- The word that ST.STAT returns (R278). -/
def State.portWord (s : State) (cid slot : Nat) (b : Bool) : Dword :=
  let c := s.core cid
  let p := c.port b
  let feed := s.feedsTo (cidPcl cid) cid b != [] || c.streaming b
  0#44 ++ BitVec.ofBool p.ovf ++ BitVec.ofBool feed ++ BitVec.ofBool (c.stalledPort slot == some b) ++ 0#1 ++ p.exp ++ 0#4 ++
    BitVec.ofNat 4 p.panels.length
/-- ST.STAT (R278), at issue. -/
def execStStat (rd : Reg) (port : BitVec 1) (s : State) : Res :=
  .next (s.withContext fun s => s.finX rd (s.portWord s.myCid (keySlot s.focus) (port.toNat == 1)) 4)
/-- A stalled MM.TILE on a port of a core ends as a completion, and the port is emptied (R271, R278). -/
def State.flushPort (s : State) (cid : Nat) (b : Bool) : State :=
  let s :=
    match (s.core cid).matrixHead with
    | some (e, _, _) => if e.stalled = some b then (s.endTile cid e (s.swcAt (cidDie cid))) else s
    | none => s
  s.setCore cid ((s.core cid).setPort b { panels := [], ovf := false, exp := 0 })
/-- ST.FLUSH (R278), at issue. -/
def execStFlush (port : BitVec 1) (s : State) : Res :=
  .next (s.withContext fun s => (s.flushPort s.myCid (port.toNat == 1)).fin 4)

end Sys2Proof.Machine
end

