-- ==== Sys2Proof/Machine/Cp.lean ====
section
/-!
DEFINITION. The meanings of the copy-command and buffer-map instructions (R279 to R292).
-/
namespace Sys2Proof.Machine

/-! ## Limits of a command (R281, R284 to R288) -/

/-- Is an address local to a command's cluster: own TCM, own scratchpad, or a TCM of the own cluster through its aperture (R284). -/
def cpLocal (pcl a : Nat) : Bool :=
  match addrClass a with
  | .tcm => true
  | .spad => true
  | .copyTcm => isCore ((a - 0x00F000000000) / 2 ^ 18) && cidPcl ((a - 0x00F000000000) / 2 ^ 18) == pcl
  | _ => false
/-- Does any byte of a destination lie in a buffer window, of the own cluster, of another or of a rank's. -/
def cpWindow (a n : Nat) (ranked : Bool) : Bool :=
  ((addrClass a == .spad || ranked) && decide (spadBase + spadLow < a + max n 1)) ||
    (addrClass a == .copySpad && decide (spadLow < a % 2 ^ 22 + max n 1))
/-- Is an address a copy-only one whose die, cluster or CID names nothing, or one in the NI block of an unassigned die (R10, R11, R50). -/
def cpNowhere (a : Nat) : Bool :=
  match addrClass a with
  | .copyTcm => !isCore ((a - 0x00F000000000) / 2 ^ 18) && !isOsCore ((a - 0x00F000000000) / 2 ^ 18)
  | .copySpad => !isCDie ((a - 0x00F800000000) / 2 ^ 27) || decide (24 ≤ (a - 0x00F800000000) / 2 ^ 22 % 32)
  | .niBlock => !isDie ((a - 0x00FC00000000) / 2 ^ 24)
  | _ => false
/-- Is a command addressed through a number that names nothing (R10): it completes NOT_MAPPED, whatever else its group breaks (DESIGN CHOICE, log
entry 107). -/
def cpUnassigned (kind : CpKind) (g0 g1 g2 ctl : Dword) : Bool :=
  let dst := !ctlDrank ctl && cpNowhere g0.toNat
  let src := !ctlSrank ctl && cpNowhere g1.toNat
  match kind with
  | .fill => dst
  | .feed => src
  | .gath | .scat => dst || src || cpNowhere g2.toNat
  | _ => dst || src
/-- The bytes of an atomic element. -/
def atomSize (ctl : Dword) : Nat := if ctlSpec ctl % 4 = 1 then 16 else 4
/-- The limits that a row sets on its SPEC field, its ranked sides and its operands. -/
def cpRowOk (kind : CpKind) (pcl : Nat) (g0 g1 g2 ctl : Dword) : Bool :=
  let spec := ctlSpec ctl
  let d := ctlDrank ctl
  let sr := ctlSrank ctl
  let bytes := decide (g2.toNat < 2 ^ 32)
  let size := gathSize ctl
  let list := cpLocal pcl g2.toNat && g2.toNat % 4 == 0
  let spec' := spec / 2 ^ 16 % 16 == 0 && decide (spec / 2 ^ 20 ≤ 8) && decide (0 < size)
  match kind with
  | .get => !d && cpLocal pcl g0.toNat && bytes && spec == 0
  | .put => !sr && cpLocal pcl g1.toNat && bytes && spec == 0
  | .xfer => bytes && spec == 0
  | .fill => !sr && bytes && spec == 0
  | .feed =>
    let fmt := feedFmt ctl
    let es := if fmt = 0 then 2 else 1
    !d && g0 &&& ~~~0x0001FFFF0000001F#64 == 0 && decide (feedKlen g0 ≤ 65536) && fmt != 3 && !(fmt == 2 && feedTrans ctl) &&
      g1.toNat % es == 0 && g2.toNat % es == 0 && spec / 64 % 2 ^ 15 == 0
  | .mcast => !d && !sr && cpLocal pcl g0.toNat && g0.toNat % 16 == 0 && cpLocal pcl g1.toNat && bytes && decide (spec ≤ 64)
  | .gath => !d && cpLocal pcl g0.toNat && list && spec'
  | .scat => !sr && cpLocal pcl g1.toNat && list && spec'
  | .atom =>
    let n := atomSize ctl
    !sr && cpLocal pcl g1.toNat && bytes && decide (spec < 2) && !cpWindow g0.toNat g2.toNat d && g2.toNat % n == 0 && g0.toNat % n == 0 &&
      g1.toNat % n == 0
/-- A command's group keeps its limits: the reserved bits of CTL zero, one ranked side at most (R281), and its row's. -/
def cpOk (kind : CpKind) (pcl : Nat) (g0 g1 g2 ctl : Dword) : Bool :=
  ctl.extractLsb' 48 2 == 0 && ctl.extractLsb' 24 8 == 0 && !(ctlDrank ctl && ctlSrank ctl) && cpRowOk kind pcl g0 g1 g2 ctl

/-! ## Hurdles of a command (R279, R282) -/

/-- Where the hurdle of a command or branch lies. -/
inductive CpHurdle
  | none
  | near (h : Nat)
  | far (h : Nat)
  | rank (r off : Nat)
  /-- A destination that names no cluster (R10). -/
  | nowhere
  deriving DecidableEq, Repr
/-- The cluster that receives a command's data holds its hurdle (R282). -/
def cpHurdleAt (kind : CpKind) (pcl : Nat) (g0 ctl : Dword) (hurdle : Dword) : CpHurdle :=
  let off := hurdle.toNat - spadBase
  let a := g0.toNat
  if kind = .feed then .near (spadCell pcl off)
  else if ctlDrank ctl then .rank (ctlRank ctl) off
  else
    let at' := fun (p : Nat) => if p = pcl then CpHurdle.near (spadCell pcl off) else .far (spadCell p off)
    match addrClass a with
    | .copySpad =>
      let o := a - 0x00F800000000
      if isCDie (o / 2 ^ 27) ∧ o / 2 ^ 22 % 32 < 24 then at' (o / 2 ^ 27 * 24 + o / 2 ^ 22 % 32) else .nowhere
    | .copyTcm =>
      let c := (a - 0x00F000000000) / 2 ^ 18
      if isCore c then at' (cidPcl c) else .nowhere
    | _ => .near (spadCell pcl off)
/-- A rank hurdle whose entry names the own cluster of this package is read in the issue cycle. -/
def State.cpNear (s : State) (pcl : Nat) (x : CpHurdle) : CpHurdle :=
  match x with
  | .rank r off =>
    let e := s.rct (pcl / 24) r
    if rctState e = 1 ∧ !s.foreign (rctPkg e) ∧ rctPcl e = pcl then .near (spadCell pcl off) else x
  | x => x
/-- The hurdle of a multicast branch (R286). -/
def branchRef (pcl : Nat) (b : Branch) : CpHurdle :=
  let off := (b.ctl.extractLsb' 5 18).toNat * 32
  if off = 0 then .none
  else if off < spadBase ∨ spadBase + spadLow ≤ off then .nowhere
  else if b.ctl.getLsbD 51 then .rank (ctlRank b.ctl) (off - spadBase)
  else .near (spadCell pcl (off - spadBase))
/-- Does a list entry of a multicast keep its form (R286). -/
def branchOk (dst ctl : Dword) : Bool :=
  ctl.extractLsb' 48 3 == 0 && ctl.extractLsb' 23 9 == 0 && ctl.extractLsb' 0 5 == 0 &&
    (if ctl.getLsbD 51 then addrClass dst.toNat == .spad else addrClass dst.toNat == .global)
/-- The list of a multicast, read at issue by the engine (R59, R286), with the status that the read ends with. -/
def State.mcastList (s : State) (key : Nat) (tk : BitVec 16) (a n : Nat) : Nat × List Branch :=
  match s.listRead (keyPcl key) (keyCid key) tk key a (16 * n) with
  | .ok l =>
    (0, (List.range n).map fun i =>
      let word := fun (o : Nat) => BitVec.ofNat 64 (natLE ((l.drop (16 * i + o)).take 8))
      { dst := word 0, ctl := word 8, gen := none, tag := 0,
        status := if branchOk (word 0) (word 8) then none else some 1, failAddr := 0, arrived := false })
  | .fail st => (st, [])
  | _ => (1, [])
/-- The cells that the issue of a command reads: those of a multicast's list and of the hurdle in the own cluster. -/
def State.issueCells (s : State) (kind : CpKind) (g0 ctl : Dword) (x : CpHurdle) : List Nat :=
  let pcl := s.myPcl
  if kind = .mcast then
    spadCell pcl 0 :: (match s.sideOf pcl s.myCid s.me.track g0.toNat (16 * (ctlSpec ctl % 128)) false none with
      | .cells rs _ => rs.map Prod.fst
      | _ => [])
  else match x with | .near h => [h] | _ => []

/-! ## Issue (R279) -/

/-- The copy commands that a baton issues in EXCHANGE are remembered at each such level (R98). -/
def State.addLapCopies (s : State) (rec' : Nat) (handle : Dword) : State :=
  let new := fun (ph : BitVec 4) => ((List.range 4).filter fun i => ph.getLsbD i).map fun i =>
    ({ level := i + 1, handle := handle.toNat, status := none } : LapCopy)
  match s.findSlot rec' with
  | some k => let t := s.slotAt k; s.setSlotAt k { t with lapCopies := t.lapCopies ++ new t.phases }
  | none => s
/-- The promise of a command issued now (R46); of a multicast the greatest over its branches. -/
def State.cpPromise (s : State) (pcl : Nat) (e : CpEntry) : Nat :=
  let now := s.swcAt (pcl / 24)
  let n := cpBytes e
  let src := if e.kind = .fill then [] else [s.legOf pcl e.track e.g1.toNat (srcRankOf e)]
  if e.kind = .mcast then
    (e.branches.mapIdx fun i b =>
      promiseOf now (src ++ [s.legOf pcl e.track b.dst.toNat (dstRankOf e i)]) n
        (s.gatedTarget pcl e.cid e.track b.dst.toNat n (dstRankOf e i))).foldl max (promiseOf now src n false)
  else if e.kind = .feed then promiseOf now src n false
  else
    promiseOf now (src ++ [s.legOf pcl e.track e.g0.toNat (dstRankOf e 0)]) n
      (s.gatedTarget pcl e.cid e.track e.g0.toNat n (dstRankOf e 0))
/-- Nothing is left to move: a violation, a failed GEN read, or no bytes, elements or panels. -/
def cpEmpty (e : CpEntry) : Bool := e.failed || (if e.kind = .feed then feedOver e else e.units == 0)
/-- Issue is over: the entry's promise is set, the handle goes to rd by `done`, and a command with nothing to move completes at once. -/
def State.cpIssued (s : State) (pcl i : Nat) (done : State → Dword → State) : State :=
  match kfind (s.cluster pcl).engine i with
  | none => s
  | some e =>
    let e := { e with gathering := false, promise := s.cpPromise pcl e }
    let s := (s.setEntry pcl i e).addLapCopies e.baton e.handle
    let s := done s e.handle
    if cpEmpty e then s.copyComplete pcl i else s
/-- A READ packet for the GEN of a hurdle in another cluster (R279, R355). -/
def State.genRead (s : State) (pcl : Nat) (e : CpEntry) (x : CpHurdle) (t : Nat) : State :=
  let p := { Pkt.blank with ty := .read, track := e.track, src := engineEp pcl, srcRank := s.srcRank pcl, tag := t, master := 2 }
  match x with
  | .far h => s.send { p with va := h + 8, dst := niEp (hurdlePcl h / 24), elems := [(h + 8, 4)] }
  | .rank r off =>
    let va := spadCell 0 (off + 8)
    s.sendRanked { p with va := va, dstRank := r, elems := [(va, 4)] }
  | _ => s
/-- The first branch of a multicast whose hurdle's GEN is still to be read, and where it lies. -/
def State.nextBranch (s : State) (pcl : Nat) (e : CpEntry) : Option (Nat × Branch × CpHurdle) :=
  (List.range e.branches.length).findSome? fun j =>
    match e.branches[j]? with
    | none => none
    | some b =>
      if b.gen.isSome || b.status.isSome then none
      else match s.cpNear pcl (branchRef pcl b) with | .none => none | x => some (j, b, x)
/-- The GENs of a multicast's branches, one after the other: those of the own cluster at once, the others by a READ for which `wait` parks
the baton (R279, R286). -/
def State.gatherGens (s : State) (pcl i : Nat) (wait : State → Nat → Nat → State) (done : State → State) : Nat → State
  | 0 => done s
  | fuel + 1 =>
    match kfind (s.cluster pcl).engine i with
    | none => s
    | some e =>
      match s.nextBranch pcl e with
      | none => done s
      | some (j, b, x) =>
        match x with
        | .near h =>
          (s.setEntry pcl i { e with branches := e.branches.set j { b with gen := some (s.hurdle h).gen } }).gatherGens pcl i wait done fuel
        | .nowhere =>
          (s.setEntry pcl i { e with branches := e.branches.set j { b with status := some 1 } }).gatherGens pcl i wait done fuel
        | x =>
          let (t, s) := s.newTag (.baton e.baton)
          (wait s j t).genRead pcl e x t
/-- The answer to the READ of a remote hurdle's GEN (R279): `va` and `pkg` say which hurdle answered, a failure gives its status. -/
def State.genAnswer (s : State) (rec' : Nat) (rd : Reg) (i : Nat) (branch : Option Nat) (fault : Option Nat) (va pkg gen : Nat) : State :=
  let pcl := recPcl rec'
  match kfind (s.cluster pcl).engine i with
  | none => s
  | some e =>
    let g := BitVec.ofNat 32 gen
    let finish := fun (s : State) => s.cpIssued pcl i fun s h => s.finishWait rec' (.x rd h)
    match branch with
    | none =>
      finish (s.setEntry pcl i (match fault with
        | some st => { e with failed := true, status := st, hurdle := none, units := 0 }
        | none => { e with gen := g, hurdle := some (va - 8), remote := true, hurdlePkg := pkg }))
    | some j =>
      let b := e.branches.map id
      let e := match b[j]? with
        | some x => { e with branches := b.set j (match fault with | some st => { x with status := some st } | none => { x with gen := some g }) }
        | none => e
      (s.setEntry pcl i e).gatherGens pcl i (fun s j t => s.setWait rec' (.cpGen rd i (some j) t)) finish 65
/-- A new entry of an engine for the focus baton. -/
def State.cpEntry (s : State) (kind : CpKind) (i : Nat) (g0 g1 g2 ctl : Dword) : CpEntry :=
  let pcl := s.myPcl
  let order := (s.cluster pcl).nextHandle
  let list := if kind = .mcast then s.mcastList s.focus s.me.track g0.toNat (ctlSpec ctl % 128) else (0, [])
  let st := if cpUnassigned kind g0 g1 g2 ctl then 3 else if !cpOk kind pcl g0 g1 g2 ctl then 1 else list.1
  let ok := st == 0
  let e : CpEntry :=
    { handle := cpHandle pcl order i, order := order, kind := kind, cid := s.myCid, baton := s.myRecord, track := s.me.track,
      launch := s.me.launch, g0 := g0, g1 := g1, g2 := g2, ctl := ctl, hurdle := none, gen := 0, remote := false, hurdlePkg := 0,
      units := 0, begun := [], flight := [], reads := [], moved := 0, status := st, failAddr := 0, failed := !ok,
      branches := if ok then list.2 else [], cancelled := false, gathering := true, arriving := false, complete := false,
      completeAt := 0, promise := 0, stray := false, told := false, missed := false, dropped := false }
  let per := cpUnits kind (cpBytes e) (pieceUnit e) (gathCount ctl)
  { e with units := if !ok ∨ (kind = .mcast ∧ e.branches = []) then 0 else per }
/-- The hurdle that a command names, none where `bare`. -/
def State.cpHurdle (s : State) (pcl : Nat) (kind : CpKind) (g0 ctl h : Dword) (bare : Bool) : CpHurdle :=
  if bare then .none else s.cpNear pcl (cpHurdleAt kind pcl g0 ctl h)
/-- The rank for which there is no room in the hold queue of a die (R43). -/
def State.cpFull (s : State) (d : Nat) (x : CpHurdle) : Option Nat :=
  match x with
  | .rank r _ => if s.rankFull d r then some r else none
  | _ => none
/-- The issue of a copy command from the values that it has read: a free entry, the GEN of the hurdle, the promise and the handle; without an entry, or
without room in the hold queue, the baton parks (R43, R279). -/
def State.cpStart (s : State) (kind : CpKind) (rd : Reg) (g0 g1 g2 ctl h : Dword) (bare : Bool) : State :=
  let pcl := s.myPcl
  let x := s.cpHurdle pcl kind g0 ctl h bare
  let wait := Wait.cpIssue kind rd g0 g1 g2 ctl h bare
  s.onCells (s.issueCells kind g0 ctl x) fun s =>
    match s.cpFull s.myDie x, (s.cluster pcl).freeSlot with
    | some r, _ => s.park wait 10 (BitVec.ofNat 64 r) 0 4
    | none, none => s.park wait 4 0 0 4
    | none, some i =>
      let e := s.cpEntry kind i g0 g1 g2 ctl
      let c := s.cluster pcl
      let s := s.setCluster pcl { c with nextHandle := c.nextHandle + 1, engine := kset i e c.engine }
      let done := fun (s : State) => s.cpIssued pcl i fun s h => s.finX rd h 4
      let park := fun (s : State) (b : Option Nat) (t : Nat) => s.park (.cpGen rd i b t) 1 (tagKey t) 0 4
      if kind = .mcast then s.gatherGens pcl i (fun s j t => park s (some j) t) done 65
      else
        match x with
        | .none => done s
        | .near h => done (s.setEntry pcl i { e with hurdle := some h, gen := (s.hurdle h).gen })
        | .nowhere => done (s.setEntry pcl i { e with failed := true, status := 3, units := 0 })
        | x =>
          let (t, s) := s.newTag (.baton s.myRecord)
          (park s none t).genRead pcl e x t
/-- A copy command that has waited to be issued goes on once an entry is free and the hold queue has room (R43, R217, R279). -/
def State.cpGo (s : State) (rec' : Nat) : State :=
  match s.waitOf rec' with
  | .cpIssue kind rd g0 g1 g2 ctl h bare =>
    let pcl := recPcl rec'
    if (s.cpFull (pcl / 24) (s.cpHurdle pcl kind g0 ctl h bare)).isSome || (s.cluster pcl).freeSlot.isNone then s
    else
      s.goOn rec' (fun s => s.issueCells kind g0 ctl (s.cpHurdle pcl kind g0 ctl h bare)) fun s => s.cpStart kind rd g0 g1 g2 ctl h bare
  | _ => s
/-- Issuing a copy command (R279): a SYSTEM release, the check of the hurdle's address, and then `State.cpStart`. -/
def State.cpIssue (s : State) (kind : CpKind) (rd xg rs2 : Reg) : State :=
  s.whenReleased 3 fun s =>
    let h := s.x rs2
    let bare := rs2 == 0
    if !bare && (h.toNat % 32 != 0 || decide (h.toNat < spadBase) || decide (0x6FFFE0 < h.toNat)) then s.trap 30 h
    else s.cpStart kind rd (s.x xg) (s.x (xg + 1)) (s.x (xg + 2)) (s.x (xg + 3)) h bare

/-! ## The copy commands -/

/-- CP.GET. -/
def execCpGet (rd xg rs2 : Reg) (s : State) : Res := .next (s.cpIssue .get rd xg rs2)
/-- CP.PUT. -/
def execCpPut (rd xg rs2 : Reg) (s : State) : Res := .next (s.cpIssue .put rd xg rs2)
/-- CP.XFER. -/
def execCpXfer (rd xg rs2 : Reg) (s : State) : Res := .next (s.cpIssue .xfer rd xg rs2)
/-- CP.FEED (R285). -/
def execCpFeed (rd xg rs2 : Reg) (s : State) : Res := .next (s.cpIssue .feed rd xg rs2)
/-- CP.MCAST (R286): its hurdles stand in its list. -/
def execCpMcast (rd xg : Reg) (s : State) : Res := .next (s.cpIssue .mcast rd xg 0)
/-- CP.FILL. -/
def execCpFill (rd xg rs2 : Reg) (s : State) : Res := .next (s.cpIssue .fill rd xg rs2)
/-- CP.GATH (R287). -/
def execCpGath (rd xg rs2 : Reg) (s : State) : Res := .next (s.cpIssue .gath rd xg rs2)
/-- CP.SCAT (R287). -/
def execCpScat (rd xg rs2 : Reg) (s : State) : Res := .next (s.cpIssue .scat rd xg rs2)
/-- CP.ATOM (R288). -/
def execCpAtom (rd xg rs2 : Reg) (s : State) : Res := .next (s.cpIssue .atom rd xg rs2)
/-- A free value (log entry 5): one that the spec leaves open. -/
def State.takeFree (s : State) : Dword × State := (Config.freeValue s.fresh, { s with fresh := s.fresh + 1 })
/-- The status word of CP.STAT (R289); STATUS of a command that has not completed is `open'`. -/
def cpStatusWord (e : CpEntry) (open' : BitVec 4) : Dword :=
  0#52 ++ BitVec.ofBool e.stray ++ BitVec.ofBool e.missed ++ BitVec.ofBool e.complete ++ 1#1 ++ 0#4 ++
    (if e.complete then BitVec.ofNat 4 e.status else open')
/-- CP.STAT (R289). STATUS is valid only with DONE; until then its bits are free. -/
def execCpStat (rd xg rs2 : Reg) (s : State) : Res :=
  .next (
    let put := fun (s : State) (a b c d : Dword) => (((s.setX xg a).setX (xg + 1) b).setX (xg + 2) c).setX (xg + 3) d
    match s.tracked s.myPcl (s.x rs2) with
    | none => (put s 0 0 0 0).finX rd 0x200 4
    | some e =>
      let (f, s) := if e.complete then (0, s) else s.takeFree
      (put s (BitVec.ofNat 64 e.moved) (BitVec.ofNat 64 e.promise) (branchBits e)
        (if e.complete then BitVec.ofNat 64 e.completeAt else 0)).finX rd (cpStatusWord e (f.extractLsb' 0 4)) 4)
/-- One handle of CP.CANCEL: the number of commands that it cancels, and the state (R290). -/
def State.cancelOne (s : State) (h : Dword) : Nat × State :=
  match s.tracked s.myPcl h with
  | none => (0, s)
  | some e =>
    if h = 0 || e.complete || e.cancelled || e.arriving || piecesEnded e || e.track != s.me.track then (0, s)
    else (1, s.setEntry s.myPcl (handleEntry h) { e with cancelled := true })
/-- CP.CANCEL (R290). -/
def execCpCancel (rd xg : Reg) (s : State) : Res :=
  .next (
    let r := [s.x xg, s.x (xg + 1), s.x (xg + 2), s.x (xg + 3)].foldl (fun (r : Nat × State) h =>
      let q := r.2.cancelOne h
      (r.1 + q.1, q.2)) (0, s)
    r.2.finX rd (BitVec.ofNat 64 r.1) 4)

/-! ## The buffer map (R149, R291) -/

/-- The custom-2 opcode. -/
def custom2 : Nat := 0x5B
/-- A change of a map entry by an instruction: cause 2 for a window above 63, and where FRONT would equal SHADOW with both mapped. It
answers the old entry. -/
def State.bufSet (s : State) (rd : Reg) (w : Dword) (word : Word32) (f : Dword → Dword) : State :=
  if 64 ≤ w.toNat then s.illegal word
  else
    let old := s.window s.myPcl w.toNat
    let new := f old
    if new.getLsbD 16 && new.getLsbD 17 && new.extractLsb' 0 8 == new.extractLsb' 8 8 then s.illegal word
    else (s.setCluster s.myPcl ((s.cluster s.myPcl).setWindow w.toNat new)).finX rd old 4
/-- BUF.MAP. -/
def execBufMap (rd rs1 rs2 : Reg) (s : State) : Res :=
  .next (
    let v := s.x rs2
    let word := xrWord 0 0 rs2.toNat rs1.toNat 4 rd.toNat custom2
    if v.toNat / 2 ^ 17 ≠ 0 ∨ 191 < v.toNat % 256 ∨ 191 < v.toNat / 256 % 256 then s.illegal word
    else
      s.bufSet rd (s.x rs1) word fun old =>
        old.extractLsb' 18 46 ++ v.extractLsb' 16 1 ++ 1#1 ++ v.extractLsb' 8 8 ++ v.extractLsb' 0 8)
/-- BUF.UNMAP. -/
def execBufUnmap (rd rs1 : Reg) (s : State) : Res :=
  .next (s.bufSet rd (s.x rs1) (xrWord 1 0 0 rs1.toNat 4 rd.toNat custom2) fun old => old.extractLsb' 18 46 ++ 0#2 ++ old.extractLsb' 0 16)
/-- BUF.SHADOW. -/
def execBufShadow (rd rs1 rs2 : Reg) (s : State) : Res :=
  .next (
    let v := s.x rs2
    let word := xrWord 2 0 rs2.toNat rs1.toNat 4 rd.toNat custom2
    if 191 < v.toNat then s.illegal word
    else
      s.bufSet rd (s.x rs1) word fun old =>
        old.extractLsb' 18 46 ++ 1#1 ++ old.extractLsb' 16 1 ++ v.extractLsb' 0 8 ++ old.extractLsb' 0 8)
/-- BUF.PUB: a publish (R150), which answers the new entry. -/
def execBufPub (rd rs1 : Reg) (s : State) : Res :=
  .next (
    let w := (s.x rs1).toNat
    if 64 ≤ w then s.illegal (xrWord 3 0 0 rs1.toNat 4 rd.toNat custom2)
    else
      let s := s.publish s.myPcl w
      s.finX rd (s.window s.myPcl w) 4)

end Sys2Proof.Machine
end

