-- ==== Sys2Proof/Machine/Stat.lean ====
section
/-!
DEFINITION. The meanings of the statistics instructions (R294 to R300).
-/
namespace Sys2Proof.Machine

/-- The custom-3 opcode. -/
def custom3 : Nat := 0x7B
/-- An st register operand is checked before anything changes: a malformed one traps with STAT_INVALID and the word (R171, R296). -/
def State.statChecked (s : State) (regs : List (BitVec 3)) (w : Word32) (f : State → State) : State :=
  if regs.any fun r => statMalformed (s.st r) then s.trap 28 (zext64 w) else f s
/-- A statistics instruction completes with an st result. -/
def State.finSt (s : State) (std : BitVec 3) (a : Stat) : State := (s.setSt std (statTo a)).fin 4
/-- The low 32 bits of an x register as an FP32 pattern (R294). -/
def State.f32 (s : State) (r : Reg) : Nat := (lowW (s.x r)).toNat
/-- An FP32 result for an x register (R132, R294). -/
def statX (v : Nat) : Dword := (BitVec.ofNat 32 v).signExtend 64

/-- STAT.INIT (R296). -/
def execStatInit (std : BitVec 3) (s : State) : Res := .next ((s.setSt std statEmpty).fin 4)
/-- STAT.UPD: weight 1 (R172, R296). -/
def execStatUpd (std : BitVec 3) (rs1 : Reg) (s : State) : Res :=
  .next (s.statChecked [std] (xrWord 1 0 0 rs1.toNat 0 std.toNat custom3) fun s =>
    s.finSt std (statUpd (statOf (s.st std)) (s.f32 rs1) one32))
/-- STAT.UPDW (R172, R296). -/
def execStatUpdw (std : BitVec 3) (rs1 rs2 : Reg) (s : State) : Res :=
  .next (s.statChecked [std] (xrWord 2 0 rs2.toNat rs1.toNat 0 std.toNat custom3) fun s =>
    s.finSt std (statUpd (statOf (s.st std)) (s.f32 rs1) (s.f32 rs2)))
/-- STAT.MERGE: st1 is the left operand (R173, R296). -/
def execStatMerge (std st1 st2 : BitVec 3) (s : State) : Res :=
  .next (s.statChecked [st1, st2] (xrWord 3 0 st2.toNat st1.toNat 0 std.toNat custom3) fun s =>
    s.finSt std (statMerge (statOf (s.st st1)) (statOf (s.st st2))))
/-- A loaded STAT128 value: the effect on the register, or STAT_INVALID where it is malformed (R297). -/
def statLoaded (std : BitVec 3) (v : Nat) : Option Effect :=
  let x : Streg := BitVec.ofNat 128 v
  if statMalformed x then none else some (.st std x)
/-- STAT.LD (R297). -/
def execStatLd (std : BitVec 3) (rs1 : Reg) (s : State) : Res :=
  .next (
    let a := (s.x rs1).toNat
    let w := xrWord 4 0 0 rs1.toNat 0 std.toNat custom3
    if !s.vAdmits .read a 16 then s.trap 5 (s.x rs1)
    else
      match s.ownCell .read a with
      | some c =>
        s.onCells [c] fun s =>
          match statLoaded std (s.loadLE c 16) with
          | some e => (s.setMe (e.onSlot s.me)).fin 4
          | none => s.trap 28 (zext64 w)
      | none =>
        s.parkParts [[0]] (VAccess.start [a] [0] []) (.stLoad std.toNat w)
          (fun s t l => s.vPkt .read [a] (fun _ => 16) t l) 4)
/-- STAT.ST (R297): to a global address it is posted. -/
def execStatSt (rs1 : Reg) (st2 : BitVec 3) (s : State) : Res :=
  .next (
    let a := (s.x rs1).toNat
    let data := bytesLE 16 (s.st st2).toNat
    if !s.vAdmits .write a 16 then s.trap 7 (s.x rs1)
    else
      match s.ownCell .write a with
      | some c => s.onCells [c] fun s => (s.store (some s.focus) c data).fin 4
      | none => (s.post true fun s t => { s.requestPkt .write a 16 t with data := data }).fin 4)

/-! ## Vector forms and drains -/

/-- The update of a triple by the elements of a register in ascending order, with their weights (R298). -/
def statUpds (a : Stat) (xs ws : List Nat) : Stat := (xs.zip ws).foldl (fun a p => statUpd a p.1 p.2) a
/-- The elements of a register widened to FP32. -/
def widened (t : VTy) (v : Vreg) : List Nat := (vlist t v).map (toF32 (vtyFmt t))
/-- VSTAT.UPD and VSTAT.UPDW: the lane group is occupied for 6 cycles an element (R295). -/
def State.vstat (s : State) (std : BitVec 3) (t : VTy) (xs ws : List Nat) (w : Word32) : State :=
  s.statChecked [std] w fun s =>
    s.enterVec (6 * vtyCount t) (6 * vtyCount t + 4) [regOfSt std] 0 fun s => s.finSt std (statUpds (statOf (s.st std)) xs ws)
/-- VSTAT.UPD (R298). -/
def execVstatUpd (std : BitVec 3) (vs1 : Reg) (ty : BitVec 2) (s : State) : Res :=
  .next (
    let t := vtyOfCode ty.toNat
    s.vstat std t (widened t (s.v vs1)) (List.replicate (vtyCount t) one32) (xrWord 0 ty.toNat 0 vs1.toNat 1 std.toNat custom3))
/-- VSTAT.UPDW (R298). -/
def execVstatUpdw (std : BitVec 3) (vs1 vs2 : Reg) (ty : BitVec 2) (s : State) : Res :=
  .next (
    let t := vtyOfCode ty.toNat
    s.vstat std t (widened t (s.v vs1)) (widened t (s.v vs2)) (xrWord 1 ty.toNat vs2.toNat vs1.toNat 1 std.toNat custom3))
/-- STAT.DRAIN (R174, R299): RAW and NORM write a pair of registers. -/
def execStatDrain (rd : Reg) (st1 : BitVec 3) (rs2 : Reg) (drain : BitVec 3) (s : State) : Res :=
  .next (s.statChecked [st1] (xrWord 2 drain.toNat rs2.toNat st1.toNat 1 rd.toNat custom3) fun s =>
    let v := s.st st1
    let a := statOf v
    let eps := s.f32 rs2
    let opt := drain.toNat
    if opt = 0 then (s.setX rd (v.extractLsb' 64 64)).finX (rd + 1) (v.extractLsb' 0 64) 4
    else if opt = 5 then (s.setX rd (statX (statDrain a 1 eps))).finX (rd + 1) (statX (statDrain a 4 eps)) 4
    else s.finX rd (statX (statDrain a opt eps)) 4)
/-- The exact difference of two values. -/
def subExact (a b : FVal) : FVal :=
  match a, b with
  | .nan _, _ => .nan false
  | _, .nan _ => .nan false
  | .inf n, .inf m => if n = m then .nan false else .inf n
  | .inf n, _ => .inf n
  | _, .inf m => .inf (!m)
  | .fin n s e, .fin m t g =>
    let e0 := min e g
    let i := alignTo (signed n s) e e0 - alignTo (signed m t) g e0
    if i = 0 then .fin false 0 0 else .fin (decide (i < 0)) i.natAbs e0
/-- VSTAT.NORM (R300): (x − m) × r, exact before one rounding. -/
def execVstatNorm (vd vs1 : Reg) (ty : BitVec 2) (pair : BitVec 4) (s : State) : Res :=
  .next (
    let t := vtyOfCode ty.toNat
    let m := fdecode .f32 (s.f32 (pairReg pair false))
    let r := fdecode .f32 (s.f32 (pairReg pair true))
    s.vecOp vd 1 5 (vmap1 t (fun x => (mulV (vtyFmt t) .rne (subExact (fdecode (vtyFmt t) x) m) r).bits) (s.v vs1)))

end Sys2Proof.Machine
end

