-- ==== Sys2Proof/Machine/Cycle.lean ====
section
/-!
DEFINITION. The cycle controller (R301 to R314), and the meanings of the cycle instructions but CYC.OPEN, whose descriptor is read first
(Coll.lean).
-/
namespace Sys2Proof.Machine

/-! ## Handles and records (R301, R303) -/

/-- The record number of a handle. -/
def cycNum (h : Dword) : Nat := (h.extractLsb' 0 6).toNat
/-- The block of a handle. -/
def cycBlock (h : Dword) : Nat := (h.extractLsb' 8 8).toNat
/-- The open sequence number of a handle. -/
def cycSeq (h : Dword) : Nat := (h.extractLsb' 32 31).toNat
/-- The reserved bits of a handle are zero. -/
def cycClean (h : Dword) : Bool := !h.getLsbD 63 && h.extractLsb' 16 16 == 0 && h.extractLsb' 6 2 == 0
/-- A record. -/
def State.cycRec (s : State) (n : Nat) : CycRec := kget CycRec.init s.cyc.recs n
/-- The state with a record set. -/
def State.setCyc (s : State) (n : Nat) (r : CycRec) : State := { s with cyc := { s.cyc with recs := kset n r s.cyc.recs } }
/-- The controller accepts requests (R19). -/
def State.cycUp (s : State) : Bool := s.readyBit 49
/-- The record that a handle names for a track, none where R301 refuses it. -/
def State.cycNamed (s : State) (h : Dword) (tk : BitVec 16) : Option CycRec :=
  let r := s.cycRec (cycNum h)
  if s.cycUp && cycClean h && cycSeq h == r.seq && cycSeq h != 0 && decide (cycBlock h ≤ r.nbm1) && (r.track == tk || tk == 0) then some r
  else none
/-- The states in which a block works (R304). -/
def CycRec.works (r : CycRec) : Bool :=
  match r.state with
  | .opened => true
  | .iterating => true
  | .backward => r.bwdstat == 0
  | _ => false
/-- The first request of a block moves an OPEN record to ITERATING (R303). -/
def CycRec.begin' (r : CycRec) : CycRec := if r.state = .opened then { r with state := .iterating, iter := 0 } else r
/-- The slot of a block. -/
def CycRec.slot (r : CycRec) (b : Nat) : CycSlot := r.slots.getD b CycSlot.init
/-- The record with a block's slot set. -/
def CycRec.setSlot (r : CycRec) (b : Nat) (x : CycSlot) : CycRec := { r with slots := r.slots.set b x }
/-- Empty slots for every block. -/
def CycRec.clear (r : CycRec) : CycRec := { r with slots := List.replicate (r.nbm1 + 1) CycSlot.init }
/-- The first block of the direction, and the final one (R309). -/
def CycRec.firstBlock (r : CycRec) : Nat := if r.dir then r.nbm1 else 0
/-- See `CycRec.firstBlock`. -/
def CycRec.finalBlock (r : CycRec) : Nat := if r.dir then 0 else r.nbm1
/-- The predecessor of a block that is not the first. -/
def CycRec.before (r : CycRec) (b : Nat) : Nat := if r.dir then b + 1 else b - 1
/-- The status word (R308). -/
def CycRec.word (r : CycRec) : Dword :=
  0#8 ++ BitVec.ofNat 8 r.nbm1 ++ BitVec.ofNat 16 r.iter ++ 0#19 ++ BitVec.ofBool r.dir ++ BitVec.ofNat 4 r.bwdstat ++
    BitVec.ofNat 4 r.fwdstat ++ BitVec.ofNat 4 r.state.code

/-! ## An iteration (R309, R310) -/

/-- What CYC.TAKE finds (R309). -/
inductive Taken
  | wait
  | value (v : Dword)
  | never
  deriving DecidableEq, Repr
/-- CYC.TAKE by a block. -/
def CycRec.take (r : CycRec) (b : Nat) : Taken :=
  if b = r.firstBlock then .value (if r.dir then r.adj else r.start)
  else
    let p := r.slot (r.before b)
    match p.passed with
    | some v => .value v
    | none => if p.next then .never else .wait
/-- The merge of all contributions in ascending block order (R310). -/
def CycRec.merged (r : CycRec) : Streg :=
  (List.range (r.nbm1 + 1)).foldl (fun m b => statTo (statMerge (statOf m) (statOf (r.slot b).res))) statEmpty
/-- `a ≤ b` on FP32 patterns. -/
def le32 (a b : Nat) : Bool := ltV (fdecode .f32 a) (fdecode .f32 b) || eqV (fdecode .f32 a) (fdecode .f32 b)
/-- The code with which an iteration closes (R310). -/
def CycRec.closing (r : CycRec) (m : Stat) : Nat :=
  if m.nan || m.inf || m.wovf then 3
  else
    let s := if m.empty then 0 else mul32 m.w m.mu
    let lim := if r.dir then r.blimit else r.limit
    if s = fmtInf .f32 then 3 else if le32 s r.tol2 then 1 else if lim ≤ r.iter + 1 then 2 else 0
/-- The record after its iteration has closed: the code and the record (R303, R310). -/
def CycRec.close (r : CycRec) : Nat × CycRec :=
  let m := r.merged
  let code := r.closing (statOf m)
  let r := { r with res := m, iter := if code = 0 then r.iter + 1 else r.iter }.clear
  let r :=
    if code = 0 then r
    else if r.dir then { r with bwdstat := code }
    else { r with fwdstat := code, state := if code = 1 then .converged else if code = 2 then .inexact else .diverged }
  (code, r)
/-- Batons parked on a record act on it as it stands: a TAKE whose value has come, and both where the record no longer works (R313). -/
def State.pollCycle (s : State) (rec' : Nat) : State :=
  match s.waitOf rec' with
  | .cycTake rd h =>
    let r := s.cycRec (cycNum h)
    if cycSeq h ≠ r.seq ∨ !r.works ∨ !s.cycUp then s.failWait rec' 29 (BitVec.ofNat 64 (cycNum h)) 0
    else
      match r.take (cycBlock h) with
      | .wait => s
      | .value v => (s.acquireLog (recPcl rec' / 24) 2).finishWait rec' (.x rd v)
      | .never => s.failWait rec' 29 (BitVec.ofNat 64 (cycNum h)) 0
  | .cycNext _ h =>
    let r := s.cycRec (cycNum h)
    if cycSeq h ≠ r.seq ∨ !r.works ∨ !s.cycUp then s.failWait rec' 29 (BitVec.ofNat 64 (cycNum h)) 0 else s
  | _ => s
/-- Every baton that waits on a record. -/
def State.wakeCycle (s : State) (n : Nat) : State :=
  s.waiting.foldl (fun s w =>
    match w.2 with
    | .cycTake _ h => if cycNum h = n then s.pollCycle w.1 else s
    | .cycNext _ h => if cycNum h = n then s.pollCycle w.1 else s
    | _ => s) s
/-- The last NEXT closes the iteration, and every block's NEXT returns its code, an acquire at PACKAGE scope (R179, R310). -/
def State.closeIteration (s : State) (n : Nat) : State :=
  let r := s.cycRec n
  if r.slots.all CycSlot.next then
    let c := r.close
    (s.setCyc n c.2).waiting.foldl (fun s w =>
      match w.2 with
      | .cycNext rd h => if cycNum h = n ∧ cycSeq h = r.seq then (s.acquireLog (recPcl w.1 / 24) 2).finishWait w.1 (.x rd (BitVec.ofNat 64 c.1)) else s
      | _ => s) (s.setCyc n c.2)
  else s

/-! ## Posted requests (R304) -/

/-- A CYC.RES or CYC.PASS as the controller applies it: none where it is refused. -/
def CycRec.apply (r : CycRec) (q : CycReq) : Option CycRec :=
  let b := cycBlock q.handle
  let x := r.slot b
  if !r.works || x.next then none
  else
    match q.res with
    | some v => some (r.begin'.setSlot b { x with res := statTo (statMerge (statOf x.res) (statOf v)) })
    | none =>
      if x.passed.isSome then none
      else
        let r := r.begin'.setSlot b { x with passed := some q.value }
        some (if b = r.finalBlock then { r with out := q.value } else r)
/-- A posted request taken by the controller: applied, or refused and delivered as a posted CYCLE_STATE to its baton unless that has
ended (R138, R304). -/
def State.cycTakeReq (s : State) (q : CycReq) : State :=
  let live := kfind s.owners q.tag == some (.posted q.record)
  let s := (s.dropTag q.tag).dropPosted q.record q.tag
  let n := cycNum q.handle
  match (s.cycNamed q.handle q.track).bind fun r => r.apply q with
  | some r => (s.setCyc n r).wakeCycle n
  | none => if live then s.addDeferred q.record { cause := 29, value := BitVec.ofNat 64 n, status := 0, posted := true, sync := false, at' := none } else s
/-- The oldest posted request is taken. -/
def State.cycRequest (s : State) : State :=
  match s.cyc.queue with
  | [] => s
  | q :: r => { s with cyc := { s.cyc with queue := r } }.cycTakeReq q
/-- The earlier posted requests of a baton reach the controller before its next request does (R304). -/
def State.cycDrain (s : State) (rec' : Nat) : State :=
  let mine := s.cyc.queue.filter fun q => q.record == rec'
  mine.foldl State.cycTakeReq { s with cyc := { s.cyc with queue := s.cyc.queue.filter fun q => q.record != rec' } }

/-! ## Weight ranges (R302, R307) -/

/-- A range that R302 admits. -/
def rangeOk (b l : Nat) : Bool := decide (2 ^ 40 ≤ b) && decide (b < l) && decide (l ≤ 2 ^ 56)
/-- The dies whose NIs hold freeze tables: the live C-dies and F-dies (R60). -/
def State.freezeDies (s : State) : List Nat := allDies.filter fun d => (isCDie d || isFDie d) && s.dieUp d
/-- Every freeze table has room for some more entries. -/
def State.freezeRoom (s : State) (n : Nat) : Bool := s.freezeDies.all fun d => decide ((s.ni d).freeze.length + n ≤ 512)
/-- The ranges of a record installed in every live freeze table at one moment (R307). -/
def State.freezeAll (s : State) (n : Nat) (tk : BitVec 16) (rs : List (Nat × Nat)) : State :=
  s.freezeDies.foldl (fun s d =>
    let x := s.ni d
    s.setNi d { x with freeze := x.freeze ++ rs.map fun r => { cycle := n, track := tk, base := r.1, limit := r.2 } }) s
/-- A doubleword of a list of bytes. -/
def wordAt (l : List Byte) (o : Nat) : Nat := natLE ((l.drop o).take 8)
/-- The ranges that a descriptor lists. -/
def descRanges (l : List Byte) : List (Nat × Nat) :=
  (List.range (wordAt l 0 / 2 ^ 24 % 16)).map fun r => (wordAt l (0x40 + 16 * r), wordAt l (0x48 + 16 * r))
/-- The fields of the 64-byte part of a descriptor keep R302. -/
def descOk (l : List Byte) : Bool :=
  let w : Dword := BitVec.ofNat 64 (wordAt l 0)
  let tol := (w.extractLsb' 32 32).toNat
  let finite := match fdecode .f32 tol with | .fin _ _ _ => true | _ => false
  w.extractLsb' 8 8 != 0 && w.extractLsb' 16 8 != 0 && decide ((w.extractLsb' 24 4).toNat ≤ 8) && w.extractLsb' 28 4 == 0 &&
    finite && !w.getLsbD 63 && ((l.drop 0x10).take 0x30).all (· == 0)
/-- The lowest-numbered record that may be opened. -/
def State.freeCycle (s : State) : Option Nat := (List.range 64).find? fun n => !(s.cycRec n).state.live
/-- The next open sequence number: modulo 2^31, never 0. -/
def nextCycSeq (n : Nat) : Nat := if (n + 1) % 2 ^ 31 = 0 then 1 else (n + 1) % 2 ^ 31
/-- The failure value of CYC.OPEN and of the collective instructions. -/
def failCode (c : Nat) : Dword := (1#64 <<< 63) ||| BitVec.ofNat 64 c
/-- CYC.OPEN with its descriptor read (R305): the value for rd, and the state. -/
def State.cycOpen (s : State) (tk : BitVec 16) (launch : Nat) (l : List Byte) : Dword × State :=
  let rs := descRanges l
  if !descOk l || rs.any (fun r => !rangeOk r.1 r.2) then (failCode 1, s)
  else
    match s.freeCycle with
    | none => (failCode 2, s)
    | some n =>
      if !s.freezeRoom rs.length then (failCode 3, s)
      else
        let w : Dword := BitVec.ofNat 64 (wordAt l 0)
        let tol := (w.extractLsb' 32 32).toNat
        let seq := nextCycSeq s.cyc.lastSeq
        let r : CycRec :=
          { CycRec.init with
            state := .opened, track := tk, seq := seq, launch := launch, nbm1 := (w.extractLsb' 0 8).toNat,
            limit := (w.extractLsb' 8 8).toNat, blimit := (w.extractLsb' 16 8).toNat, tol2 := mul32 tol tol,
            start := BitVec.ofNat 64 (wordAt l 8), ranges := rs }
        let s := (s.freezeAll n tk rs).setCyc n r.clear
        (BitVec.ofNat 64 (seq * 2 ^ 32 + n), { s with cyc := { s.cyc with lastSeq := seq } })

/-! ## The instructions -/

/-- A cycle instruction on a handle: illegal in an active gang (R294), CYCLE_STATE where R301 or R304 refuses it; the baton's earlier
posted requests are taken first. -/
def State.onCycle (s : State) (w : Word32) (h : Dword) (legal : CycRec → Bool) (f : State → Nat → CycRec → State) : State :=
  s.unlessGanged w fun s =>
    let s := s.cycDrain s.myRecord
    match s.cycNamed h s.me.track with
    | some r => if legal r then f s (cycNum h) r else s.trap 29 (BitVec.ofNat 64 (cycNum h))
    | none => s.trap 29 (BitVec.ofNat 64 (cycNum h))
/-- CYC.FREEZE (R306). -/
def execCycFreeze (rd rs1 rs2 : Reg) (s : State) : Res :=
  .next (
    let w := xrWord 1 0 rs2.toNat rs1.toNat 2 rd.toNat custom3
    let a := (s.x rs2).toNat
    s.unlessGanged w fun s =>
      match (if a % 16 = 0 then s.localRange .read a 16 else none) with
      | none => s.trap 5 (s.x rs2)
      | some cs =>
        s.onCells cs fun s =>
          let l := s.cellBytes cs
          s.onCycle w (s.x rs1) (fun r => r.state == .opened) fun s n r =>
            let g := (wordAt l 0, wordAt l 8)
            if 8 ≤ r.ranges.length ∨ !rangeOk g.1 g.2 ∨ !s.freezeRoom 1 then s.finReply rd (BitVec.allOnes 64) 4
            else
              let s := (s.freezeAll n r.track [g]).setCyc n { r with ranges := r.ranges ++ [g] }
              s.finReply rd (BitVec.ofNat 64 (r.ranges.length + 1)) 4)
/-- CYC.ITER (R308). -/
def execCycIter (rd rs1 : Reg) (s : State) : Res :=
  .next (s.onCycle (xrWord 2 0 0 rs1.toNat 2 rd.toNat custom3) (s.x rs1) CycRec.works fun s n r =>
    (s.setCyc n r.begin').finReply rd r.begin'.word 4)
/-- A posted request of the cycle controller: a release at PACKAGE scope that checks only the handle's reserved bits (R179, R304). -/
def State.cycPost (s : State) (w : Word32) (h : Dword) (res : Option Streg) (value : Dword) : State :=
  s.unlessGanged w fun s =>
    if (match res with | some v => statMalformed v | none => false) then s.trap 28 (zext64 w)
    else if !s.cycUp || !cycClean h then s.trap 29 (BitVec.ofNat 64 (cycNum h))
    else
      s.whenReleased 2 fun s =>
        let (t, s) := s.newTag (.posted s.myRecord)
        let me := s.me
        let s := s.setMe { me with posted := me.posted ++ [{ tag := t, pkg := 0, die := bDie, store := false, rmw := false }] }
        let q : CycReq := { record := s.myRecord, tag := t, handle := h, track := s.me.track, res := res, value := value }
        { s with cyc := { s.cyc with queue := s.cyc.queue ++ [q] } }.fin 4
/-- CYC.RES (R304, R310). -/
def execCycRes (rs1 : Reg) (st2 : BitVec 3) (s : State) : Res :=
  .next (s.cycPost (xrWord 3 0 st2.toNat rs1.toNat 2 0 custom3) (s.x rs1) (some (s.st st2)) 0)
/-- CYC.PASS (R304, R309). -/
def execCycPass (rs1 rs2 : Reg) (s : State) : Res :=
  .next (s.cycPost (xrWord 4 0 rs2.toNat rs1.toNat 2 0 custom3) (s.x rs1) none (s.x rs2))
/-- CYC.TAKE (R309): it parks until its predecessor has passed or has issued CYC.NEXT. With its value it is an acquire at PACKAGE scope (R179). -/
def execCycTake (rd rs1 : Reg) (s : State) : Res :=
  .next (s.onCycle (xrWord 5 0 0 rs1.toNat 2 rd.toNat custom3) (s.x rs1) CycRec.works fun s n r =>
    let s := s.setCyc n r.begin'
    match r.begin'.take (cycBlock (s.x rs1)) with
    | .value v => (s.acquireLog s.myDie 2).finX rd v 4
    | .never => s.trap 29 (BitVec.ofNat 64 n)
    | .wait => s.park (.cycTake rd (s.x rs1)) 8 (BitVec.ofNat 64 n) 0 4)
/-- CYC.NEXT (R310): it parks, and the last one closes the iteration. -/
def execCycNext (rd rs1 : Reg) (s : State) : Res :=
  .next (s.onCycle (xrWord 6 0 0 rs1.toNat 2 rd.toNat custom3) (s.x rs1) CycRec.works fun s n r =>
    let b := cycBlock (s.x rs1)
    let s := s.park (.cycNext rd (s.x rs1)) 8 (BitVec.ofNat 64 n) 0 4
    ((s.setCyc n (r.begin'.setSlot b { r.slot b with next := true })).wakeCycle n).closeIteration n)
/-- CYC.BWD (R311). -/
def execCycBwd (rs1 rs2 : Reg) (s : State) : Res :=
  .next (s.onCycle (xrWord 7 0 rs2.toNat rs1.toNat 2 0 custom3) (s.x rs1) (fun r => r.state == .converged || r.state == .inexact)
    fun s n r =>
      (s.setCyc n { r with state := .backward, dir := true, iter := 0, res := statEmpty, adj := s.x rs2 }.clear).finReply 0 0 4)
/-- CYC.STAT (R312). -/
def execCycStat (rd rs1 : Reg) (sel : BitVec 2) (s : State) : Res :=
  .next (s.onCycle (xrWord 8 sel.toNat 0 rs1.toNat 2 rd.toNat custom3) (s.x rs1) (fun _ => true) fun s _ r =>
    s.finReply rd (if sel = 0 then r.word else if sel = 1 then r.res.extractLsb' 64 64 else if sel = 2 then r.res.extractLsb' 0 64 else r.out) 4)
/-- CYC.CLOSE (R313). -/
def execCycClose (rs1 : Reg) (s : State) : Res :=
  .next (s.onCycle (xrWord 9 0 0 rs1.toNat 2 0 custom3) (s.x rs1)
    (fun r => r.state == .converged || r.state == .inexact || r.state == .diverged || (r.state == .backward && r.bwdstat != 0))
    fun s n r => ((s.unfreeze n).setCyc n { r with state := .closed }).finReply 0 0 4)
/-- CYC.ABORT (R313). -/
def execCycAbort (rs1 : Reg) (s : State) : Res :=
  .next (s.onCycle (xrWord 10 0 0 rs1.toNat 2 0 custom3) (s.x rs1) (fun _ => true) fun s n _ => ((s.abortCycle n).wakeCycle n).finReply 0 0 4)

end Sys2Proof.Machine
end

