-- ==== Sys2Proof/Machine/Relay.lean ====
section
/-!
DEFINITION. The Relay (R115 to R131): plan images, the nodes of the standard kinds, runs, node effects, membership changes, pauses and
stall timers.
-/
namespace Sys2Proof.Machine

/-! ## State of the Relay -/

/-- The Relay is up (R19). -/
def State.relayUp (s : State) : Bool := s.readyBit 51
/-- The Relay's clock: the SWC of the X-die. -/
def State.relayNow (s : State) : Nat := s.swcAt xDie
/-- The state with the Relay replaced. -/
def State.setRelay (s : State) (r : Relay) : State := { s with relay := r }
/-- The state with a run set. -/
def State.setRun (s : State) (k : Nat) (r : Run) : State := s.setRelay { s.relay with runs := kset k r s.relay.runs }
/-- The state with a plan set. -/
def State.setPlan (s : State) (slot : Nat) (p : Plan) : State := s.setRelay { s.relay with plans := kset slot p s.relay.plans }
/-- The open runs of a plan-store slot, oldest first. -/
def Relay.runsOf (r : Relay) (slot : Nat) : List (Nat × Run) := r.runs.filter fun p => p.2.slot == slot
/-- A group has an open run. -/
def Relay.groupBusy (r : Relay) (g : Nat) : Bool := r.runs.any fun p => p.2.group == g
/-- Cycles in a count of microseconds at 1.6 GHz (R13, R116); a timer field of 0 counts as 1. -/
def microCycles (us : Nat) : Nat := max 1 us * 1600

/-! ## Plan images (R118, R119) -/

/-- Element bytes in member memory by DTYPE. -/
def dtypeSize (d : Nat) : Nat := if d = 0 then 4 else if d = 1 then 2 else if d = 2 then 16 else 1
/-- Buffer bytes for member-memory bytes (R119): BF16 is held as FP32. -/
def bufLen (dtype n : Nat) : Nat := if dtype = 1 then 2 * n else n
/-- The header of an image. -/
def planHdr (l : List Byte) : PlanHdr :=
  let w := wordAt l 0
  { kind := w % 256, dtype := w / 2 ^ 8 % 16, oper := w / 2 ^ 12 % 16, group := w / 2 ^ 16 % 2 ^ 16, nodes := w / 2 ^ 32 % 2 ^ 16,
    nsucc := w / 2 ^ 48, count := wordAt l 8, bufBytes := wordAt l 16 % 2 ^ 32 }
/-- OPER fits KIND and DTYPE. -/
def operOk (h : PlanHdr) : Bool :=
  (h.oper == (if h.dtype ≤ 1 then 1 else if h.dtype = 2 then 2 else 0)) || ((h.kind == 3 || h.kind == 4) && h.oper == 0)
/-- A header keeps its limits. -/
def hdrOk (l : List Byte) (h : PlanHdr) : Bool :=
  decide (h.kind ≤ 4) && decide (h.dtype ≤ 3) && decide (h.oper ≤ 2) && decide (h.group < 1024) && operOk h &&
    (if h.kind = 0 then decide (1 ≤ h.nodes) && decide (h.nodes ≤ 32768) && h.count == 0 && decide (h.bufBytes ≤ 4 * 2 ^ 20)
     else h.nodes == 0 && h.nsucc == 0 && h.bufBytes == 0 && decide (h.count ≤ 2 ^ 40)) &&
    ((l.drop 0x14).take 0x2C).all (· == 0)
/-- A node record of an image. -/
def nodeBits (l : List Byte) (i : Nat) : BitVec 256 := BitVec.ofNat 256 (natLE ((l.drop (64 + 32 * i)).take 32))
/-- A successor entry of an image. -/
def succAt (h : PlanHdr) (l : List Byte) (j : Nat) : Nat := natLE ((l.drop (64 + 32 * h.nodes + 2 * j)).take 2)
/-- A field of a node record. -/
def nodeField (b : BitVec 256) (lo n : Nat) : Nat := (b.extractLsb' lo n).toNat
/-- The kind of a node record, none for a reserved value. -/
def nodeKind (k : Nat) : Option NodeKind :=
  match k with
  | 0 => some .nop
  | 1 => some .load
  | 2 => some .reduce
  | 3 => some .store
  | 4 => some .arrive
  | _ => none
/-- The successors that a node record lists. -/
def nodeSuccs (succ : List Nat) (b : BitVec 256) : List Nat := (succ.drop (nodeField b 32 16)).take (nodeField b 48 8)
/-- A node record keeps R119. -/
def nodeOk (h : PlanHdr) (succ : List Nat) (i : Nat) (b : BitVec 256) : Bool :=
  let es := dtypeSize h.dtype
  let off := nodeField b 64 64
  let boff := nodeField b 128 32
  let bytes := nodeField b 160 32
  let moves := fun (k : NodeKind) => k == .load || k == .reduce || k == .store
  match nodeKind (nodeField b 0 4) with
  | none => false
  | some k =>
    decide (nodeField b 32 16 + nodeField b 48 8 ≤ h.nsucc) && decide (nodeField b 16 16 < 4096) && nodeField b 56 8 == 0 &&
      nodeField b 192 64 == 0 && off % (if k = .arrive then 32 else es) == 0 && boff % 16 == 0 &&
      (k == .arrive || bytes % es == 0) && (!moves k || decide (boff + bufLen h.dtype bytes ≤ h.bufBytes)) &&
      !(k == .reduce && h.oper == 0) && (nodeSuccs succ b).all fun j => decide (i < j) && decide (j < h.nodes)
/-- What CL.LOAD makes of an image: a load code, or the plan's header, nodes and successors. -/
def planOf (l : List Byte) : Except Nat (PlanHdr × List (BitVec 256) × List Nat) :=
  let h := planHdr l
  if !hdrOk l h then .error 1
  else
    let nodes := (List.range h.nodes).map (nodeBits l)
    let succ := (List.range h.nsucc).map (succAt h l)
    if !(nodes.mapIdx fun i b => nodeOk h succ i b).all id then .error 2
    else
      let all := nodes.flatMap (nodeSuccs succ)
      if !(nodes.mapIdx fun i b => nodeField b 8 8 == all.count i).all id then .error 3
      else .ok (h, nodes, succ)

/-! ## Nodes of a run (R119, R124) -/

/-- A node that waits for its counter. -/
def RunNode.make (kind : NodeKind) (base member off boff bytes counter : Nat) (succ : List Nat) (chunk : Option Nat) : RunNode :=
  { kind := kind, base := base, member := member, off := off, boff := boff, bytes := bytes, succ := succ, counter := counter,
    phase := .idle, pos := 0, raw := [], tag := 0, status := 0, chunk := chunk }
/-- The nodes of a custom plan. -/
def customNodes (p : Plan) : List RunNode :=
  p.nodes.map fun b =>
    RunNode.make ((nodeKind (nodeField b 0 4)).getD .nop) (nodeField b 4 4) (nodeField b 16 16) (nodeField b 64 64) (nodeField b 128 32)
      (nodeField b 160 32) (nodeField b 8 8) (nodeSuccs p.succ b) none
/-- The elements of chunk `c` (R124). -/
def chunkLen (h : PlanHdr) (P c : Nat) : Nat :=
  if h.kind ≤ 2 then
    let q := (h.count + P - 1) / P
    min h.count ((c + 1) * q) - min h.count (c * q)
  else h.count
/-- The nodes that the sequencer generates for a standard kind over `P` members: chunk by chunk, each chunk's steps one after another in
their order (log entry 101), then the arrives (R124, R126). -/
def standardNodes (h : PlanHdr) (P : Nat) : List RunNode :=
  let es := dtypeSize h.dtype
  let q := (h.count + P - 1) / P
  let chunks := (List.range (if h.kind = 4 then 1 else P)).filter fun c => decide (0 < chunkLen h P c)
  let loads := if h.kind ≤ 2 then P else 1
  let stores := if h.kind = 2 then 1 else P
  let per := loads + stores
  let arrives := chunks.length * per
  let step := if h.kind ≤ 2 then q * es else h.count * es
  let body := (chunks.mapIdx fun i c =>
    let at' := i * per
    let n := chunkLen h P c * es
    let boff := c * bufLen h.dtype step
    let inOff := if h.kind ≤ 2 then c * step else 0
    let outOff := if h.kind = 1 ∨ h.kind = 3 then c * step else 0
    let load := fun (k : Nat) =>
      RunNode.make (if k = 0 then .load else .reduce) 0 ((c + k) % P) inOff boff n (if k = 0 then 0 else 1) [at' + k + 1] (some c)
    let store := fun (k : Nat) =>
      let next := if k + 1 < stores then [at' + loads + k + 1] else []
      RunNode.make .store 1 ((c + k) % P) outOff boff n 1 ((arrives + (c + k) % P) :: next) (some c)
    (List.range loads).map load ++ (List.range stores).map store).flatten
  body ++ (List.range P).map fun m =>
    RunNode.make .arrive 2 m 0 0 0 ((body.filter fun x => x.kind == .store && x.member == m).length) [] none

/-! ## Status and timers of a run (R129, R130) -/

/-- The run status as it stands (R130): the copy status codes. -/
def Run.status (r : Run) : Nat :=
  match r.ended with
  | some st => st
  | none =>
    match r.nodes.find? fun n => n.phase == .ended && n.status != 0 with
    | some n => n.status
    | none => if r.partialMembers then 9 else 0
/-- A run is over when every node has ended. -/
def Run.over (r : Run) : Bool := r.nodes.all fun n => n.phase == .ended
/-- A pause of one of a run's ranks is in effect. -/
def State.runPaused (s : State) (r : Run) : Bool :=
  s.relay.pauses.any fun p => r.members.any fun m => m.rank == p.rank && !m.withdrawn
/-- The stall timer's value. -/
def Run.elapsed (r : Run) (now : Nat) : Nat := r.timer + (match r.runningSince with | some t => now - t | none => 0)
/-- The timer restarted at 0 (R130). -/
def State.restart (s : State) (r : Run) : Run := { r with timer := 0, runningSince := if s.runPaused r then none else some s.relayNow }
/-- Every run's timer stopped or going as its pauses say (R129). -/
def State.retime (s : State) : State :=
  let now := s.relayNow
  let runs := kmap (fun _ (r : Run) =>
    match s.runPaused r, r.runningSince with
    | true, some _ => { r with timer := r.elapsed now, runningSince := none }
    | false, none => { r with runningSince := some now }
    | _, _ => r) s.relay.runs
  s.setRelay { s.relay with runs := runs }

/-! ## Completion of runs (R120, R318) -/

/-- The ticket of a run (R317). -/
def runTicket (p : Plan) (slot number : Nat) : Dword :=
  BitVec.ofNat 64 (number % 2 ^ 32 * 2 ^ 32 + slot * 2 ^ 16 + p.pid)
/-- The batons parked on a ticket return its status. -/
def State.wakeColl (s : State) (ticket : Dword) (status : Nat) : State :=
  s.waiting.foldl (fun s w =>
    match w.2 with
    | .coll rd t => if t = ticket then s.finishWait w.1 (.x rd (BitVec.ofNat 64 status)) else s
    | _ => s) s
/-- The members of a run that have neither joined nor left it: their next CL.RUN is for it (R120). -/
def Run.missedBy (r : Run) (missed : KMap (List Nat)) : KMap (List Nat) :=
  r.members.foldl (fun (m : KMap (List Nat)) x =>
    if x.joined || x.withdrawn then m else kset x.rank (kget [] m x.rank ++ [r.number]) m) missed
/-- The oldest runs of a plan complete while they are over, in the order they opened (R120). -/
def State.completeRuns (s : State) (slot : Nat) : Nat → State
  | 0 => s
  | fuel + 1 =>
    match (s.relay.runsOf slot).head?, kfind s.relay.plans slot with
    | some (k, r), some p =>
      if !r.over then s
      else
        let st := r.status
        let s := s.setPlan slot { p with statuses := ((r.number, st) :: p.statuses).take 64, missed := r.missedBy p.missed }
        let s := s.setRelay { s.relay with runs := kdel k s.relay.runs }
        (s.wakeColl (runTicket p slot r.number) st).completeRuns slot fuel
    | _, _ => s
/-- A node of a run ends with a status: its successors' counters fall, and a failure or skip passes on to loads, reduces, stores and
nops (R122). -/
def Run.endNode (r : Run) (i status : Nat) : Run :=
  match r.nodes[i]? with
  | none => r
  | some n =>
    let nodes := r.nodes.set i { n with phase := .ended, status := status, tag := 0 }
    { r with nodes := n.succ.foldl (fun l j =>
        match l[j]? with
        | none => l
        | some x =>
          l.set j { x with counter := x.counter - 1,
                           status := if x.kind == .arrive || x.status != 0 then x.status else status }) nodes }
/-- A node ends: the run's timer restarts, and the run may complete (R122, R130). -/
def State.endNode (s : State) (k i status : Nat) : State :=
  match kfind s.relay.runs k with
  | none => s
  | some r => (s.setRun k (s.restart (r.endNode i status))).completeRuns r.slot 64

/-! ## Member memory (R120, R121) -/

/-- Where a node's bytes lie at its member. -/
inductive Where
  /-- A scratchpad address of the member's cluster. -/
  | spad (rank off : Nat)
  | global (a : Nat)
  | bad
  deriving DecidableEq, Repr
/-- The place that a node's base and offset name at its member (R120). -/
def Run.placeOf (r : Run) (n : RunNode) (pos : Nat) : Where :=
  match r.members[n.member]? with
  | none => .bad
  | some m =>
    let base := (m.bases.getD n.base 0).toNat
    let a := base + n.off + pos
    if spadBase ≤ base ∧ base < spadBase + 2 ^ 22 then (if a < spadBase + 2 ^ 22 then .spad m.rank (a - spadBase) else .bad)
    else if 2 ^ 40 ≤ base then (if a < 2 ^ 56 then .global a else .bad)
    else .bad
/-- A node's base is one that R120 admits. -/
def Run.baseOk (r : Run) (n : RunNode) : Bool :=
  match r.members[n.member]? with
  | none => false
  | some m =>
    let base := (m.bases.getD n.base 0).toNat
    (decide (spadBase ≤ base) && decide (base < spadBase + 2 ^ 22)) || decide (2 ^ 40 ≤ base)
/-- A byte of the chunk buffer: an unlisted one reads as the identity (R121). -/
def Run.bufByte (r : Run) (o : Nat) : Byte := kget (if r.hdr.dtype = 2 ∧ o % 16 = 0 then 1 else 0) r.buf o
/-- A buffer element of `w` bytes. -/
def Run.bufElem (r : Run) (o w : Nat) : Nat := natLE ((List.range w).map fun i => r.bufByte (o + i))
/-- The run with a buffer element written. -/
def Run.setElem (r : Run) (o w v : Nat) : Run :=
  { r with buf := (bytesLE w v).zipIdx.foldl (fun m b => kset (o + b.2) b.1 m) r.buf }
/-- Bytes of a buffer element. -/
def bufSize (dtype : Nat) : Nat := bufLen dtype (dtypeSize dtype)
/-- `x ⊕ y` on buffer elements (R123): none where a STATMERGE operand is malformed. -/
def combine (h : PlanHdr) (x y : Nat) : Option Nat := if h.oper = 2 then atomElem true x y else some (add32 x y)
/-- The elements that a node has read go into the buffer (R121): loaded, or reduced with the buffer as the left operand. -/
def Run.take (r : Run) (i : Nat) (n : RunNode) : Run :=
  let es := dtypeSize r.hdr.dtype
  let w := bufSize r.hdr.dtype
  let k := n.raw.length / es
  let r := (List.range k).foldl (fun (r : Run) j =>
    let x := natLE ((n.raw.drop (j * es)).take es)
    let x := if r.hdr.dtype = 1 then toF32 .bf16 x else x
    let o := n.boff + bufLen r.hdr.dtype (n.pos + j * es)
    if n.kind = .load then r.setElem o w x
    else
      match combine r.hdr (r.bufElem o w) x with
      | some v => r.setElem o w v
      | none =>
        match r.nodes[i]? with
        | some m => { r with nodes := r.nodes.set i { m with status := if m.status = 0 then 1 else m.status } }
        | none => r) r
  match r.nodes[i]? with
  | some m => { r with nodes := r.nodes.set i { m with pos := n.pos + k * es, raw := n.raw.drop (k * es) } }
  | none => r
/-- A byte of what a store writes, at a position of its range: narrowed elements (R121). -/
def Run.storeByte (r : Run) (n : RunNode) (p : Nat) : Byte :=
  let es := dtypeSize r.hdr.dtype
  let x := r.bufElem (n.boff + bufLen r.hdr.dtype (p / es * es)) (bufSize r.hdr.dtype)
  let y := if r.hdr.dtype = 1 then (roundV .bf16 .rne (fdecode .f32 x)).bits else x
  BitVec.ofNat 8 (y / 2 ^ (8 * (p % es)))
/-- The rank entry of a node's member. -/
def State.memberEntry (s : State) (r : Run) (n : RunNode) : Dword :=
  match r.members[n.member]? with
  | some m => s.rct xDie m.rank
  | none => 0
/-- The packet of a node's piece, to a scratchpad or a global home: a READ for a load or reduce, a CHUNK with its data for a store (R34). -/
def State.chunkPkt (s : State) (r : Run) (n : RunNode) (w : Where) (len : Nat) (data : List Byte) (t : Nat) : Pkt :=
  let p := { Pkt.blank with ty := if n.kind = .store then .chunk else .read, op := if n.kind = .store then .write else .read, track := r.track,
                            src := relayEp, tag := t, master := 3, data := data }
  match w with
  | .spad rank off =>
    let e := s.memberEntry r n
    let a := spadCell (rctPcl e) off
    { p with va := a, elems := [(a, len)], dst := niEp (rctDie e), dstPkg := if s.foreign (rctPkg e) then rctPkg e else 0,
             dstRank := rank, ranked := true }
  | .global a =>
    let d := s.routeTo xDie r.track a
    { p with va := a, elems := [(a, len)], dst := d.1, dstPkg := d.2 }
  | .bad => p
/-- The next piece of a begun node goes out: at most 64 bytes within a 4 KiB page. With nothing left the node only has to end. Before a piece to
another package a run takes its switch reservations again after a pause; whether the fabric grants them is a free value (R129). -/
def State.nodePiece (s : State) (k i : Nat) : State :=
  match kfind s.relay.runs k with
  | none => s
  | some r =>
    match r.nodes[i]? with
    | none => s
    | some n =>
      let from' := n.pos + n.raw.length
      if n.phase ≠ .begun ∨ n.tag ≠ 0 ∨ n.bytes ≤ from' ∨ !(n.kind == .load || n.kind == .reduce || n.kind == .store) then s
      else if rctState (s.memberEntry r n) = 2 then s
      else
        let fail := fun (st : Nat) => s.setRun k { r with nodes := r.nodes.set i { n with status := st, pos := n.bytes, raw := [] } }
        if rctState (s.memberEntry r n) ≠ 1 then fail 3
        else
          match r.placeOf n from' with
          | .bad => fail 1
          | w =>
            let a := match w with | .spad _ o => o | .global a => a | .bad => 0
            let len := min (min 64 (n.bytes - from')) (4096 - a % 4096)
            let data := if n.kind = .store then (List.range len).map fun j => r.storeByte n (from' + j) else []
            let (t, s) := s.newTag (.node k i)
            let p := s.chunkPkt r n w len data t
            let again := s.foreign p.dstPkg && !r.reserved && !s.runPaused r
            let got := again && (Config.freeValue s.fresh).getLsbD 0
            let r := { r with reserved := r.reserved || got, nodes := r.nodes.set i { n with tag := t } }
            ({ s with fresh := if again then s.fresh + 1 else s.fresh }.setRun k r).send p
/-- The answer to a node's request: bytes read, a write acknowledged, or a failure, with which the node ends. -/
def State.nodeAnswer (s : State) (k i tag : Nat) (data : List Byte) (fault : Option Nat) : State :=
  match kfind s.relay.runs k with
  | none => s
  | some r =>
    match r.nodes[i]? with
    | none => s
    | some n =>
      if n.tag ≠ tag then s
      else
        match fault with
        | some st => s.setRun k { r with nodes := r.nodes.set i { n with tag := 0, status := st, pos := n.bytes, raw := [] } }
        | none =>
          if n.kind = .store then
            let a := match r.placeOf n n.pos with | .spad _ o => o | .global a => a | .bad => 0
            let len := min (min 64 (n.bytes - n.pos)) (4096 - a % 4096)
            (s.setRun k { r with nodes := r.nodes.set i { n with tag := 0, pos := n.pos + len } }).nodePiece k i
          else if n.kind = .arrive then s.setRun k { r with nodes := r.nodes.set i { n with tag := 0 } }
          else
            let n' := { n with tag := 0, raw := n.raw ++ data }
            (s.setRun k ({ r with nodes := r.nodes.set i n' }.take i n')).nodePiece k i
/-- A node's piece reached a cluster that no longer holds the rank (R44): it is sent again. An arrive is traffic to its rank that the NI itself sends
again, whatever has become of its run. -/
def State.nodeMoved (s : State) (k i tag : Nat) : State :=
  match kfind s.relay.runs k with
  | none => s
  | some r =>
    match r.nodes[i]? with
    | none => s
    | some n =>
      if n.tag ≠ tag then s
      else (s.setRun k { r with nodes := r.nodes.set i { n with tag := 0 } }).nodePiece k i

/-! ## Starting and ending a node (R122, R128) -/

/-- The hurdle that an arrive names at its member (R121): a scratchpad offset. -/
def Run.hurdleOf (r : Run) (n : RunNode) : Option Nat :=
  match r.placeOf n 0 with
  | .spad _ off => if off % 32 = 0 ∧ off < spadLow then some off else none
  | _ => none
/-- An arrive goes out to its member's hurdle, as traffic to its rank (R43), with the run status and the GEN read at the join (R121). -/
def State.sendArrive (s : State) (k i : Nat) (r : Run) (n : RunNode) (m : RunMember) (off : Nat) : State :=
  let (t, s) := s.newTag (.relayArrive k i)
  (s.setRun k { r with nodes := r.nodes.set i { n with phase := .begun, tag := t } }).sendRanked
    { Pkt.blank with ty := .arrive, va := spadCell 0 off, track := r.track, src := relayEp, dstRank := m.rank, tag := t, master := 3,
                     a := BitVec.ofNat 64 (n.bytes % 2 ^ 32), c := kget 0 m.gens i ++ statusBits [r.status] }
/-- A member of a run lies in this package. -/
def State.memberHere (s : State) (r : Run) (i : Nat) : Bool :=
  match r.members[i]? with
  | some m => !s.foreign (rctPkg (s.rct xDie m.rank))
  | none => true
/-- The member whose package's Relay sequences a node (R124, R316): member 0 in a CUSTOM plan; the member that a chunk's load reads, which is its
owner or the member to which the chunk has passed (R128); the member of an arrive. -/
def Run.sequencer (r : Run) (n : RunNode) : Nat :=
  if r.hdr.kind = 0 then 0
  else
    match n.chunk with
    | none => n.member
    | some c => ((r.nodes.filter fun x => x.chunk == some c && x.kind == .load).getLast?.map RunNode.member).getD n.member
/-- This package's Relay sequences a node. What another package's Relay sequences does not start here (log entry 48). -/
def State.sequencedHere (s : State) (r : Run) (n : RunNode) : Bool := s.memberHere r (r.sequencer n)
/-- The other packages whose Relays sequence a node of an open run of a rank (R129). -/
def State.farRelays (s : State) (rank : Nat) : List Nat :=
  ((s.relay.runs.filter fun p => p.2.members.any fun m => m.rank == rank && !m.withdrawn).flatMap fun p =>
    p.2.nodes.filterMap fun n =>
      match p.2.members[p.2.sequencer n]? with
      | some m => let k := rctPkg (s.rct xDie m.rank); if s.foreign k then some k else none
      | none => none).eraseDups
/-- A PAUSE or RESUME packet for a rank to the Relay of a package, 0 the own one (R34, R129). -/
def pausePkt (ty : PType) (track : BitVec 16) (src srcRank tag : Nat) (rank : Dword) (pkg : Nat) : Pkt :=
  { Pkt.blank with ty := ty, track := track, src := src, dst := relayEp, dstPkg := pkg, srcRank := srcRank, tag := tag, a := rank }
/-- Pre-emption pauses and resumes a rank at the other packages' Relays too (R112, R129). -/
def State.pauseFar (s : State) (ty : PType) (rank : Nat) : State :=
  (s.farRelays rank).foldl (fun s k =>
    { s with nextTag := s.nextTag + 1 }.send (pausePkt ty 0 relayEp 0 s.nextTag (BitVec.ofNat 64 rank) k)) s
/-- A chunk's first remaining step when its load is skipped: the next reduce becomes the load (R128). -/
def Run.handOver (r : Run) (i : Nat) (n : RunNode) : Run :=
  match r.nodes[i + 1]? with
  | some x => if x.kind = .reduce ∧ x.chunk = n.chunk then { r with nodes := r.nodes.set (i + 1) { x with kind := .load } } else r
  | none => r
/-- A node of a withdrawn member that has not begun ends as if performed; the load of a chunk that its owner has left passes on (R128). -/
def Run.skip (r : Run) (i : Nat) (n : RunNode) : Run :=
  let r := if n.chunk.isSome && n.kind == .load && decide (r.hdr.kind ≤ 2) then r.handOver i n else r
  r.endNode i 0
/-- NODE_START: a node whose counter is 0 begins, is skipped, or fails at once (R119 to R122, R128). In a run that has ended, a node other than an
arrive is abandoned, each in its turn, so that an arrive still comes after the begun stores before it (R121, R125, R130). In a CUSTOM plan a withdrawn
member's node passes nothing on; in a standard kind a failure goes on through the chunk (R122). The sequencer works on the 32 oldest runs (R115). -/
def State.nodeStart (s : State) (k i : Nat) : State :=
  match kfind s.relay.runs k with
  | none => s
  | some r =>
    match r.nodes[i]? with
    | none => s
    | some n =>
      let active := (s.relay.runs.findIdx? fun p => p.1 == k).any fun j => decide (j < 32)
      let dead := r.ended.isSome
      let done := fun (r : Run) => (s.setRun k (s.restart r)).completeRuns r.slot 64
      if n.phase ≠ .idle ∨ !active ∨ 0 < n.counter then s
      else if !s.sequencedHere r n then (if dead then done (r.endNode i 0) else s)
      else
        match r.members[n.member]? with
        | none => done (r.endNode i (if dead then 0 else if n.status ≠ 0 then n.status else 3))
        | some m =>
          let e := s.rct xDie m.rank
          let void := r.hdr.kind ≠ 0 ∧ n.kind = .store ∧ !(n.chunk.any r.loaded.contains)
          if m.withdrawn ∧ (r.hdr.kind = 0 ∨ n.status = 0) then done (r.skip i n)
          else if n.kind = .nop ∨ (n.kind ≠ .arrive ∧ (dead ∨ n.status ≠ 0)) then done (r.endNode i (if dead then 0 else n.status))
          else if void then done (r.skip i n)
          else if !m.joined then (if dead then done (r.endNode i 0) else s)
          else if rctState e = 2 then s
          else if n.kind = .arrive then
            match r.hurdleOf n with
            | none => done (r.endNode i 1)
            | some off => if rctState e ≠ 1 then done (r.endNode i 3) else s.sendArrive k i r n m off
          else if rctState e ≠ 1 then done (r.endNode i 3)
          else if !r.baseOk n then done (r.endNode i 1)
          else
            let loaded := match n.kind, n.chunk with | .load, some c => c :: r.loaded | _, _ => r.loaded
            (s.setRun k { r with loaded := loaded, nodes := r.nodes.set i { n with phase := .begun } }).nodePiece k i
/-- NODE_END: a begun node with nothing left to move ends with its status. -/
def State.nodeEnd (s : State) (k i : Nat) : State :=
  match kfind s.relay.runs k with
  | none => s
  | some r =>
    match r.nodes[i]? with
    | none => s
    | some n =>
      if n.phase = .begun ∧ n.tag = 0 ∧ (n.kind = .arrive ∨ n.bytes ≤ n.pos) then s.endNode k i n.status
      else s.nodePiece k i
/-- A run ends with CANCELLED or TIMEOUT (R130): what has not begun is abandoned, and its arrives are made with the status. -/
def State.endRun (s : State) (k status : Nat) : State :=
  match kfind s.relay.runs k with
  | none => s
  | some r =>
    if r.ended.isSome || r.over then s
    else s.setRun k { r with ended := some status }
/-- STALL_TIMEOUT (R130): a timer that a pause has stopped does not expire (R129, R131). -/
def State.stallTimeout (s : State) (k : Nat) : State :=
  match kfind s.relay.runs k with
  | none => s
  | some r => if !s.runPaused r && decide (r.stall ≤ r.elapsed s.relayNow) then s.endRun k 8 else s
/-- The Relay goes down (R130): every open run ends with LINK_DOWN; while the X-die is up, the arrives that have not executed are made by its
NI as traffic to their ranks (R43), unchecked (R355); CL.WAIT returns 5 for every ticket (R318). -/
def State.relayDown (s : State) : State :=
  let arrive := fun (s : State) (r : Run) (i : Nat) (n : RunNode) =>
    match r.members[n.member]?, r.hurdleOf n with
    | some m, some off =>
      if n.kind = .arrive ∧ n.phase = .idle ∧ m.joined ∧ !m.withdrawn then
        { s with nextTag := s.nextTag + 1 }.sendRanked
          { Pkt.blank with ty := .arrive, va := spadCell 0 off, track := r.track, src := niEp xDie, dstRank := m.rank, tag := s.nextTag, master := 3,
                           a := BitVec.ofNat 64 (n.bytes % 2 ^ 32), c := kget 0 m.gens i ++ statusBits [5] }
      else s
    | _, _ => s
  let s :=
    if s.dieUp xDie then
      s.relay.runs.foldl (fun s p => (p.2.nodes.zipIdx).foldl (fun s n => arrive s p.2 n.2 n.1) s) s
    else s
  let plans := kmap (fun slot (p : Plan) =>
    let closed := (s.relay.runsOf slot).map fun r => (r.2.number, 5)
    { p with statuses := (closed.reverse ++ p.statuses).take 64,
             missed := (s.relay.runsOf slot).foldl (fun m r => r.2.missedBy m) p.missed }) s.relay.plans
  let s := s.setRelay { s.relay with runs := [], pauses := [], plans := plans }
  (s.setReady 51 false).waiting.foldl (fun s w =>
    match w.2 with
    | .coll rd _ => s.finishWait w.1 (.x rd 5)
    | _ => s) (s.setReady 51 false)

/-! ## Joining a run (R120, R317) -/

/-- The GENs of the hurdles on which a run will arrive at a member (R120). -/
def State.gensOf (s : State) (r : Run) (k : Nat) : KMap (BitVec 32) :=
  r.nodes.zipIdx.filterMap fun p =>
    if p.1.kind = .arrive ∧ p.1.member = k then
      match r.hurdleOf p.1, r.members[k]? with
      | some off, some m => some (p.2, (s.hurdle (spadCell (rctPcl (s.rct xDie m.rank)) off)).gen)
      | _, _ => none
    else none
/-- A new run of a plan, bound to its group as it stands (R120). -/
def State.openRun (s : State) (slot : Nat) (p : Plan) : Nat × State :=
  let g := s.group p.hdr.group
  let nodes := if p.hdr.kind = 0 then customNodes p else standardNodes p.hdr g.ranks.length
  let t0 := s.pkg.rlytim0
  let r : Run :=
    { slot := slot, number := p.opened + 1, group := p.hdr.group, gen := g.gen, track := g.track, hdr := p.hdr,
      members := g.ranks.map fun k => { rank := k, launch := 0, joined := false, bases := [], gens := [], withdrawn := false },
      nodes := nodes, buf := [], loaded := [], timer := 0, runningSince := none, stall := microCycles (t0.extractLsb' 0 32).toNat,
      pauseLim := microCycles (t0.extractLsb' 32 32).toNat, rsvrel := microCycles (s.pkg.rlytim1.extractLsb' 0 32).toNat,
      ended := none, partialMembers := false, reserved := true }
  let k := s.relay.nextRun
  let s := s.setPlan slot { p with opened := p.opened + 1 }
  (k, (s.setRelay { s.relay with nextRun := k + 1 }).setRun k (s.restart r))
/-- The next run of a plan that a rank joins: an open one of which it is an unjoined member, or a new one (R120). -/
def State.runFor (s : State) (slot : Nat) (p : Plan) (rank : Nat) : Nat × State :=
  match (s.relay.runsOf slot).find? fun x => x.2.members.any fun m => m.rank == rank && !m.joined && !m.withdrawn with
  | some (k, _) => (k, s)
  | none => s.openRun slot p
/-- A rank joins its next run with its base table (R120): the ticket and the state. -/
def State.joinRun (s : State) (slot : Nat) (p : Plan) (rank launch : Nat) (bases : List Dword) : Dword × State :=
  match kget [] p.missed rank with
  | n :: r => (runTicket p slot n, s.setPlan slot { p with missed := kset rank r p.missed })
  | [] =>
    let o := s.runFor slot p rank
    match kfind o.2.relay.runs o.1 with
    | none => (0, o.2)
    | some r =>
      let i := (r.members.findIdx? fun m => m.rank == rank).getD 0
      let put := fun (r : Run) (g : KMap (BitVec 32)) =>
        { r with members := r.members.set i { rank := rank, launch := launch, joined := true, bases := bases, gens := g, withdrawn := false } }
      let r := put r []
      let r := put r (o.2.gensOf r i)
      (runTicket p slot r.number, o.2.setRun o.1 r)

/-! ## Groups, leaves and pauses (R127 to R129, R319 to R321) -/

/-- The state with a group set. -/
def State.setGroup (s : State) (g : Nat) (x : Group) : State := s.setRelay { s.relay with groups := kset g x s.relay.groups }
/-- A pause of a rank ends. -/
def State.unpause (s : State) (rank : Nat) : State :=
  (s.setRelay { s.relay with pauses := s.relay.pauses.filter fun p => p.rank != rank }).retime
/-- A rank is a member of a run. -/
def Run.has (r : Run) (rank : Nat) : Bool := r.members.any fun m => m.rank == rank && !m.withdrawn
/-- PAUSELIM for a pause of a rank: the least of those under which its open runs were opened, or the register's without a run (R116, R129;
log entry 30). -/
def State.pauseLimitOf (s : State) (rank : Nat) : Nat :=
  let reg := microCycles (s.pkg.rlytim0.extractLsb' 32 32).toNat
  match (s.relay.runs.filter fun p => p.2.has rank).map fun p => p.2.pauseLim with
  | [] => reg
  | l :: ls => ls.foldl min l
/-- A pause of a rank begins (R129); a rank already paused stays so. -/
def State.pause (s : State) (rank : Nat) : State :=
  if s.relay.pauses.any (fun p => p.rank == rank) then s
  else
    let p : Pause := { rank := rank, started := s.relayNow, limit := s.pauseLimitOf rank }
    (s.setRelay { s.relay with pauses := s.relay.pauses ++ [p] }).retime
/-- The ranks that batons of a launch have joined to open runs, whose pauses its pre-emption makes (R112). -/
def State.launchRanks (s : State) (launch : Nat) : List Nat :=
  (s.relay.runs.flatMap fun p => (p.2.members.filter fun m => m.joined && m.launch == launch).map RunMember.rank).eraseDups
/-- A rank leaves the open runs of a group (R128). -/
def State.withdraw (s : State) (g rank : Nat) : State :=
  let runs := kmap (fun _ (r : Run) =>
    if r.group = g ∧ r.members.any (fun m => m.rank == rank && !m.withdrawn) then
      { r with partialMembers := true, members := r.members.map fun m => if m.rank = rank then { m with withdrawn := true } else m }
    else r) s.relay.runs
  let s := s.setRelay { s.relay with runs := runs }
  if s.relay.runs.any fun p => p.2.members.any fun m => m.rank == rank && !m.withdrawn then s.retime else s.unpause rank
/-- PAUSE_LIMIT: a pause ends after its limit (R129). -/
def State.pauseLimit (s : State) (i : Nat) : State :=
  match s.relay.pauses[i]? with
  | some p => if p.started + p.limit ≤ s.relayNow then s.unpause p.rank else s
  | none => s
/-- RESERVATION_RELEASE: a run of which a member's pause has lasted the run's RSVREL releases its switch reservations (R129). -/
def State.reservationRelease (s : State) (i : Nat) : State :=
  match s.relay.pauses[i]? with
  | some p =>
    s.setRelay { s.relay with runs := kmap (fun _ (r : Run) =>
      if r.has p.rank ∧ p.started + r.rsvrel ≤ s.relayNow then { r with reserved := false } else r) s.relay.runs }
  | none => s

/-! ## Loading and defining (R316, R319, R320) -/

/-- The plan-store slot of a plan with a group and id. -/
def Relay.findPlan (r : Relay) (g pid : Nat) : Option Nat := kfirst (fun _ p => p.hdr.group == g && p.pid == pid) r.plans
/-- Room in the plan store (R115). -/
def Relay.planRoom (r : Relay) (h : PlanHdr) : Bool :=
  decide (r.plans.length < 64) && decide (r.plans.foldl (fun n p => n + p.2.hdr.nodes) h.nodes ≤ 32768) &&
    decide (r.plans.foldl (fun n p => n + p.2.hdr.nsucc) h.nsucc ≤ 65536)
/-- CL.LOAD with its image read (R316). -/
def State.loadPlan (s : State) (tk : BitVec 16) (pid : Nat) (l : List Byte) : Dword × State :=
  match planOf l with
  | .error c => (failCode c, s)
  | .ok (h, nodes, succ) =>
    let g := s.group h.group
    if g.defined ∧ g.track ≠ tk ∧ tk ≠ 0 then (failCode 8, s)
    else if (s.relay.findPlan h.group pid).isSome then (failCode 6, s)
    else if !s.relay.planRoom h then (failCode 4, s)
    else
      let slot := ((List.range 64).find? fun i => (kfind s.relay.plans i).isNone).getD 0
      let gen := kget 0 s.relay.lgen slot + 1
      let p : Plan := { pid := pid, hdr := h, nodes := nodes, succ := succ, opened := 0, missed := [], statuses := [] }
      (BitVec.ofNat 64 (gen.toNat * 2 ^ 32 + slot * 2 ^ 16 + pid),
       (s.setPlan slot p).setRelay { (s.setPlan slot p).relay with lgen := kset slot gen s.relay.lgen })
/-- The slot and plan that a handle names, none where it is stale. -/
def State.planNamed (s : State) (h : Dword) : Option (Nat × Plan) :=
  let slot := (h.extractLsb' 16 6).toNat
  match kfind s.relay.plans slot with
  | none => none
  | some p =>
    if h.extractLsb' 48 16 = 0 ∧ h.extractLsb' 22 10 = 0 ∧ h.extractLsb' 32 16 = kget 0 s.relay.lgen slot ∧
        (h.extractLsb' 0 16).toNat = p.pid then some (slot, p)
    else none
/-- CL.LOAD of a handle with no image: the plan is unloaded. -/
def State.unloadPlan (s : State) (h : Dword) : Dword × State :=
  match s.planNamed h with
  | none => (failCode 1, s)
  | some (slot, _) =>
    if s.relay.runsOf slot ≠ [] then (failCode 7, s)
    else (0, s.setRelay { s.relay with plans := kdel slot s.relay.plans })
/-- The ranks that a definition lists (R319). -/
def defRanks (l : List Byte) : List Nat := (List.range (wordAt l 0 % 2 ^ 13)).map fun k => natLE ((l.drop (8 + 2 * k)).take 2)
/-- The definition word keeps its form. -/
def defOk (l : List Byte) : Bool :=
  let w := wordAt l 0
  decide (w % 2 ^ 13 ≤ 4096) && w / 2 ^ 13 % 8 == 0 && w / 2 ^ 32 == 0
/-- Member entries of all groups but one. -/
def Relay.entries (r : Relay) (g : Nat) : Nat := r.groups.foldl (fun n p => if p.1 = g then n else n + p.2.ranks.length) 0
/-- CL.GRP with its definition read (R319). -/
def State.defineGroup (s : State) (tk : BitVec 16) (g : Nat) (l : List Byte) : Dword × State :=
  let ranks := defRanks l
  let track := BitVec.ofNat 16 (wordAt l 0 / 2 ^ 16)
  let old := s.group g
  if !defOk l || ranks.any (fun r => decide (4096 ≤ r)) || decide (ranks.eraseDups.length < ranks.length) then (failCode 1, s)
  else if tk ≠ 0 ∧ (track ≠ tk ∨ (old.defined ∧ old.track ≠ tk)) then (failCode 8, s)
  else if s.relay.groupBusy g then (failCode 7, s)
  else if 65536 < s.relay.entries g + ranks.length then (failCode 4, s)
  else
    let gen := old.gen + 1
    (zext64 gen, s.setGroup g { gen := gen, track := track, ranks := ranks, defined := true })
/-- CL.JOIN and CL.LEAVE (R127, R128, R320). -/
def State.changeMember (s : State) (tk : BitVec 16) (gv rv : Dword) (join : Bool) : Dword × State :=
  let g := gv.toNat
  let rank := rv.toNat
  if 1024 ≤ g ∨ 4096 ≤ rank then (failCode 1, s)
  else
    let x := s.group g
    if !x.defined then (failCode 11, s)
    else if tk ≠ 0 ∧ x.track ≠ tk then (failCode 8, s)
    else
      let gen := x.gen + 1
      if join then
        if x.ranks.contains rank then (failCode 10, s)
        else if 4096 ≤ x.ranks.length ∨ 65536 ≤ s.relay.entries g + x.ranks.length then (failCode 4, s)
        else (zext64 gen, s.setGroup g { x with gen := gen, ranks := x.ranks ++ [rank] })
      else if !x.ranks.contains rank then (failCode 9, s)
      else (zext64 gen, (s.setGroup g { x with gen := gen, ranks := x.ranks.filter (· != rank) }).withdraw g rank)

end Sys2Proof.Machine
end

