-- ==== Sys2Proof/Machine/Coll.lean ====
section
/-!
DEFINITION. Descriptors, images and definitions that CYC.OPEN, CL.LOAD and CL.GRP read on the issuer's behalf (R302, R316, R319), and the
meanings of CYC.OPEN and of the collective instructions (R315 to R321).
-/
namespace Sys2Proof.Machine

/-! ## Reading on the issuer's behalf -/

/-- How many bytes an instruction reads, as far as the bytes already read say: the fixed part first, then the rest, which the fields of that
part give; a plan or group definition is read on only where that part keeps its form. -/
def DescOp.total (op : DescOp) (l : List Byte) : Nat :=
  match op with
  | .cycOpen => if 64 ≤ l.length then 64 + 16 * ((wordAt l 0 / 2 ^ 24) % 16) else 64
  | .clLoad _ =>
    let h := planHdr l
    if 64 ≤ l.length ∧ hdrOk l h then 64 + 32 * h.nodes + 2 * h.nsucc else 64
  | .clGrp _ => if 8 ≤ l.length ∧ defOk l then 8 + 2 * (wordAt l 0 % 2 ^ 13) else 8
/-- The alignment of what an instruction reads. -/
def DescOp.align : DescOp → Nat
  | .cycOpen | .clLoad _ => 64
  | .clGrp _ => 8
/-- The value of rd where a read failed (R305, R315). -/
def DescOp.fault : DescOp → Dword
  | .cycOpen => failCode 4
  | .clLoad _ | .clGrp _ => failCode 5
/-- What the instruction does with all its bytes, for a baton of a track and launch: the value of rd and the state. -/
def State.descRun (s : State) (op : DescOp) (tk : BitVec 16) (launch : Nat) (l : List Byte) : Dword × State :=
  match op with
  | .cycOpen => if s.cycUp then s.cycOpen tk launch l else (failCode 4, s)
  | .clLoad pid => if s.relayUp then s.loadPlan tk pid l else (failCode 5, s)
  | .clGrp g => if s.relayUp then s.defineGroup tk g l else (failCode 5, s)
/-- The pieces of a range of global addresses, each within one aligned 64 bytes: offset and length. -/
def descPieces (a : Nat) : Nat → Nat → Nat → List (Nat × Nat)
  | 0, _, _ => []
  | fuel + 1, off, n =>
    if n = 0 then []
    else
      let k := min n (64 - (a + off) % 64)
      (off, k) :: descPieces a fuel (off + k) (n - k)
/-- READ requests of a baton for pieces of a range (R58, R59): the tags by offset, and whether a piece lies outside the global addresses. -/
def State.descReads (s : State) (rec' : Nat) (tk : BitVec 16) (src a : Nat) :
    List (Nat × Nat) → List (Nat × Nat) → List (Nat × Nat) × State
  | [], ts => (ts, s)
  | (o, n) :: r, ts =>
    let (t, s) := s.newTag (.baton rec')
    let home := s.routeTo (epDie src) tk (a + o)
    let p := { Pkt.blank with ty := .read, va := a + o, track := tk, src := src, dst := home.1, dstPkg := home.2,
                              srcRank := s.srcRank (recPcl rec'), tag := t, elems := [(a + o, n)] }
    (s.send p).descReads rec' tk src a r (ts ++ [(t, o)])
/-- An instruction that has read what it could completes with a value; a CYC.OPEN whose controller has gone down meanwhile traps with CYCLE_STATE and
the descriptor address (R19, R304). -/
def State.descEnd (s : State) (rec' : Nat) (rd : Reg) (op : DescOp) (a : Nat) (v : Dword) : State :=
  if op = .cycOpen ∧ !s.cycUp then s.failWait rec' 29 (BitVec.ofNat 64 a) 0 else s.finishWait rec' (.x rd v)
/-- The next round of reads of a baton that has the bytes `l` (R302, R316, R319): with none left, or with one that failed or lies outside
the global addresses, the instruction completes. -/
def State.descRound (s : State) (rec' src : Nat) (tk : BitVec 16) (launch : Nat) (rd : Reg) (op : DescOp) (a : Nat) (l : List Byte) : State :=
  let n := op.total l - l.length
  if n = 0 then
    let r := s.descRun op tk launch l
    r.2.descEnd rec' rd op a r.1
  else if addrClass (a + l.length + n - 1) ≠ .global then s.descEnd rec' rd op a op.fault
  else
    let (ts, s) := s.descReads rec' tk src a (descPieces a (n / 64 + 2) l.length n) []
    s.setWait rec' (.answer rd op a l ts [] false)
/-- A core of the cluster at which a baton waits, as the source of its requests. -/
def State.batonSrc (s : State) (rec' : Nat) : Nat :=
  match s.findSlot rec' with
  | some k => keyCid k
  | none => coreOf (recPcl rec') 0
/-- An answer to a read of a descriptor: the bytes, or a failure. After the round's last answer the next round starts, or the instruction
completes. -/
def State.descAnswer (s : State) (rec' tag : Nat) (data : Option (List Byte)) : State :=
  match s.waitOf rec' with
  | .answer rd op a l ts got failed =>
    match ts.find? fun p => p.1 == tag with
    | none => s
    | some p =>
      let ts := ts.filter fun q => q.1 != tag
      let failed := failed || data.isNone
      let got := got ++ [(p.2, data.getD [])]
      if ts ≠ [] then s.setWait rec' (.answer rd op a l ts got failed)
      else if failed then s.descEnd rec' rd op a op.fault
      else
        let b := s.batonTrack rec'
        s.descRound rec' (s.batonSrc rec') b.1 b.2 rd op a (l ++ (sortBy Prod.fst got).flatMap Prod.snd)
  | _ => s
/-- CYC.OPEN, CL.LOAD and CL.GRP from their address on: misaligned or outside the classes of a plain load, cause 5; local bytes are read at
once, and for global ones the baton parks REMOTE. -/
def State.descIssue (s : State) (rd : Reg) (op : DescOp) (a : Nat) : State :=
  let bad := s.trap 5 (BitVec.ofNat 64 a)
  if a % op.align ≠ 0 then bad
  else if isLocal a then
    match s.localRange .read a (op.total []) with
    | none => s.finReply rd op.fault 4
    | some cs =>
      s.onCells cs fun s =>
        match s.localRange .read a (op.total (s.cellBytes cs)) with
        | none => s.finReply rd op.fault 4
        | some cs =>
          s.onCells cs fun s =>
            let r := s.descRun op s.me.track s.me.launch (s.cellBytes cs)
            r.2.finReply rd r.1 4
  else if addrClass a = .global then
    let s := s.park .none 1 (tagKey s.nextTag) 0 4
    s.descRound s.myRecord s.myCid s.me.track s.me.launch rd op a []
  else bad

/-- CYC.OPEN (R302, R305): with the controller down, CYCLE_STATE with the descriptor address (R304). -/
def execCycOpen (rd rs1 : Reg) (s : State) : Res :=
  .next (s.unlessGanged (xrWord 0 0 0 rs1.toNat 2 rd.toNat custom3) fun s =>
    if !s.cycUp then s.trap 29 (s.x rs1) else s.descIssue rd .cycOpen (s.x rs1).toNat)

/-! ## Plans and runs (R316 to R318) -/

/-- CL.LOAD (R316): with an rs1 field of 0 it unloads. -/
def execClLoad (rd rs1 rs2 : Reg) (s : State) : Res :=
  .next (s.unlessGanged (xrWord 0 0 rs2.toNat rs1.toNat 3 rd.toNat custom3) fun s =>
    let v := s.x rs2
    if rs1 = 0 then
      if !s.relayUp then s.finReply rd (failCode 5) 4
      else
        let r := s.unloadPlan v
        r.2.finReply rd r.1 4
    else
      let a := (s.x rs1).toNat
      if a % 64 ≠ 0 ∨ !(isLocal a || addrClass a == .global) then s.trap 5 (s.x rs1)
      else if v.extractLsb' 16 48 ≠ 0 then s.finReply rd (failCode 1) 4
      else if !s.relayUp then s.finReply rd (failCode 5) 4
      else s.descIssue rd (.clLoad (v.extractLsb' 0 16).toNat) a)
/-- CL.RUN (R317): a SYSTEM release; the base table is 128 bytes of a local aperture. -/
def execClRun (rd rs1 rs2 : Reg) (s : State) : Res :=
  .next (s.unlessGanged (xrWord 1 0 rs2.toNat rs1.toNat 3 rd.toNat custom3) fun s =>
    let a := (s.x rs2).toNat
    match (if a % 8 = 0 then s.localRange .read a 128 else none) with
    | none => s.trap 5 (s.x rs2)
    | some cs =>
      s.whenReleased 3 fun s => s.onCells cs fun s =>
        let l := s.cellBytes cs
        let bases := (List.range 16).map fun i => BitVec.ofNat 64 (wordAt l (8 * i))
        match (if s.relayUp then s.planNamed (s.x rs1) else none) with
        | none => s.finX rd 0 4
        | some (slot, p) =>
          let g := s.group p.hdr.group
          match (if s.me.track = g.track ∨ s.me.track = 0 then s.groupRank s.myPcl g else none) with
          | none => s.finX rd 0 4
          | some rank =>
            let r := s.joinRun slot p rank s.me.launch bases
            r.2.finX rd r.1 4)
/-- What the Relay knows of a ticket (R318): an open run, a kept status, or nothing. -/
inductive TicketIs
  | isOpen (run : Nat)
  | status (v : Nat)
  | unknown
  deriving DecidableEq, Repr
/-- See `TicketIs`. -/
def State.ticketIs (s : State) (t : Dword) : TicketIs :=
  let slot := (t.extractLsb' 16 6).toNat
  let number := (t.extractLsb' 32 32).toNat
  match kfind s.relay.plans slot with
  | none => .unknown
  | some p =>
    if t.extractLsb' 22 10 ≠ 0 ∨ (t.extractLsb' 0 16).toNat ≠ p.pid then .unknown
    else
      match (s.relay.runsOf slot).find? fun r => r.2.number % 2 ^ 32 == number with
      | some r => .isOpen r.1
      | none =>
        match p.statuses.find? fun q => q.1 % 2 ^ 32 == number with
        | some q => .status q.2
        | none => .unknown
/-- CL.WAIT (R318). -/
def execClWait (rd rs1 : Reg) (s : State) : Res :=
  .next (s.unlessGanged (xrWord 2 0 0 rs1.toNat 3 rd.toNat custom3) fun s =>
    let t := s.x rs1
    if !s.relayUp then s.finX rd 5 4
    else
      match s.ticketIs t with
      | .isOpen _ => s.park (.coll rd t) 9 t 0 4
      | .status v => s.finX rd (BitVec.ofNat 64 v) 4
      | .unknown => s.finX rd 255 4)
/-- CL.CANCEL (R318): the run ends CANCELLED; it has no effect on a run of another track, or on one that is not open. -/
def execClCancel (rs1 : Reg) (s : State) : Res :=
  .next (s.unlessGanged (xrWord 3 0 0 rs1.toNat 3 0 custom3) fun s =>
    match (if s.relayUp then s.ticketIs (s.x rs1) else .unknown) with
    | .isOpen k =>
      match kfind s.relay.runs k with
      | some r => (if s.me.track = 0 ∨ s.me.track = r.track then s.endRun k 6 else s).fin 4
      | none => s.fin 4
    | _ => s.fin 4)

/-! ## Groups and pauses (R319 to R321) -/

/-- CL.GRP (R319). -/
def execClGrp (rd rs1 rs2 : Reg) (s : State) : Res :=
  .next (s.unlessGanged (xrWord 4 0 rs2.toNat rs1.toNat 3 rd.toNat custom3) fun s =>
    let a := (s.x rs2).toNat
    if a % 8 ≠ 0 ∨ !(isLocal a || addrClass a == .global) then s.trap 5 (s.x rs2)
    else if (s.x rs1).extractLsb' 10 54 ≠ 0 then s.finReply rd (failCode 1) 4
    else if !s.relayUp then s.finReply rd (failCode 5) 4
    else s.descIssue rd (.clGrp (s.x rs1).toNat) a)
/-- CL.JOIN and CL.LEAVE (R320). -/
def State.memberChange (s : State) (w : Word32) (rd rs1 rs2 : Reg) (join : Bool) : State :=
  s.unlessGanged w fun s =>
    if !s.relayUp then s.finReply rd (failCode 5) 4
    else
      let r := s.changeMember s.me.track (s.x rs1) (s.x rs2) join
      r.2.finReply rd r.1 4
/-- CL.JOIN (R320, R127). -/
def execClJoin (rd rs1 rs2 : Reg) (s : State) : Res :=
  .next (s.memberChange (xrWord 5 0 rs2.toNat rs1.toNat 3 rd.toNat custom3) rd rs1 rs2 true)
/-- CL.LEAVE (R320, R128). -/
def execClLeave (rd rs1 rs2 : Reg) (s : State) : Res :=
  .next (s.memberChange (xrWord 6 0 rs2.toNat rs1.toNat 3 rd.toNat custom3) rd rs1 rs2 false)
/-- CL.PAUSE and CL.RESUME (R321): reserved operand bits are illegal; the baton parks until every Relay that sequences a run of the rank has
acknowledged. With the Relay down no Relay sequences a run, and nothing is waited for. -/
def State.pauseRank (s : State) (w : Word32) (ty : PType) (v : Dword) : State :=
  s.unlessGanged w fun s =>
    if v.extractLsb' 12 52 ≠ 0 then s.illegal w
    else if !s.relayUp then s.finReply 0 0 4
    else
      let pkt := fun (s : State) (t k : Nat) => pausePkt ty s.me.track s.myCid (s.srcRank s.myPcl) t v k
      match s.farRelays v.toNat with
      | [] => s.parkOn Wait.store 4 fun s t => pkt s t 0
      | far =>
        let ts := (List.range (far.length + 1)).map (s.nextTag + ·)
        let s := s.park (.relays ts) 1 (tagKey s.nextTag) 0 4
        (0 :: far).foldl (fun s k =>
          let (t, s) := s.newTag (.baton s.myRecord)
          s.send (pkt s t k)) s
/-- CL.PAUSE (R321, R129). -/
def execClPause (rs1 : Reg) (s : State) : Res := .next (s.pauseRank (xrWord 7 0 0 rs1.toNat 3 0 custom3) .pause (s.x rs1))
/-- CL.RESUME (R321, R129). -/
def execClResume (rs1 : Reg) (s : State) : Res := .next (s.pauseRank (xrWord 8 0 0 rs1.toNat 3 0 custom3) .resume (s.x rs1))

end Sys2Proof.Machine
end

