-- ==== Sys2Proof/Machine/Fetch.lean ====
section
/-!
DEFINITION. Fetching an instruction (R194, R195), and what keeps a fetched instruction from issuing (R103, R266, R277).
-/
namespace Sys2Proof.Machine

/-- What a look at the code at an address gives. -/
inductive Code
  | bytes (l : List Byte)
  /-- The home refuses: an instruction access fault (R194). -/
  | fault
  /-- The home must be asked, and the fetch waits for its answer (R194). -/
  | ask
  deriving DecidableEq, Repr
/-- The naturally aligned 4 bytes of code number `u`, under a track, as their home gives them to a die's core. The walk of an uncached
translation takes no step; a page that is not mapped, and another package, must be asked. -/
def State.homeUnit (s : State) (d : Nat) (tk : BitVec 16) (u : Nat) : Code :=
  if addrClass (4 * u) ≠ .global then .fault
  else
    match s.homeOf d tk (4 * u) with
    | .package _ => .ask
    | .die _ =>
      match s.probe d tk 0 .fetch (4 * u) 4 with
      | .ok rs => if s.poisonedRanges rs then .fault else .bytes (s.readRanges rs)
      | .error st => if st = 3 ∨ st = 0 then .ask else .fault
/-- The copy of a slot's code unit in its cluster's instruction cache, where it differs from what the home gives (R194). -/
def State.staleUnit (s : State) (f u : Nat) (l : List Byte) : Option (List Byte) :=
  let t := s.slotAt f
  match kfind (s.cluster (keyPcl f)).icache (icKey t.launch t.track u) with
  | some w => if bytesLE 4 w.toNat = l then none else some (bytesLE 4 w.toNat)
  | none => none
/-- A unit of code as a slot's fetch gives it (R194): a store to code that the instruction cache holds may reach the fetch or not yet, a free
value (log entry 49). Code for which the home must be asked is there once the answer has brought it into the instruction cache. -/
def State.codeUnit (s : State) (f u : Nat) : Code :=
  match s.homeUnit (keyDie f) (s.slotAt f).track u with
  | .bytes l =>
    match s.staleUnit f u l with
    | some old => .bytes (if (Config.freeValue s.fresh).getLsbD (u % 2) then old else l)
    | none => .bytes l
  | .ask =>
    match kfind (s.cluster (keyPcl f)).icache (icKey (s.slotAt f).launch (s.slotAt f).track u) with
    | some w => .bytes (bytesLE 4 w.toNat)
    | none => .ask
  | c => c
/-- Two bytes of code at an address. -/
def State.codeAt (s : State) (f a : Nat) : Code :=
  match s.codeUnit f (a / 4) with
  | .bytes l =>
    match s.codeUnit f ((a + 1) / 4) with
    | .bytes r => .bytes (((l ++ r).drop (a % 4)).take 2)
    | c => c
  | c => c

/-- What a fetch gives. -/
inductive Fetched
  /-- The instruction's bytes. -/
  | code (l : List Byte)
  /-- Cause 1, with the fetch address. -/
  | fault (a : Nat)
  | ask (a : Nat)
  deriving DecidableEq, Repr
/-- The bytes of the instruction at a pc: a halfword, and a second one where bits [1:0] of the first are 0b11 (R195). A halfword that starts a
longer encoding is illegal by itself, whatever lies behind it; its word is what can be read of its four bytes (log entry 31). -/
def State.fetch (s : State) (f : Nat) : Fetched :=
  let pc := (s.slotAt f).pc.toNat
  match s.codeAt f pc with
  | .fault => .fault pc
  | .ask => .ask pc
  | .bytes l =>
    let long := natLE l % 32 == 31
    if natLE l % 4 ≠ 3 then .code l
    else
      match s.codeAt f (pc + 2) with
      | .fault => if long then .code l else .fault (pc + 2)
      | .ask => if long then .code l else .ask (pc + 2)
      | .bytes r => .code (l ++ r)
/-- The instruction cache after a fetch of `n` bytes at a slot's pc: it holds the units as the fetch gave them. -/
def State.cached (s : State) (f n : Nat) : State :=
  let t := s.slotAt f
  let c := s.cluster (keyPcl f)
  let us := [t.pc.toNat / 4, (t.pc.toNat + n - 1) / 4]
  let stale := us.any fun u =>
    match s.homeUnit (keyDie f) t.track u with
    | .bytes l => (s.staleUnit f u l).isSome
    | _ => false
  let ic := us.foldl (fun m u =>
    match s.codeUnit f u with
    | .bytes l => kset (icKey t.launch t.track u) (BitVec.ofNat 32 (natLE l)) m
    | _ => m) c.icache
  { s.setCluster (keyPcl f) { c with icache := ic } with fresh := if stale then s.fresh + 1 else s.fresh }

/-- The slot whose pc and track supply a slot's next instruction: the leader's in an active gang (R107). -/
def State.fetchSlot (s : State) (k : Nat) : Nat :=
  match s.gangOf (slotRecord k (s.slotAt k)) with
  | none => k
  | some (_, g, _) =>
    match g.members.getD g.leader none with
    | none => k
    | some r => (s.findSlot r).getD k
/-- The bytes of the instruction that a slot's gang is in the middle of (R107), none between two instructions. -/
def State.roundCode (s : State) (k : Nat) : Option (List Byte) :=
  match s.gangOf (slotRecord k (s.slotAt k)) with
  | some (_, g, _) => if g.code = [] then none else some g.code
  | none => none
/-- The instruction access fault of a slot (R194): in a gang the leader takes it and every other member GANG_DISBAND, with XUEPC at that
instruction (R108). -/
def State.fetchTrap (s : State) (k a : Nat) : State :=
  let t := s.slotAt k
  match s.gangOf (slotRecord k t) with
  | none => s.deliver k 1 (BitVec.ofNat 64 a) 0 t.pc false
  | some (key, g, i) =>
    let ms := s.gangSlots g
    ((ms.foldl (fun s m =>
      if m.1 = i then s.deliver m.2 1 (BitVec.ofNat 64 a) 0 (s.slotAt m.2).pc false
      else s.deliver m.2 27 (BitVec.ofNat 64 i) 0 (s.slotAt m.2).pc false)
      ((s.gangAway g).foldl (fun s m => s.disbandAway m.2 (BitVec.ofNat 64 i)) (s.disbandGang key g)))).wakeLeads
/-- The fetch waits for its home (R194): a READ of the code with fetch permission, reason REMOTE. -/
def State.fetchAsk (s : State) (k a : Nat) : State :=
  let t := s.slotAt k
  let (tag, s) := s.newTag (.baton (slotRecord k t))
  let s := s.parkSlot k (.fetch tag) 1 (tagKey tag) 0 0
  let home := s.routeTo (keyDie k) t.track a
  s.send { Pkt.blank with ty := .read, op := .fetch, va := a, track := t.track, src := keyCid k, dst := home.1, dstPkg := home.2,
                          srcRank := s.srcRank (keyPcl k), tag := tag, elems := [(a / 4 * 4, 4)] }
/-- The code that an answer has brought goes into the instruction cache, for the launch and track of the baton (R194). -/
def State.keepCode (s : State) (rec' va : Nat) (l : List Byte) : State :=
  let pcl := recPcl rec'
  let c := s.cluster pcl
  let b := s.batonTrack rec'
  s.setCluster pcl { c with icache := kset (icKey b.2 b.1 (va / 4)) (BitVec.ofNat 32 (natLE l)) c.icache }
/-- The fetch address that a failed unit of code is reported with: that of the instruction's halfword which lies in the unit (R194). -/
def fetchAddress (pc va : Nat) : Nat := if va / 4 = pc / 4 then pc else pc + 2
/-- The answer to a fetch: with the code the instruction is fetched again, else it raises cause 1 with the fetch address at that instruction
(R194). -/
def State.fetchAnswer (s : State) (rec' va : Nat) (data : Option (List Byte)) : State :=
  match data, s.findSlot rec' with
  | some l, _ => (s.keepCode rec' va l).reissue rec'
  | none, some k => (s.setSlotAt k (s.slotAt k).unpark).fetchTrap k (fetchAddress (s.slotAt k).pc.toNat va)
  | none, none => s.failWait rec' 1 (BitVec.ofNat 64 (fetchAddress (s.recRead rec' 0x00).toNat va)) 0

/-- Loads, stores, AMOs, vector and statistic memory instructions and copy commands, which wait for the slot's MM.DRAIN and MM.LOAD (R266). -/
def touchesMemory : Instr → Bool
  | .lb .. | .lh .. | .lw .. | .ld .. | .lbu .. | .lhu .. | .lwu .. | .sb .. | .sh .. | .sw .. | .sd .. | .lr .. | .sc .. => true
  | .amoswap .. | .amoadd .. | .amoxor .. | .amoand .. | .amoor .. | .amomin .. | .amomax .. | .amominu .. | .amomaxu .. => true
  | .cLw .. | .cLd .. | .cSw .. | .cSd .. | .cLwsp .. | .cLdsp .. | .cSwsp .. | .cSdsp .. | .ldAq .. | .stRl .. => true
  | .vld .. | .vlds .. | .vldx .. | .vldb .. | .vldq .. | .vst .. | .vsts .. | .vstx .. | .statLd .. | .statSt .. => true
  | .cpGet .. | .cpPut .. | .cpXfer .. | .cpFeed .. | .cpMcast .. | .cpFill .. | .cpGath .. | .cpScat .. | .cpAtom .. => true
  | _ => false
/-- Instructions that are fences or release earlier events of their baton (R179, R180), other events of it (R175: hurdle operations, the bytes of a
message, records), and those that change a buffer window, which the elements of a drain or load sample (R181, R187): as the accesses, they come after
the element events of an earlier MM.DRAIN or MM.LOAD (R274, log entry 103). -/
def ordersEarlier : Instr → Bool
  | .fence .. | .fenceTso .. | .xfence .. | .ecall => true
  | .hdArrive .. | .hdArriveR .. | .hdArrwait .. | .hdWithdraw .. | .hdWithdrawR .. | .lapEnd .. | .msgSend .. => true
  | .batSpawn .. | .batSend .. | .batSendR .. | .batWake .. | .batYield .. | .grLaunch .. => true
  | .clRun .. | .cycPass .. | .cycRes .. => true
  | .hdInit .. | .hdJoin .. | .hdJoinR .. | .hdWait .. | .hdTest .. | .msgRecv .. | .msgPoll .. | .batSelf .. | .ivlPost .. => true
  | .bufMap .. | .bufUnmap .. | .bufShadow .. | .bufPub .. => true
  | _ => false
/-- A CSR instruction that names a matrix CSR (R266). -/
def namesMatrixCsr : Instr → Bool
  | .csrrw _ _ c | .csrrs _ _ c | .csrrc _ _ c | .csrrwi _ c _ | .csrrsi _ c _ | .csrrci _ c _ => decide (0x810 ≤ c.toNat ∧ c.toNat ≤ 0x815)
  | _ => false
/-- The registers that an instruction of a slot names; x0 is always ready. -/
def Slot.regsOf (t : Slot) (i : Instr) : List Nat :=
  ((instrXregs i).filter fun r => r != 0).map regOfX ++ (instrVregs i).map (fun r => regOfV (vphys t.csr.xrrb r).val) ++
    (instrStregs i).map regOfSt
/-- A vector entry of the slot that has not completed will write one of these registers (R248). -/
def Core.writesLater (c : Core) (slot : Nat) (l : List Nat) : Bool :=
  c.dq.any fun e => e.slot == slot && (match e.kind with | .vector _ _ outs _ => outs.any l.contains | .matrix .. => false)
/-- An ST.SKIP of the slot that has not completed will write this register (R277). -/
def Core.skipsInto (c : Core) (slot : Nat) (r : Reg) : Bool :=
  c.dq.any fun e => e.slot == slot && e.op == some .skip &&
    (match e.kind with | .matrix w .. => w.extractLsb' 7 5 == r | .vector .. => false)
/-- The instruction cannot issue yet: an operand of it is not ready (R103, R248, R277), the dispatch queue that it needs is full (R103), a replay
list is not yet in that queue (R111), or it waits for a drain or for matrix entries (R266). -/
def State.interlocked (s : State) (k : Nat) (i : Instr) : Bool :=
  let c := s.core (keyCid k)
  let t := s.slotAt k
  let slot := keySlot k
  (instrXregs i).any (fun r => r != 0 && c.skipsInto slot r) || c.writesLater slot (t.regsOf i) ||
    (entersQueue i && decide (8 ≤ c.queued)) || !t.replay.isEmpty ||
    ((touchesMemory i || ordersEarlier i) && c.drainPending slot) || (namesMatrixCsr i && c.matrixPending slot true)

end Sys2Proof.Machine
end

