-- ==== Sys2Proof/Machine/Arrivals.lean ====
section
/-!
DEFINITION. Packets at their destination: requests at their home (R59), answers at their issuer (R63, R177, R251), messages (R231, R44), and
the control packets of R34.
-/
namespace Sys2Proof.Machine

/-! ## Requests -/

/-- READ (R59). -/
def execRead (pid : Nat) (s : State) : Res := .next (s.deliverPkt pid [.read] fun s p => s.homePkt p.hopDst p)
/-- WRITE (R59, R87, R220). -/
def execWrite (pid : Nat) (s : State) : Res :=
  .next (s.deliverPkt pid [.write] fun s p => if p.dst = mgmtEp then s.mgmtPkt p else s.homePkt p.hopDst p)
/-- AMO (R59, R191, R193). -/
def execAmo (pid : Nat) (s : State) : Res := .next (s.deliverPkt pid [.amo] fun s p => s.homePkt p.hopDst p)
/-- ARRIVE (R226, R355). -/
def execArrive (pid : Nat) (s : State) : Res := .next (s.deliverPkt pid [.arrive] fun s p => s.arrivePkt p.hopDst p)
/-- COPY_DATA (R283). -/
def execCopyData (pid : Nat) (s : State) : Res := .next (s.deliverPkt pid [.copyData] fun s p => s.homePkt p.hopDst p)
/-- COPY_DONE (R34, R282). -/
def execCopyDone (pid : Nat) (s : State) : Res := .next (s.deliverPkt pid [.copyDone] fun s p => s.copyDonePkt p.hopDst p)
/-- MCAST_DATA (R45, R286): a branch's data at its destination. -/
def execMcastData (pid : Nat) (s : State) : Res := .next (s.deliverPkt pid [.mcastData] fun s p => s.homePkt p.hopDst p)
/-- ATOM_BATCH (R288). -/
def execAtomBatch (pid : Nat) (s : State) : Res := .next (s.deliverPkt pid [.atomBatch] fun s p => s.homePkt p.hopDst p)
/-- CHUNK (R121): at a member's memory. -/
def execChunk (pid : Nat) (s : State) : Res := .next (s.deliverPkt pid [.chunk] fun s p => s.homePkt p.hopDst p)

/-! ## Answers -/

/-- A baton that is out of any slot reaches DONE (R222): it was a self-sent one. -/
def State.endAway (s : State) (rec' : Nat) : State :=
  match s.findAway rec' with
  | none => s
  | some a =>
    let pcl := recPcl rec'
    let tk : BitVec 16 := (s.recRead rec' 0x18).extractLsb' 16 16
    let s := s.freeFrame pcl a.launch tk (s.recRead rec' 0x08).toNat a.large
    let s := s.recWrite rec' 0x18 ((s.recRead rec' 0x18) &&& ~~~0xFFF0#64 ||| 0x40#64)
    let s := a.posted.foldl (fun s p => s.dropTag p.tag) (s.dropAway rec')
    let c := s.cluster pcl
    let s := s.setCluster pcl { c with engine := dropHandles rec' c.engine, tokens := c.tokens.filter (· != rec') }
    s.batonDone a.launch
/-- The sender of a baton that has been enqueued at its destination: in the self form it ends, else its rd receives 0 (R220). -/
def State.sendDone (s : State) (rec' : Nat) (rd : Reg) (self : Bool) : State :=
  if self then
    match s.findSlot rec' with
    | some k => s.endBaton k false
    | none => s.endAway rec'
  else s.finishWait rec' (.x rd 0)
/-- A READ of an image answered (R241): after the last one of its first 1,536 bytes the rest is read where FLAGS [0] says so, and then the
registers and the context are taken, waiting with reason MATRIX while another slot owns the context. An image of the larger size that leaves its
address class is refused as an operand, cause 7. A baton that is out of its slot takes the image when it is picked up. -/
def State.imageRead (s : State) (rec' tag : Nat) (data : Option (List Byte)) (fault : Nat × Nat) : State :=
  match s.waitOf rec' with
  | .ctxRestore parts got failed image live cid =>
    match parts.find? fun p => p.1 == tag with
    | none => s
    | some p =>
      let parts := parts.filter fun q => q.1 != tag
      let got := got ++ [(p.2, data.getD [])]
      let failed := match failed, data with | some f, _ => some f | none, none => some fault | none, some _ => none
      if parts ≠ [] then s.setWait rec' (.ctxRestore parts got failed image live cid)
      else
        match failed with
        | some f => s.remoteFault rec' f.1 f.2
        | none =>
          let l := (sortBy Prod.fst got).flatMap Prod.snd
          let large := (dwordAt l 0x5F8).getLsbD 0
          if large ∧ l.length < 132864 then
            if s.imageAt .read image 132864 ≠ .global then s.failWait rec' 7 (BitVec.ofNat 64 image) 0
            else
              let r := s.readImage rec' cid image ((List.range 2052).map fun i => 1536 + 64 * i) []
              r.2.setWait rec' (.ctxRestore r.1 got none image live cid)
          else
            match s.findSlot rec' with
            | some k => if large ∧ s.contextHeld k then s.waitContext k l live else (s.takeImage k l live).finishWait rec' .none
            | none =>
              match s.findAway rec' with
              | some a => (s.setAway rec' { a with image := some (l, live) }).reissue rec'
              | none => s
  | _ => s
/-- The FLAGS of a frame whose matrix context is released: no context, no panels and no replay list. -/
def frameWithoutContext (v : Dword) : Dword := v &&& ~~~0xFFF1#64
/-- A write of an image answered (R240): after the last one the context is released, unless one failed; that of a baton out of its slot lies in
its frame. -/
def State.imageWritten (s : State) (rec' tag : Nat) (fault : Option (Nat × Nat)) : State :=
  match s.waitOf rec' with
  | .ctxSave tags failed owned =>
    if !tags.contains tag then s
    else
      let tags := tags.filter (· != tag)
      let failed := match failed with | some f => some f | none => fault
      if tags ≠ [] then s.setWait rec' (.ctxSave tags failed owned)
      else
        match failed, s.findSlot rec' with
        | some f, _ => s.remoteFault rec' f.1 f.2
        | none, some k => (if owned then s.releaseContext k else s).finishWait rec' .none
        | none, none => (if owned then s.editFlags rec' frameWithoutContext else s).finishWait rec' .none
  | _ => s
/-- The reservation of a baton after an LR or SC that another package answered (R193): one that is in no slot any more has lost its own. -/
def State.reserveFar (s : State) (rec' : Nat) (r : Option Nat) : State :=
  match s.findSlot rec' with
  | some k => s.setSlotAt k { s.slotAt k with reserved := r }
  | none => s
/-- A reply of data to the waiting instruction of a baton (R177, R251, R264). -/
def State.dataReply (s : State) (rec' : Nat) (p : Pkt) : State :=
  let v := natLE p.data
  match s.waitOf rec' with
  | .load tag rd bytes sgn lr =>
    if tag = p.tag then
      (if lr && s.foreign p.srcPkg then s.reserveFar rec' (some (farReservation p.srcPkg p.va)) else s).finishWait rec' (.x rd (loadValue bytes sgn v))
    else s
  | .amo tag rd bytes => if tag = p.tag then s.finishWait rec' (.x rd (loadValue bytes true v)) else s
  | .sc tag rd =>
    if tag = p.tag then (if s.foreign p.srcPkg then s.reserveFar rec' none else s).finishWait rec' (.x rd (BitVec.ofNat 64 v)) else s
  | .fetch tag => if tag = p.tag then s.fetchAnswer rec' p.va (some p.data) else s
  | .vload vd width spread deq acc =>
    let acc := acc.done p.tag (vSize deq width) p.data
    s.vSettle rec' acc (.vload vd width spread deq) (.vec (Fin.ofNat 32 vd) (vloadValue width spread deq acc.vals)) false
  | .stLoad std w acc =>
    if !acc.parts.any (·.tag == p.tag) then s
    else
      match statLoaded (BitVec.ofNat 3 std) v with
      | some e => s.finishWait rec' e
      | none => s.failWait rec' 28 (zext64 w) 0
  | .cpGen rd entry branch tag => if tag = p.tag then s.genAnswer rec' rd entry branch none p.va p.srcPkg v else s
  | .answer .. => s.descAnswer rec' p.tag (some p.data)
  | .ctxRestore .. => s.imageRead rec' p.tag (some p.data) (0, 0)
  | _ => s
/-- The end of a piece of a host access (R71, R72): a read is completed with its data, with a poisoned completion, or as an Unsupported
Request; a failure is recorded by AER. -/
def State.hostAnswer (s : State) (read : Bool) (data : Option (List Byte)) (poison : Bool) : State :=
  let k := s.pkg
  { s with pkg := { k with aer := if data.isNone then k.aer + 1 else k.aer,
                           hostReads := if read then (data, poison) :: k.hostReads else k.hostReads } }
/-- The end of a request of the Starter or for a page of a frame, with the data of a read or none for a failure with a status (R82, R84, R85, R148). -/
def State.starterAnswer (s : State) (o : Owner) (tag : Nat) (data : Option (List Byte)) (st : Option Nat) : State :=
  match o with
  | .completion seq => s.completionAnswer seq tag
  | .nodeRecord inst => s.nodeRecordAnswer inst tag
  | .rejection => s.rejectionAnswer tag
  | .grdef => s.grdefPiece tag data
  | .frame r => s.setAsk r (st.map some)
  | _ => s
/-- READ_REPLY (R177, R251, R264, R279): the answer to a request, by whose tag its requester is known. -/
def State.readReplied (s : State) (p : Pkt) : State :=
  let d := epDie p.dst
  let s := s.rankDone d p.tag
  match kfind s.owners p.tag with
  | some (.baton r) => (s.dropTag p.tag).dataReply r p
  | some (.posted r) => (s.dropTag p.tag).dropPosted r p.tag
  | some (.piece cl handle n) => (s.dropTag p.tag).pieceAnswer cl (handleEntry (BitVec.ofNat 64 handle)) n p.tag p.data none p.va
  | some (.node k i) => (s.dropTag p.tag).nodeAnswer k i p.tag p.data none
  | some (.host _) => (s.dropTag p.tag).hostAnswer true (some p.data) false
  | some o => (s.dropTag p.tag).starterAnswer o p.tag (some p.data) none
  | none => s
/-- READ_REPLY. -/
def execReadReply (pid : Nat) (s : State) : Res := .next (s.deliverPkt pid [.readReply] State.readReplied)
/-- An acknowledgement to the waiting instruction of a baton. -/
def State.ackReply (s : State) (rec' : Nat) (p : Pkt) : State :=
  match s.waitOf rec' with
  | .store tag => if tag = p.tag then s.finishWait rec' .none else s
  | .relays ts =>
    let ts := ts.filter (· != p.tag)
    if ts = [] then s.finishWait rec' .none else s.setWait rec' (.relays ts)
  | .send tag rd self => if tag = p.tag then s.sendDone rec' rd self else s
  | .lap rd level _ tag =>
    if tag = p.tag ∧ tag ≠ 0 then ((s.acquireLog (recPcl rec' / 24) (level - 1)).setPhase rec' level false).finishWait rec' (.x rd p.a) else s
  | .vstore acc => s.vSettle rec' (acc.done p.tag (fun _ => 0) []) .vstore .none true
  | .ctxSave .. => s.imageWritten rec' p.tag none
  | _ => s
/-- WRITE_ACK (R177, R229, R251): a posted store is acknowledged, or a wait goes on. -/
def State.writeAcked (s : State) (p : Pkt) : State :=
  let d := epDie p.dst
  let s := s.rankDone d p.tag
  match kfind s.owners p.tag with
  | some (.baton r) => (s.dropTag p.tag).ackReply r p
  | some (.posted r) => (s.dropTag p.tag).dropPosted r p.tag
  | some (.piece cl handle n) => (s.dropTag p.tag).pieceAnswer cl (handleEntry (BitVec.ofNat 64 handle)) n p.tag [] none p.va
  | some (.copyArrive cl handle) => (s.dropTag p.tag).arriveAnswer cl (handleEntry (BitVec.ofNat 64 handle)) (p.b == 1) none
  | some (.branch cl handle j) => (s.dropTag p.tag).branchAnswer cl (handleEntry (BitVec.ofNat 64 handle)) j (p.b == 1) none
  | some (.node k i) => (s.dropTag p.tag).nodeAnswer k i p.tag [] none
  | some (.relayArrive k i) => (s.dropTag p.tag).nodeAnswer k i p.tag [] none
  | some (.host r) => ((s.dropTag p.tag).hostAnswer r (some []) false).takeIntake
  | some o => (s.dropTag p.tag).starterAnswer o p.tag none none
  | none => s
/-- WRITE_ACK. -/
def execWriteAck (pid : Nat) (s : State) : Res := .next (s.deliverPkt pid [.writeAck] State.writeAcked)
/-- A failure of the waiting instruction of a baton (R63, R194, R220, R231, R251, R302). -/
def State.faultReply (s : State) (rec' : Nat) (p : Pkt) : State :=
  let st := p.a.toNat
  match s.waitOf rec' with
  | .load tag .. | .amo tag .. | .sc tag _ | .store tag => if tag = p.tag then s.remoteFault rec' p.va st else s
  | .relays ts => if ts.contains p.tag then s.remoteFault rec' p.va st else s
  | .lap _ _ _ tag => if tag = p.tag ∧ tag ≠ 0 then s.remoteFault rec' p.va st else s
  | .fetch tag => if tag = p.tag then s.fetchAnswer rec' p.va none else s
  | .vload vd width spread deq acc => s.vSettle rec' (acc.fail p.tag p.va st) (.vload vd width spread deq) .none false
  | .vstore acc => s.vSettle rec' (acc.fail p.tag p.va st) .vstore .none true
  | .stLoad std w acc => s.vSettle rec' (acc.fail p.tag p.va st) (.stLoad std w) .none false
  | .send tag rd _ => if tag = p.tag then s.finishWait rec' (.x rd p.a) else s
  | .msgSend tag rd _ => if tag = p.tag then s.finishWait rec' (.x rd p.a) else s
  | .cpGen rd entry branch tag => if tag = p.tag then s.genAnswer rec' rd entry branch (some st) p.va p.srcPkg 0 else s
  | .answer .. => s.descAnswer rec' p.tag none
  | .ctxSave .. => s.imageWritten rec' p.tag (some (p.va, st))
  | .ctxRestore .. => s.imageRead rec' p.tag none (p.va, st)
  | _ => s
/-- FAULT_REPLY (R63, R226): a deferred REMOTE_FAULT for a posted request, the failure of a wait, or a status of a copy command or a run. -/
def State.faulted (s : State) (p : Pkt) : State :=
  let d := epDie p.dst
  let st := p.a.toNat
  let s := s.rankDone d p.tag
  match kfind s.owners p.tag with
  | some (.baton r) => (s.dropTag p.tag).faultReply r p
  | some (.posted r) =>
    ((s.dropTag p.tag).dropPosted r p.tag).addDeferred r { cause := 26, value := BitVec.ofNat 64 p.va, status := st, posted := true, sync := false, at' := none }
  | some (.piece cl handle n) =>
    (s.dropTag p.tag).pieceAnswer cl (handleEntry (BitVec.ofNat 64 handle)) n p.tag [] (some st) p.va
  | some (.copyArrive cl handle) => (s.dropTag p.tag).arriveAnswer cl (handleEntry (BitVec.ofNat 64 handle)) false (some st)
  | some (.branch cl handle j) => (s.dropTag p.tag).branchAnswer cl (handleEntry (BitVec.ofNat 64 handle)) j false (some st)
  | some (.node k i) => (s.dropTag p.tag).nodeAnswer k i p.tag [] (some st)
  | some (.relayArrive k i) => (s.dropTag p.tag).nodeAnswer k i p.tag [] (some st)
  | some (.host r) => ((s.dropTag p.tag).hostAnswer r none (st == 4)).takeIntake
  | some o => (s.dropTag p.tag).starterAnswer o p.tag none (some st)
  | none => s
/-- FAULT_REPLY. -/
def execFaultReply (pid : Nat) (s : State) : Res := .next (s.deliverPkt pid [.faultReply] State.faulted)

/-! ## Messages (R231, R44) -/

/-- The batons of a cluster that wait in MSG.RECV for a message of a queue go on where one has come (R232). -/
def State.wakeReceivers (s : State) (pcl : Nat) (q : BitVec 3) : State :=
  s.waiting.foldl (fun s w =>
    match w.2 with
    | .msgRecv _ queue _ => if recPcl w.1 = pcl ∧ queue = q then s.recvGo w.1 else s
    | _ => s) s
/-- A message at its destination cluster (R231, R44): taken into the queue, or answered full, moved, or REFUSED_ACCESS. -/
def State.msgArrives (s : State) (p : Pkt) : State :=
  let d := p.hopDst
  if !s.rankHere d p then s.movedPkt d p
  else if (s.trackEntry d p.track).isNone then s.refuse d p 1 p.va
  else
    let pcl := hurdlePcl p.va
    let q : BitVec 3 := p.a.setWidth 3
    let c := s.cluster pcl
    if 16 ≤ (c.msgQueue q).length then s.answer d p .msgAck 1 0 0 []
    else
      let s := s.setCluster pcl (c.setMsgs q (c.msgQueue q ++ [{ rank := p.srcRank, track := p.track, data := p.data }]))
      (s.answer d p .msgAck 0 0 0 []).wakeReceivers pcl q
/-- MSG. -/
def execMsg (pid : Nat) (s : State) : Res := .next (s.deliverPkt pid [.msg] State.msgArrives)
/-- MSG_ACK (R231): the sender's wait ends with 0, or a full answer schedules the resend after 1,024 cycles. -/
def State.msgAcked (s : State) (p : Pkt) : State :=
  let d := epDie p.dst
  match kfind s.owners p.tag with
  | some (.baton r) =>
    match s.waitOf r with
    | .msgSend tag rd _ =>
      if tag ≠ p.tag then s
      else if p.a = 0 then ((s.rankDone d tag).dropTag tag).finishWait r (.x rd 0)
      else
        let n := s.ni d
        let s := s.setNi d { n with rankSent := n.rankSent.map fun q => if q.tag = tag then { q with forwarded := true } else q }
        s.setWait r (.msgSend tag rd (some (s.swcAt d + 1024)))
    | _ => s
  | _ => s
/-- MSG_ACK. -/
def execMsgAck (pid : Nat) (s : State) : Res := .next (s.deliverPkt pid [.msgAck] State.msgAcked)
/-- The resend of a baton's message, 1,024 cycles after a full answer (R231): its payload as it was read, resolved again under R43. -/
def State.msgResend (s : State) (rec' : Nat) : State :=
  match s.waitOf rec' with
  | .msgSend tag rd (some t) =>
    let d := recPcl rec' / 24
    let n := s.ni d
    match n.rankSent.find? fun p => p.tag == tag with
    | none => s
    | some p =>
      if s.swcAt d < t ∨ s.rankFull d p.dstRank then s
      else
        let s := s.setNi d { n with rankSent := n.rankSent.filter fun q => q.tag != tag }
        (s.setWait rec' (.msgSend tag rd none)).sendRanked { p with forwarded := false, attempt := p.attempt + 1 }
  | _ => s
/-- MSG_RESEND of a slot's baton. -/
def execMsgResend (slot : Nat) (s : State) : Res := .next (s.msgResend (slotRecord slot (s.slotAt slot)))
/-- MSG_MOVED (R44). -/
def State.msgMoved (s : State) (p : Pkt) : State :=
  match kfind s.owners p.tag with
  | some (.piece cl handle n) => (s.dropTag p.tag).pieceMoved cl (handleEntry (BitVec.ofNat 64 handle)) n
  | some (.node k i) => (s.dropTag p.tag).nodeMoved k i p.tag
  | _ => s.rankMoved (epDie p.dst) p.tag p.b.toNat
/-- MSG_MOVED. -/
def execMsgMoved (pid : Nat) (s : State) : Res := .next (s.deliverPkt pid [.msgMoved] State.msgMoved)

/-! ## Control packets -/

/-- PAUSE at a Relay (R129, R321). -/
def execPause (pid : Nat) (s : State) : Res :=
  .next (s.deliverPkt pid [.pause] fun s p =>
    (if s.relayUp then s.pause (p.a.toNat % 4096) else s).answer p.hopDst p .writeAck 0 0 0 [])
/-- RESUME at a Relay (R129, R321). -/
def execResume (pid : Nat) (s : State) : Res :=
  .next (s.deliverPkt pid [.resume] fun s p =>
    (if s.relayUp then s.unpause (p.a.toNat % 4096) else s).answer p.hopDst p .writeAck 0 0 0 [])
/-- IVL (R65): a record is appended to a die's log. -/
def execIvl (pid : Nat) (s : State) : Res := .next (s.deliverPkt pid [.ivl] fun s p => s.ivlAppend p.hopDst p)
/-- A die has applied a change of the rank table, or will never (R42): the issuing baton goes on once none is left. -/
def State.rctApplied (s : State) (tag d : Nat) : State :=
  match kfind s.owners tag with
  | some (.baton r) =>
    match s.waitOf r with
    | .rct t dies =>
      if t ≠ tag then s
      else
        let dies := dies.filter (· != d)
        if dies = [] then (s.dropTag tag).finishWait r .none else s.setWait r (.rct t dies)
    | _ => s
  | _ => s
/-- RCT_UPD (R42, R43). -/
def execRctUpd (pid : Nat) (s : State) : Res :=
  .next (s.deliverPkt pid [.rctUpd] fun s p =>
    (s.applyRct p.hopDst (p.c.toNat % 4096) p.a.toNat p.b).rctApplied p.tag p.hopDst)

end Sys2Proof.Machine
end

