-- ==== Sys2Proof/Machine/Timers.lean ====
section
/-!
DEFINITION. Events inside the module that no packet carries: walks and the fault queue, logs, the Starter, the dispatcher, deadlines, copy
engines, the Relay's sequencer, banks. Each changes nothing where the module is not at that event.
-/
namespace Sys2Proof.Machine

/-! ## Translation (R56, R62, R65) -/

/-- WALK_DONE (R56). -/
def execWalkDone (die walk : Nat) (s : State) : Res :=
  .next (match (s.ni die).walks.find? fun w => w.id == walk with
    | some w => s.walkDone die w
    | none => s)
/-- FAULT_ANSWER (R62): the effect of a write of ACTION and STATUS to a record. -/
def execFaultAnswer (die index : Nat) (action : BitVec 8) (s : State) : Res := .next (s.faultAnswer die (index % 256) action)
/-- FAULT_RECORD_TIMEOUT (R62): a record PENDING for 1,048,576 cycles is answered TIMEOUT. -/
def execFaultRecordTimeout (die index : Nat) (s : State) : Res :=
  .next (
    let n := s.ni die
    let r := kget FaultRec.free n.fq index
    match r.held with
    | none => s
    | some p =>
      if r.action = 0 ∧ r.time.toNat + 1048576 ≤ s.swcAt die then
        ((s.setNi die { n with fq := kset index { r with held := none } n.fq }).refuse die p 8 p.va).releaseBehind die
      else s)
/-- LOG_APPLY (R65): the oldest pending record has reached 65,536 cycles of age. -/
def execLogApply (die : Nat) (s : State) : Res :=
  .next (match s.appendedIvl die with
    | p :: _ => if p.2 + 65536 ≤ s.swcAt die then s.applyLog die else s
    | [] => s)
/-- APPLIED_INDEX_REPORT (R65): the B-die learns a die's applied index, and the IVL.SYNCs that every live die now covers complete. -/
def execAppliedIndexReport (die : Nat) (s : State) : Res :=
  .next (
    let n := s.ni die
    let s := s.setNi die { n with log := { n.log with reported := n.log.applied } }
    s.waiting.foldl (fun s w =>
      match w.2 with
      | .ivlSync index => if s.ivlSynced index then s.finishWait w.1 .none else s
      | _ => s) s)

/-! ## Starter, dispatcher and slots -/

/-- RESOURCE_REPORT (R87). -/
def execResourceReport (pcl : Nat) (s : State) : Res := .next (s.resourceReport pcl)
/-- LAUNCH_ADMIT (R86). -/
def execLaunchAdmit (s : State) : Res := .next s.launchAdmit
/-- ADMISSION_DEADLINE (R82). -/
def execAdmissionDeadline (seq : Nat) (s : State) : Res := .next (s.admissionDeadline seq)
/-- LAUNCH_PLACE (R88). -/
def execLaunchPlace (s : State) : Res := .next s.launchPlace
/-- PLACEMENT_TIMEOUT (R88). -/
def execPlacementTimeout (seq : Nat) (s : State) : Res := .next (s.placementTimeout seq)
/-- ENERGY_MEASURE (R86). -/
def execEnergyMeasure (die energy : Nat) (s : State) : Res := .next (s.energyMeasure die energy)
/-- INTAKE_WRITE (R80). -/
def execIntakeWrite (write : IntakeWrite) (s : State) : Res := .next (s.intakeWrite write)
/-- INTAKECOMMIT (R75): `core` is the OS core that writes, 16 or more for any other master. -/
def execIntakecommit (core : Nat) (value : Dword) (s : State) : Res := .next (s.intakeCommit (if core < 16 then some core else none) value)
/-- GRDEF (R84). -/
def execGrdef (value : Dword) (s : State) : Res := .next (s.grdefWrite value)
/-- GRDEF_COPY_DONE (R84). -/
def execGrdefCopyDone (s : State) : Res := .next s.grdefDone
/-- BATON_DISPATCH (R91, R111, R133). -/
def execBatonDispatch (pcl : Nat) (s : State) : Res := .next (s.dispatch pcl)
/-- A READY baton one tick older; 255 is the most (R91). -/
def State.ageRecord (s : State) (rec' : Nat) : State :=
  let c := s.recRead rec' 0x18
  let a := (c.extractLsb' 56 8).toNat
  if a < 255 then s.recWrite rec' 0x18 (BitVec.ofNat 8 (a + 1) ++ c.extractLsb' 0 56) else s
/-- AGE_TICK (R91): once for each multiple of 1,024 that the SWC has reached. -/
def execAgeTick (s : State) : Res :=
  .next (
    if s.pkg.aged < s.swc / 1024 then
      let s := { s with pkg := { s.pkg with aged := s.pkg.aged + 1 } }
      s.clusters.foldl (fun s c => (c.2.ready.toList.flatten).foldl (fun s r => s.ageRecord r.record) s) s
    else s)
/-- SLOT_PROMOTION (R103): a slot of the core that has been eligible and unchosen for XAGE cycles. -/
def execSlotPromotion (cid : Nat) (s : State) : Res :=
  .next ((List.range 4).foldl (fun s i =>
    let k := slotKey cid i
    let t := s.slotAt k
    if t.mode = .running ∧ t.promoted.isNone ∧ t.csr.xage.toNat ≤ t.unchosen then
      s.setSlotAt k { t with promoted := some (s.swcAt (cidDie cid)) }
    else s) s)
/-- BATON_EVICT (R95). -/
def execBatonEvict (cid slot : Nat) (s : State) : Res := .next (s.evict cid (slot % 4))
/-- A deadline that has passed ends a wait: BAT.PARK returns 1, WFI goes on, WAIT.UNTIL returns the count (R223, R230). -/
def State.deadline (s : State) (rec' : Nat) : State :=
  let now := s.swcAt (recPcl rec' / 24)
  let wtime := match s.findSlot rec' with
    | some k => (s.slotAt k).wtime.toNat
    | none => match s.findAway rec' with | some a => a.wtime.toNat | none => 0
  match s.waitOf rec' with
  | .wake rd _ => if wtime ≠ 0 ∧ wtime ≤ now then s.finishWait rec' (.x rd 1) else s
  | .time rd => if wtime ≤ now then s.finishWait rec' (.x rd (BitVec.ofNat 64 now)) else s
  | _ => s
/-- WAIT_DEADLINE. -/
def execWaitDeadline (cid slot : Nat) (s : State) : Res :=
  .next (s.deadline (slotRecord (slotKey cid (slot % 4)) (s.slotAt (slotKey cid (slot % 4)))))
/-- GANG_FORMATION_TIMEOUT (R106). -/
def execGangFormationTimeout (cid slot : Nat) (s : State) : Res := .next (s.formationTimeout cid (slot % 4))
/-- DEFERRED_FAULT_DELIVERY (R138, R108). -/
def execDeferredFaultDelivery (cid slot : Nat) (s : State) : Res :=
  .next (
    let k := slotKey cid (slot % 4)
    if (s.slotAt k).mode = .running ∧ s.faultDue k then s.deliverDeferred k else s)
/-- PROMISE_MISSED (R154): the count has passed the promise of the command on which the slot waits. -/
def execPromiseMissed (cid slot : Nat) (s : State) : Res :=
  .next (
    let t := s.slotAt (slotKey cid (slot % 4))
    match t.mode, t.wait with
    | .parked, .promise h => if h = 0 then s else s.wakePromise (cidPcl cid) h
    | _, _ => s)

/-! ## Queues, engines, the Relay -/

/-- PACER_BIND (R104). -/
def execPacerBind (quad : Nat) (s : State) : Res := .next (s.pacerBind quad)
/-- PANEL_STEP (R270). -/
def execPanelStep (cid : Nat) (s : State) : Res := .next (s.panelStep cid)
/-- DISPATCH_ENTRY_COMPLETE (R248, R274, R275). -/
def execDispatchEntryComplete (cid entry : Nat) (s : State) : Res := .next (s.dispatchDone cid entry)
/-- COPY_COMPLETE (R282). -/
def execCopyComplete (cl entry : Nat) (s : State) : Res := .next (s.copyComplete cl entry)
/-- FEED_PANEL (R285). -/
def execFeedPanel (cid : Nat) (port : Bool) (s : State) : Res := .next (s.feedPanel cid port)
/-- HANDLE_ENTRY_LAPSE (R280). -/
def execHandleEntryLapse (cl entry : Nat) (s : State) : Res := .next (s.lapseEntry cl entry)
/-- The Relay of the die that an event names: the X-die's, while it is up. -/
def State.onRelay (s : State) (die : Nat) (f : State → State) : State := if die = xDie ∧ s.relayUp then f s else s
/-- NODE_START (R121, R122). -/
def execNodeStart (die run node : Nat) (s : State) : Res := .next (s.onRelay die fun s => s.nodeStart run node)
/-- NODE_END (R122). -/
def execNodeEnd (die run node : Nat) (s : State) : Res := .next (s.onRelay die fun s => s.nodeEnd run node)
/-- STALL_TIMEOUT (R130). -/
def execStallTimeout (die run : Nat) (s : State) : Res := .next (s.onRelay die fun s => s.stallTimeout run)
/-- PAUSE_LIMIT (R129). -/
def execPauseLimit (die pause : Nat) (s : State) : Res := .next (s.onRelay die fun s => s.pauseLimit pause)
/-- RESERVATION_RELEASE (R129). -/
def execReservationRelease (die pause : Nat) (s : State) : Res := .next (s.onRelay die fun s => s.reservationRelease pause)
/-- CYCLE_CONTROLLER_REQUEST (R304). -/
def execCycleControllerRequest (s : State) : Res := .next s.cycRequest

/-! ## Banks (R156, R157) -/

/-- Does a bank exist (R155). -/
def isBank (die word bit : Nat) : Bool :=
  isCDie die && (if word = 0 then decide (bit < 60) else if word = 1 then decide (bit < 24) else decide (word < 8) && decide (bit < 64))
/-- BANK_GATE: a 0 written to a bank's bit gates it. A gate write that meets a wake is held until the wake is done and the accesses that wait it
out are performed; one that meets a powered bank passes the accesses that are queued there but not granted, and they start a new wake (R157). -/
def State.bankGate (s : State) (die word bit : Nat) : State :=
  let p := s.power die
  if !isBank die word bit || s.bankOff (die, word, bit) then s
  else if p.gateHeld.contains (word, bit) then s
  else if s.bankWaking (die, word, bit) then s.setPower die { p with gateHeld := p.gateHeld ++ [(word, bit)] }
  else s.gateNow die word bit
/-- BANK_GATE. -/
def execBankGate (die word bit : Nat) (s : State) : Res := .next (s.bankGate die word bit)
/-- BANK_WAKE: a 1 written to a bank's bit wakes a gated bank, and takes back a gating that is still held. -/
def State.bankWake (s : State) (die word bit : Nat) : State :=
  if !isBank die word bit then s
  else
    let p := s.power die
    (s.setPower die { p with gateHeld := p.gateHeld.filter (· != (word, bit)) }).startWake (die, word, bit)
/-- BANK_WAKE. -/
def execBankWake (die word bit : Nat) (s : State) : Res := .next (s.bankWake die word bit)
/-- BANK_WAKE_DONE: 3,200 cycles after the wake started every byte of the bank is zero, and a gating that no access waits before takes
effect. A held gating whose last access has gone away takes effect by this event too. -/
def execBankWakeDone (die word bit : Nat) (s : State) : Res :=
  .next (
    let p := s.power die
    match p.waking.find? fun w => w.1 == word && w.2.1 == bit with
    | none => if p.gateHeld.contains (word, bit) then s.gateHeldNow die (word, bit) else s
    | some w =>
      if s.swcAt die < w.2.2 then s
      else
        let mine := fun (x : Nat × List Byte) => bankOf x.1 == some (die, word, bit)
        let s := { s.setPower die { p with waking := p.waking.filter (fun x => !(x.1 == word && x.2.1 == bit)),
                                           late := p.late.filter fun x => !mine x } with
                   mem := (p.late.filter mine).foldl (fun m x => writeBytes m x.1 x.2) (clearBank s.mem die word bit) }
        if p.gateHeld.contains (word, bit) then s.gateHeldNow die (word, bit) else s)

end Sys2Proof.Machine
end

