-- ==== Sys2Proof/Machine/Preempt.lean ====
section
/-!
DEFINITION. Pre-emption and resumption of launches (R112, R113).
-/
namespace Sys2Proof.Machine

/-- The keys of a launch in the launch table: its own and those of its graph nodes (R113). -/
def State.launchKeys (s : State) (seq : Nat) : List Nat :=
  seq :: (s.starter.launches.filter fun p => match p.2.node with | some (g, _) => g == seq | none => false).map Prod.fst
/-- The record's CTRL with a wait reason. -/
def State.setReason (s : State) (rec' reason : Nat) : State :=
  let c := s.recRead rec' 0x18
  s.recWrite rec' 0x18 (c.extractLsb' 16 48 ++ BitVec.ofNat 8 reason ++ c.extractLsb' 0 8)
/-- Every baton out of any slot: its record and entry. -/
def State.aways (s : State) : List (Nat × Away) := s.clusters.flatMap fun c => c.2.away
/-- The WAITING batons of some launches take the reason PREEMPT; their waits stay armed (R112). -/
def State.holdWaiting (s : State) (p : Nat → Bool) : State :=
  s.aways.foldl (fun s a =>
    if p a.2.launch && !a.2.preempted && !a.2.satisfied then
      ((s.setAway a.1 { a.2 with preempted := true }).setOrig a.1 a.2.reason.toNat).setReason a.1 13
    else s) s
/-- The active gangs of some launches end, saved as a whole (R112): between two instructions, or once every member has issued the current
one or waits in it, or in a gang-wide instruction (R246). -/
def State.holdGangs (s : State) (p : Nat → Bool) : State :=
  s.gangs.foldl (fun s g =>
    let ms := s.gangSlots g.2
    let settled := g.2.issued == [] || g.2.wide != 0 || ms.all fun m => g.2.issued.any (fun q => q.1 == m.1) || (s.slotAt m.2).mode == .parked
    let held := ms.any (fun m => p (s.slotAt m.2).launch) || (s.gangAway g.2).any fun m => (s.findAway m.2).any fun a => p a.launch
    if g.2.active && settled && held then s.breakGang g.1 g.2 else s) s
/-- Every baton of some launches that can be saved now is saved (R111, R112): a RUNNING one with original reason 0, a PARKED one with its
own. One that can have no frame ends DONE and its launch ABORTED (R148). -/
def State.holdSlots (s : State) (p : Nat → Bool) : State :=
  s.slots.foldl (fun s e =>
    let k := e.1
    if (s.slotAt k).mode = .empty ∨ !p (s.slotAt k).launch ∨ (s.gangOf (slotRecord k (s.slotAt k))).isSome then s
    else
      let s := s.settle k
      let t := s.slotAt k
      if s.canSave k then
        s.saving k fun s => (s.saveOut k (if t.mode = .parked then t.reason.toNat else 0) true).getD (s.endBaton k true)
      else s) s
/-- One round of saving the batons of some launches. -/
def State.holdStep (s : State) (p : Nat → Bool) : State := ((s.holdWaiting p).holdGangs p).holdSlots p
/-- No baton of some launches is in a slot. -/
def State.allHeld (s : State) (p : Nat → Bool) : Bool := s.slots.all fun e => e.2.mode == .empty || !p e.2.launch
/-- The batons of some launches go on (R112): READY without a wait or with one that is satisfied, the others WAITING for their original
reason. -/
def State.release (s : State) (p : Nat → Bool) : State :=
  s.aways.foldl (fun s a =>
    if p a.2.launch && a.2.preempted then
      let orig := s.origReason a.1
      let s := (s.setAway a.1 { a.2 with preempted := false }).setOrig a.1 0
      if a.2.satisfied then s.enqueue a.1 a.2.launch else s.setReason a.1 orig
    else s) s
/-- Launches marked pre-empted or not. -/
def State.markHeld (s : State) (ks : List Nat) (on : Bool) : State :=
  ks.foldl (fun s k => match s.launchOf k with | some l => s.setLaunch k { l with preempted := on } | none => s) s
/-- The ranks of some launches' collectives. -/
def State.ranksOfLaunches (s : State) (ks : List Nat) : List Nat := (ks.flatMap s.launchRanks).eraseDups

/-- PRESTAT: STATE 0 IDLE, 1 BUSY, 2 DONE, with a result. -/
def prestatWord (state result : Nat) : Dword := BitVec.ofNat 64 (state * 16 + result)
/-- A request is in progress. -/
def State.preBusy (s : State) : Bool := s.starter.prestat.extractLsb' 4 4 == 1#4
/-- CKSTAT.STATE. -/
def State.ckState (s : State) : Nat := (s.pkg.ckstat.extractLsb' 0 4).toNat
/-- The launch that a request names: admitted and not completed, and no graph node. -/
def State.preTarget (s : State) (seq : Nat) : Option Launch :=
  match s.launchOf seq with
  | some l =>
    match l.state with
    | .placing _ | .running => if l.node.isNone then some l else none
    | _ => none
  | none => none
/-- The result of a request by its OP, 0 where it is carried out (R113). -/
def State.preResult (s : State) (op seq : Nat) : Nat :=
  if [1, 2, 3, 6].contains s.ckState then 3
  else
    match s.preTarget seq with
    | none => 1
    | some l => if op ≠ 0 ∧ l.preempted = (op == 1) then 2 else 0
/-- A PRECTL write (R113): one of OP 3 does nothing, and nor does one while BUSY. OP 0 asks for nothing: with a launch that R113 can name it is
DONE with OK, and nothing else changes (log entry 55). -/
def State.prectlWrite (s : State) (v : Dword) : State :=
  let op := (v.extractLsb' 62 2).toNat
  let seq := (v.extractLsb' 0 62).toNat
  if op = 3 ∨ s.preBusy then s
  else
    let r := s.preResult op seq
    let s := s.setStarter { s.starter with prestat := prestatWord 1 0, preTarget := seq, preResume := op != 1, preResult := r }
    if r ≠ 0 ∨ op = 0 then s
    else
      let ks := s.launchKeys seq
      let s := s.markHeld [seq] (op == 1)
      if op = 1 then (s.ranksOfLaunches ks).foldl (fun s k => (s.pauseFar .pause k).pause k) (s.holdStep ks.contains)
      else (s.ranksOfLaunches ks).foldl (fun s k => (s.pauseFar .resume k).unpause k) (s.release ks.contains)
/-- PRECTL_PREEMPT (R112, R113). -/
def execPrectlPreempt (value : Dword) (s : State) : Res := .next (if value.extractLsb' 62 2 = 1 then s.prectlWrite value else s)
/-- PRECTL_RESUME (R112, R113). -/
def execPrectlResume (value : Dword) (s : State) : Res := .next (if value.extractLsb' 62 2 = 2 then s.prectlWrite value else s)
/-- PRESTAT_DONE (R113): a pre-emption is done once every baton of the launch is saved. -/
def execPrestatDone (s : State) : Res :=
  .next (
    if !s.preBusy then s
    else
      let done := fun (s : State) => s.setStarter { s.starter with prestat := prestatWord 2 s.starter.preResult }
      if s.starter.preResult ≠ 0 ∨ s.starter.preResume then done s
      else
        let p := (s.launchKeys s.starter.preTarget).contains
        let s := s.holdStep p
        if s.allHeld p then done s else s)

end Sys2Proof.Machine
end

