-- ==== Sys2Proof/Machine/Checkpoint.lean ====
section
/-!
DEFINITION. Checkpoint and restore (R20 to R27): quiesce, the layout of the checkpoint region, the copy, the write-back.
-/
namespace Sys2Proof.Machine

/-- CRC-32C of a list of bytes (R26): the Castagnoli polynomial, reflected, initial and final value all ones. -/
def crc32c (l : List Byte) : BitVec 32 :=
  let step := fun (c : BitVec 32) (_ : Nat) => if c.getLsbD 0 then (c >>> 1) ^^^ 0x82F63B78#32 else c >>> 1
  ~~~(l.foldl (fun c b => (List.range 8).foldl step (c ^^^ b.setWidth 32)) (BitVec.allOnes 32))

/-! ## The region (R26) -/

/-- Bytes of a block. -/
def ckBlock : Nat := 2 ^ 20
/-- The block after the last block of the HBM image. -/
def ckHbmBlocks : Nat := 549317
/-- All blocks. -/
def ckBlocks : Nat := 552389
/-- Bytes of the header. -/
def ckHeader : Nat := 8 * 2 ^ 20
/-- Bytes of the HBM image. -/
def ckHbmBytes : Nat := 576000000000
/-- What lies at an offset of the SRAM image (R15, R26): TCMs, scratchpads and shared SRAMs in ascending die, cluster and member order; none
for the X-die's chunk-buffer SRAM, whose contents are held by the Relay and the gateway. -/
def sramCell (off : Nat) : Option Nat :=
  let tcm := 4608 * 2 ^ 18
  let spad := 288 * 2 ^ 22
  let dsram := 12 * 60 * 2 ^ 20
  if off < tcm then some (tcmCell (coreOf (off / 2 ^ 22) (off / 2 ^ 18 % 16)) (off % 2 ^ 18))
  else if off < tcm + spad then some (spadCell ((off - tcm) / 2 ^ 22) ((off - tcm) % 2 ^ 22))
  else if off < tcm + spad + dsram then
    some (dsramCell ((off - tcm - spad) / (60 * 2 ^ 20)) ((off - tcm - spad) % (60 * 2 ^ 20)))
  else none
/-- The cell whose byte a block holds at an offset within the block; none past the end of the HBM image and for the chunk buffers. -/
def blockCell (i o : Nat) : Option Nat :=
  let off := i * ckBlock + o
  if i < ckHbmBlocks then (if off < ckHbmBytes then some (hbmCell (off / hbmSize) (off % hbmSize)) else none)
  else sramCell ((i - ckHbmBlocks) * ckBlock + o)
/-- Bytes of a block that are written: the last block of the HBM image is shorter. -/
def blockLen (i : Nat) : Nat := if i = ckHbmBlocks - 1 then ckHbmBytes - i * ckBlock else ckBlock
/-- The far-tier modules of a mask. -/
def modsOf (m : Nat) : List Nat := (List.range 16).filter m.testBit
/-- The far-tier cell of a block's first byte: striped over the modules of MODS. -/
def blockAt (base : Nat) (mods : List Nat) (i : Nat) : Nat :=
  farCell (mods.getD (i % mods.length) 0) (base + ckHeader + i / mods.length * ckBlock)
/-- BASE of CKCTL. -/
def State.ckBase (s : State) : Nat := (s.pkg.ckctl.extractLsb' 30 34).toNat * 2 ^ 30
/-- The modules whose FARMOD bit is set. -/
def State.farMods (s : State) : List Nat := (List.range 16).filter fun m => s.readyBit (24 + m)
/-- The region fits every ready module, and there is one (R26): the condition of CKPT. A BASE of 0 that nothing has written counts as configured
(DESIGN CHOICE, log entry 112). -/
def State.ckFits (s : State) : Bool :=
  let k := s.farMods.length
  k != 0 && decide (s.ckBase + ckHeader + (ckBlocks + k - 1) / k * ckBlock ≤ farSize)
/-- The state with CKPT as the region and the modules say. -/
def State.ckptBit (s : State) : State := s.setReady 56 s.ckFits

/-! ## Quiesce (R23, R24) -/

/-- CKSTAT with a state and status. -/
def State.setCk (s : State) (state status : Nat) : State :=
  { s with pkg := { s.pkg with ckstat := s.pkg.ckstat.extractLsb' 16 48 ++ 0#8 ++ BitVec.ofNat 4 status ++ BitVec.ofNat 4 state } }
/-- Every running launch is held, every collective paused, and the Starter stops admitting (R23). -/
def State.quiesce (s : State) (thenCopy : Bool) : State :=
  let ks := (s.starter.launches.filter fun p => match p.2.state with | .placing _ | .running => true | _ => false).map Prod.fst
  let s := (s.setStarter { s.starter with stopped := true }).markHeld ks true
  let ranks := (s.relay.runs.flatMap fun r => (r.2.members.filter fun m => m.joined && !m.withdrawn).map RunMember.rank).eraseDups
  let s := ranks.foldl (fun s k => (s.pauseFar .pause k).pause k) s
  let s := { s with pkg := { s.pkg with copyAfter := thenCopy, sinceReset := false } }
  (s.holdStep fun _ => true).setCk 1 0
/-- The copy phase begins. The header of an earlier checkpoint at the same place is cleared, so that a copy which does not reach DONE leaves no
valid header (R23); the blocks and the header are written where the copy ends (DESIGN CHOICE, log entry 125). -/
def State.beginCopy (s : State) : State :=
  let s := match s.farMods with
    | m :: _ => s.store none (farCell m s.ckBase) (List.replicate ckHeader 0)
    | [] => s
  ({ s with pkg := { s.pkg with copyStart := s.swcAt bDie } }).setCk 3 0
/-- START (R23, R25): ignored while QUIESCING, COPYING or RESTORING; from QUIESCED the copy phase; without CKPT the checkpoint ends FAILED
with NO_SPACE. -/
def State.ckStart (s : State) : State :=
  if [1, 3, 6].contains s.ckState then s
  else if !s.readyBit 56 then s.setCk 5 1
  else if s.ckState = 2 then s.beginCopy
  else s.quiesce true
/-- QUIESCE (R25). -/
def State.ckQuiesce (s : State) : State := if [1, 2, 3, 6].contains s.ckState then s else s.quiesce false
/-- Every copy command has completed. -/
def State.copiesDone (s : State) : Bool := s.clusters.all fun c => c.2.engine.all fun e => e.2.complete
/-- QUIESCE_DONE (R24): no slot holds a baton and no copy command is in flight. -/
def execQuiesceDone (s : State) : Res :=
  .next (
    if s.ckState ≠ 1 then s
    else
      let s := s.holdStep fun _ => true
      if !(s.allHeld fun _ => true) || !s.copiesDone then s
      else if s.pkg.copyAfter then s.beginCopy
      else s.setCk 2 0)

/-! ## The copy (R23, R26) -/

/-- A byte of a block: a cell's, or, for the chunk-buffer SRAM, whose layout the spec does not give, a free value (log entry 21). -/
def State.blockByte (s : State) (i o : Nat) : Byte :=
  match blockCell i o with
  | some c => readByte s.mem c
  | none => (Config.freeValue (s.fresh + 2 ^ 24 + i * ckBlock + o)).setWidth 8
/-- The bytes of a block. -/
def State.blockBytes (s : State) (i : Nat) : List Byte := (List.range (blockLen i)).map (s.blockByte i)
/-- The bytes that the control-state image of a checkpoint holds. -/
def savedBytes (x : Saved) : List Byte := (List.range x.len).map fun j => (Config.freeValue (x.start + 1 + j)).setWidth 8
/-- What the control-state image of a checkpoint taken now holds; its length is a free value of at most 5 MiB with its CRC. -/
def State.toSave (s : State) : Saved :=
  { start := s.fresh, len := (Config.freeValue s.fresh).toNat % (5 * 2 ^ 20 - 3), starter := s.starter, cyc := s.cyc, relay := s.relay,
    nis := s.nis, clusters := s.clusters, rct := s.pkg.rct,
    stored := s.gateway.restored ++ s.gateway.out.flatMap fun o => o.2.replay.map Prod.fst }
/-- The parts of the header: offset and bytes; HCRC covers the first 0x3C bytes. -/
def ckHeaderParts (swc mods status : Nat) (crcs : List (BitVec 32)) (image : List Byte) : List (Nat × List Byte) :=
  let head := bytesLE 8 0x4A434B50 ++ bytesLE 8 1 ++ bytesLE 8 swc ++ bytesLE 8 ckHbmBytes ++ bytesLE 8 3221225472 ++ bytesLE 8 ckBlocks ++
    bytesLE 4 mods ++ bytesLE 4 status ++ bytesLE 4 image.length
  [(0, head ++ bytesLE 4 (crc32c head).toNat), (0x1000, crcs.flatMap fun c => bytesLE 4 c.toNat),
   (0x300000, image ++ bytesLE 4 (crc32c image).toNat)]
/-- The lines of a block that are poisoned, written as poison (R25). -/
def State.poisonBlock (s : State) (src : State) (to' : Nat) (i : Nat) : State :=
  (List.range (blockLen i / 64)).foldl (fun s j =>
    match blockCell i (64 * j) with
    | some c => if src.poisoned c 64 then { s with poison := s.poison.filter (· != to' + 64 * j) ++ [to' + 64 * j] } else s
    | none => s) s
/-- The far tier after the copy phase: every block of HBM and SRAM at its place, then the header (R23, R26), in the one step that ends the phase
(DESIGN CHOICE, log entry 125). -/
def State.copyOut (s : State) : State :=
  let mods := s.farMods
  let base := s.ckBase
  let x := s.toSave
  let bad := s.poison.any fun a => a < 2 ^ 80
  let t := (List.range ckBlocks).foldl (fun (t : State) i =>
    let a := blockAt base mods i
    let t := { t with poison := t.poison.filter fun p => decide (p < a) || decide (a + ckBlock ≤ p) }
    (t.store none a (s.blockBytes i)).poisonBlock s a i) s
  let mask := mods.foldl (fun m i => m + 2 ^ i) 0
  let head := ckHeaderParts (s.swcAt bDie) mask (if bad then 3 else 0) ((List.range ckBlocks).map fun i => crc32c (s.blockBytes i)) (savedBytes x)
  let h := farCell (mods.headD 0) base
  let t := t.store none h (List.replicate ckHeader 0)
  let t := head.foldl (fun (t : State) p => t.store none (h + p.1) p.2) t
  { t with saved := x :: t.saved, fresh := s.fresh + 2 ^ 24 + ckBlocks * ckBlock }
/-- A duration in microseconds since the copy phase began. -/
def State.ckMicros (s : State) : Nat := (s.swcAt bDie - s.pkg.copyStart) / 1600
/-- The copy phase has ended: MODS, TIME, and DONE with the status. -/
def State.copyDone (s : State) : State :=
  let mask := s.farMods.foldl (fun m i => m + 2 ^ i) 0
  let bad := s.poison.any fun a => a < 2 ^ 80
  let s := s.copyOut
  { s with pkg := { s.pkg with
      ckstat := BitVec.ofNat 32 s.ckMicros ++ BitVec.ofNat 16 mask ++ 0#8 ++ (if bad then 3#4 else 0#4) ++ 4#4 } }

/-! ## Restore (R27) -/

/-- A little-endian value of the header. -/
def State.ckField (s : State) (h off n : Nat) : Nat := s.loadLE (h + off) n
/-- The control state that the image of a header names, none where its bytes are of no checkpoint of this module (log entry 21). -/
def State.savedAt (s : State) (h : Nat) : Option Saved :=
  let n := s.ckField h 0x38 4
  let bytes := s.load (h + 0x300000) n
  if 5 * 2 ^ 20 < n + 4 ∨ natLE (s.load (h + 0x300000 + n) 4) ≠ (crc32c bytes).toNat then none
  else s.saved.find? fun x => savedBytes x == bytes
/-- The STATUS with which a restore ends before anything is written back, none where every check holds (R27). -/
def State.restoreFails (s : State) : Option Nat :=
  let base := s.ckBase
  match s.farMods with
  | [] => some 4
  | low :: _ =>
    let h := farCell low base
    let mask := s.ckField h 0x30 4
    let mods := modsOf mask
    if s.ckField h 0 8 ≠ 0x4A434B50 ∨ s.ckField h 8 8 ≠ 1 ∨ s.ckField h 0x3C 4 ≠ (crc32c (s.load h 0x3C)).toNat ∨ mods.head? ≠ some low then
      some 4
    else if mods.any (fun m => !s.readyBit (24 + m)) ∨ (List.range 24).any (fun b => !s.readyBit b) then some 2
    else if (List.range ckBlocks).any (fun i =>
        s.ckField h (0x1000 + 4 * i) 4 != (crc32c (s.load (blockAt base mods i) (blockLen i))).toNat) ∨ (s.savedAt h).isNone then some 4
    else none
/-- HBM and SRAM written back from the region, and their poisoned lines poisoned again. -/
def State.copyIn (s : State) (base : Nat) (mods : List Nat) : State :=
  (List.range ckBlocks).foldl (fun (t : State) i =>
    (List.range (blockLen i)).foldl (fun (t : State) o =>
      match blockCell i o with
      | some c =>
        let t := t.store none c [readByte s.mem (blockAt base mods i + o)]
        if o % 64 = 0 then
          { t with poison := t.poison.filter (· != c) ++ (if s.poisoned (blockAt base mods i + o) 64 then [c] else []) }
        else t
      | none => t) t) s
/-- A network interface with what a control-state image holds of it: the rank, track and freeze tables; its translation cache is empty. -/
def Ni.fromSaved (n x : Ni) : Ni := { n with rct := x.rct, trk := x.trk, pmap := x.pmap, acc := x.acc, freeze := x.freeze, tcache := [] }
/-- The control state loaded (R27 step 4). -/
def State.loadSaved (s : State) (x : Saved) : State :=
  let nis := allDies.map fun d => (d, (s.ni d).fromSaved (kget Ni.init x.nis d))
  let s := nis.foldl (fun s p => s.setNi p.1 p.2) s
  { s with starter := x.starter, cyc := x.cyc, relay := x.relay, pkg := { s.pkg with rct := x.rct },
           gateway := { s.gateway with restored := x.stored },
           clusters := kmap (fun _ c => { c with icache := [] }) x.clusters }
/-- The gateway, which a restore does not load, with the counts that it keeps as far in the past as before (R37, R40). -/
def Gateway.rebase (g : Gateway) (old new : Nat) : Gateway :=
  let f := fun (t : Nat) => new - (old - t)
  { g with lastFlit := g.lastFlit.map f,
           out := kmap (fun _ (o : OutStream) => { o with replay := o.replay.map fun r => (r.1, r.2.1, f r.2.2) }) g.out,
           inn := kmap (fun _ (i : InStream) => { i with ackAt := f i.ackAt }) g.inn }
/-- Every die's counter at a value (R27 step 5, R41). -/
def State.setSwc (s : State) (v : Nat) : State :=
  allDies.foldl (fun s d => s.setNi d { s.ni d with swcOffset := 0, swcAdjust := 0, swcPending := 0 })
    { s with swc := v, gateway := s.gateway.rebase (s.swcAt xDie) v }
/-- What the Starter had in flight starts again after a restore: the writes of completion records, and the reading of a graph image (log entry 119). -/
def State.resumeStarter (s : State) : State :=
  let s := s.starter.rejecting.foldl (fun s _ => s.fireMsi) (s.setStarter { s.starter with rejecting := [] })
  let s := s.starter.launches.foldl (fun s p =>
    match p.2.state with
    | .completing st _ => (s.setLaunch p.1 { p.2 with state := .running }).finishLaunch p.1 st
    | _ => s) s
  let s := s.starter.instances.foldl (fun s p =>
    if p.2.writes = [] then s
    else (s.setStarter { s.starter with instances := kset p.1 { p.2 with writes := [] } s.starter.instances }).graphProgress p.1) s
  let s := match s.starter.copying with
    | some g => s.setCopying (s.grdefAsk { g with parts := [], got := [], failed := false, body := false } 0 1)
    | none => s
  s.takeIntake
/-- Every launch of the image resumes, and so do the collectives that quiesce paused (R27 step 6). A pause that CL.PAUSE made before the quiesce ends
with them (DESIGN CHOICE, log entry 113). -/
def State.resumeAll (s : State) : State :=
  let s := s.markHeld (s.starter.launches.map Prod.fst) false
  let s := s.release fun _ => true
  let s := s.relay.pauses.foldl (fun s p => s.pauseFar .resume p.rank) s
  let s := s.setRelay { s.relay with pauses := [] }
  (s.setStarter { s.starter with stopped := false }).retime.resumeStarter
/-- RESTORE (R25, R27): accepted only from IDLE after a package reset. -/
def State.ckRestore (s : State) : State :=
  if s.ckState ≠ 0 ∨ !s.pkg.sinceReset then s
  else ({ s with pkg := { s.pkg with writeBack := false, sinceReset := false } }).setCk 6 0
/-- RESTORE_DONE (R27): every block and image has been read and checked, and the restore fails with nothing written back or the write-back begins;
or the write-back has ended, and every launch resumes. A second failure is that of a module or a bit that went down in between. -/
def execRestoreDone (s : State) : Res :=
  .next (
    if s.ckState ≠ 6 then s
    else if !s.pkg.writeBack && s.restoreFails.isNone then { s with pkg := { s.pkg with writeBack := true, copyStart := s.swcAt bDie } }
    else
      match s.restoreFails with
      | some st => s.setCk 5 st
      | none =>
        let h := farCell (s.farMods.headD 0) s.ckBase
        match s.savedAt h with
        | none => s.setCk 5 4
        | some x =>
          let micros := s.ckMicros
          let status := if s.ckField h 0x34 4 = 3 then 3 else 0
          let swc := s.ckField h 0x10 8 + 1
          let s := ((s.copyIn s.ckBase (modsOf (s.ckField h 0x30 4))).loadSaved x).setSwc swc
          let s := (s.setReady 57 true).resumeAll
          let s := s.setCk 4 status
          { s with pkg := { s.pkg with ckstat := BitVec.ofNat 32 micros ++ s.pkg.ckstat.extractLsb' 0 32, writeBack := false } })

/-! ## CKCTL (R21) -/

/-- A CKCTL write: BASE and AUTO are stored, and with BASE the bit CKPT follows; then RESTORE, START or QUIESCE, in that order where a write sets
several. -/
def State.ckctlWrite (s : State) (v : Dword) : State :=
  let s := { s with pkg := { s.pkg with ckctl := v.extractLsb' 30 34 ++ 0#27 ++ BitVec.ofBool (v.getLsbD 2) ++ 0#2 } }
  let s := s.ckptBit
  if v.getLsbD 3 ∧ s.ckState = 0 ∧ s.pkg.sinceReset then s.ckRestore
  else if v.getLsbD 0 then s.ckStart
  else if v.getLsbD 1 then s.ckQuiesce
  else s
/-- CKCTL_START (R23, R25): a write with START set. -/
def execCkctlStart (value : Dword) (s : State) : Res := .next (if value.getLsbD 0 then s.ckctlWrite value else s)
/-- CKCTL_QUIESCE (R23, R25): a write with QUIESCE set. -/
def execCkctlQuiesce (value : Dword) (s : State) : Res := .next (if value.getLsbD 1 then s.ckctlWrite value else s)
/-- CKCTL_RESTORE (R25, R27): a write with RESTORE set. -/
def execCkctlRestore (value : Dword) (s : State) : Res := .next (if value.getLsbD 3 then s.ckctlWrite value else s)

end Sys2Proof.Machine
end

