-- ==== Sys2Proof/Machine/Resets.lean ====
section
/-!
DEFINITION. Links (R30, R35, R36), stopwatch synchronisation (R41), readiness (R18, R19), and the resets of dies and of the package (R17, R25,
R66, R76).
-/
namespace Sys2Proof.Machine

/-! ## Links -/

/-- The packets on a link that goes down complete LINK_DOWN (R30). -/
def State.failLink (s : State) (a b : Nat) : State :=
  let on := fun (p : Pkt) => (p.hopSrc == a && p.hopDst == b) || (p.hopSrc == b && p.hopDst == a)
  let lost := (s.net.filter fun p => on p.2).map Prod.snd
  lost.foldl (fun s p => s.failPkt p 5) { s with net := s.net.filter fun p => !on p.2 }
/-- A link goes down (R30). -/
def State.linkDown (s : State) (a b : Nat) : State :=
  let s := s.setLink a b { s.link a b with up := false }
  let s := s.setLink b a { s.link b a with up := false }
  s.failLink a b
/-- A slot return for a VC at the sender of a link (R35, R36): an implausible one is discarded and counted. -/
def Link.slotReturn (l : Link) (vc : Nat) (f : BitVec 16) : Link :=
  if (vcGet l.sent vc - f).toNat ≤ 64 then { l with freed := vcSet l.freed vc f } else { l with errors := l.errors + 1 }
/-- LINK_FLIT (R30, R35, R36): a flit of link `a * 32 + b` arrives at `b`. With a good CRC its slot return is applied at the sender of the reverse
link: the VC whose turn it is and its current F, or `field` and `ret` where an error that the CRC missed has changed them. After 8 failed replays in
a row the link is down. -/
def execLinkFlit (link : Nat) (crcOk : Bool) (field : Option (BitVec 2)) (ret : Option (BitVec 16)) (s : State) : Res :=
  .next (
    let a := link / 32
    let b := link % 32
    if !isDie a || !isDie b || a == b || !s.linkUp a b then s
    else
      let l := s.link a b
      if crcOk then
        let vc := l.nextVc
        let s := s.setLink a b { l with fails := 0, nextVc := (vc + 1) % 4 }
        let back := s.link b a
        s.setLink b a (back.slotReturn ((field.map BitVec.toNat).getD vc) (ret.getD (vcGet back.recvFreed vc)))
      else if 8 ≤ l.fails then s.linkDown a b
      else s.setLink a b { l with fails := l.fails + 1 })
/-- A link sends what it has kept (log entry 104). -/
def State.sendOwed (s : State) (a b : Nat) : State :=
  let l := s.link a b
  l.owed.foldl State.send (s.setLink a b { l with owed := [] })
/-- LINK_RETRAIN (R30): a link that is down is trained again, with every counter zero, and sends what it has kept. -/
def execLinkRetrain (link : Nat) (ok : Bool) (s : State) : Res :=
  .next (
    let a := link / 32
    let b := link % 32
    if !ok || !isDie a || !isDie b || a == b || s.linkUp a b || !s.dieUp a || !s.dieUp b then s
    else
      let trained := fun (l : Link) => { Link.init with errors := l.errors, owed := l.owed }
      (((s.setLink a b (trained (s.link a b))).setLink b a (trained (s.link b a))).sendOwed a b).sendOwed b a)
/-- SLOT_SYNC_MARKER (R36): the sender of a link places its S into a VC. -/
def execSlotSyncMarker (link vc : Nat) (s : State) : Res :=
  .next (
    let a := link / 32
    let b := link % 32
    if !isDie a || !isDie b || a == b || !s.linkUp a b then s
    else
      let l := s.link a b
      s.setLink a b { l with marker := vcSet l.marker vc (some (vcGet l.sent vc)) })
/-- SLOT_SYNC (R36): a marker reaches the receiver, which answers S and the occupied slots O; the reply sets F to S - O at the sender. -/
def execSlotSync (link vc : Nat) (reply : Bool) (s : State) : Res :=
  .next (
    let a := link / 32
    let b := link % 32
    if !isDie a || !isDie b || a == b || !s.linkUp a b then s
    else
      let l := s.link a b
      if reply then
        match vcGet l.reply vc with
        | some (m, o) => s.setLink a b { l with freed := vcSet l.freed vc (m - o), reply := vcSet l.reply vc none }
        | none => s
      else
        match vcGet l.marker vc with
        | some m =>
          let o := m - vcGet l.recvFreed vc
          let o := if o.toNat ≤ 64 then o else 0
          s.setLink a b { l with marker := vcSet l.marker vc none, reply := vcSet l.reply vc (some (m, o)) }
        | none => s)

/-! ## Stopwatch (R41) -/

/-- SWCSYNC: every live die is within 2 counts of the master. -/
def State.syncBit (s : State) : State :=
  s.setReady 57 ((allDies.filter s.dieUp).all fun d => decide ((s.ni d).swcOffset.natAbs ≤ 2))
/-- SWC_SYNC_SEND: the B-die sends its count to every other live die. -/
def execSwcSyncSend (s : State) : Res :=
  .next ((allDies.filter fun d => d != bDie && s.dieUp d).foldl (fun s d =>
    s.send { Pkt.blank with ty := .swcSync, src := mgmtEp, dst := niEp d, a := BitVec.ofNat 64 s.swc }) s)
/-- What the count received, with the measured delay of the link added, gives a die for the master count: within one count of it, because the time
that the packet took is the delay measured but for that error (R13; log entry 22). -/
def State.swcTarget (s : State) (d : Nat) : Int := (s.swc : Int) + ((Config.linkError d % 3 : Nat) : Int) - 1
/-- SWC_SYNC: a die compares that value with its own count, the count of a correction under way with it. -/
def execSwcSync (pid : Nat) (s : State) : Res :=
  .next (s.deliverPkt pid [.swcSync] fun s p =>
    let d := p.hopDst
    (s.setNi d { s.ni d with swcAdjust := s.swcTarget d - (s.swcAt d : Nat) - (s.ni d).swcPending }).syncBit)
/-- `n` cycles of the master count. A die that is to add or to withhold a count does so in them. -/
def State.swcStep (s : State) (n : Nat) : State :=
  let due := s.nis.filter fun p => p.2.swcPending != 0
  let s := { s with swc := s.swc + n }
  if n = 0 ∨ due = [] then s
  else (due.foldl (fun s p => s.setNi p.1 { p.2 with swcOffset := p.2.swcOffset + p.2.swcPending, swcPending := 0 }) s).syncBit
/-- SWC_SLEW: once in 1,024 cycles a die whose count differs is to add or to withhold one count. -/
def execSwcSlew (die : Nat) (s : State) : Res :=
  .next (
    let n := s.ni die
    if n.swcAdjust = 0 ∨ n.swcPending ≠ 0 ∨ s.swc % 1024 ≠ 0 then s
    else
      let up : Int := if 0 < n.swcAdjust then 1 else -1
      s.setNi die { n with swcPending := up, swcAdjust := n.swcAdjust - up })

/-! ## Package reset -/

/-- The boot ROM and the security block after a reset: the identity's counter and the boot key live on (R76, R78). -/
def Boot.kept (b : Boot) : Boot :=
  { State.reset.boot with leaf := b.leaf, quotes := b.quotes, powered := b.powered, certificate := b.certificate }
/-- Package reset (R25, R76, R78): everything at its reset value, but for the far tier, which is powered by its own modules, for the identity's
leaf counter and the boot key's quotes, and for numbers that the model itself counts on. -/
def State.packageReset (s : State) : State :=
  { State.reset with
    mem := clearRange s.mem 0 (2 ^ 80), poison := s.poison.filter fun a => decide (2 ^ 80 ≤ a), nextPkt := s.nextPkt, nextTag := s.nextTag,
    agenda := s.agenda, fresh := s.fresh, saved := s.saved,
    boot := s.boot.kept }
/-- A reset that a checkpoint has held goes ahead once the checkpoint is DONE or FAILED (R25). -/
def State.heldReset (s : State) : State := if s.pkg.resetHeld && (s.ckState == 4 || s.ckState == 5) then s.packageReset else s
/-- POWER_ON_RESET (R76): after power-on the ROM starts; the boot key is certified in this boot (R78). -/
def execPowerOnReset (s : State) : Res :=
  .next (
    let s := s.packageReset
    { s with boot := { s.boot with powered := true, quotes := 0, certificate := none } })
/-- RESET_REQUEST (R21, R25): held during QUIESCING and COPYING; with AUTO set after a checkpoint, but during a restore, which START does not
end. -/
def execResetRequest (s : State) : Res :=
  .next (
    let held := { s with pkg := { s.pkg with resetHeld := true } }
    if s.ckState = 1 ∨ s.ckState = 3 then held
    else if s.pkg.ckctl.getLsbD 2 ∧ s.ckState ≠ 6 then held.ckStart.heldReset
    else s.packageReset)
/-- INPUT_UNDERVOLTAGE (R17): the package resets; the far tier's contents survive. -/
def execInputUndervoltage (s : State) : Res := .next s.packageReset
/-- CHECKPOINT_COPY_DONE (R23, R25). -/
def execCheckpointCopyDone (s : State) : Res := .next (if s.ckState = 3 then s.copyDone.heldReset else s)

/-! ## Functions (R18, R19) -/

/-- A far-tier module is lost (R19, R25): a checkpoint that is copying ends FAILED with MODULE_FAILED. -/
def State.loseModule (s : State) (m : Nat) : State :=
  let s := (s.setReady (24 + m) false).ckptBit
  if s.ckState = 3 then (s.setCk 5 2).heldReset else s
/-- FAR_MODULE_LOSS. -/
def execFarModuleLoss (modul : Nat) (s : State) : Res := .next (if modul < 16 then s.loseModule modul else s)
/-- With no plane up, or the gateway down, every stored packet completes LINK_DOWN at its source, and so do the packets that wait for the gateway
(R19, R40). -/
def State.failFabric (s : State) : State :=
  let stored := s.gateway.out.flatMap fun o => o.2.replay.map Prod.fst
  let waits := fun (p : Pkt) => p.hopDst == xDie && s.foreign p.dstPkg
  let queued := (s.net.filter fun p => waits p.2).map Prod.snd
  let s := { s with net := s.net.filter fun p => !waits p.2,
                    gateway := { s.gateway with out := kmap (fun _ (o : OutStream) => { o with replay := [] }) s.gateway.out } }
  (stored ++ queued).foldl (fun s p => s.failPkt p 5) s
/-- A plane goes down (R37, R40): its unacknowledged packets are due to be sprayed again. -/
def State.planeDown (s : State) (p : Nat) : State :=
  let s := s.setReady (40 + p) false
  if s.planesUp = [] then s.failFabric
  else
    let due := fun (r : Pkt × Nat × Nat) => if r.2.1 = p then (r.1, 8, r.2.2) else r
    { s with gateway := { s.gateway with out := kmap (fun _ (o : OutStream) => { o with replay := o.replay.map due }) s.gateway.out } }
/-- The cycle controller returns: every record that it held is aborted, with its freezes, before CYCCTL is set (R304). -/
def State.cycReturn (s : State) : State :=
  let s := (List.range 64).foldl (fun s n => if (s.cycRec n).state.live then s.abortCycle n else s) s
  let s := s.setReady 49 true
  (List.range 64).foldl State.wakeCycle s
/-- A function becomes usable (R18, R19). -/
def State.functionReady (s : State) (bit : Nat) : State :=
  if s.readyBit bit then s
  else if 12 ≤ bit ∧ bit < 24 then
    let a := hbmCell (bit - 12) 0
    let s := { s with mem := clearRange s.mem a (2 ^ 64), poison := s.poison.filter fun p => decide (p < a) || decide (a + 2 ^ 64 ≤ p) }
    let s := s.setReady bit true
    if bit = 12 ∧ s.boot.step = .hbm then { s with boot := { s.boot with step := .link } } else s
  else if 24 ≤ bit ∧ bit < 40 then (s.setReady bit true).ckptBit
  else if 40 ≤ bit ∧ bit < 48 then
    let g := s.gateway
    { s.setReady bit true with gateway := { g with lastFlit := g.lastFlit.set ((bit - 40) % 8) (s.swcAt xDie) (Nat.mod_lt _ (by decide)) } }
  else if bit = 49 then s.cycReturn
  else if bit = 48 then (s.setReady 48 true).takeIntake
  else if 50 ≤ bit ∧ bit ≤ 55 then s.setReady bit true
  else if bit = 58 then s.setReady bit (decide (0 < s.boot.quotes))
  else s
/-- FUNCTION_READY. -/
def execFunctionReady (bit : Nat) (s : State) : Res := .next (s.functionReady bit)
/-- A function goes down (R19). -/
def State.functionFailure (s : State) (bit : Nat) : State :=
  if !s.readyBit bit then s
  else if 24 ≤ bit ∧ bit < 40 then s.loseModule (bit - 24)
  else if 40 ≤ bit ∧ bit < 48 then s.planeDown (bit - 40)
  else if bit = 51 then s.relayDown
  else if bit = 52 then (s.setReady 52 false).failFabric
  else if (12 ≤ bit ∧ bit < 24) ∨ (48 ≤ bit ∧ bit ≤ 55) ∨ bit = 58 then s.setReady bit false
  else s
/-- FUNCTION_FAILURE. -/
def execFunctionFailure (bit : Nat) (s : State) : Res := .next (s.functionFailure bit)
/-- RELAY_DOWN (R130). -/
def execRelayDown (die : Nat) (s : State) : Res := .next (s.onRelay die State.relayDown)

/-! ## Die reset and return (R17, R19, R66) -/

/-- The requests that a die's NI holds, in no order: walks, MIGRATING pages, fault records, withheld acknowledgements, ranked packets that wait. -/
def Ni.heldPkts (n : Ni) : List Pkt :=
  n.walks.map Walk.pkt ++ n.behind ++ n.migrating ++ n.fq.filterMap (fun p => if p.2.action = 0 then p.2.held else none) ++ n.lapHeld.map Prod.snd ++ n.rankHold
/-- The memory without the SRAM of a C-die (log entry 24). -/
def clearSram (m : Memory) (d : Nat) : Memory :=
  clearRange (clearRange (clearRange m (tcmCell (mkCid d 0 0) 0) (2 ^ 29)) (spadCell (d * 24) 0) (2 ^ 27)) (dsramCell d 0) (2 ^ 32)
/-- A die's NI right after its reset: it counts as having applied every record (R66). -/
def State.freshNi (s : State) (d : Nat) : Ni :=
  let l := (s.ni d).log
  { Ni.init with log := { appended := l.appended, consumed := l.appended, pending := [], applied := s.pkg.ivlIndex,
                          reported := s.pkg.ivlIndex } }
/-- The functions that a die carries, by PKREADY bit (R18, R19): the B-die holds the security block, a C-die its HBM controller. -/
def dieFunctions (d : Nat) : List Nat :=
  if isCDie d then [12 + d]
  else if d = xDie then [51, 52, 55] ++ (List.range 8).map (40 + ·)
  else if d = bDie then [48, 49, 50, 58]
  else if isFDie d then (53 + (d - 16)) :: (List.range 8).map (24 + (d - 16) * 8 + ·)
  else []
/-- The X-die enters reset: the accesses of the host that were on their way are over, but for those that a home still holds, and no record waits for them
any more (R17, R81). -/
def State.dropHost (s : State) : State :=
  let kept := (allDies.flatMap fun d => (s.ni d).heldPkts) ++ s.net.map Prod.snd
  let ended := fun (o : Nat × Owner) => match o.2 with | .host _ => !kept.any (fun p => p.tag == o.1 && p.src == niEp xDie) | _ => false
  ({ s with owners := s.owners.filter fun o => !ended o }).takeIntake
/-- A die enters reset (R17, R19, R66): it is marked down; its batons end and their launches will complete ABORTED; the packets to, from and held
at it complete LINK_DOWN; waits for its acknowledgements end. -/
def State.dieReset (s : State) (d : Nat) : State :=
  if !isDie d || !s.dieUp d then s
  else
    let held := (s.ni d).heldPkts
    let s := if isCDie d then (s.endDie d).setReady d false else { s with pkg := { s.pkg with inReset := s.pkg.inReset ++ [d] } }
    let s := (dieFunctions d).foldl State.functionFailure s
    let on := fun (p : Pkt) => p.hopSrc == d || p.hopDst == d
    let lost := (s.net.filter fun p => on p.2).map Prod.snd
    let s := { s with net := s.net.filter fun p => !on p.2 }
    let s := s.setNi d (s.freshNi d)
    let s := s.setLink bDie d { s.link bDie d with owed := [] }
    let s := (held ++ lost).foldl (fun s p => if epDie p.src = d && p.ty.isRequest then s else s.failPkt p 5) s
    let s := if d = xDie then s.dropHost else s
    let s := { s with mem := clearSram s.mem d, pkg := { s.pkg with power := kdel d s.pkg.power } }
    let s := s.waiting.foldl (fun s w =>
      match w.2 with
      | .ivlSync index => if s.ivlSynced index then s.finishWait w.1 .none else s
      | .rct t _ => s.rctApplied t d
      | _ => s) s
    s.syncBit
/-- DIE_RESET. -/
def execDieReset (die : Nat) (s : State) : Res := .next (s.dieReset die)
/-- THERMAL_REPORT (R17): at 105 degrees the die is throttled, at 115 it is taken into reset. -/
def execThermalReport (die : Nat) (celsius : Int) (s : State) : Res :=
  .next (
    let rest := s.pkg.throttled.filter (· != die)
    let s := { s with pkg := { s.pkg with throttled := if 105 ≤ celsius ∧ isDie die then rest ++ [die] else rest } }
    if 115 ≤ celsius then s.dieReset die else s)
/-- The freeze entries of every live cycle record (R66, R303, R307). -/
def State.liveFreezes (s : State) : List Freeze :=
  s.cyc.recs.flatMap fun p =>
    if p.2.state.live then p.2.ranges.map fun r => { cycle := p.1, track := p.2.track, base := r.1, limit := r.2 } else []
/-- DIE_RETURN (R41, R42, R66): the die loads the count, the track table and placement maps from the B-die's images, the rank table and the
freezes, stands at the current INDEX with empty caches, and only then is marked up. -/
def State.dieReturn (s : State) (d : Nat) : State :=
  if !isDie d || s.dieUp d then s
  else
    let s := s.setNi d { s.freshNi d with rct := s.pkg.rct, freeze := if isCDie d ∨ isFDie d then s.liveFreezes else [] }
    let s := (List.range 1024).foldl (fun s i => (s.loadTrack i d).loadPmap i d) s
    let s := if isCDie d then s.setReady d true else { s with pkg := { s.pkg with inReset := s.pkg.inReset.filter (· != d) } }
    let s := if d = bDie then (allDies.filter fun e => s.linkUp bDie e).foldl (fun s e => s.sendOwed bDie e) s else s
    s.syncBit
/-- DIE_RETURN. -/
def execDieReturn (die : Nat) (s : State) : Res := .next (s.dieReturn die)

end Sys2Proof.Machine
end

