-- ==== Sys2Proof/Machine/Gateway.lean ====
section
/-!
DEFINITION. The gateway on the X-die and the fabric planes (R37 to R40, R53).
-/
namespace Sys2Proof.Machine

/-! ## Sequence numbers -/

/-- A SEQ, modulo 2^32 (R38). -/
def seqMod : Nat := 2 ^ 32
/-- The distance from one SEQ on to another (R38). -/
def seqFrom (a b : Nat) : Nat := (b + seqMod - a % seqMod) % seqMod
/-- Does the first SEQ precede the second within the window of 2^31 (R38). -/
def seqBefore (a b : Nat) : Bool := decide (0 < seqFrom a b) && decide (seqFrom a b < 2 ^ 31)

/-! ## Outbound (R37, R38, R40) -/

/-- An outbound stream, by its destination package. -/
def Gateway.outStream (g : Gateway) (pkg : Nat) : OutStream := kget { nextSeq := 1, replay := [] } g.out pkg
/-- An inbound stream, by its source package; an unused one was last acknowledged now. -/
def Gateway.inStream (g : Gateway) (pkg now : Nat) : InStream := kget { below := 0, above := [], sinceAck := 0, ackAt := now } g.inn pkg
/-- The bytes that a packet takes in the replay store: its flits of 64 bytes (log entry 25). -/
def replayBytes (p : Pkt) : Nat := 64 * p.flits
/-- The replay store of 4 MiB is full (R40). What a restored image put into it takes its place (log entry 114). -/
def Gateway.full (g : Gateway) : Bool :=
  decide (2 ^ 22 ≤ (((g.out.flatMap fun o => o.2.replay.map Prod.fst) ++ g.restored).map replayBytes).sum)
/-- The planes on which a packet may leave: those up, of which a rank's PLANES admits some unless none of them is up (R37, R42). -/
def State.packetPlanes (s : State) (p : Pkt) : List Nat :=
  let up := s.planesUp
  if p.ranked then
    let ok := up.filter (rctPlanes (s.rct xDie p.dstRank)).getLsbD
    if ok = [] then up else ok
  else up
/-- The next of some planes in round-robin order (R37). -/
def nextOf (start : Nat) (ps : List Nat) : Nat :=
  (((List.range 8).map fun i => (start + i) % 8).find? ps.contains).getD 0
/-- A packet leaves whole on the next plane; the plane is answered (R37). -/
def State.spray (s : State) (p : Pkt) : Nat × State :=
  let plane := nextOf s.gateway.nextPlane (s.packetPlanes p)
  (plane, { s with gateway := { s.gateway with nextPlane := (plane + 1) % 8, sprayed := s.gateway.sprayed ++ [(plane, p)] } })
/-- The class and PREVDIST of a packet that takes a SEQ, and the line table after it (R38). The entry of a line is renewed by every
packet to it, a release-annotated one too (log entry 26). -/
def Gateway.predecessor (g : Gateway) (p : Pkt) (seq : Nat) : PClass × Nat × KMap (Nat × Nat × Nat × Nat) :=
  let onLine := p.ty == .read || p.ty == .write || p.ty == .amo
  if !onLine then (p.cls, 0, g.lines)
  else
    let line := p.va / 64
    let h := Config.lineHash line p.track.toNat p.dstPkg % 1024
    let lines := kset h (line, p.track.toNat, p.dstPkg, seq) g.lines
    if p.cls != .line then (p.cls, 0, lines)
    else
      match kfind g.lines h with
      | none => (.line, 0, lines)
      | some (l, t, d, q) =>
        let dist := seqFrom q seq
        if l = line ∧ t = p.track.toNat ∧ d = p.dstPkg ∧ dist ≤ 65535 then (.line, dist, lines) else (.fence, 0, lines)
/-- A packet enters the fabric: it takes the next SEQ of its stream, is stored for replay and sprayed (R38, R40). -/
def State.outbound (s : State) (p : Pkt) : State :=
  let g := s.gateway
  let o := g.outStream p.dstPkg
  let (cls, dist, lines) := g.predecessor p o.nextSeq
  let p := { p with srcPkg := s.pkg.fabric, seq := o.nextSeq, prevDist := dist, cls := cls }
  let (plane, s) := s.spray p
  let g := s.gateway
  { s with gateway := { g with
      lines := lines,
      out := kset p.dstPkg { nextSeq := (o.nextSeq + 1) % seqMod, replay := o.replay ++ [(p, plane, s.swcAt xDie)] } g.out } }
/-- GATEWAY_OUTBOUND (R38): a packet that waits at the gateway. While the replay store is full, packets of VCs 0 and 2 keep their slots
(R40). -/
def execGatewayOutbound (pid : Nat) (s : State) : Res :=
  .next (
    match s.canDeliver pid with
    | none => s
    | some p =>
      if !s.foreign p.dstPkg || p.hopDst != xDie then s
      else if p.malformed then (s.takePkt pid p).malformedPkt p
      else if s.planesUp = [] || !s.readyBit 52 then (s.takePkt pid p).failPkt p 5
      else if s.gateway.full && (p.vc == 0 || p.vc == 2) then s
      else (s.takePkt pid p).outbound p)
/-- REPLAY_TIMEOUT (R40): a stored packet of a stream is sprayed again with its SEQ, because its plane went down or because 65,536 cycles
have passed since it was sent. -/
def execReplayTimeout (stream seq : Nat) (s : State) : Res :=
  .next (
    let o := s.gateway.outStream stream
    match o.replay.find? fun r => r.1.seq == seq && (r.2.1 == 8 || decide (r.2.2 + 65536 ≤ s.swcAt xDie)) with
    | none => s
    | some r =>
      if s.planesUp = [] then s
      else
        let (plane, s) := s.spray r.1
        let renew := fun (q : Pkt × Nat × Nat) => if q.1.seq == seq then (q.1, plane, s.swcAt xDie) else q
        { s with gateway := { s.gateway with out := kset stream { o with replay := o.replay.map renew } s.gateway.out } })
/-- PLANE_IDLE_TIMEOUT (R37): a plane that has received no flit for 4,096 cycles is down. -/
def execPlaneIdleTimeout (die plane : Nat) (s : State) : Res :=
  .next (
    if die = xDie ∧ plane < 8 ∧ s.readyBit (40 + plane) ∧
        (s.gateway.lastFlit[plane % 8]'(Nat.mod_lt _ (by decide))) + 4096 ≤ s.swcAt xDie then s.planeDown plane
    else s)

/-! ## Inbound (R39, R53) -/

/-- Has a SEQ been delivered. -/
def InStream.delivered (i : InStream) (seq : Nat) : Bool := !seqBefore i.below seq || i.above.contains seq
/-- Every SEQ up to `below` is delivered: the run above it is taken in. -/
def InStream.advance : Nat → InStream → InStream
  | 0, i => i
  | fuel + 1, i =>
    let n := (i.below + 1) % seqMod
    if i.above.contains n then InStream.advance fuel { i with below := n, above := i.above.filter (· != n) } else i
/-- A SEQ delivered. -/
def InStream.take (i : InStream) (seq : Nat) : InStream :=
  InStream.advance (i.above.length + 1) { i with above := i.above ++ [seq], sinceAck := i.sinceAck + 1 }
/-- May a packet be delivered now, by its class (R39). -/
def InStream.ready (i : InStream) (p : Pkt) : Bool :=
  match p.cls with
  | .free | .reserved => true
  | .line => p.prevDist == 0 || i.delivered ((p.seq + seqMod - p.prevDist % seqMod) % seqMod)
  | .fence => p.seq == (i.below + 1) % seqMod
/-- A packet goes on to its home die, with SEQ and PREVDIST 0 inside the package (R33). A request for a global address takes its DST from this package's
own map; where that names another package again, it is answered NOT_MAPPED and never forwarded (R53). It is checked under class 7 (R58), an ARRIVE under the class of R355. -/
def State.admitPkt (s : State) (p : Pkt) : State :=
  let p := { p with master := if p.ty == .arrive then p.master else 7, seq := 0, prevDist := 0 }
  if p.ty.isRequest && !p.ranked && addrClass p.va == .global then
    match s.homeOf xDie p.track p.va with
    | .die d => s.sendFrom xDie { p with dst := niEp d, dstPkg := 0 }
    | .package _ => s.refuse xDie p 3 p.va
  else s.sendFrom xDie { p with dstPkg := 0 }
/-- A packet of a stream is delivered into the package. -/
def State.inDeliver (s : State) (p : Pkt) : State :=
  let i := s.gateway.inStream p.srcPkg (s.swcAt xDie)
  ({ s with gateway := { s.gateway with inn := kset p.srcPkg (i.take p.seq) s.gateway.inn } }).admitPkt p
/-- The held packets that a delivery has made deliverable follow it. -/
def State.drainReorder : Nat → State → State
  | 0, s => s
  | fuel + 1, s =>
    match s.gateway.reorder.find? fun p => (s.gateway.inStream p.srcPkg (s.swcAt xDie)).ready p with
    | none => s
    | some p =>
      let s := { s with gateway := { s.gateway with reorder := s.gateway.reorder.filter (· != p) } }
      State.drainReorder fuel (s.inDeliver p)
/-- A packet at the destination gateway (R39): delivered, discarded on a second arrival, held for order, or dropped where the reorder buffer
of 4,096 entries is full. -/
def State.inbound (s : State) (p : Pkt) : State :=
  let i := s.gateway.inStream p.srcPkg (s.swcAt xDie)
  let held := s.gateway.reorder.any fun q => q.srcPkg == p.srcPkg && q.seq == p.seq
  if i.delivered p.seq || held then s
  else if i.ready p then State.drainReorder 4096 (s.inDeliver p)
  else if s.gateway.reorder.length < 4096 then { s with gateway := { s.gateway with reorder := s.gateway.reorder ++ [p] } }
  else s
/-- An arrival is taken off its plane, on which a flit has been received now. -/
def State.takeArrival (s : State) (pid plane : Nat) : State :=
  let g := s.gateway
  { s with gateway := { g with arrivals := kdel pid g.arrivals,
                               lastFlit := g.lastFlit.set (plane % 8) (s.swcAt xDie) (Nat.mod_lt _ (by decide)) } }
/-- GATEWAY_INBOUND (R39): a malformed packet is dealt with under R32, and its SEQ does not count as delivered (DESIGN CHOICE, log entry 131).
SWC_SYNC and SLOT_SYNC are traffic of the plane itself and go no further (R38). -/
def execGatewayInbound (pid : Nat) (s : State) : Res :=
  .next (
    match kfind s.gateway.arrivals pid with
    | none => s
    | some (plane, p) =>
      if p.ty == .e2eAck || !s.readyBit (40 + plane % 8) || !s.readyBit 52 then s
      else
        let s := s.takeArrival pid plane
        let p := { p with hopSrc := xDie, hopDst := xDie }
        if p.malformed then s.malformedPkt p
        else if p.ty == .swcSync || p.ty == .slotSync then s
        else s.inbound p)

/-! ## Acknowledgements (R40) -/

/-- E2E_ACK_SEND: after 64 deliveries of a stream, or 1,024 cycles after its last acknowledgement, one is sent. It carries the SEQ below which
every packet has been delivered. -/
def execE2eAckSend (stream : Nat) (s : State) : Res :=
  .next (
    let now := s.swcAt xDie
    match kfind s.gateway.inn stream with
    | none => s
    | some i =>
      if s.planesUp = [] || !(decide (64 ≤ i.sinceAck) || decide (i.ackAt + 1024 ≤ now)) then s
      else
        let ack := { Pkt.blank with ty := .e2eAck, src := gatewayEp, dst := gatewayEp, srcPkg := s.pkg.fabric, dstPkg := stream,
                                    a := BitVec.ofNat 64 ((i.below + 1) % seqMod) }
        let (_, s) := s.spray ack.sealed
        { s with gateway := { s.gateway with inn := kset stream { i with sinceAck := 0, ackAt := now } s.gateway.inn } })
/-- E2E_ACK: one that has arrived frees the packets that it covers. -/
def execE2eAck (pid : Nat) (s : State) : Res :=
  .next (
    match kfind s.gateway.arrivals pid with
    | none => s
    | some (plane, p) =>
      if p.ty != .e2eAck || !s.readyBit (40 + plane % 8) || !s.readyBit 52 then s
      else
        let s := s.takeArrival pid plane
        if p.malformed then s.malformedPkt { p with hopSrc := xDie, hopDst := xDie }
        else
          let o := s.gateway.outStream p.srcPkg
          let rest := o.replay.filter fun r => !seqBefore r.1.seq p.a.toNat
          { s with gateway := { s.gateway with out := kset p.srcPkg { o with replay := rest } s.gateway.out } })

end Sys2Proof.Machine
end

