-- ==== Sys2Proof/Machine/Vault.lean ====
section
/-!
DEFINITION. The Vault's page moves (R67 to R69), the reload of track-table entries (R51), and the host aperture (R72).
-/
namespace Sys2Proof.Machine

/-! ## Page-table entries under a move -/

/-- A word with the field of `len` bits at `lo` set. -/
def setField {n : Nat} (w : BitVec n) (lo len v : Nat) : BitVec n :=
  w &&& ~~~(BitVec.ofNat n ((2 ^ len - 1) * 2 ^ lo)) ||| BitVec.ofNat n (v % 2 ^ len * 2 ^ lo)
/-- A page-table entry: a hashed one (R55), or an Sv57 leaf (R57). -/
inductive PageEntry
  | hashed (cell : Nat) (e : BitVec 256)
  | leaf (cell : Nat) (pte : BitVec 64) (level : Nat)
  deriving DecidableEq, Repr
/-- The entry that covers an address at a die, with what the walk says of it. -/
def State.pageEntry (s : State) (d : Nat) (tk : BitVec 16) (va : Nat) : Option (PageEntry × WalkRes) :=
  match s.trackEntry d tk with
  | none => none
  | some ent =>
    if ent.getLsbD 110 then
      (s.sv57Find d va 5 (entRoot ent)).map fun l => (.leaf l.1 l.2.1 l.2.2, sv57Outcome d tk ent va false l.2.1 l.2.2)
    else (s.hashedFind d tk ent va).map fun c => (.hashed c (s.entry32 c), hashedOutcome d tk va (s.entry32 c))
/-- An entry written back to its cell. -/
def State.putEntry (s : State) (e : PageEntry) : State :=
  match e with
  | .hashed c w => s.store none c (bytesLE 32 w.toNat)
  | .leaf c w _ => s.store none c (bytesLE 8 w.toNat)
/-- An entry in state MIGRATING (R68 step 1). -/
def PageEntry.migrating : PageEntry → PageEntry
  | .hashed c w => .hashed c (setField w 192 2 2)
  | .leaf c w l => .leaf c (setField w 61 2 1) l
/-- An entry in state PRESENT at a location: module `far - 1` of the far tier, or HBM for 0 (R68 step 3). -/
def PageEntry.present (far phys : Nat) : PageEntry → PageEntry
  | .hashed c w =>
    .hashed c (setField (setField (setField (setField w 192 2 1) 144 4 (min far 1)) 140 4 (far - 1)) 148 44 (phys / 4096))
  | .leaf c w l =>
    .leaf c (setField (setField (setField w 61 2 0) 56 1 (min far 1)) 10 44
      (phys / 4096 % 2 ^ 40 + (if far = 0 then phys / 4096 / 2 ^ 40 else far - 1) * 2 ^ 40)) l
/-- An entry in state FORWARDED to a new home (R68 step 3). -/
def PageEntry.forwarded (home : Nat) : PageEntry → PageEntry
  | .hashed c w => .hashed c (setField (setField w 192 2 3) 135 5 home)
  | .leaf c w l => .leaf c (setField (setField w 61 2 2) 10 5 home) l
/-- An entry at another cell. -/
def PageEntry.moveTo (cell : Nat) : PageEntry → PageEntry
  | .hashed _ w => .hashed cell w
  | .leaf _ w l => .leaf cell w l
/-- The cell of the slot for a leaf at a level under a table of level `fuel - 1`, where the tables above it exist (R57). -/
def State.leafSlot (s : State) (d va level : Nat) : Nat → Nat → Option Nat
  | 0, _ => none
  | fuel + 1, table =>
    let cell := tableCell d (table + va / 2 ^ (12 + 9 * fuel) % 512 * 8)
    if fuel = level then some cell
    else
      let pte := s.load64 cell
      if !pte.getLsbD 0 || pte.getLsbD 1 || pte.getLsbD 2 || pte.getLsbD 3 then none
      else s.leafSlot d va level fuel ((pte.extractLsb' 10 44).toNat * 4096)
/-- Where the new home's entry for a page goes: over a matching entry, or into the first free slot that a walk looks at (R55, R56; log entry 27). -/
def State.newSlot (s : State) (d : Nat) (tk : BitVec 16) (va : Nat) (e : PageEntry) : Option Nat :=
  match s.trackEntry d tk with
  | none => none
  | some ent =>
    match e with
    | .leaf _ _ level => if ent.getLsbD 110 then s.leafSlot d va level 5 (entRoot ent) else none
    | .hashed _ w =>
      if ent.getLsbD 110 then none
      else
        match s.hashedFind d tk ent va with
        | some c => some c
        | none =>
          let shlog := (ent.extractLsb' 104 6).toNat
          let b := hashedBucket tk va (w.extractLsb' 194 2).toNat shlog
          (List.range 16).findSome? fun i =>
            let cell := tableCell d (entRoot ent + (b + i / 4) % 2 ^ shlog * 128 + i % 4 * 32)
            if s.entry32 cell = 0 then some cell else none

/-! ## Moves (R67, R68) -/

/-- An invalidation record (R64). -/
def mkIvl (kind die : Nat) (tk : BitVec 16) (base limit : Nat) : BitVec 256 :=
  BitVec.ofNat 64 limit ++ BitVec.ofNat 64 base ++ BitVec.ofNat 64 (kind + die * 16 + tk.toNat * 65536) ++ 0#64
/-- A place that a move reads or writes: module `far - 1`, or the HBM of a die for 0. -/
def placeCell (far d phys : Nat) : Nat := if far = 0 then hbmCell d phys else farCell (far - 1) phys
/-- A place works (R19): its HBM, or its module. -/
def State.placeUp (s : State) (far d : Nat) : Bool :=
  if far = 0 then isCDie d && s.readyBit (12 + d) && s.dieUp d else s.readyBit (24 + (far - 1)) && s.dieUp (16 + (far - 1) / 8)
/-- Bytes of a place. -/
def placeSize (far : Nat) : Nat := if far = 0 then hbmSize else farSize
/-- The Vault that makes a move: the one of the F-die whose module takes part, else one that is up. -/
def State.vaultFor (s : State) (a b : Nat) : Nat :=
  if a ≠ 0 then 16 + (a - 1) / 8 else if b ≠ 0 then 16 + (b - 1) / 8 else if s.readyBit 53 then 16 else 17
/-- The place of a translation: its module plus one, or 0. -/
def TcEntry.place (e : TcEntry) : Nat := if e.far then e.fmod + 1 else 0
/-- Does the access-table entry of a page admit the Vault at a place, by class 4 (R58, R59 step 4): one of the system track, under which moves run
(R67), or one of the page's track, as in R69's example (DEDUCED, log entry 110). -/
def State.vaultAdmits (s : State) (far d ati : Nat) (tk : BitVec 16) (op : MemOp) : Bool :=
  let e := s.accEntry (if far = 0 then d else 16 + (far - 1) / 8) 0 ati
  accAdmits e 0 4 op || accAdmits e tk 4 op
/-- A move starts (R68 step 1): the entry becomes MIGRATING and a PAGE record for it is applied at the old home. -/
def State.moveStart (s : State) (home : Bool) (d new : Nat) (tk : BitVec 16) (va far phys : Nat) : State :=
  match s.pageEntry d tk va with
  | some (e, .present t) =>
    let v := s.vaultFor t.place far
    if !s.readyBit (53 + (v - 16)) || !s.dieUp v || !s.dieUp d || !s.placeUp t.place d || !s.placeUp far new ||
        phys % 2 ^ t.log2 ≠ 0 || decide (placeSize far < phys + 2 ^ t.log2) || (!home && t.place == far && far ≠ 0) ||
        (!home && (t.place == 0) == (far == 0)) || !s.vaultAdmits t.place d t.ati tk .read || !s.vaultAdmits far new t.ati tk .write then s
    else if home ∧ s.newSlot new tk va e = none then s
    else
      let s := s.putEntry e.migrating
      let s := s.applyRecord d (mkIvl 1 d tk t.base (t.base + 2 ^ t.log2))
      let m : Move :=
        { id := s.pkg.nextMove, home := home, vault := v, oldDie := d, newDie := new, track := tk, va := t.base, log2 := t.log2,
          oldPlace := t.place, oldPhys := t.phys, newPlace := far, newPhys := phys }
      { s with pkg := { s.pkg with moves := s.pkg.moves ++ [m], nextMove := s.pkg.nextMove + 1 } }
  | _ => s
/-- TIER_MOVE (R67, R68): of the page that a die homes, between its HBM and a module: `tgt` is 0 for HBM and 1 + m for module m. -/
def execTierMove (die va track tgt pa : Nat) (s : State) : Res :=
  .next (if isCDie die ∧ tgt ≤ 16 then s.moveStart false die die (BitVec.ofNat 16 track) va tgt pa else s)
/-- HOME_MOVE (R67, R68): to another die's HBM. -/
def execHomeMove (die va track dest tgt pa : Nat) (s : State) : Res :=
  .next (if (isCDie die ∨ isFDie die) ∧ isCDie dest ∧ dest ≠ die ∧ tgt = 0 then s.moveStart true die dest (BitVec.ofNat 16 track) va 0 pa else s)
/-- A range of memory copied by the Vault (R68 step 2), with the lines that carry errors. -/
def State.moveData (s : State) (src dst n : Nat) : State :=
  let part := s.mem.filter fun p => decide (src ≤ p.1) && decide (p.1 < src + n)
  let bad := s.poison.filter fun l => decide (src ≤ l) && decide (l < src + n)
  { s with mem := part.foldl (fun m p => writeByte m (p.1 - src + dst) p.2) (clearRange s.mem dst n),
           slots := clearRes s.slots none dst n,
           poison := clearPoison s.poison dst n ++ bad.map fun l => l - src + dst }
/-- The requests held for a page go on in their order (R68): checked again at the old home, they are performed at the new place or forwarded. -/
def State.releaseHeld (s : State) (m : Move) : State :=
  let n := s.ni m.oldDie
  let mine := fun (p : Pkt) => p.track == m.track && p.elems.any fun r => decide (m.va ≤ r.1) && decide (r.1 < m.va + 2 ^ m.log2)
  ((n.migrating.filter mine).foldl (fun s p => s.homeRun m.oldDie p true)
    (s.setNi m.oldDie { n with migrating := n.migrating.filter fun p => !mine p })).releaseBehind m.oldDie
/-- The cell of record `i` of a track's slot of the placement-map store (R51). -/
def State.storeCell (s : State) (tk : BitVec 16) (i : Nat) : Nat := hbmCell 0 (s.pkg.pmapimg.toNat + 8192 * trkIdx tk + 32 * i)
/-- The records that a track's placement map counts at a die (R49). -/
def State.nrecAt (s : State) (d : Nat) (tk : BitVec 16) : Nat := match s.trackEntry d tk with | some e => entNrec e | none => 0
/-- The record of the placement-map store that a home move writes, so that the page is homed at its new die (R67), and how many records before which it
comes in move one place up: over a SINGLE record of just this range, or over an unusable one, that no earlier usable record of the page comes before;
else first of all, with the records up to the next unusable or uncounted place behind it. DESIGN CHOICE (log entry 27): the spec does not say which
record changes. A page below 2 MiB is one that no record can name (R52): it stays FORWARDED only, as does a page where all 256 records are in use. -/
def State.remapRecord (s : State) (d : Nat) (m : Move) : Option (Nat × Nat) :=
  let n := s.nrecAt d m.track
  let lim := m.va + 2 ^ m.log2
  let at' := fun (i : Nat) => precOf (s.entry32 (s.storeCell m.track i))
  let fits := fun (i : Nat) => match at' i with | none => true | some r => r.mode == 1 && r.base == m.va && r.limit == lim
  let covers := fun (i : Nat) => match at' i with | none => false | some r => decide (r.base < lim) && decide (m.va < r.limit)
  if m.log2 < 21 then none
  else
    match (List.range n).find? fun i => fits i && (List.range i).all fun j => !covers j with
    | some i => some (i, 0)
    | none =>
      match (List.range n).find? fun i => (at' i).isNone with
      | some k => some (0, k)
      | none => if n < 256 then some (0, n) else none
/-- A track counts at least `n` placement records: in the track-table image and in every NI's table, which the B-die keeps identical (R49, R51). -/
def State.raiseNrec (s : State) (tk : BitVec 16) (n : Nat) : State :=
  let i := trkIdx tk
  let up := fun (e : BitVec 128) => if e.extractLsb' 112 16 = tk ∧ entNrec e < n then setField e 83 9 n else e
  let s := s.store none (s.trkImage i) (bytesLE 16 (up (BitVec.ofNat 128 (s.loadLE (s.trkImage i) 16))).toNat)
  allDies.foldl (fun s d =>
    let ni := s.ni d
    match kfind ni.trk i with
    | some e => s.setNi d { ni with trk := kset i (up e) ni.trk }
    | none => s) s
/-- The placement-map store after a home move. -/
def State.remap (s : State) (d : Nat) (m : Move) : State :=
  match s.remapRecord d m with
  | none => s
  | some (i, k) =>
    let behind := s.load (s.storeCell m.track i) (32 * k)
    let s := s.store none (s.storeCell m.track (i + 1)) behind
    let s := s.store none (s.storeCell m.track i) (bytesLE 8 m.va ++ bytesLE 8 (m.va + 2 ^ m.log2) ++ bytesLE 8 (1 + m.newDie * 16))
    s.raiseNrec m.track (i + k + 1)
/-- The end of a move's copy (R68 steps 2 to 4): after a tier move the entry is PRESENT at the new place; after a home move the new home's entry is,
then the old one is FORWARDED, the placement map is changed (R67), and a PMAP record is posted. -/
def State.moveDone (s : State) (m : Move) : State :=
  match s.pageEntry m.oldDie m.track m.va with
  | none => s
  | some (e, _) =>
    if !s.placeUp m.oldPlace m.oldDie || !s.placeUp m.newPlace m.newDie then s
    else
      let copied := s.moveData (placeCell m.oldPlace m.oldDie m.oldPhys) (placeCell m.newPlace m.newDie m.newPhys) (2 ^ m.log2)
      let copied := { copied with pkg := { copied.pkg with moves := copied.pkg.moves.filter (·.id != m.id) } }
      if !m.home then (copied.putEntry (e.present m.newPlace m.newPhys)).releaseHeld m
      else
        let r := mkIvl 0 0 m.track m.va (m.va + 2 ^ m.log2)
        match s.newSlot m.newDie m.track m.va e with
        | none => s
        | some cell =>
          if s.ivlFull r then s
          else
            let s := copied.putEntry ((e.present m.newPlace m.newPhys).moveTo cell)
            let s := (s.putEntry (e.forwarded m.newDie)).releaseHeld m
            ((s.remap m.newDie m).ivlPost r).2
/-- VAULT_COPY_DONE, of a move from a page of this die. -/
def execVaultCopyDone (die move : Nat) (s : State) : Res :=
  .next (
    match s.pkg.moves.find? fun m => m.id == move && m.oldDie == die with
    | some m => s.moveDone m
    | none => s)

/-! ## TRKLOAD (R51) -/

/-- A write to TRKLOAD: the B-die starts to reload an entry; while BUSY is 1 it is ignored. -/
def State.trkload (s : State) (v : Dword) : State :=
  if s.pkg.trkstat.getLsbD 0 then s else { s with pkg := { s.pkg with trkstat := 1, trkIndex := (v.extractLsb' 0 10).toNat } }
/-- TRKLOAD. -/
def execTrkload (value : Dword) (s : State) : Res := .next (s.trkload value)
/-- TRKLOAD_DONE: every live NI has loaded the entry, each with its own ROOT, and dropped its translations; BUSY clears. -/
def execTrkloadDone (s : State) : Res :=
  .next (
    if !s.pkg.trkstat.getLsbD 0 then s
    else
      let s := (allDies.filter s.dieUp).foldl (fun s d => s.loadTrack s.pkg.trkIndex d) s
      { s with pkg := { s.pkg with trkstat := 0 } })

/-! ## The host aperture (R72) -/

/-- A piece of a host access is sent to its home, or to the gateway. -/
def State.hostPiece (s : State) (write : Bool) (tk : BitVec 16) (a n : Nat) (data : List Byte) (poison : Bool) : State :=
  let (t, s) := s.newTag (.host (!write))
  let (e, pkg) := s.routeTo xDie tk a
  s.send { Pkt.blank with ty := if write then .write else .read, op := if write then .write else .read, va := a, track := tk,
                          src := niEp xDie, dst := e, dstPkg := pkg, master := 6, tag := t, elems := [(a, n)], data := data,
                          poison := poison }
/-- HOST_APERTURE_ACCESS: a TLP through BAR4 at offset `addr`. While HAEN is 0, and outside the global addresses, it fails. -/
def execHostApertureAccess (write : Bool) (addr len data : Nat) (poison : Bool) (s : State) : Res :=
  .next (
    let c := s.pkg.lnctl
    let va := (c.extractLsb' 28 20).toNat * 2 ^ 36 + addr
    if !s.readyBit 55 || !s.dieUp xDie then s
    else if !c.getLsbD 0 || decide (2 ^ 36 < addr + len) || addrClass va != .global || len == 0 then s.hostAnswer (!write) none false
    else
      let bytes := bytesLE len data
      (linePieces va len).foldl (fun s r =>
        s.hostPiece write (c.extractLsb' 48 16) r.1 r.2 (if write then (bytes.drop (r.1 - va)).take r.2 else []) (write && poison)) s)

end Sys2Proof.Machine
end

