-- ==== Sys2Proof/Machine/Regs.lean ====
section
/-!
DEFINITION. The package management block (R2, R18, R21, R22, R51, R73, R74, R86, R113, R116, R155): what a read of it returns and what a write does.
-/
namespace Sys2Proof.Machine

/-- The code of the boot ROM's step (R76). -/
def BootStep.code : BootStep → BitVec 4
  | .hbm => 0 | .link => 1 | .address => 2 | .fetch => 3 | .verify => 4 | .running => 5 | .rejected => 15
/-- BOOTSTAT (R76). -/
def State.bootstat (s : State) : Dword := 0#48 ++ s.boot.restarts ++ s.boot.step.code
/-- A word of a die's bank power map: 1 for a bank that is powered or waking (R155). -/
def State.powerWord (s : State) (d w : Nat) : Dword :=
  BitVec.ofNat 64 (((List.range 64).filter fun b =>
    (if w = 0 then decide (b < 60) else if w = 1 then decide (b < 24) else true) && !s.bankOff (d, w, b)).map (2 ^ ·)).sum
/-- The eight-byte word of the staging slots at an offset (R73). -/
def State.stagingWord (s : State) (o : Nat) : Dword :=
  (s.pkg.staging[o / 64 % 16]'(Nat.mod_lt _ (by decide))).extractLsb' (o / 8 % 8 * 64) 64
/-- A register of the block, by its offset, a multiple of 8. What the layout does not name reads zero. -/
def State.mgmtRead (s : State) (o : Nat) : Dword :=
  if o = 0x0000 then s.pkg.ready
  else if o = 0x0100 then s.pkg.ckctl
  else if o = 0x0108 then s.pkg.ckstat
  else if o = 0x0200 then BitVec.ofNat 64 s.starter.seq
  else if o = 0x0208 then BitVec.ofNat 64 s.starter.rejected
  else if o = 0x0210 then BitVec.ofNat 64 s.starter.dropped
  else if o = 0x0218 then BitVec.ofNat 64 s.starter.doneSeq
  else if o = 0x0220 then s.pkg.lnctl
  else if o = 0x0230 then s.starter.prestat
  else if o = 0x0308 then s.starter.grstat
  else if o = 0x0310 then s.pkg.grtrk
  else if o = 0x0400 then s.pkg.stamcfg
  else if o = 0x0408 then BitVec.ofInt 64 s.stamina
  else if o = 0x0500 then s.bootstat
  else if o = 0x0600 then s.pkg.trkimg
  else if o = 0x0608 then s.pkg.pmapimg
  else if o = 0x0610 then s.pkg.logbase
  else if o = 0x0620 then s.pkg.trkstat
  else if o = 0x3000 then s.pkg.rlytim0
  else if o = 0x3008 then s.pkg.rlytim1
  else if 0x1000 ≤ o ∧ o < 0x1400 then s.stagingWord (o - 0x1000)
  else if 0x2000 ≤ o ∧ o < 0x2000 + 8 * 288 then s.resource ((o - 0x2000) / 8)
  else if 0x4000 ≤ o ∧ o < 0x4000 + 64 * 12 then s.powerWord ((o - 0x4000) / 64) (o / 8 % 8)
  else 0

/-- A host read of a register of the block: none while it waits behind a record that the host has written and the intake has not taken, so that what it
returns reflects the outcome (R81). -/
def State.hostRegisterRead (s : State) (o : Nat) : Option Dword :=
  if s.starter.intake.any (fun x => x.baton.isNone && x.slot.isNone) then none else some (s.mgmtRead o)

/-- LNCTL as a write leaves it: the reserved bits read zero (R3, R74). -/
def lnctlValue (v : Dword) : Dword := v.extractLsb' 28 36 ++ 0#26 ++ v.extractLsb' 0 2
/-- STAMCFG as a write leaves it: a BUDGET above 3,600 is 3,600 (R86). -/
def stamcfgValue (v : Dword) : Dword :=
  v.extractLsb' 32 32 ++ 0#20 ++ (if 3600 < (v.extractLsb' 0 12).toNat then 3600#12 else v.extractLsb' 0 12)
/-- A timer field written as 0 is 1 (R116). -/
def timerField (v : BitVec 32) : BitVec 32 := if v = 0 then 1 else v
/-- A write to the staging slots (R73). A record of the slot that waits in the intake is submitted with contents that mix the old and the new (R75): whether
this write reaches it is a free value (log entry 116). -/
def State.stage (s : State) (o : Nat) (v : Dword) : State :=
  let k := s.pkg
  let i := o / 64 % 16
  let put := fun (w : BitVec 512) => setField w (o / 8 % 8 * 64) 64 v.toNat
  let s := { s with pkg := { k with staging := k.staging.set i (put (k.staging[i]'(Nat.mod_lt _ (by decide)))) (Nat.mod_lt _ (by decide)) } }
  if s.starter.intake.any (fun x => x.slot == some i) then
    let mix := fun (x : IntakeRec × Nat) =>
      if x.1.slot == some i && (Config.freeValue s.fresh).getLsbD (x.2 % 64) then { x.1 with record := put x.1.record } else x.1
    { s with starter := { s.starter with intake := s.starter.intake.zipIdx.map mix }, fresh := s.fresh + 1 }
  else s
/-- A write of a word of a die's bank power map: each 1 wakes its bank, each 0 gates it (R155, R156). -/
def State.powerWrite (s : State) (d w : Nat) (v : Dword) : State :=
  (List.range 64).foldl (fun s b => if v.getLsbD b then s.bankWake d w b else s.bankGate d w b) s
/-- A write of a register of the block by a master that may write it. Writes to a register that is read-only, and to what the layout
does not name, are ignored. -/
def State.mgmtWrite (s : State) (o : Nat) (v : Dword) : State :=
  let k := s.pkg
  if o % 8 ≠ 0 then s
  else if o = 0x0100 then s.ckctlWrite v
  else if o = 0x0220 then { s with pkg := { k with lnctl := lnctlValue v } }
  else if o = 0x0228 then s.prectlWrite v
  else if o = 0x0300 then s.grdefWrite v
  else if o = 0x0310 then { s with pkg := { k with grtrk := (v.extractLsb' 0 16).zeroExtend 64 } }
  else if o = 0x0400 then { s with pkg := { k with stamcfg := stamcfgValue v } }
  else if o = 0x0600 then { s with pkg := { k with trkimg := v } }
  else if o = 0x0608 then { s with pkg := { k with pmapimg := v } }
  else if o = 0x0610 then { s with pkg := { k with logbase := v } }
  else if o = 0x0618 then s.trkload v
  else if o = 0x1400 then s.intakeCommit none v
  else if o = 0x3000 then
    { s with pkg := { k with rlytim0 := timerField (v.extractLsb' 32 32) ++ timerField (v.extractLsb' 0 32) } }
  else if o = 0x3008 then { s with pkg := { k with rlytim1 := 0#32 ++ timerField (v.extractLsb' 0 32) } }
  else if 0x1000 ≤ o ∧ o < 0x1400 then s.stage (o - 0x1000) v
  else if 0x4000 ≤ o ∧ o < 0x4000 + 64 * 12 then s.powerWrite ((o - 0x4000) / 64) (o / 8 % 8) v
  else s
/-- REGISTER_WRITE (R2, R73): at an offset of the management block. -/
def execRegisterWrite (addr : Nat) (value : Dword) (s : State) : Res := .next (s.mgmtWrite addr value)

end Sys2Proof.Machine
end

