-- ==== Sys2Proof/Machine/Boot.lean ====
section
/-!
DEFINITION. Boot (R76), the verification of the boot image (R77) and the attestation identity (R78). SHAKE256 is that of FIPS 202 and XMSS that of
RFC 8391 with the parameter set of SP 800-208 that R77 names; frame formats are those of the RFCs (log entries 23 and 28).
-/
namespace Sys2Proof.Machine

/-! ## SHAKE256 -/

/-- A lane of a Keccak state of 25 lanes, lane x + 5 y. -/
def lane (a : List Dword) (x y : Nat) : Dword := a.getD (x % 5 + 5 * (y % 5)) 0
/-- The round constants of Keccak-f[1600]. -/
def keccakRound : List Dword :=
  [0x0000000000000001, 0x0000000000008082, 0x800000000000808A, 0x8000000080008000, 0x000000000000808B, 0x0000000080000001,
   0x8000000080008081, 0x8000000000008009, 0x000000000000008A, 0x0000000000000088, 0x0000000080008009, 0x000000008000000A] ++
  [0x000000008000808B, 0x800000000000008B, 0x8000000000008089, 0x8000000000008003, 0x8000000000008002, 0x8000000000000080,
   0x000000000000800A, 0x800000008000000A, 0x8000000080008081, 0x8000000000008080, 0x0000000080000001, 0x8000000080008008]
/-- The rotation of each lane. -/
def keccakRot : List Nat := [0, 1, 62, 28, 27, 36, 44, 6, 55, 20, 3, 10, 43, 25, 39, 41, 45, 15, 21, 8, 18, 2, 61, 56, 14]
/-- One round: theta, rho and pi, chi, iota. -/
def keccakStep (a : List Dword) (rc : Dword) : List Dword :=
  let c := (List.range 5).map fun x => lane a x 0 ^^^ lane a x 1 ^^^ lane a x 2 ^^^ lane a x 3 ^^^ lane a x 4
  let d := (List.range 5).map fun x => c.getD ((x + 4) % 5) 0 ^^^ (c.getD ((x + 1) % 5) 0).rotateLeft 1
  let t := (List.range 25).map fun i => (a.getD i 0 ^^^ d.getD (i % 5) 0).rotateLeft (keccakRot.getD i 0)
  let b := (List.range 25).map fun i => lane t (i % 5 + 3 * (i / 5)) (i % 5)
  let e := (List.range 25).map fun i =>
    lane b (i % 5) (i / 5) ^^^ (~~~(lane b (i % 5 + 1) (i / 5)) &&& lane b (i % 5 + 2) (i / 5))
  e.set 0 (e.getD 0 0 ^^^ rc)
/-- Keccak-f[1600]. -/
def keccakF (a : List Dword) : List Dword := keccakRound.foldl keccakStep a
/-- A block of 136 bytes taken into the state. -/
def keccakAbsorb (a : List Dword) (block : List Byte) : List Dword :=
  keccakF ((List.range 25).map fun i => a.getD i 0 ^^^ (if i < 17 then BitVec.ofNat 64 (natLE ((block.drop (8 * i)).take 8)) else 0))
/-- A message taken in by blocks, the last one padded for SHAKE. -/
def shakeAbsorb : Nat → List Dword → List Byte → List Dword
  | 0, a, _ => a
  | fuel + 1, a, m =>
    if m.length < 136 then
      let k := 135 - m.length
      keccakAbsorb a (if k = 0 then m ++ [0x9F#8] else m ++ [0x1F#8] ++ List.replicate (k - 1) 0 ++ [0x80#8])
    else shakeAbsorb fuel (keccakAbsorb a (m.take 136)) (m.drop 136)
/-- SHAKE256 taken to 32 bytes. -/
def shake256 (m : List Byte) : List Byte :=
  let a := shakeAbsorb (m.length / 136 + 1) (List.replicate 25 0) m
  (a.take 4).flatMap fun w => bytesLE 8 w.toNat

/-! ## XMSS -/

/-- A number in `n` bytes, the most significant first. -/
def toByte (v n : Nat) : List Byte := (bytesLE n v).reverse
/-- The keyed hash functions F, H, H_msg and PRF by their numbers 0 to 3. -/
def xmssHash (k : Nat) (key m : List Byte) : List Byte := shake256 (toByte k 32 ++ key ++ m)
/-- An address: eight words of which the layer and the tree are zero. -/
def xmssAdrs (type a b c mask : Nat) : List Byte :=
  toByte 0 12 ++ toByte type 4 ++ toByte a 4 ++ toByte b 4 ++ toByte c 4 ++ toByte mask 4
/-- Bytes combined by exclusive or. -/
def xorBytes (a b : List Byte) : List Byte := List.zipWith (· ^^^ ·) a b
/-- A randomized hash of two nodes. -/
def xmssNode (seed l r : List Byte) (type a b c : Nat) : List Byte :=
  let f := fun m => xmssHash 3 seed (xmssAdrs type a b c m)
  xmssHash 1 (f 0) (xorBytes l (f 1) ++ xorBytes r (f 2))
/-- A WOTS chain: `n` steps on from step `i`. -/
def wotsChain (seed : List Byte) (ots chain : Nat) : Nat → Nat → List Byte → List Byte
  | 0, _, x => x
  | n + 1, i, x =>
    let f := fun m => xmssHash 3 seed (xmssAdrs 0 ots chain i m)
    wotsChain seed ots chain n (i + 1) (xmssHash 0 (f 0) (xorBytes x (f 1)))
/-- The base-16 digits of bytes, the high one first. -/
def base16 (l : List Byte) : List Nat := l.flatMap fun b => [b.toNat / 16, b.toNat % 16]
/-- The 67 digits that a message digest signs, with its checksum. -/
def wotsDigits (m : List Byte) : List Nat :=
  let d := base16 m
  let sum := (d.map (15 - ·)).sum
  d ++ (base16 (toByte (sum * 16) 2)).take 3
/-- Pieces of 32 bytes. -/
def pieces32 (n : Nat) (l : List Byte) : List (List Byte) := (List.range n).map fun i => (l.drop (32 * i)).take 32
/-- One level of an L-tree: pairs are hashed, an odd last node goes up as it is. -/
def ltreeLevel (seed : List Byte) (ots height : Nat) : Nat → List (List Byte) → List (List Byte)
  | i, l :: r :: rest => xmssNode seed l r 1 ots height i :: ltreeLevel seed ots height (i + 1) rest
  | _, l => l
/-- The root of an L-tree of 67 nodes. -/
def ltree (seed : List Byte) (ots : Nat) (l : List (List Byte)) : List Byte :=
  ((List.range 7).foldl (fun l h => ltreeLevel seed ots h 0 l) l).headD []
/-- XMSS verification of a signature on a message under a public key. -/
def xmssVerify (pub sig msg : List Byte) : Bool :=
  let root := (pub.drop 4).take 32
  let seed := (pub.drop 36).take 32
  let idx := natLE (sig.take 4).reverse
  let m := xmssHash 2 ((sig.drop 4).take 32 ++ root ++ toByte idx 32) msg
  let ots := pieces32 67 (sig.drop 36)
  let auth := pieces32 10 (sig.drop 2180)
  let ends := (List.range 67).map fun i =>
    let d := (wotsDigits m).getD i 0
    wotsChain seed idx i (15 - d) d (ots.getD i [])
  let leaf := ltree seed idx ends
  let top := (List.range 10).foldl (fun node k =>
    let sib := auth.getD k []
    if idx / 2 ^ k % 2 = 0 then xmssNode seed node sib 2 0 k (idx / 2 ^ (k + 1)) else xmssNode seed sib node 2 0 k (idx / 2 ^ (k + 1))) leaf
  decide (pub.take 4 = toByte 0x10 4) && decide (top = root)

/-! ## The image (R77) -/

/-- A little-endian field of an image. -/
def imageField (l : List Byte) (o n : Nat) : Nat := natLE ((l.drop o).take n)
/-- The size of the header. -/
def imageHeader : Nat := 0xA20
/-- The checks of R77, in order, on an image. DESIGN CHOICE (log entry 121): an image shorter than its header and LENGTH, of which the spec says
nothing, is rejected. -/
def imageOk (l : List Byte) : Bool :=
  let len := imageField l 0x0C 4
  let pub := (l.drop 0x18).take 68
  imageField l 0 4 == 0x4D494A4E && imageField l 4 4 == 1 && decide (len ≤ 2 ^ 30) && decide (imageHeader + len ≤ l.length) &&
    natLE (shake256 pub) == Config.fuseDigest.toNat && decide (Config.fuseMinVersion ≤ imageField l 8 4) &&
    xmssVerify pub ((l.drop 0x5C).take 2500) (l.take 0x5C ++ (l.drop imageHeader).take len)

/-! ## The management Ethernet (R76) -/

/-- A big-endian field of a frame. -/
def netField (l : List Byte) (o n : Nat) : Nat := natLE ((l.drop o).take n).reverse
/-- The payload of an IPv6 frame with a next header: the source address and the bytes (Ethernet II, IPv6). -/
def ipv6Payload (f : List Byte) (next : Nat) : Option (Nat × List Byte) :=
  if netField f 12 2 = 0x86DD ∧ netField f 14 1 / 16 = 6 ∧ netField f 20 1 = next ∧ 54 + netField f 18 2 ≤ f.length then
    some (netField f 22 16, (f.drop 54).take (netField f 18 2))
  else none
/-- The data of the first option of a list of options, with a code, as DHCPv6 lays them out. -/
def dhcpOption (code : Nat) : Nat → List Byte → Option (List Byte)
  | 0, _ => none
  | fuel + 1, l =>
    if l.length < 4 then none
    else
      let n := netField l 2 2
      if netField l 0 2 = code then some ((l.drop 4).take n) else dhcpOption code fuel (l.drop (4 + n))
/-- The prefix of a router advertisement: the first prefix option of 64 bits that allows autonomous addresses. -/
def raPrefix : Nat → List Byte → Option Nat
  | 0, _ => none
  | fuel + 1, l =>
    let n := netField l 1 1 * 8
    if l.length < 8 ∨ n = 0 then none
    else if netField l 0 1 = 3 ∧ netField l 2 1 = 64 ∧ netField l 3 1 / 64 % 2 = 1 then some (netField l 16 8)
    else raPrefix fuel (l.drop n)
/-- A router advertisement. -/
def routerPrefix (f : List Byte) : Option Nat :=
  match ipv6Payload f 58 with
  | some (_, p) => if netField p 0 1 = 134 then raPrefix 64 (p.drop 16) else none
  | none => none
/-- The bytes of a text. -/
def asciiBytes (t : String) : List Byte := t.toList.map fun c => BitVec.ofNat 8 c.toNat
/-- A hexadecimal digit. -/
def hexDigit (b : Byte) : Option Nat :=
  let n := b.toNat
  if 48 ≤ n ∧ n < 58 then some (n - 48) else if 97 ≤ n ∧ n < 103 then some (n - 87) else if 65 ≤ n ∧ n < 71 then some (n - 55) else none
/-- A list of bytes split at a byte. -/
def splitAtByte (c : Byte) (l : List Byte) : List (List Byte) :=
  l.foldr (fun b acc => match acc with
    | w :: ws => if b = c then [] :: w :: ws else (b :: w) :: ws
    | [] => [[b]]) [[]]
/-- A group of an IPv6 address. -/
def hexGroup (l : List Byte) : Option Nat :=
  if l.isEmpty || decide (4 < l.length) then none else l.foldl (fun a b => a.bind fun a => (hexDigit b).map (a * 16 + ·)) (some 0)
/-- An IPv6 address in text: eight groups, or fewer with one run of empty groups that stands for zeros. -/
def ipv6Text (l : List Byte) : Option Nat :=
  let gs := splitAtByte 58#8 l
  let left := gs.takeWhile (!·.isEmpty)
  let right := (gs.reverse.takeWhile (!·.isEmpty)).reverse
  let full := if gs.length = 8 ∧ left.length = 8 then gs
    else if (gs.filter (·.isEmpty)).length ≤ 3 ∧ left.length + right.length < 8 then
      left ++ List.replicate (8 - left.length - right.length) [48#8] ++ right
    else []
  if full.length = 8 then
    full.foldl (fun a g => a.bind fun a => (hexGroup g).map (a * 65536 + ·)) (some 0)
  else none
/-- A boot file URL, `tftp://[address]/name` (R76): the address and the name. -/
def bootUrl (l : List Byte) : Option (Nat × List Byte) :=
  let head := asciiBytes "tftp://["
  if l.take head.length ≠ head then none
  else
    let rest := l.drop head.length
    let addr := rest.takeWhile (· != 93#8)
    let tail := rest.drop addr.length
    if tail.take 2 = asciiBytes "]/" then (ipv6Text addr).map fun a => (a, tail.drop 2) else none
/-- The boot file URL of a DHCPv6 reply: option 59. -/
def dhcpBootUrl (f : List Byte) : Option (Nat × List Byte) :=
  match ipv6Payload f 17 with
  | some (_, p) => if netField p 2 2 = 546 ∧ netField p 8 1 = 7 then (dhcpOption 59 (p.length) (p.drop 12)).bind bootUrl else none
  | none => none
/-- The value of a TFTP option, a decimal number, of an acknowledgement of options. -/
def tftpOption (name : List Byte) (l : List Byte) : Option Nat :=
  let ws := splitAtByte 0#8 l
  let i := ws.idxOf name
  match ws[i + 1]? with
  | some v => if v.isEmpty then none else v.foldl (fun a b => a.bind fun a => if 48 ≤ b.toNat ∧ b.toNat < 58 then some (a * 10 + (b.toNat - 48)) else none) (some 0)
  | none => none
/-- The cycles of one second. -/
def secondCycles : Nat := 1600000000
/-- The block size of the fetch (R76). -/
def tftpBlock : Nat := 1408
/-- The request for the boot file, with the blksize and tsize options (R76). -/
def tftpRequest (file : List Byte) : List Byte :=
  toByte 1 2 ++ file ++ [0#8] ++ ["octet", "blksize", "1408", "tsize", "0"].flatMap fun t => asciiBytes t ++ [0#8]
/-- The acknowledgement of a block, or of the options as block 0. -/
def tftpAck (block : Nat) : List Byte := toByte 4 2 ++ toByte (block % 65536) 2
/-- A TFTP packet from the server: the acknowledgement of the options, or the next block of the image. A block shorter than the block size is the
last one. -/
def Boot.tftp (b : Boot) (now : Nat) (p : List Byte) : Boot :=
  let op := netField p 0 2
  let data := p.drop 4
  if op = 6 ∧ b.blocks = 0 then { b with tsize := tftpOption (asciiBytes "tsize") (p.drop 2), resends := 0, sentAt := now, sent := tftpAck 0 :: b.sent }
  else if op = 3 ∧ netField p 2 2 = (b.blocks + 1) % 65536 ∧ data.length ≤ tftpBlock then
    let b := { b with image := b.image ++ data, blocks := b.blocks + 1, resends := 0, sentAt := now, sent := tftpAck (b.blocks + 1) :: b.sent }
    if data.length < tftpBlock then { b with complete := true, step := .verify } else b
  else b
/-- A frame at the boot ROM: what it carries counts in the step that waits for it. -/
def Boot.frame (b : Boot) (now : Nat) (f : List Byte) : Boot :=
  let b := if b.step = .link then { b with step := .address } else b
  if b.step = .address then
    match routerPrefix f, dhcpBootUrl f with
    | some p, _ => { b with address := p * 2 ^ 64 + Config.interfaceId.toNat }
    | none, some (server, file) =>
      { b with address := if b.address = 0 then 0xFE80 * 2 ^ 112 + Config.interfaceId.toNat else b.address, server := server, file := file,
               step := .fetch, image := [], blocks := 0, tsize := none, complete := false, resends := 0, sentAt := now,
               sent := tftpRequest file :: b.sent }
    | none, none => b
  else if b.step = .fetch ∧ b.waitUntil = none then
    match ipv6Payload f 17 with
    | some (src, p) => if src = b.server then b.tftp now (p.drop 8) else b
    | none => b
  else b
/-- What a frame has added to the image is loaded into C-die 0's HBM, from an address that the spec does not give (R76, log entry 122). -/
def State.loadImage (s : State) (old : Boot) : State :=
  let n := old.image.length
  let new := s.boot.image.drop n
  let a := Config.bootBase.toNat + n
  if old.step = .fetch ∧ new ≠ [] ∧ a + new.length ≤ hbmSize then s.store none (hbmCell 0 a) new else s
/-- MANAGEMENT_ETHERNET_FRAME. -/
def execManagementEthernetFrame (frame : List (BitVec 8)) (s : State) : Res :=
  .next ({ s with boot := s.boot.frame (s.swcAt bDie) frame }.loadImage s.boot)
/-- TFTP_RESEND: a block unacknowledged after 1 s is sent again, up to 5 times; then the fetch waits 10 s. -/
def execTftpResend (s : State) : Res :=
  .next (
    let b := s.boot
    let now := s.swcAt bDie
    if b.step ≠ .fetch ∨ b.waitUntil ≠ none ∨ now < b.sentAt + secondCycles then s
    else if b.resends < 5 then { s with boot := { b with resends := b.resends + 1, sentAt := now, sent := b.sent.take 1 ++ b.sent } }
    else { s with boot := { b with waitUntil := some (now + 10 * secondCycles) } })
/-- FETCH_RESTART: 10 s after a failed fetch or a rejected image the ROM goes on from step 3. -/
def execFetchRestart (s : State) : Res :=
  .next (
    let b := s.boot
    match b.waitUntil with
    | none => s
    | some t =>
      if s.swcAt bDie < t ∨ (b.step ≠ .fetch ∧ b.step ≠ .rejected) then s
      else
        { s with boot := { b with step := .address, restarts := if b.restarts = 4095#12 then b.restarts else b.restarts + 1, address := 0,
                                  server := 0, file := [], image := [], blocks := 0, tsize := none, complete := false, resends := 0,
                                  waitUntil := none } })

/-! ## Verification and identity (R77, R78) -/

/-- What the identity key certifies: a fresh boot key, a free value of the power-on (log entry 13), and the image that has been verified. -/
def Boot.certified (b : Boot) : Certificate :=
  { key := Config.bootKey b.leaf, version := b.version, digest := BitVec.ofNat 256 (natLE (shake256 b.image)), fuseDigest := Config.fuseDigest,
    fuseMinVersion := Config.fuseMinVersion }
/-- The identity key certifies a boot key at the first boot after a power-on, for 1,024 power-ons; ATTEST stands while the boot key may sign. -/
def State.certify (s : State) : State :=
  let b := s.boot
  if b.powered ∧ b.leaf < 1024 then
    ({ s with boot := { b with leaf := b.leaf + 1, quotes := 1024, powered := false, certificate := some b.certified } }).setReady 58 true
  else ({ s with boot := { b with powered := false } }).setReady 58 (decide (0 < b.quotes))
/-- IMAGE_VERIFY: an accepted image runs on the OS cores from its entry point; a rejected one starts nothing, and the fetch restarts after 10 s. -/
def execImageVerify (s : State) : Res :=
  .next (
    let b := s.boot
    if b.step ≠ .verify then s
    else if imageOk b.image then
      ({ s with boot := { b with step := .running, entry := some (imageField b.image 0x10 8), version := imageField b.image 8 4 } }).certify
    else { s with boot := { b with step := .rejected, waitUntil := some (s.swcAt bDie + 10 * secondCycles) } })

end Sys2Proof.Machine
end

