-- ==== Sys2Proof/Machine/Compressed.lean ====
section
/-!
DEFINITION. The meanings of the compressed instructions (R191): each is the full-length instruction that the Zca specification expands
it to, with a length of two bytes. Encodings marked as hints are no-ops: their destination is x0, or their amount is 0.
-/
namespace Sys2Proof.Machine

/-- C.ADDI4SPN: rd' = sp + nzuimm. -/
def execCAddi4spn (rd : BitVec 3) (imm : BitVec 8) (s : State) : Res :=
  .next (s.opRI (creg rd) 2 (uimm imm 2) (fun a b => a + b) 2)
/-- C.LW. -/
def execCLw (rd rs1 : BitVec 3) (imm : BitVec 5) (s : State) : Res :=
  .next (s.loadX (creg rd) (s.x (creg rs1) + uimm imm 2).toNat 4 true false none 2)
/-- C.LD. -/
def execCLd (rd rs1 : BitVec 3) (imm : BitVec 5) (s : State) : Res :=
  .next (s.loadX (creg rd) (s.x (creg rs1) + uimm imm 3).toNat 8 true false none 2)
/-- C.SW. -/
def execCSw (rs1 rs2 : BitVec 3) (imm : BitVec 5) (s : State) : Res :=
  .next (s.storeX (s.x (creg rs1) + uimm imm 2).toNat 4 (s.x (creg rs2)) none 2)
/-- C.SD. -/
def execCSd (rs1 rs2 : BitVec 3) (imm : BitVec 5) (s : State) : Res :=
  .next (s.storeX (s.x (creg rs1) + uimm imm 3).toNat 8 (s.x (creg rs2)) none 2)
/-- C.ADDI. -/
def execCAddi (rd : Reg) (imm : BitVec 6) (s : State) : Res :=
  .next (s.opRI rd rd (simm6 imm) (fun a b => a + b) 2)
/-- C.NOP, with its hints. -/
def execCNop (_imm : BitVec 6) (s : State) : Res :=
  .next (s.fin 2)
/-- C.ADDIW. -/
def execCAddiw (rd : Reg) (imm : BitVec 6) (s : State) : Res :=
  .next (s.opRI rd rd (simm6 imm) (onW fun a b => a + b) 2)
/-- C.LI. -/
def execCLi (rd : Reg) (imm : BitVec 6) (s : State) : Res :=
  .next (s.finX rd (simm6 imm) 2)
/-- C.ADDI16SP: sp + nzimm, in units of 16. -/
def execCAddi16sp (imm : BitVec 6) (s : State) : Res :=
  .next (s.opRI 2 2 (simm6 imm <<< 4) (fun a b => a + b) 2)
/-- C.LUI. -/
def execCLui (rd : Reg) (imm : BitVec 6) (s : State) : Res :=
  .next (s.finX rd (simm6 imm <<< 12) 2)
/-- C.SRLI. -/
def execCSrli (rd : BitVec 3) (sh : BitVec 6) (s : State) : Res :=
  .next (s.opRI (creg rd) (creg rd) (zext64 sh) (fun a b => a >>> b.toNat) 2)
/-- C.SRAI. -/
def execCSrai (rd : BitVec 3) (sh : BitVec 6) (s : State) : Res :=
  .next (s.opRI (creg rd) (creg rd) (zext64 sh) (fun a b => a.sshiftRight b.toNat) 2)
/-- C.ANDI. -/
def execCAndi (rd : BitVec 3) (imm : BitVec 6) (s : State) : Res :=
  .next (s.opRI (creg rd) (creg rd) (simm6 imm) (fun a b => a &&& b) 2)
/-- C.SUB. -/
def execCSub (rd rs2 : BitVec 3) (s : State) : Res :=
  .next (s.opRR (creg rd) (creg rd) (creg rs2) (fun a b => a - b) 2)
/-- C.XOR. -/
def execCXor (rd rs2 : BitVec 3) (s : State) : Res :=
  .next (s.opRR (creg rd) (creg rd) (creg rs2) (fun a b => a ^^^ b) 2)
/-- C.OR. -/
def execCOr (rd rs2 : BitVec 3) (s : State) : Res :=
  .next (s.opRR (creg rd) (creg rd) (creg rs2) (fun a b => a ||| b) 2)
/-- C.AND. -/
def execCAnd (rd rs2 : BitVec 3) (s : State) : Res :=
  .next (s.opRR (creg rd) (creg rd) (creg rs2) (fun a b => a &&& b) 2)
/-- C.SUBW. -/
def execCSubw (rd rs2 : BitVec 3) (s : State) : Res :=
  .next (s.opRR (creg rd) (creg rd) (creg rs2) (onW fun a b => a - b) 2)
/-- C.ADDW. -/
def execCAddw (rd rs2 : BitVec 3) (s : State) : Res :=
  .next (s.opRR (creg rd) (creg rd) (creg rs2) (onW fun a b => a + b) 2)
/-- C.J. -/
def execCJ (off : BitVec 11) (s : State) : Res :=
  .next (s.jump (s.target off))
/-- C.BEQZ. -/
def execCBeqz (rs1 : BitVec 3) (off : BitVec 8) (s : State) : Res :=
  .next (s.branchIf (s.x (creg rs1) == 0) (s.target off) 2)
/-- C.BNEZ. -/
def execCBnez (rs1 : BitVec 3) (off : BitVec 8) (s : State) : Res :=
  .next (s.branchIf (s.x (creg rs1) != 0) (s.target off) 2)
/-- C.SLLI. -/
def execCSlli (rd : Reg) (sh : BitVec 6) (s : State) : Res :=
  .next (s.opRI rd rd (zext64 sh) (fun a b => a <<< b.toNat) 2)
/-- C.LWSP. -/
def execCLwsp (rd : Reg) (imm : BitVec 6) (s : State) : Res :=
  .next (s.loadX rd (s.x 2 + uimm imm 2).toNat 4 true false none 2)
/-- C.LDSP. -/
def execCLdsp (rd : Reg) (imm : BitVec 6) (s : State) : Res :=
  .next (s.loadX rd (s.x 2 + uimm imm 3).toNat 8 true false none 2)
/-- C.JR. -/
def execCJr (rs1 : Reg) (s : State) : Res :=
  .next (s.jump (s.x rs1))
/-- C.MV. -/
def execCMv (rd rs2 : Reg) (s : State) : Res :=
  .next (s.finX rd (s.x rs2) 2)
/-- C.EBREAK: cause 3 (R192). -/
def execCEbreak (s : State) : Res :=
  .next (s.breakpoint)
/-- C.JALR. -/
def execCJalr (rs1 : Reg) (s : State) : Res :=
  .next (s.jumpLink 1 (s.x rs1) 2)
/-- C.ADD. -/
def execCAdd (rd rs2 : Reg) (s : State) : Res :=
  .next (s.opRR rd rd rs2 (fun a b => a + b) 2)
/-- C.SWSP. -/
def execCSwsp (rs2 : Reg) (imm : BitVec 6) (s : State) : Res :=
  .next (s.storeX (s.x 2 + uimm imm 2).toNat 4 (s.x rs2) none 2)
/-- C.SDSP. -/
def execCSdsp (rs2 : Reg) (imm : BitVec 6) (s : State) : Res :=
  .next (s.storeX (s.x 2 + uimm imm 3).toNat 8 (s.x rs2) none 2)

end Sys2Proof.Machine
end

