-- ==== Sys2Proof/Machine/Csr.lean ====
section
/-!
DEFINITION. The CSRs that user code reaches (R135, R136) and the Zicsr instructions.
-/
namespace Sys2Proof.Machine

/-- Is an address one of R136. -/
def csrExists (a : Nat) : Bool :=
  [0x001, 0x002, 0x003, 0x800, 0x801, 0x802, 0x803, 0x804, 0x805, 0x806, 0x807, 0x808, 0x809, 0x80A, 0x810, 0x811, 0x812, 0x813,
   0x814, 0x815, 0x820, 0x821, 0x822, 0xC00, 0xC01, 0xC02, 0xCC0, 0xCC1, 0xCC2, 0xCC3, 0xCC4, 0xCC5, 0xCC6, 0xCC7, 0xCC8].contains a
/-- Is a CSR's access RO. -/
def csrReadOnly (a : Nat) : Bool := a == 0x807 || a == 0x80A || a == 0x820 || a == 0x821 || decide (0xC00 ≤ a)
/-- The CSRs that every core has, the 16 OS cores of the B-die among them, as core `cid` reads them for a baton with CTRL [47:32] = `grp`: the
stopwatch (R13), the DMRs (R96), XCID (R11), XREADY (R18) and XSTAM (R28). -/
def State.coreCsr (s : State) (cid : Nat) (grp : BitVec 16) (a : Nat) : Dword :=
  match a with
  | 0xC00 => BitVec.ofNat 64 (s.swcAt (cidDie cid))
  | 0xC01 => BitVec.ofNat 64 (s.swcAt (cidDie cid))
  | 0xCC0 => s.dmr cid grp 1
  | 0xCC1 => s.dmr cid grp 2
  | 0xCC2 => s.dmr cid grp 3
  | 0xCC3 => s.dmr cid grp 4
  | 0xCC4 => BitVec.ofNat 64 cid
  | 0xCC6 => s.pkg.ready
  | 0xCC7 => BitVec.ofInt 64 s.stamina
  | _ => 0
/-- The value of a CSR of the focus slot (R136). -/
def State.csrRead (s : State) (a : Nat) : Dword :=
  let t := s.me
  let c := t.csr
  let carve := s.carve s.myPcl t.launch
  match a with
  | 0x001 => zext64 c.fflags
  | 0x002 => zext64 c.frm
  | 0x003 => zext64 t.fcsr
  | 0x800 => c.xutvec
  | 0x801 => c.xuepc
  | 0x802 => c.xucause
  | 0x803 => c.xutval
  | 0x804 => c.xufmask
  | 0x805 => zext64 c.xrrb
  | 0x806 => zext64 c.xmscope
  | 0x807 => zext64 c.xrole
  | 0x808 => zext64 c.xage
  | 0x809 => zext64 c.xshare
  | 0x80A => zext64 c.xgangidx
  | 0x810 => c.mfmt
  | 0x811 => c.msca
  | 0x812 => c.mscb
  | 0x813 => c.mklen
  | 0x814 => (s.core s.myCid).mmprog (keySlot s.focus) c.mmprog
  | 0x815 => zext64 c.mgrp
  | 0x820 => BitVec.ofNat 64 carve.base
  | 0x821 => BitVec.ofNat 64 carve.fin
  | 0x822 => carve.xovf
  | 0xC02 => (s.core s.myCid).instret
  | 0xCC5 => t.xbaton
  | 0xCC8 => (s.cluster s.myPcl).xstray
  | _ => s.coreCsr s.myCid t.group a
/-- The CSRs of a slot with one of them written, adjusted to its legal range (R136, R137, R267 to R269). -/
def csrPut (c : SlotCsrs) (a : Nat) (v : Dword) : SlotCsrs :=
  match a with
  | 0x001 => { c with fflags := v.extractLsb' 0 5 }
  | 0x002 => { c with frm := v.extractLsb' 0 3 }
  | 0x003 => { c with fflags := v.extractLsb' 0 5, frm := v.extractLsb' 5 3 }
  | 0x800 => { c with xutvec := csrXutvec v }
  | 0x801 => { c with xuepc := csrXuepc v }
  | 0x802 => { c with xucause := csrXucause v }
  | 0x803 => { c with xutval := v }
  | 0x804 => { c with xufmask := v }
  | 0x805 => { c with xrrb := v.extractLsb' 0 4 }
  | 0x806 => { c with xmscope := v.extractLsb' 0 2 }
  | 0x808 => { c with xage := csrXage v }
  | 0x809 => { c with xshare := csrXshare v }
  | 0x810 => { c with mfmt := csrMfmt c.mfmt v }
  | 0x811 => { c with msca := csrMsc v }
  | 0x812 => { c with mscb := csrMsc v }
  | 0x813 => { c with mklen := csrMklen v }
  | 0x814 => { c with mmprog := csrMmprog v }
  | 0x815 => { c with mgrp := csrMgrp c.mgrp v }
  | _ => c
/-- The expected-panel counts of the ports follow a write of MMPROG by the owner of the matrix context (R269). -/
def Core.putExp (c : Core) (slot : Nat) (v : Dword) : Core :=
  if c.owner = some slot then
    { c with sta := { c.sta with exp := v.extractLsb' 32 8 }, stb := { c.stb with exp := v.extractLsb' 40 8 } }
  else c
/-- A CSR of the focus slot written. XOVF is the launch's on the cluster (R146). A write to MMPROG while an MM.TILE of the slot is stalled
is ignored (R266). -/
def State.csrWrite (s : State) (a : Nat) (v : Dword) : State :=
  if a = 0x814 ∧ ((s.core s.myCid).stalledPort (keySlot s.focus)).isSome then s
  else if a = 0x822 then
    s.setCarve s.myPcl s.me.launch { s.carve s.myPcl s.me.launch with xovf := v &&& ~~~0x3F#64 }
  else
    let s := s.setMe { s.me with csr := csrPut s.me.csr a v }
    if a = 0x814 then s.setCore s.myCid ((s.core s.myCid).putExp (keySlot s.focus) v) else s
/-- A Zicsr instruction (R135): an absent CSR, and a write of an RO one, are illegal; otherwise rd takes the old value and the CSR the
new one. `writes` says that the instruction writes. -/
def State.csrOp (s : State) (e : Encoding) (rd : Reg) (csr : BitVec 12) (writes : Bool) (f : Dword → Dword) : State :=
  let a := csr.toNat
  if !csrExists a || (writes && csrReadOnly a) then s.illegal (match e with | .word w => w | _ => 0)
  else
    let old := s.csrRead a
    (if writes then s.csrWrite a (f old) else s).finX rd old 4

/-- CSRRW. -/
def execCsrrw (rd rs1 : Reg) (csr : BitVec 12) (s : State) : Res :=
  .next (s.csrOp (encode (.csrrw rd rs1 csr)) rd csr true fun _ => s.x rs1)
/-- CSRRS: it writes unless rs1 is x0. -/
def execCsrrs (rd rs1 : Reg) (csr : BitVec 12) (s : State) : Res :=
  .next (s.csrOp (encode (.csrrs rd rs1 csr)) rd csr (rs1 != 0) fun old => old ||| s.x rs1)
/-- CSRRC: it writes unless rs1 is x0. -/
def execCsrrc (rd rs1 : Reg) (csr : BitVec 12) (s : State) : Res :=
  .next (s.csrOp (encode (.csrrc rd rs1 csr)) rd csr (rs1 != 0) fun old => old &&& ~~~(s.x rs1))
/-- CSRRWI. -/
def execCsrrwi (rd : Reg) (csr : BitVec 12) (uimm : Reg) (s : State) : Res :=
  .next (s.csrOp (encode (.csrrwi rd csr uimm)) rd csr true fun _ => zext64 uimm)
/-- CSRRSI: it writes unless the immediate is 0. -/
def execCsrrsi (rd : Reg) (csr : BitVec 12) (uimm : Reg) (s : State) : Res :=
  .next (s.csrOp (encode (.csrrsi rd csr uimm)) rd csr (uimm != 0) fun old => old ||| zext64 uimm)
/-- CSRRCI: it writes unless the immediate is 0. -/
def execCsrrci (rd : Reg) (csr : BitVec 12) (uimm : Reg) (s : State) : Res :=
  .next (s.csrOp (encode (.csrrci rd csr uimm)) rd csr (uimm != 0) fun old => old &&& ~~~(zext64 uimm))

end Sys2Proof.Machine
end

