-- ==== Sys2Proof/Machine/Fp.lean ====
section
/-!
DEFINITION. The meanings of the scalar Zfinx instructions (R132, R191, R192): FP32 operands in bits [31:0] of x registers, results
sign-extended from bit 31, fflags accrued and no trap on an exception.
-/
namespace Sys2Proof.Machine

/-! ## Shared operations -/

/-- An FP32 operand. -/
def State.f (s : State) (r : Reg) : FVal := fdecode .f32 (lowW (s.x r)).toNat
/-- An FP32 result in an x register. -/
def f32X (bits : Nat) : Dword := (BitVec.ofNat 32 bits).signExtend 64
/-- An FP32 result with its exceptions. -/
def State.finF (s : State) (rd : Reg) (r : FRes) : State := (s.accrue r.flags).finX rd (f32X r.bits) 4
/-- An operation in the mode of its field; an illegal mode traps cause 2 with the instruction's word. -/
def State.withMode (s : State) (rm : BitVec 3) (e : Encoding) (f : RMode → State) : State :=
  match rmodeOf rm s.me.csr.frm with
  | some m => f m
  | none => s.illegal (match e with | .word w => w | _ => 0)
/-- FMIN.S and FMAX.S of the RISC-V specification: a NaN operand gives the other one, two NaNs the canonical NaN; a signalling NaN is
invalid. -/
def scalarMinMax (greater : Bool) (x y : Nat) : FRes :=
  let a := fdecode .f32 x
  let b := fdecode .f32 y
  let fl : FFlags := { nv := isSnan a || isSnan b }
  if isNan a && isNan b then ⟨fmtNaN .f32, fl⟩
  else if isNan a then ⟨y, fl⟩
  else if isNan b then ⟨x, fl⟩
  else ⟨minmaxBits .f32 greater x y, fl⟩
/-- A comparison's result; FLT.S and FLE.S are invalid on any NaN, FEQ.S on a signalling one only. -/
def State.finCmp (s : State) (rd : Reg) (v : Bool) (nv : Bool) : State := (s.accrue { nv := nv }).finX rd (boolX v) 4
/-- FCVT to an integer of `w` bits as the RISC-V specification has it: out of range and NaN are invalid and give the nearest bound, a
NaN the greatest value; the result is sign-extended to 64 bits. -/
def fcvtInt (mode : RMode) (sgn : Bool) (w : Nat) (a : FVal) : Dword × FFlags :=
  let lo : Int := if sgn then -(2 ^ (w - 1)) else 0
  let hi : Int := if sgn then 2 ^ (w - 1) - 1 else 2 ^ w - 1
  let put := fun (i : Int) => if w = 32 then (BitVec.ofInt 32 i).signExtend 64 else BitVec.ofInt 64 i
  match a with
  | .nan _ => (put hi, { nv := true })
  | .inf n => (put (if n then lo else hi), { nv := true })
  | .fin n m e =>
    let i := toIntV mode n m e
    if i < lo then (put lo, { nv := true })
    else if hi < i then (put hi, { nv := true })
    else
      let exact := decide (scaleNum m e % scaleDen 1 e = 0)
      (put i, { nx := !exact })
/-- A conversion to an integer. -/
def State.finInt (s : State) (rd rs1 : Reg) (mode : RMode) (sgn : Bool) (w : Nat) : State :=
  let r := fcvtInt mode sgn w (s.f rs1)
  (s.accrue r.2).finX rd r.1 4
/-- FCLASS.S. -/
def fclass (x : Nat) : Nat :=
  let neg := x.testBit 31
  match fdecode .f32 x with
  | .nan true => 2 ^ 8
  | .nan false => 2 ^ 9
  | .inf _ => if neg then 2 ^ 0 else 2 ^ 7
  | .fin _ m _ =>
    if m = 0 then (if neg then 2 ^ 3 else 2 ^ 4)
    else if m < 2 ^ 23 then (if neg then 2 ^ 2 else 2 ^ 5)
    else (if neg then 2 ^ 1 else 2 ^ 6)
/-- The sign-injection instructions: the magnitude of rs1 with a sign made of both. -/
def State.finSign (s : State) (rd rs1 rs2 : Reg) (f : Bool → Bool → Bool) : State :=
  let a := lowW (s.x rs1)
  let b := lowW (s.x rs2)
  s.finX rd ((BitVec.ofBool (f (a.getLsbD 31) (b.getLsbD 31)) ++ a.extractLsb' 0 31).signExtend 64) 4

/-! ## Arithmetic -/

/-- FADD.S. -/
def execFaddS (rd rs1 rs2 : Reg) (rm : BitVec 3) (s : State) : Res :=
  .next (s.withMode rm (encode (.faddS rd rs1 rs2 rm)) fun m => s.finF rd (addV .f32 m (s.f rs1) (s.f rs2)))
/-- FSUB.S. -/
def execFsubS (rd rs1 rs2 : Reg) (rm : BitVec 3) (s : State) : Res :=
  .next (s.withMode rm (encode (.fsubS rd rs1 rs2 rm)) fun m => s.finF rd (addV .f32 m (s.f rs1) (negV (s.f rs2))))
/-- FMUL.S. -/
def execFmulS (rd rs1 rs2 : Reg) (rm : BitVec 3) (s : State) : Res :=
  .next (s.withMode rm (encode (.fmulS rd rs1 rs2 rm)) fun m => s.finF rd (mulV .f32 m (s.f rs1) (s.f rs2)))
/-- FDIV.S. -/
def execFdivS (rd rs1 rs2 : Reg) (rm : BitVec 3) (s : State) : Res :=
  .next (s.withMode rm (encode (.fdivS rd rs1 rs2 rm)) fun m => s.finF rd (divV .f32 m (s.f rs1) (s.f rs2)))
/-- FSQRT.S. -/
def execFsqrtS (rd rs1 : Reg) (rm : BitVec 3) (s : State) : Res :=
  .next (s.withMode rm (encode (.fsqrtS rd rs1 rm)) fun m => s.finF rd (sqrtV .f32 m (s.f rs1)))
/-- FSGNJ.S. -/
def execFsgnjS (rd rs1 rs2 : Reg) (s : State) : Res :=
  .next (s.finSign rd rs1 rs2 (fun _ b => b))
/-- FSGNJN.S. -/
def execFsgnjnS (rd rs1 rs2 : Reg) (s : State) : Res :=
  .next (s.finSign rd rs1 rs2 (fun _ b => !b))
/-- FSGNJX.S. -/
def execFsgnjxS (rd rs1 rs2 : Reg) (s : State) : Res :=
  .next (s.finSign rd rs1 rs2 (fun a b => a != b))
/-- FMIN.S. -/
def execFminS (rd rs1 rs2 : Reg) (s : State) : Res :=
  .next (s.finF rd (scalarMinMax false (lowW (s.x rs1)).toNat (lowW (s.x rs2)).toNat))
/-- FMAX.S. -/
def execFmaxS (rd rs1 rs2 : Reg) (s : State) : Res :=
  .next (s.finF rd (scalarMinMax true (lowW (s.x rs1)).toNat (lowW (s.x rs2)).toNat))
/-- FLE.S. -/
def execFleS (rd rs1 rs2 : Reg) (s : State) : Res :=
  .next (s.finCmp rd (ltV (s.f rs1) (s.f rs2) || eqV (s.f rs1) (s.f rs2)) (isNan (s.f rs1) || isNan (s.f rs2)))
/-- FLT.S. -/
def execFltS (rd rs1 rs2 : Reg) (s : State) : Res :=
  .next (s.finCmp rd (ltV (s.f rs1) (s.f rs2)) (isNan (s.f rs1) || isNan (s.f rs2)))
/-- FEQ.S. -/
def execFeqS (rd rs1 rs2 : Reg) (s : State) : Res :=
  .next (s.finCmp rd (eqV (s.f rs1) (s.f rs2)) (isSnan (s.f rs1) || isSnan (s.f rs2)))

/-! ## Conversions and classes -/

/-- FCVT.W.S: a 32-bit result is sign-extended. -/
def execFcvtWS (rd rs1 : Reg) (rm : BitVec 3) (s : State) : Res :=
  .next (s.withMode rm (encode (.fcvtWS rd rs1 rm)) fun m => s.finInt rd rs1 m true 32)
/-- FCVT.WU.S: a 32-bit result is sign-extended. -/
def execFcvtWuS (rd rs1 : Reg) (rm : BitVec 3) (s : State) : Res :=
  .next (s.withMode rm (encode (.fcvtWuS rd rs1 rm)) fun m => s.finInt rd rs1 m false 32)
/-- FCVT.L.S: a 32-bit result is sign-extended. -/
def execFcvtLS (rd rs1 : Reg) (rm : BitVec 3) (s : State) : Res :=
  .next (s.withMode rm (encode (.fcvtLS rd rs1 rm)) fun m => s.finInt rd rs1 m true 64)
/-- FCVT.LU.S: a 32-bit result is sign-extended. -/
def execFcvtLuS (rd rs1 : Reg) (rm : BitVec 3) (s : State) : Res :=
  .next (s.withMode rm (encode (.fcvtLuS rd rs1 rm)) fun m => s.finInt rd rs1 m false 64)
/-- FCVT.S.W. -/
def execFcvtSW (rd rs1 : Reg) (rm : BitVec 3) (s : State) : Res :=
  .next (s.withMode rm (encode (.fcvtSW rd rs1 rm)) fun m => s.finF rd (ofIntV .f32 m (lowW (s.x rs1)).toInt))
/-- FCVT.S.WU. -/
def execFcvtSWu (rd rs1 : Reg) (rm : BitVec 3) (s : State) : Res :=
  .next (s.withMode rm (encode (.fcvtSWu rd rs1 rm)) fun m => s.finF rd (ofIntV .f32 m (lowW (s.x rs1)).toNat))
/-- FCVT.S.L. -/
def execFcvtSL (rd rs1 : Reg) (rm : BitVec 3) (s : State) : Res :=
  .next (s.withMode rm (encode (.fcvtSL rd rs1 rm)) fun m => s.finF rd (ofIntV .f32 m (s.x rs1).toInt))
/-- FCVT.S.LU. -/
def execFcvtSLu (rd rs1 : Reg) (rm : BitVec 3) (s : State) : Res :=
  .next (s.withMode rm (encode (.fcvtSLu rd rs1 rm)) fun m => s.finF rd (ofIntV .f32 m (s.x rs1).toNat))
/-- FCLASS.S. -/
def execFclassS (rd rs1 : Reg) (s : State) : Res :=
  .next (s.finX rd (BitVec.ofNat 64 (fclass (lowW (s.x rs1)).toNat)) 4)

/-! ## Fused multiply-add -/

/-- FMADD.S: rs1 × rs2 + rs3. -/
def execFmaddS (rd rs1 rs2 rs3 : Reg) (rm : BitVec 3) (s : State) : Res :=
  .next (s.withMode rm (encode (.fmaddS rd rs1 rs2 rs3 rm)) fun m =>
    s.finF rd (fmaV .f32 m (s.f rs1) (s.f rs2) (s.f rs3)))
/-- FMSUB.S: rs1 × rs2 − rs3. -/
def execFmsubS (rd rs1 rs2 rs3 : Reg) (rm : BitVec 3) (s : State) : Res :=
  .next (s.withMode rm (encode (.fmsubS rd rs1 rs2 rs3 rm)) fun m =>
    s.finF rd (fmaV .f32 m (s.f rs1) (s.f rs2) (negV (s.f rs3))))
/-- FNMSUB.S: −(rs1 × rs2) + rs3. -/
def execFnmsubS (rd rs1 rs2 rs3 : Reg) (rm : BitVec 3) (s : State) : Res :=
  .next (s.withMode rm (encode (.fnmsubS rd rs1 rs2 rs3 rm)) fun m =>
    s.finF rd (fmaV .f32 m (negV (s.f rs1)) (s.f rs2) (s.f rs3)))
/-- FNMADD.S: −(rs1 × rs2) − rs3. -/
def execFnmaddS (rd rs1 rs2 rs3 : Reg) (rm : BitVec 3) (s : State) : Res :=
  .next (s.withMode rm (encode (.fnmaddS rd rs1 rs2 rs3 rm)) fun m =>
    s.finF rd (fmaV .f32 m (negV (s.f rs1)) (s.f rs2) (negV (s.f rs3))))

end Sys2Proof.Machine
end

