-- ==== Sys2Proof/Machine/Dispatch.lean ====
section
/-!
DEFINITION. The meaning of every row of the opcode table, arm by arm.
-/
namespace Sys2Proof.Machine

/-- The meaning of an instruction, or of an event, in a state. -/
def exec (i : Instr) (s : State) : Host.Outcome State Fault Refusal :=
  match i with
  | .lui rd imm => Sys2Proof.Machine.execLui rd imm s
  | .auipc rd imm => Sys2Proof.Machine.execAuipc rd imm s
  | .jal rd off => Sys2Proof.Machine.execJal rd off s
  | .jalr rd rs1 imm => Sys2Proof.Machine.execJalr rd rs1 imm s
  | .beq rs1 rs2 off => Sys2Proof.Machine.execBeq rs1 rs2 off s
  | .bne rs1 rs2 off => Sys2Proof.Machine.execBne rs1 rs2 off s
  | .blt rs1 rs2 off => Sys2Proof.Machine.execBlt rs1 rs2 off s
  | .bge rs1 rs2 off => Sys2Proof.Machine.execBge rs1 rs2 off s
  | .bltu rs1 rs2 off => Sys2Proof.Machine.execBltu rs1 rs2 off s
  | .bgeu rs1 rs2 off => Sys2Proof.Machine.execBgeu rs1 rs2 off s
  | .lb rd rs1 imm => Sys2Proof.Machine.execLb rd rs1 imm s
  | .lh rd rs1 imm => Sys2Proof.Machine.execLh rd rs1 imm s
  | .lw rd rs1 imm => Sys2Proof.Machine.execLw rd rs1 imm s
  | .ld rd rs1 imm => Sys2Proof.Machine.execLd rd rs1 imm s
  | .lbu rd rs1 imm => Sys2Proof.Machine.execLbu rd rs1 imm s
  | .lhu rd rs1 imm => Sys2Proof.Machine.execLhu rd rs1 imm s
  | .lwu rd rs1 imm => Sys2Proof.Machine.execLwu rd rs1 imm s
  | .sb rs1 rs2 imm => Sys2Proof.Machine.execSb rs1 rs2 imm s
  | .sh rs1 rs2 imm => Sys2Proof.Machine.execSh rs1 rs2 imm s
  | .sw rs1 rs2 imm => Sys2Proof.Machine.execSw rs1 rs2 imm s
  | .sd rs1 rs2 imm => Sys2Proof.Machine.execSd rs1 rs2 imm s
  | .addi rd rs1 imm => Sys2Proof.Machine.execAddi rd rs1 imm s
  | .slti rd rs1 imm => Sys2Proof.Machine.execSlti rd rs1 imm s
  | .sltiu rd rs1 imm => Sys2Proof.Machine.execSltiu rd rs1 imm s
  | .xori rd rs1 imm => Sys2Proof.Machine.execXori rd rs1 imm s
  | .ori rd rs1 imm => Sys2Proof.Machine.execOri rd rs1 imm s
  | .andi rd rs1 imm => Sys2Proof.Machine.execAndi rd rs1 imm s
  | .slli rd rs1 sh => Sys2Proof.Machine.execSlli rd rs1 sh s
  | .srli rd rs1 sh => Sys2Proof.Machine.execSrli rd rs1 sh s
  | .srai rd rs1 sh => Sys2Proof.Machine.execSrai rd rs1 sh s
  | .addiw rd rs1 imm => Sys2Proof.Machine.execAddiw rd rs1 imm s
  | .slliw rd rs1 sh => Sys2Proof.Machine.execSlliw rd rs1 sh s
  | .srliw rd rs1 sh => Sys2Proof.Machine.execSrliw rd rs1 sh s
  | .sraiw rd rs1 sh => Sys2Proof.Machine.execSraiw rd rs1 sh s
  | .add rd rs1 rs2 => Sys2Proof.Machine.execAdd rd rs1 rs2 s
  | .sll rd rs1 rs2 => Sys2Proof.Machine.execSll rd rs1 rs2 s
  | .slt rd rs1 rs2 => Sys2Proof.Machine.execSlt rd rs1 rs2 s
  | .sltu rd rs1 rs2 => Sys2Proof.Machine.execSltu rd rs1 rs2 s
  | .xor rd rs1 rs2 => Sys2Proof.Machine.execXor rd rs1 rs2 s
  | .srl rd rs1 rs2 => Sys2Proof.Machine.execSrl rd rs1 rs2 s
  | .or rd rs1 rs2 => Sys2Proof.Machine.execOr rd rs1 rs2 s
  | .and rd rs1 rs2 => Sys2Proof.Machine.execAnd rd rs1 rs2 s
  | .sub rd rs1 rs2 => Sys2Proof.Machine.execSub rd rs1 rs2 s
  | .sra rd rs1 rs2 => Sys2Proof.Machine.execSra rd rs1 rs2 s
  | .mul rd rs1 rs2 => Sys2Proof.Machine.execMul rd rs1 rs2 s
  | .mulh rd rs1 rs2 => Sys2Proof.Machine.execMulh rd rs1 rs2 s
  | .mulhsu rd rs1 rs2 => Sys2Proof.Machine.execMulhsu rd rs1 rs2 s
  | .mulhu rd rs1 rs2 => Sys2Proof.Machine.execMulhu rd rs1 rs2 s
  | .div rd rs1 rs2 => Sys2Proof.Machine.execDiv rd rs1 rs2 s
  | .divu rd rs1 rs2 => Sys2Proof.Machine.execDivu rd rs1 rs2 s
  | .rem rd rs1 rs2 => Sys2Proof.Machine.execRem rd rs1 rs2 s
  | .remu rd rs1 rs2 => Sys2Proof.Machine.execRemu rd rs1 rs2 s
  | .addw rd rs1 rs2 => Sys2Proof.Machine.execAddw rd rs1 rs2 s
  | .sllw rd rs1 rs2 => Sys2Proof.Machine.execSllw rd rs1 rs2 s
  | .srlw rd rs1 rs2 => Sys2Proof.Machine.execSrlw rd rs1 rs2 s
  | .subw rd rs1 rs2 => Sys2Proof.Machine.execSubw rd rs1 rs2 s
  | .sraw rd rs1 rs2 => Sys2Proof.Machine.execSraw rd rs1 rs2 s
  | .mulw rd rs1 rs2 => Sys2Proof.Machine.execMulw rd rs1 rs2 s
  | .divw rd rs1 rs2 => Sys2Proof.Machine.execDivw rd rs1 rs2 s
  | .divuw rd rs1 rs2 => Sys2Proof.Machine.execDivuw rd rs1 rs2 s
  | .remw rd rs1 rs2 => Sys2Proof.Machine.execRemw rd rs1 rs2 s
  | .remuw rd rs1 rs2 => Sys2Proof.Machine.execRemuw rd rs1 rs2 s
  | .fence rd rs1 pred succ => Sys2Proof.Machine.execFence rd rs1 pred succ s
  | .fenceTso rd rs1 pred succ => Sys2Proof.Machine.execFenceTso rd rs1 pred succ s
  | .fenceI rd rs1 imm => Sys2Proof.Machine.execFenceI rd rs1 imm s
  | .ecall => Sys2Proof.Machine.execEcall s
  | .ebreak => Sys2Proof.Machine.execEbreak s
  | .wfi => Sys2Proof.Machine.execWfi s
  | .csrrw rd rs1 csr => Sys2Proof.Machine.execCsrrw rd rs1 csr s
  | .csrrs rd rs1 csr => Sys2Proof.Machine.execCsrrs rd rs1 csr s
  | .csrrc rd rs1 csr => Sys2Proof.Machine.execCsrrc rd rs1 csr s
  | .csrrwi rd csr uimm => Sys2Proof.Machine.execCsrrwi rd csr uimm s
  | .csrrsi rd csr uimm => Sys2Proof.Machine.execCsrrsi rd csr uimm s
  | .csrrci rd csr uimm => Sys2Proof.Machine.execCsrrci rd csr uimm s
  | .lr rd rs1 aq rl dbl => Sys2Proof.Machine.execLr rd rs1 aq rl dbl s
  | .sc rd rs1 rs2 aq rl dbl => Sys2Proof.Machine.execSc rd rs1 rs2 aq rl dbl s
  | .amoswap rd rs1 rs2 aq rl dbl => Sys2Proof.Machine.execAmoswap rd rs1 rs2 aq rl dbl s
  | .amoadd rd rs1 rs2 aq rl dbl => Sys2Proof.Machine.execAmoadd rd rs1 rs2 aq rl dbl s
  | .amoxor rd rs1 rs2 aq rl dbl => Sys2Proof.Machine.execAmoxor rd rs1 rs2 aq rl dbl s
  | .amoand rd rs1 rs2 aq rl dbl => Sys2Proof.Machine.execAmoand rd rs1 rs2 aq rl dbl s
  | .amoor rd rs1 rs2 aq rl dbl => Sys2Proof.Machine.execAmoor rd rs1 rs2 aq rl dbl s
  | .amomin rd rs1 rs2 aq rl dbl => Sys2Proof.Machine.execAmomin rd rs1 rs2 aq rl dbl s
  | .amomax rd rs1 rs2 aq rl dbl => Sys2Proof.Machine.execAmomax rd rs1 rs2 aq rl dbl s
  | .amominu rd rs1 rs2 aq rl dbl => Sys2Proof.Machine.execAmominu rd rs1 rs2 aq rl dbl s
  | .amomaxu rd rs1 rs2 aq rl dbl => Sys2Proof.Machine.execAmomaxu rd rs1 rs2 aq rl dbl s
  | .faddS rd rs1 rs2 rm => Sys2Proof.Machine.execFaddS rd rs1 rs2 rm s
  | .fsubS rd rs1 rs2 rm => Sys2Proof.Machine.execFsubS rd rs1 rs2 rm s
  | .fmulS rd rs1 rs2 rm => Sys2Proof.Machine.execFmulS rd rs1 rs2 rm s
  | .fdivS rd rs1 rs2 rm => Sys2Proof.Machine.execFdivS rd rs1 rs2 rm s
  | .fsqrtS rd rs1 rm => Sys2Proof.Machine.execFsqrtS rd rs1 rm s
  | .fsgnjS rd rs1 rs2 => Sys2Proof.Machine.execFsgnjS rd rs1 rs2 s
  | .fsgnjnS rd rs1 rs2 => Sys2Proof.Machine.execFsgnjnS rd rs1 rs2 s
  | .fsgnjxS rd rs1 rs2 => Sys2Proof.Machine.execFsgnjxS rd rs1 rs2 s
  | .fminS rd rs1 rs2 => Sys2Proof.Machine.execFminS rd rs1 rs2 s
  | .fmaxS rd rs1 rs2 => Sys2Proof.Machine.execFmaxS rd rs1 rs2 s
  | .fleS rd rs1 rs2 => Sys2Proof.Machine.execFleS rd rs1 rs2 s
  | .fltS rd rs1 rs2 => Sys2Proof.Machine.execFltS rd rs1 rs2 s
  | .feqS rd rs1 rs2 => Sys2Proof.Machine.execFeqS rd rs1 rs2 s
  | .fcvtWS rd rs1 rm => Sys2Proof.Machine.execFcvtWS rd rs1 rm s
  | .fcvtWuS rd rs1 rm => Sys2Proof.Machine.execFcvtWuS rd rs1 rm s
  | .fcvtLS rd rs1 rm => Sys2Proof.Machine.execFcvtLS rd rs1 rm s
  | .fcvtLuS rd rs1 rm => Sys2Proof.Machine.execFcvtLuS rd rs1 rm s
  | .fcvtSW rd rs1 rm => Sys2Proof.Machine.execFcvtSW rd rs1 rm s
  | .fcvtSWu rd rs1 rm => Sys2Proof.Machine.execFcvtSWu rd rs1 rm s
  | .fcvtSL rd rs1 rm => Sys2Proof.Machine.execFcvtSL rd rs1 rm s
  | .fcvtSLu rd rs1 rm => Sys2Proof.Machine.execFcvtSLu rd rs1 rm s
  | .fclassS rd rs1 => Sys2Proof.Machine.execFclassS rd rs1 s
  | .fmaddS rd rs1 rs2 rs3 rm => Sys2Proof.Machine.execFmaddS rd rs1 rs2 rs3 rm s
  | .fmsubS rd rs1 rs2 rs3 rm => Sys2Proof.Machine.execFmsubS rd rs1 rs2 rs3 rm s
  | .fnmsubS rd rs1 rs2 rs3 rm => Sys2Proof.Machine.execFnmsubS rd rs1 rs2 rs3 rm s
  | .fnmaddS rd rs1 rs2 rs3 rm => Sys2Proof.Machine.execFnmaddS rd rs1 rs2 rs3 rm s
  | .cAddi4spn rd imm => Sys2Proof.Machine.execCAddi4spn rd imm s
  | .cLw rd rs1 imm => Sys2Proof.Machine.execCLw rd rs1 imm s
  | .cLd rd rs1 imm => Sys2Proof.Machine.execCLd rd rs1 imm s
  | .cSw rs1 rs2 imm => Sys2Proof.Machine.execCSw rs1 rs2 imm s
  | .cSd rs1 rs2 imm => Sys2Proof.Machine.execCSd rs1 rs2 imm s
  | .cAddi rd imm => Sys2Proof.Machine.execCAddi rd imm s
  | .cNop imm => Sys2Proof.Machine.execCNop imm s
  | .cAddiw rd imm => Sys2Proof.Machine.execCAddiw rd imm s
  | .cLi rd imm => Sys2Proof.Machine.execCLi rd imm s
  | .cAddi16sp imm => Sys2Proof.Machine.execCAddi16sp imm s
  | .cLui rd imm => Sys2Proof.Machine.execCLui rd imm s
  | .cSrli rd sh => Sys2Proof.Machine.execCSrli rd sh s
  | .cSrai rd sh => Sys2Proof.Machine.execCSrai rd sh s
  | .cAndi rd imm => Sys2Proof.Machine.execCAndi rd imm s
  | .cSub rd rs2 => Sys2Proof.Machine.execCSub rd rs2 s
  | .cXor rd rs2 => Sys2Proof.Machine.execCXor rd rs2 s
  | .cOr rd rs2 => Sys2Proof.Machine.execCOr rd rs2 s
  | .cAnd rd rs2 => Sys2Proof.Machine.execCAnd rd rs2 s
  | .cSubw rd rs2 => Sys2Proof.Machine.execCSubw rd rs2 s
  | .cAddw rd rs2 => Sys2Proof.Machine.execCAddw rd rs2 s
  | .cJ off => Sys2Proof.Machine.execCJ off s
  | .cBeqz rs1 off => Sys2Proof.Machine.execCBeqz rs1 off s
  | .cBnez rs1 off => Sys2Proof.Machine.execCBnez rs1 off s
  | .cSlli rd sh => Sys2Proof.Machine.execCSlli rd sh s
  | .cLwsp rd imm => Sys2Proof.Machine.execCLwsp rd imm s
  | .cLdsp rd imm => Sys2Proof.Machine.execCLdsp rd imm s
  | .cJr rs1 => Sys2Proof.Machine.execCJr rs1 s
  | .cMv rd rs2 => Sys2Proof.Machine.execCMv rd rs2 s
  | .cEbreak => Sys2Proof.Machine.execCEbreak s
  | .cJalr rs1 => Sys2Proof.Machine.execCJalr rs1 s
  | .cAdd rd rs2 => Sys2Proof.Machine.execCAdd rd rs2 s
  | .cSwsp rs2 imm => Sys2Proof.Machine.execCSwsp rs2 imm s
  | .cSdsp rs2 imm => Sys2Proof.Machine.execCSdsp rs2 imm s
  | .illegalInstruction word => Sys2Proof.Machine.execIllegalInstruction word s
  | .batSpawn rd rs1 => Sys2Proof.Machine.execBatSpawn rd rs1 s
  | .batSend rd rs1 rs2 => Sys2Proof.Machine.execBatSend rd rs1 rs2 s
  | .batSendR rd rs1 rs2 => Sys2Proof.Machine.execBatSendR rd rs1 rs2 s
  | .batExit => Sys2Proof.Machine.execBatExit s
  | .batYield rs1 => Sys2Proof.Machine.execBatYield rs1 s
  | .batPark rd rs1 rs2 => Sys2Proof.Machine.execBatPark rd rs1 rs2 s
  | .batWake rs1 => Sys2Proof.Machine.execBatWake rs1 s
  | .batRole rd rs1 => Sys2Proof.Machine.execBatRole rd rs1 s
  | .batSelf rd sel => Sys2Proof.Machine.execBatSelf rd sel s
  | .hdInit rd rs1 rs2 flags => Sys2Proof.Machine.execHdInit rd rs1 rs2 flags s
  | .hdArrive rs1 rs2 scope => Sys2Proof.Machine.execHdArrive rs1 rs2 scope s
  | .hdArriveR rs1 rs2 scope => Sys2Proof.Machine.execHdArriveR rs1 rs2 scope s
  | .hdWait rd rs1 rs2 => Sys2Proof.Machine.execHdWait rd rs1 rs2 s
  | .hdArrwait rd rs1 rs2 scope => Sys2Proof.Machine.execHdArrwait rd rs1 rs2 scope s
  | .hdTest rd rs1 => Sys2Proof.Machine.execHdTest rd rs1 s
  | .hdWithdraw rs1 rs2 scope => Sys2Proof.Machine.execHdWithdraw rs1 rs2 scope s
  | .hdWithdrawR rs1 rs2 scope => Sys2Proof.Machine.execHdWithdrawR rs1 rs2 scope s
  | .hdJoin rs1 => Sys2Proof.Machine.execHdJoin rs1 s
  | .hdJoinR rs1 => Sys2Proof.Machine.execHdJoinR rs1 s
  | .lapEnd rd level => Sys2Proof.Machine.execLapEnd rd level s
  | .domRd rd level => Sys2Proof.Machine.execDomRd rd level s
  | .waitUntil rd rs1 => Sys2Proof.Machine.execWaitUntil rd rs1 s
  | .waitPromise rs1 => Sys2Proof.Machine.execWaitPromise rs1 s
  | .msgSend rd rs1 rs2 => Sys2Proof.Machine.execMsgSend rd rs1 rs2 s
  | .msgRecv rd rs1 queue => Sys2Proof.Machine.execMsgRecv rd rs1 queue s
  | .msgPoll rd rs1 queue => Sys2Proof.Machine.execMsgPoll rd rs1 queue s
  | .rctSet rs1 rs2 => Sys2Proof.Machine.execRctSet rs1 rs2 s
  | .rctHold rs1 => Sys2Proof.Machine.execRctHold rs1 s
  | .rctRelease rs1 => Sys2Proof.Machine.execRctRelease rs1 s
  | .ldAq rd rs1 scope width off => Sys2Proof.Machine.execLdAq rd rs1 scope width off s
  | .stRl rs1 rs2 scope width off => Sys2Proof.Machine.execStRl rs1 rs2 scope width off s
  | .gangLead rd log2 => Sys2Proof.Machine.execGangLead rd log2 s
  | .gangJoin rd log2 => Sys2Proof.Machine.execGangJoin rd log2 s
  | .gangEnd => Sys2Proof.Machine.execGangEnd s
  | .rrbSet rd rs1 => Sys2Proof.Machine.execRrbSet rd rs1 s
  | .loopRot rd off => Sys2Proof.Machine.execLoopRot rd off s
  | .xuret => Sys2Proof.Machine.execXuret s
  | .ctxSave rs1 rs2 => Sys2Proof.Machine.execCtxSave rs1 rs2 s
  | .ctxRestore rs1 rs2 => Sys2Proof.Machine.execCtxRestore rs1 rs2 s
  | .stamClaim rd rs1 => Sys2Proof.Machine.execStamClaim rd rs1 s
  | .stamRd rd sel => Sys2Proof.Machine.execStamRd rd sel s
  | .ivlPost rd rs1 => Sys2Proof.Machine.execIvlPost rd rs1 s
  | .ivlSync rs1 => Sys2Proof.Machine.execIvlSync rs1 s
  | .grLaunch rd rs1 => Sys2Proof.Machine.execGrLaunch rd rs1 s
  | .grWait rd rs1 => Sys2Proof.Machine.execGrWait rd rs1 s
  | .xfence scope => Sys2Proof.Machine.execXfence scope s
  | .vaddFloat vd vs1 vs2 ty => Sys2Proof.Machine.execVaddFloat vd vs1 vs2 ty s
  | .vsubFloat vd vs1 vs2 ty => Sys2Proof.Machine.execVsubFloat vd vs1 vs2 ty s
  | .vmulFloat vd vs1 vs2 ty => Sys2Proof.Machine.execVmulFloat vd vs1 vs2 ty s
  | .vminFloat vd vs1 vs2 ty => Sys2Proof.Machine.execVminFloat vd vs1 vs2 ty s
  | .vmaxFloat vd vs1 vs2 ty => Sys2Proof.Machine.execVmaxFloat vd vs1 vs2 ty s
  | .vabsFloat vd vs1 ty => Sys2Proof.Machine.execVabsFloat vd vs1 ty s
  | .vnegFloat vd vs1 ty => Sys2Proof.Machine.execVnegFloat vd vs1 ty s
  | .vdiv vd vs1 vs2 ty => Sys2Proof.Machine.execVdiv vd vs1 vs2 ty s
  | .vsqrt vd vs1 ty rm => Sys2Proof.Machine.execVsqrt vd vs1 ty rm s
  | .vrsq vd vs1 ty rm => Sys2Proof.Machine.execVrsq vd vs1 ty rm s
  | .vaddInt vd vs1 vs2 ty => Sys2Proof.Machine.execVaddInt vd vs1 vs2 ty s
  | .vsubInt vd vs1 vs2 ty => Sys2Proof.Machine.execVsubInt vd vs1 vs2 ty s
  | .vmulInt vd vs1 vs2 ty => Sys2Proof.Machine.execVmulInt vd vs1 vs2 ty s
  | .vminInt vd vs1 vs2 ty => Sys2Proof.Machine.execVminInt vd vs1 vs2 ty s
  | .vmaxInt vd vs1 vs2 ty => Sys2Proof.Machine.execVmaxInt vd vs1 vs2 ty s
  | .vabsInt vd vs1 ty => Sys2Proof.Machine.execVabsInt vd vs1 ty s
  | .vnegInt vd vs1 ty => Sys2Proof.Machine.execVnegInt vd vs1 ty s
  | .vand vd vs1 vs2 ty => Sys2Proof.Machine.execVand vd vs1 vs2 ty s
  | .vor vd vs1 vs2 ty => Sys2Proof.Machine.execVor vd vs1 vs2 ty s
  | .vxor vd vs1 vs2 ty => Sys2Proof.Machine.execVxor vd vs1 vs2 ty s
  | .vshl vd vs1 vs2 ty => Sys2Proof.Machine.execVshl vd vs1 vs2 ty s
  | .vshr vd vs1 vs2 ty => Sys2Proof.Machine.execVshr vd vs1 vs2 ty s
  | .vsra vd vs1 vs2 ty => Sys2Proof.Machine.execVsra vd vs1 vs2 ty s
  | .vcmp vd vs1 vs2 ty cond => Sys2Proof.Machine.execVcmp vd vs1 vs2 ty cond s
  | .vsel vd vs1 vs2 ty => Sys2Proof.Machine.execVsel vd vs1 vs2 ty s
  | .vcvt vd vs1 ty rm dstTy => Sys2Proof.Machine.execVcvt vd vs1 ty rm dstTy s
  | .vqnt vd vs1 four => Sys2Proof.Machine.execVqnt vd vs1 four s
  | .vdqnt vd vs1 four => Sys2Proof.Machine.execVdqnt vd vs1 four s
  | .vredsum vd vs1 ty => Sys2Proof.Machine.execVredsum vd vs1 ty s
  | .vredmax vd vs1 ty => Sys2Proof.Machine.execVredmax vd vs1 ty s
  | .vperm vd vs1 vs2 ty => Sys2Proof.Machine.execVperm vd vs1 vs2 ty s
  | .vshuf vd vs1 vs2 ty => Sys2Proof.Machine.execVshuf vd vs1 vs2 ty s
  | .vslide vd vs1 ty amount => Sys2Proof.Machine.execVslide vd vs1 ty amount s
  | .vsplat vd rs1 ty => Sys2Proof.Machine.execVsplat vd rs1 ty s
  | .vins vd rs1 rs2 ty => Sys2Proof.Machine.execVins vd rs1 rs2 ty s
  | .vext rd rs1 vs2 ty => Sys2Proof.Machine.execVext rd rs1 vs2 ty s
  | .vld vd rs1 ty => Sys2Proof.Machine.execVld vd rs1 ty s
  | .vlds vd rs1 rs2 ty => Sys2Proof.Machine.execVlds vd rs1 rs2 ty s
  | .vldx vd rs1 vs2 ty => Sys2Proof.Machine.execVldx vd rs1 vs2 ty s
  | .vldb vd rs1 ty => Sys2Proof.Machine.execVldb vd rs1 ty s
  | .vldq vd rs1 rs2 ty => Sys2Proof.Machine.execVldq vd rs1 rs2 ty s
  | .vst vs rs1 ty => Sys2Proof.Machine.execVst vs rs1 ty s
  | .vsts vs rs1 rs2 ty => Sys2Proof.Machine.execVsts vs rs1 rs2 ty s
  | .vstx vs rs1 vs2 ty => Sys2Proof.Machine.execVstx vs rs1 vs2 ty s
  | .vfma vd vs1 vs2 vs3 => Sys2Proof.Machine.execVfma vd vs1 vs2 vs3 s
  | .vfms vd vs1 vs2 vs3 => Sys2Proof.Machine.execVfms vd vs1 vs2 vs3 s
  | .vfnma vd vs1 vs2 vs3 => Sys2Proof.Machine.execVfnma vd vs1 vs2 vs3 s
  | .vfnms vd vs1 vs2 vs3 => Sys2Proof.Machine.execVfnms vd vs1 vs2 vs3 s
  | .mmTile acc pm init => Sys2Proof.Machine.execMmTile acc pm init s
  | .panelStep cid => Sys2Proof.Machine.execPanelStep cid s
  | .mmZero acc pm => Sys2Proof.Machine.execMmZero acc pm s
  | .mmWait => Sys2Proof.Machine.execMmWait s
  | .mmDrain rs1 rs2 acc pm clear fmt => Sys2Proof.Machine.execMmDrain rs1 rs2 acc pm clear fmt s
  | .mmLoad rs1 rs2 acc pm fmt => Sys2Proof.Machine.execMmLoad rs1 rs2 acc pm fmt s
  | .mmMset rs1 rs2 pm pre => Sys2Proof.Machine.execMmMset rs1 rs2 pm pre s
  | .mmTostrm acc pm tp port => Sys2Proof.Machine.execMmTostrm acc pm tp port s
  | .stBind rs1 port => Sys2Proof.Machine.execStBind rs1 port s
  | .stFill rs1 cnt port => Sys2Proof.Machine.execStFill rs1 cnt port s
  | .stSkip rd rs1 port => Sys2Proof.Machine.execStSkip rd rs1 port s
  | .stStat rd port => Sys2Proof.Machine.execStStat rd port s
  | .stFlush port => Sys2Proof.Machine.execStFlush port s
  | .cpGet rd xg rs2 => Sys2Proof.Machine.execCpGet rd xg rs2 s
  | .cpPut rd xg rs2 => Sys2Proof.Machine.execCpPut rd xg rs2 s
  | .cpXfer rd xg rs2 => Sys2Proof.Machine.execCpXfer rd xg rs2 s
  | .cpFeed rd xg rs2 => Sys2Proof.Machine.execCpFeed rd xg rs2 s
  | .cpMcast rd xg => Sys2Proof.Machine.execCpMcast rd xg s
  | .cpFill rd xg rs2 => Sys2Proof.Machine.execCpFill rd xg rs2 s
  | .cpGath rd xg rs2 => Sys2Proof.Machine.execCpGath rd xg rs2 s
  | .cpScat rd xg rs2 => Sys2Proof.Machine.execCpScat rd xg rs2 s
  | .cpAtom rd xg rs2 => Sys2Proof.Machine.execCpAtom rd xg rs2 s
  | .cpStat rd xg rs2 => Sys2Proof.Machine.execCpStat rd xg rs2 s
  | .cpCancel rd xg => Sys2Proof.Machine.execCpCancel rd xg s
  | .bufMap rd rs1 rs2 => Sys2Proof.Machine.execBufMap rd rs1 rs2 s
  | .bufUnmap rd rs1 => Sys2Proof.Machine.execBufUnmap rd rs1 s
  | .bufShadow rd rs1 rs2 => Sys2Proof.Machine.execBufShadow rd rs1 rs2 s
  | .bufPub rd rs1 => Sys2Proof.Machine.execBufPub rd rs1 s
  | .statInit std => Sys2Proof.Machine.execStatInit std s
  | .statUpd std rs1 => Sys2Proof.Machine.execStatUpd std rs1 s
  | .statUpdw std rs1 rs2 => Sys2Proof.Machine.execStatUpdw std rs1 rs2 s
  | .statMerge std st1 st2 => Sys2Proof.Machine.execStatMerge std st1 st2 s
  | .statLd std rs1 => Sys2Proof.Machine.execStatLd std rs1 s
  | .statSt rs1 st2 => Sys2Proof.Machine.execStatSt rs1 st2 s
  | .vstatUpd std vs1 ty => Sys2Proof.Machine.execVstatUpd std vs1 ty s
  | .vstatUpdw std vs1 vs2 ty => Sys2Proof.Machine.execVstatUpdw std vs1 vs2 ty s
  | .statDrain rd st1 rs2 drain => Sys2Proof.Machine.execStatDrain rd st1 rs2 drain s
  | .vstatNorm vd vs1 ty pair => Sys2Proof.Machine.execVstatNorm vd vs1 ty pair s
  | .cycOpen rd rs1 => Sys2Proof.Machine.execCycOpen rd rs1 s
  | .cycFreeze rd rs1 rs2 => Sys2Proof.Machine.execCycFreeze rd rs1 rs2 s
  | .cycIter rd rs1 => Sys2Proof.Machine.execCycIter rd rs1 s
  | .cycRes rs1 st2 => Sys2Proof.Machine.execCycRes rs1 st2 s
  | .cycPass rs1 rs2 => Sys2Proof.Machine.execCycPass rs1 rs2 s
  | .cycTake rd rs1 => Sys2Proof.Machine.execCycTake rd rs1 s
  | .cycNext rd rs1 => Sys2Proof.Machine.execCycNext rd rs1 s
  | .cycBwd rs1 rs2 => Sys2Proof.Machine.execCycBwd rs1 rs2 s
  | .cycStat rd rs1 sel => Sys2Proof.Machine.execCycStat rd rs1 sel s
  | .cycClose rs1 => Sys2Proof.Machine.execCycClose rs1 s
  | .cycAbort rs1 => Sys2Proof.Machine.execCycAbort rs1 s
  | .clLoad rd rs1 rs2 => Sys2Proof.Machine.execClLoad rd rs1 rs2 s
  | .clRun rd rs1 rs2 => Sys2Proof.Machine.execClRun rd rs1 rs2 s
  | .clWait rd rs1 => Sys2Proof.Machine.execClWait rd rs1 s
  | .clCancel rs1 => Sys2Proof.Machine.execClCancel rs1 s
  | .clGrp rd rs1 rs2 => Sys2Proof.Machine.execClGrp rd rs1 rs2 s
  | .clJoin rd rs1 rs2 => Sys2Proof.Machine.execClJoin rd rs1 rs2 s
  | .clLeave rd rs1 rs2 => Sys2Proof.Machine.execClLeave rd rs1 rs2 s
  | .clPause rs1 => Sys2Proof.Machine.execClPause rs1 s
  | .clResume rs1 => Sys2Proof.Machine.execClResume rs1 s
  | .powerOnReset => Sys2Proof.Machine.execPowerOnReset s
  | .resetRequest => Sys2Proof.Machine.execResetRequest s
  | .inputUndervoltage => Sys2Proof.Machine.execInputUndervoltage s
  | .thermalReport die celsius => Sys2Proof.Machine.execThermalReport die celsius s
  | .dieReset die => Sys2Proof.Machine.execDieReset die s
  | .dieReturn die => Sys2Proof.Machine.execDieReturn die s
  | .farModuleLoss modul => Sys2Proof.Machine.execFarModuleLoss modul s
  | .relayDown die => Sys2Proof.Machine.execRelayDown die s
  | .linkFlit link crcOk vc ret => Sys2Proof.Machine.execLinkFlit link crcOk vc ret s
  | .linkRetrain link ok => Sys2Proof.Machine.execLinkRetrain link ok s
  | .slotSyncMarker link vc => Sys2Proof.Machine.execSlotSyncMarker link vc s
  | .slotSync link vc reply => Sys2Proof.Machine.execSlotSync link vc reply s
  | .read pid => Sys2Proof.Machine.execRead pid s
  | .write pid => Sys2Proof.Machine.execWrite pid s
  | .amo pid => Sys2Proof.Machine.execAmo pid s
  | .readReply pid => Sys2Proof.Machine.execReadReply pid s
  | .writeAck pid => Sys2Proof.Machine.execWriteAck pid s
  | .faultReply pid => Sys2Proof.Machine.execFaultReply pid s
  | .msg pid => Sys2Proof.Machine.execMsg pid s
  | .msgAck pid => Sys2Proof.Machine.execMsgAck pid s
  | .msgResend slot => Sys2Proof.Machine.execMsgResend slot s
  | .msgMoved pid => Sys2Proof.Machine.execMsgMoved pid s
  | .arrive pid => Sys2Proof.Machine.execArrive pid s
  | .copyData pid => Sys2Proof.Machine.execCopyData pid s
  | .copyDone pid => Sys2Proof.Machine.execCopyDone pid s
  | .mcastData pid => Sys2Proof.Machine.execMcastData pid s
  | .atomBatch pid => Sys2Proof.Machine.execAtomBatch pid s
  | .chunk pid => Sys2Proof.Machine.execChunk pid s
  | .pause pid => Sys2Proof.Machine.execPause pid s
  | .resume pid => Sys2Proof.Machine.execResume pid s
  | .ivl pid => Sys2Proof.Machine.execIvl pid s
  | .rctUpd pid => Sys2Proof.Machine.execRctUpd pid s
  | .swcSync pid => Sys2Proof.Machine.execSwcSync pid s
  | .swcSyncSend => Sys2Proof.Machine.execSwcSyncSend s
  | .swcSlew die => Sys2Proof.Machine.execSwcSlew die s
  | .e2eAck pid => Sys2Proof.Machine.execE2eAck pid s
  | .e2eAckSend stream => Sys2Proof.Machine.execE2eAckSend stream s
  | .gatewayOutbound pid => Sys2Proof.Machine.execGatewayOutbound pid s
  | .gatewayInbound pid => Sys2Proof.Machine.execGatewayInbound pid s
  | .replayTimeout stream seq => Sys2Proof.Machine.execReplayTimeout stream seq s
  | .planeIdleTimeout die plane => Sys2Proof.Machine.execPlaneIdleTimeout die plane s
  | .walkDone die walk => Sys2Proof.Machine.execWalkDone die walk s
  | .faultAnswer die index action => Sys2Proof.Machine.execFaultAnswer die index action s
  | .faultRecordTimeout die index => Sys2Proof.Machine.execFaultRecordTimeout die index s
  | .logApply die => Sys2Proof.Machine.execLogApply die s
  | .appliedIndexReport die => Sys2Proof.Machine.execAppliedIndexReport die s
  | .tierMove die va track tgt pa => Sys2Proof.Machine.execTierMove die va track tgt pa s
  | .homeMove die va track dest tgt pa => Sys2Proof.Machine.execHomeMove die va track dest tgt pa s
  | .vaultCopyDone die move => Sys2Proof.Machine.execVaultCopyDone die move s
  | .trkload value => Sys2Proof.Machine.execTrkload value s
  | .trkloadDone => Sys2Proof.Machine.execTrkloadDone s
  | .hostApertureAccess write addr len data poison => Sys2Proof.Machine.execHostApertureAccess write addr len data poison s
  | .intakeWrite write => Sys2Proof.Machine.execIntakeWrite write s
  | .intakecommit core value => Sys2Proof.Machine.execIntakecommit core value s
  | .grdef value => Sys2Proof.Machine.execGrdef value s
  | .grdefCopyDone => Sys2Proof.Machine.execGrdefCopyDone s
  | .prectlPreempt value => Sys2Proof.Machine.execPrectlPreempt value s
  | .prectlResume value => Sys2Proof.Machine.execPrectlResume value s
  | .prestatDone => Sys2Proof.Machine.execPrestatDone s
  | .ckctlStart value => Sys2Proof.Machine.execCkctlStart value s
  | .ckctlQuiesce value => Sys2Proof.Machine.execCkctlQuiesce value s
  | .ckctlRestore value => Sys2Proof.Machine.execCkctlRestore value s
  | .quiesceDone => Sys2Proof.Machine.execQuiesceDone s
  | .checkpointCopyDone => Sys2Proof.Machine.execCheckpointCopyDone s
  | .restoreDone => Sys2Proof.Machine.execRestoreDone s
  | .tftpResend => Sys2Proof.Machine.execTftpResend s
  | .fetchRestart => Sys2Proof.Machine.execFetchRestart s
  | .imageVerify => Sys2Proof.Machine.execImageVerify s
  | .bankGate die word bit => Sys2Proof.Machine.execBankGate die word bit s
  | .bankWake die word bit => Sys2Proof.Machine.execBankWake die word bit s
  | .bankWakeDone die word bit => Sys2Proof.Machine.execBankWakeDone die word bit s
  | .registerWrite addr value => Sys2Proof.Machine.execRegisterWrite addr value s
  | .resourceReport pcl => Sys2Proof.Machine.execResourceReport pcl s
  | .launchAdmit => Sys2Proof.Machine.execLaunchAdmit s
  | .admissionDeadline seq => Sys2Proof.Machine.execAdmissionDeadline seq s
  | .launchPlace => Sys2Proof.Machine.execLaunchPlace s
  | .placementTimeout seq => Sys2Proof.Machine.execPlacementTimeout seq s
  | .energyMeasure die energy => Sys2Proof.Machine.execEnergyMeasure die energy s
  | .batonDispatch pcl => Sys2Proof.Machine.execBatonDispatch pcl s
  | .ageTick => Sys2Proof.Machine.execAgeTick s
  | .slotPromotion cid => Sys2Proof.Machine.execSlotPromotion cid s
  | .pacerBind quad => Sys2Proof.Machine.execPacerBind quad s
  | .batonEvict cid slot => Sys2Proof.Machine.execBatonEvict cid slot s
  | .waitDeadline cid slot => Sys2Proof.Machine.execWaitDeadline cid slot s
  | .gangFormationTimeout cid slot => Sys2Proof.Machine.execGangFormationTimeout cid slot s
  | .deferredFaultDelivery cid slot => Sys2Proof.Machine.execDeferredFaultDelivery cid slot s
  | .promiseMissed cid slot => Sys2Proof.Machine.execPromiseMissed cid slot s
  | .copyComplete cl entry => Sys2Proof.Machine.execCopyComplete cl entry s
  | .feedPanel cid port => Sys2Proof.Machine.execFeedPanel cid port s
  | .handleEntryLapse cl entry => Sys2Proof.Machine.execHandleEntryLapse cl entry s
  | .nodeStart die run node => Sys2Proof.Machine.execNodeStart die run node s
  | .nodeEnd die run node => Sys2Proof.Machine.execNodeEnd die run node s
  | .stallTimeout die run => Sys2Proof.Machine.execStallTimeout die run s
  | .pauseLimit die pause => Sys2Proof.Machine.execPauseLimit die pause s
  | .reservationRelease die pause => Sys2Proof.Machine.execReservationRelease die pause s
  | .functionReady bit => Sys2Proof.Machine.execFunctionReady bit s
  | .functionFailure bit => Sys2Proof.Machine.execFunctionFailure bit s
  | .dispatchEntryComplete cid entry => Sys2Proof.Machine.execDispatchEntryComplete cid entry s
  | .cycleControllerRequest => Sys2Proof.Machine.execCycleControllerRequest s
  | .managementEthernetFrame frame => Sys2Proof.Machine.execManagementEthernetFrame frame s

end Sys2Proof.Machine
end

