-- ==== Sys2Proof/Machine/Turns.lean ====
section
/-!
DEFINITION. What a step can do: a slot issues its next instruction (R103, R107, R112, R138, R194), an event happens, the stopwatch counts, a piece of a
copy command moves, a wait is looked at; and the order of these that the model takes where its agenda names none.
-/
namespace Sys2Proof.Machine

/-! ## Issue -/

/-- What a slot has to do when its turn comes. -/
inductive Issue
  /-- Nothing can issue now. -/
  | idle
  /-- A deferred fault is taken first. -/
  | fault
  | fetchFault (a : Nat)
  | fetchAsk (a : Nat)
  /-- A word that names no instruction, and its bytes. -/
  | illegal (w : Word32) (l : List Byte)
  | instr (i : Instr) (l : List Byte)
  deriving DecidableEq, Repr
/-- A slot has no instruction to issue: it runs no baton, its launch is pre-empted and no gang round of it is open (R112), or it has issued its
part of the open round of its gang (R107). -/
def State.resting (s : State) (k : Nat) : Bool :=
  let t := s.slotAt k
  t.mode != .running ||
    (match s.gangOf (slotRecord k t) with
     | none => s.launchHeld t.launch
     | some (_, g, i) => (s.launchHeld t.launch && (g.issued.isEmpty || g.wide != 0)) || g.issued.any fun p => p.1 == i)
/-- What the bytes that were fetched are. -/
noncomputable def State.lookAt (s : State) (k : Nat) (l : List Byte) : Issue :=
  match decode l with
  | .ok (i, _) => if s.interlocked k i then .idle else .instr i l
  | .error _ => .illegal (BitVec.ofNat 32 (natLE l)) l
/-- What a slot has to do. The leader of a gang fetches for every member (R107), and takes the fetch's faults. -/
noncomputable def State.look (s : State) (k : Nat) : Issue :=
  if s.resting k then .idle
  else if s.faultDue k then .fault
  else
    match s.roundCode k with
    | some l => s.lookAt k l
    | none =>
      let f := s.fetchSlot k
      match s.fetch f with
      | .fault a => if f = k then .fetchFault a else .idle
      | .ask a => if f = k then .fetchAsk a else .idle
      | .code l => s.lookAt k l
/-- The state in which a slot's instruction executes: the slot is chosen (R103), the instruction cache holds what was fetched (R194), and a gang
keeps the instruction's bytes for its members (R107). -/
def State.chosen (s : State) (k : Nat) (l : List Byte) : State :=
  let s := match s.roundCode k with
    | some _ => s
    | none => s.cached (s.fetchSlot k) l.length
  let t := s.slotAt k
  let c := s.core (keyCid k)
  let s := match s.gangOf (slotRecord k t) with
    | none => s
    | some (key, g, _) => s.setGang key { g with code := l }
  let s := (s.setSlotAt k { t with unchosen := 0, promoted := none }).setCore (keyCid k) { c with lastSlot := keySlot k }
  { s with focus := k }
/-- A slot issues. -/
noncomputable def State.issue (s : State) (k : Nat) : Res :=
  match s.look k with
  | .idle => .next s
  | .fault => .next (s.deliverDeferred k)
  | .fetchFault a => .next (s.fetchTrap k a)
  | .fetchAsk a => .next (s.fetchAsk k a)
  | .illegal w l => exec (.illegalInstruction w) (s.chosen k l)
  | .instr i l => exec i (s.chosen k l)

/-! ## The stopwatch and waits -/

/-- Some cycles pass: the master count advances, the reservoir is refilled and the occupied slots count for their launches (R86), and an eligible slot
counts the cycles for which it has not been chosen, which end where it cannot issue (R103). -/
noncomputable def State.tick (s : State) (n : Nat) : State :=
  let s := ((s.swcStep n).refill n).countSlots n
  { s with slots := kmap (fun k (t : Slot) => if s.look k = .idle then { t with unchosen := 0 } else { t with unchosen := t.unchosen + n }) s.slots }
/-- A wait is looked at: where what it waits for has come, it ends, or its instruction issues again. A GR.LAUNCH whose record the intake no longer
holds was rejected or dropped and returns 0 (R244). -/
def State.poll (s : State) (r : Nat) : State :=
  let pcl := recPcl r
  let d := pcl / 24
  match s.waitOf r with
  | .restore _ _ cid => match s.findSlot r with | some k => s.restoreWaiting k | none => s.wakeAwayMatrix cid
  | .ctxTake cid => match s.findSlot r with | some _ => s.takeWaiting r | none => s.wakeAwayMatrix cid
  | .matrix cid => s.wakeMatrix cid
  | .mmWait => match s.findSlot r with | some k => s.wakeMatrix (keyCid k) | none => s
  | .promise h => s.wakePromise pcl h
  | .ivlSync index => if s.ivlSynced index then s.finishWait r .none else s
  | .ivlRing rd record =>
    if s.ivlFull record then s
    else
      let p := s.ivlPost record
      p.2.finishWait r (.x rd (BitVec.ofNat 64 p.1))
  | .graph rd seq => if (s.launchOf seq).isSome then s else (s.acquireLog d 3).finishWait r (.x rd (BitVec.ofNat 64 (s.keptStatus seq)))
  | .cycTake .. => s.pollCycle r
  | .cycNext .. => s.pollCycle r
  | .wake .. => s.deadline r
  | .time .. => s.deadline r
  | .msgSend _ _ (some _) => s.msgResend r
  | .msgRecv .. => s.recvGo r
  | .rankHd .. => s.rankGo r
  | .lapCopies .. => s.lapGo r
  | .cpIssue .. => s.cpGo r
  | .rankSend p .. => if s.rankFull d p.dstRank then s else s.sendHeld r
  | .gang .. => (s.formationPoll r).wakeLeads
  | .reply rd v => s.finishWait r (.x rd v)
  | .intake rd =>
    let s := s.takeIntake
    if s.starter.intake.any fun x => x.baton == some r then s else s.finishWait r (.x rd 0)
  | _ => s

/-! ## The order that the model takes

DESIGN CHOICE (log entry 29): where the agenda is empty, the step plans one cycle: a count of the stopwatch, the waits, every event that the module
itself could be at, and one instruction of each core. The spec orders little of this, and the agenda can hold any other order. -/

/-- The event of a packet in flight. -/
noncomputable def State.pktEvent (s : State) (pid : Nat) (p : Pkt) : Instr :=
  if s.foreign p.dstPkg && p.hopDst == xDie then .gatewayOutbound pid
  else
    match p.ty with
    | .read => .read pid | .write => .write pid | .amo => .amo pid | .readReply => .readReply pid | .writeAck => .writeAck pid
    | .faultReply => .faultReply pid | .msg => .msg pid | .msgAck => .msgAck pid | .msgMoved => .msgMoved pid | .arrive => .arrive pid
    | .copyData => .copyData pid | .copyDone => .copyDone pid | .mcastData => .mcastData pid | .atomBatch => .atomBatch pid
    | .chunk => .chunk pid | .pause => .pause pid | .resume => .resume pid | .ivl => .ivl pid | .rctUpd => .rctUpd pid
    | .swcSync => .swcSync pid | .slotSync => .swcSync pid | .e2eAck => .swcSync pid | .reserved => .swcSync pid
/-- A list of events where a condition holds. -/
def evWhen (c : Bool) (l : List Instr) : List Instr := if c then l else []
/-- The flits of the links, each of which carries a slot return, and the markers in flight (R35, R36); a link that is down is trained every 10 ms (R30). -/
noncomputable def State.linkEvents (s : State) : List Instr :=
  s.links.flatMap fun l =>
    let a := l.1 / 32
    let b := l.1 % 32
    evWhen (!s.linkUp a b && s.swc % 16000000 == 0) [Instr.linkRetrain l.1 true] ++ Instr.linkFlit (b * 32 + a) true none none ::
    (List.range 4).flatMap fun vc => List.flatten
      [evWhen (vcGet l.2.marker vc).isSome [Instr.slotSync l.1 vc false],
       evWhen (vcGet l.2.reply vc).isSome [Instr.slotSync l.1 vc true],
       evWhen (s.swc % 65536 == 0) [Instr.slotSyncMarker l.1 vc]]
/-- The gateway's events (R37 to R40). -/
noncomputable def State.gatewayEvents (s : State) : List Instr :=
  let g := s.gateway
  List.flatten
    [g.arrivals.map fun a => if a.2.2.ty = .e2eAck then Instr.e2eAck a.1 else Instr.gatewayInbound a.1,
     g.inn.map fun i => Instr.e2eAckSend i.1,
     g.out.flatMap fun o => o.2.replay.map fun r => Instr.replayTimeout o.1 r.1.seq,
     (List.range 8).map fun p => Instr.planeIdleTimeout xDie p]
/-- Events of the network interfaces (R54, R62, R65). -/
noncomputable def State.niEvents (s : State) : List Instr :=
  s.nis.flatMap fun n => List.flatten
    [n.2.walks.map fun w => Instr.walkDone n.1 w.id,
     (Ni.pending n.2).map fun f => Instr.faultRecordTimeout n.1 f.1,
     evWhen (!n.2.log.pending.isEmpty) [Instr.logApply n.1],
     evWhen (n.2.log.applied != n.2.log.reported) [Instr.appliedIndexReport n.1],
     evWhen (n.2.swcAdjust != 0 && (s.swc + 1) % 1024 == 0) [Instr.swcSlew n.1]]
/-- Events of the B-die (R41, R51, R76, R84 to R88, R91). -/
noncomputable def State.packageEvents (s : State) : List Instr :=
  List.flatten
    [[Instr.launchAdmit, Instr.launchPlace, Instr.ageTick, Instr.cycleControllerRequest, Instr.prestatDone, Instr.quiesceDone],
     [Instr.checkpointCopyDone, Instr.restoreDone, Instr.trkloadDone, Instr.grdefCopyDone, Instr.tftpResend, Instr.fetchRestart],
     [Instr.imageVerify],
     s.starter.admission.map fun n => Instr.admissionDeadline n,
     s.starter.placement.map fun n => Instr.placementTimeout n,
     s.pkg.moves.map fun m => Instr.vaultCopyDone m.oldDie m.id,
     s.pkg.power.flatMap fun p => (p.2.waking.map fun w => Instr.bankWakeDone p.1 w.1 w.2.1) ++ p.2.gateHeld.map fun g => Instr.bankWakeDone p.1 g.1 g.2,
     evWhen (s.swc % 65536 == 0) [Instr.swcSyncSend],
     evWhen (s.swc % 1024 == 0) ((List.range 288).map fun p => Instr.resourceReport p)]
/-- The event for which a parked slot's wait asks (R94, R106, R154, R231). -/
noncomputable def waitEvents (k : Nat) (w : Wait) : List Instr :=
  match w with
  | .wake .. => [Instr.waitDeadline (keyCid k) (keySlot k)]
  | .time .. => [Instr.waitDeadline (keyCid k) (keySlot k)]
  | .gang .. => [Instr.gangFormationTimeout (keyCid k) (keySlot k)]
  | .promise .. => [Instr.promiseMissed (keyCid k) (keySlot k)]
  | .msgSend _ _ (some _) => [Instr.msgResend k]
  | _ => []
/-- Events of the clusters and their copy engines (R87, R91, R280, R282). -/
noncomputable def State.clusterEvents (s : State) : List Instr :=
  s.clusters.flatMap fun c =>
    Instr.resourceReport c.1 :: Instr.batonDispatch c.1 ::
      c.2.engine.flatMap fun e => [Instr.copyComplete c.1 e.1, Instr.handleEntryLapse c.1 e.1]
/-- Events of the cores and Pacers (R104, R270, R275, R285). -/
noncomputable def State.coreEvents (s : State) : List Instr :=
  List.flatten
    [s.cores.flatMap fun c => Instr.panelStep c.1 :: (List.range c.2.dq.length).map fun i => Instr.dispatchEntryComplete c.1 i,
     s.cores.flatMap fun c => [Instr.feedPanel c.1 false, Instr.feedPanel c.1 true],
     ((s.cores.filter fun c => !c.2.dq.isEmpty).map fun c => cidPcl c.1 * 4 + cidQuad c.1).eraseDups.map fun q => Instr.pacerBind q]
/-- Events of the slots (R95, R103, R138), but for those of waits. -/
noncomputable def State.slotEvents (s : State) : List Instr :=
  s.slots.flatMap fun t => List.flatten
    [evWhen (t.2.mode == .running && s.faultDue t.1) [Instr.deferredFaultDelivery (keyCid t.1) (keySlot t.1)],
     evWhen (t.2.mode == .running && decide (t.2.csr.xage.toNat ≤ t.2.unchosen)) [Instr.slotPromotion (keyCid t.1)],
     evWhen (t.2.mode == .parked) [Instr.batonEvict (keyCid t.1) (keySlot t.1)]]
/-- Events of the waits of parked slots. They come after the instructions of their cycle, so that a wake in the cycle of a deadline counts as a wake
(R223). -/
noncomputable def State.waitTurns (s : State) : List Turn :=
  (s.waiting.map fun w => .poll w.1) ++
    s.slots.flatMap fun t => (evWhen (t.2.mode == .parked) (waitEvents t.1 t.2.wait)).map .event
/-- The Relay's events (R121, R129, R130). -/
noncomputable def State.relayEvents (s : State) : List Instr :=
  List.flatten
    [s.relay.runs.flatMap fun r =>
       Instr.stallTimeout xDie r.1 :: (List.range r.2.nodes.length).flatMap fun n => [Instr.nodeStart xDie r.1 n, Instr.nodeEnd xDie r.1 n],
     (List.range s.relay.pauses.length).flatMap fun p => [Instr.pauseLimit xDie p, Instr.reservationRelease xDie p]]
/-- The events that the module could be at. -/
noncomputable def State.events (s : State) : List Instr :=
  List.flatten
    [s.net.map fun p => s.pktEvent p.1 p.2, s.linkEvents, s.gatewayEvents, s.niEvents, s.packageEvents, s.clusterEvents, s.coreEvents,
     s.slotEvents, s.relayEvents]
/-- The pieces of copy commands that may go on. -/
def State.pieces (s : State) : List Turn :=
  s.clusters.flatMap fun c => c.2.engine.flatMap fun e =>
    ((e.2.flight.filter fun p => p.tag == 0).map fun p => Turn.piece c.1 e.1 p.idx) ++
    (match (List.range e.2.units).find? fun n => !e.2.begun.contains n with
     | some n => [.piece c.1 e.1 n]
     | none => [])
/-- The better of two slots by R103: the older promotion, then the role, then the order from the slot after the one last chosen. DESIGN CHOICE (log
entry 140): of two promoted in the same cycle the lower slot. -/
def betterSlot (last : Nat) (a b : Nat × Slot) : Nat × Slot :=
  let turn := fun (k : Nat) => (keySlot k + 4 - (last + 1) % 4) % 4
  match a.2.promoted, b.2.promoted with
  | some x, some y => if y < x then b else a
  | some _, none => a
  | none, some _ => b
  | none, none =>
    if b.2.csr.xrole.toNat < a.2.csr.xrole.toNat ∨ (b.2.csr.xrole = a.2.csr.xrole ∧ turn b.1 < turn a.1) then b else a
/-- Does a die issue in this cycle: in one of four while the reservoir is negative (R86) or the die is throttled (R17). -/
def State.issues (s : State) (d : Nat) : Bool :=
  !(decide (s.starter.reservoir < 0) || s.pkg.throttled.contains d) || s.swc % 4 == 0
/-- The slot that a core issues from: the best of those that have something to do. -/
noncomputable def State.coreTurn (s : State) (cid : Nat) : List Turn :=
  let able := (s.slots.filter fun t => keyCid t.1 == cid).filter fun t => s.look t.1 ≠ .idle
  match able with
  | [] => []
  | a :: r => [.slot (r.foldl (betterSlot (s.core cid).lastSlot) a).1]
/-- One cycle: what the step takes next where the agenda is empty. -/
noncomputable def State.plan (s : State) : List Turn :=
  [.tick 1] ++ (s.events.map .event) ++ s.pieces ++
  (((s.slots.map fun t => keyCid t.1).eraseDups.filter fun cid => s.issues (cidDie cid)).flatMap s.coreTurn) ++ s.waitTurns

/-! ## Turns -/

/-- A turn. -/
noncomputable def State.turn (s : State) (t : Turn) : Res :=
  match t with
  | .event i => exec i s
  | .slot k => s.issue k
  | .tick n => .next (s.tick n)
  | .piece cl entry piece => .next (s.pieceStep cl entry piece)
  | .poll r => .next (s.poll r)

/-! ## An instruction at the fetch -/

/-- The track of the slot that runs it. -/
def probeTrack : BitVec 16 := 5
/-- The address at which it is fetched, which C-die 0 homes under track 5 (R53). -/
def probePc : Nat := 0x0000010000200000
/-- Slot 0 of core 0 with a baton that runs from that address. -/
def probeSlot : Slot :=
  { Slot.empty with mode := .running, track := probeTrack, pc := BitVec.ofNat 64 probePc, xbaton := 0x400000 }
/-- C-die 0's NI with a track-table entry, a cached translation that admits every access, and an access-table entry that does. -/
def probeNi (n : Ni) : Ni :=
  { n with trk := kset 5 (0x0005800000000000#64 ++ 0#64 ||| (BitVec.ofNat 128 (10 * 2 ^ 104))) n.trk,
           tcache := { track := probeTrack, base := probePc, log2 := 21, far := false, fmod := 0, phys := 0, ati := 0, perm := 15,
                       dirty := true } :: n.tcache,
           acc := kset 0 0x80000005FFFFFFFF#64 n.acc, accHeld := kdel 0 n.accHeld }
/-- The state with an instruction at the next fetch: its bytes in C-die 0's HBM, the die and its HBM up, a baton that runs there, and its slot next
to issue. -/
def State.placeWord (s : State) (nbits w : Nat) : State :=
  let s := (s.setReady 0 true).setReady 12 true
  let s := (s.setNi 0 (probeNi (s.ni 0))).setSlotAt 0 probeSlot
  let s := s.store none (hbmCell 0 0) (bytesLE 4 (w % 2 ^ nbits))
  { s with agenda := .slot 0 :: s.agenda }

end Sys2Proof.Machine
end

