-- ==== Sys2Proof/Machine/Step.lean ====
section
/-!
DEFINITION. The step: the first turn of the agenda; where the agenda is empty, the plan of the next cycle.
-/
namespace Sys2Proof.Machine

/-- One step of the machine. -/
noncomputable def step (s : State) : Host.Outcome State Fault Refusal :=
  match s.agenda with
  | [] => .next { s with agenda := s.plan }
  | t :: rest => State.turn { s with agenda := rest } t

/-- The state with an instruction stored where the next step fetches it and runs it. -/
def State.withFetchWord (s : State) (nbits w : Nat) : State := s.placeWord nbits w

end Sys2Proof.Machine
end

