-- ==== Sys2Proof/Safety.lean ====
section
/-!
DEFINITION. The terms in which claims about the machine are stated: a baton that runs alone, how an instruction of the focus slot ends
(completed, trapped, parked), and exact integer results.
-/
namespace Sys2Proof.Machine

/-! ## Exact results -/

/-- A 64-bit result of exact integer arithmetic. -/
def wrap64 (n : Int) : Dword := BitVec.ofInt 64 n
/-- A 32-bit result of exact integer arithmetic, sign-extended (the W instructions). -/
def wrap32 (n : Int) : Dword := BitVec.ofInt 64 (n.bmod (2 ^ 32))
/-- The signed low word of a register. -/
def lowInt (a : Dword) : Int := a.toInt.bmod (2 ^ 32)
/-- The unsigned low word of a register. -/
def lowNat (a : Dword) : Nat := a.toNat % 2 ^ 32
/-- A result that says whether a proposition holds. -/
def truth (p : Prop) [Decidable p] : Dword := if p then 1 else 0
/-- The even part of a jump target (R191). -/
def evenPart (n : Int) : Dword := BitVec.ofInt 64 (n / 2 * 2)

/-! ## How an instruction of the focus slot ends -/

/-- The focus slot's baton is a member of no active gang. -/
abbrev State.alone (s : State) : Prop := s.ganged = false
/-- `s` with one instruction of the focus slot completed, that slot now being `t`: the core's instruction count is one higher and nothing
else is changed. -/
def State.ended (s : State) (t : Slot) : State :=
  { s with slots := kset s.focus t s.slots,
           cores := kset s.myCid { s.core s.myCid with instret := (s.core s.myCid).instret + 1 } s.cores }
/-- A slot with rd written, unless it is x0, and the pc at `npc`: every other register as before. -/
def Slot.wrote (t : Slot) (rd : Reg) (v npc : Dword) : Slot :=
  { t with x := if rd = 0 then t.x else t.x.set rd.toNat v rd.isLt, pc := npc }
/-- `s` after an instruction that writes v to rd and goes on at `npc`, and changes nothing else. -/
def State.wroteX (s : State) (rd : Reg) (v npc : Dword) : State := s.ended (s.me.wrote rd v npc)
/-- `s` after an instruction that only goes on at `npc`. -/
def State.movedTo (s : State) (npc : Dword) : State := s.ended { s.me with pc := npc }
/-- `s` after an instruction of `len` bytes that writes v to rd. -/
def State.result (s : State) (rd : Reg) (v : Dword) (len : Nat) : State := s.wroteX rd v (s.me.pc + BitVec.ofNat 64 len)
/-- `s` after an instruction of `len` bytes that has no other effect. -/
def State.passed (s : State) (len : Nat) : State := s.movedTo (s.me.pc + BitVec.ofNat 64 len)
/-- A baton alone that can take a trap: no handler runs and the vector is not zero (R138). -/
abbrev State.canTrap (s : State) : Prop := s.alone ∧ s.me.busy = false ∧ s.me.csr.xutvec ≠ 0
/-- `s` with a trap of the focus slot taken (R137, R138): XUEPC holds the pc, XUTVAL the value, XUCAUSE the cause with BUSY set, and the
pc is at XUTVEC. Nothing else is changed. -/
def State.trapped (s : State) (cause : BitVec 8) (v : Dword) : State :=
  s.setMe { s.me with
    csr := { s.me.csr with xuepc := s.me.pc &&& ~~~1#64, xutval := v, xucause := 1#64 <<< 62 ||| zext64 cause }
    pc := s.me.csr.xutvec }
/-- A parked slot: what it waits for, and the reason, WKEY and WTIME of R92. -/
def Slot.parkedFor (t : Slot) (w : Wait) (reason : BitVec 8) (wkey wtime : Dword) (len swc : Nat) : Slot :=
  { t with mode := .parked, wait := w, reason := reason, wkey := wkey, wtime := wtime, waitLen := len, parkedAt := swc }
/-- `s` with the focus slot parked and nothing else changed. -/
def State.parks (s : State) (w : Wait) (reason : BitVec 8) (wkey wtime : Dword) (len : Nat) : State :=
  s.setMe (s.me.parkedFor w reason wkey wtime len (s.swcAt s.myDie))
/-- `s` with the focus slot parked on an answer that will write v to rd: reason REMOTE, a request tag in WKEY, no deadline (R92, R217). -/
def State.awaits (s : State) (rd : Reg) (v : Dword) (len : Nat) : State :=
  { s with nextTag := s.nextTag + 1 }.parks (.reply rd v) 1 (BitVec.ofNat 64 (s.nextTag % 2 ^ 16)) 0 len
/-- In `t` the focus slot is parked, reason REMOTE with no deadline, on `w`; its pc, its x registers and the memory are those of `s`. -/
def State.parkedOn (s t : State) (w : Wait) (len : Nat) : Prop :=
  t.me.mode = .parked ∧ t.me.wait = w ∧ t.me.reason = 1 ∧ t.me.wtime = 0 ∧ t.me.waitLen = len ∧ t.me.x = s.me.x ∧ t.me.pc = s.me.pc ∧ t.mem = s.mem
/-- In `t` the focus slot is parked on an answer that will write v to rd (R217). -/
def State.awaiting (s t : State) (rd : Reg) (v : Dword) (len : Nat) : Prop := s.parkedOn t (.reply rd v) len

/-! ## Memory operands -/

/-- The little-endian value of `n` bytes of memory (R1). -/
def memNat (m : Memory) (c : Nat) : Nat → Nat
  | 0 => 0
  | n + 1 => (readByte m c).toNat + 256 * memNat m (c + 1) n
/-- The same bytes read as a two's complement number. -/
def memInt (m : Memory) (c n : Nat) : Int := (memNat m c n : Int).bmod (2 ^ (8 * n))
/-- `s` after an instruction of the focus slot that writes `l` to the cells from `c` and goes on: reservations of other slots and errors of
whole lines that the bytes cover are gone. -/
def State.storedTo (s : State) (c : Nat) (l : List Byte) (len : Nat) : State :=
  { s.passed len with
    mem := writeBytes s.mem c l
    slots := kset s.focus { s.me with pc := s.me.pc + BitVec.ofNat 64 len } (clearRes s.slots (some s.focus) c l.length)
    farReserved := s.farReserved.filter fun p => !(some p.1 != some s.focus && touchesRes (some p.2) c l.length)
    poison := clearPoison s.poison c l.length }
/-- No access waits for a bank of the focus slot's die to wake (R156, R157). -/
def State.noBankWait (s : State) : Prop := (s.power s.myDie).waiters = []
/-- The low `n` bytes of a register, in memory order. -/
def lowBytes (v : Dword) (n : Nat) : List Byte := (List.range n).map fun i => BitVec.ofNat 8 (v.toNat / 256 ^ i)
/-- A home that the focus slot's die reaches: in the package, at a die that is up, over a link that is up (R30, R33). -/
def State.reaches (s : State) (a : Nat) : Prop :=
  let r := s.routeTo s.myDie s.me.track a
  r.2 = 0 ∧ isEp r.1 = true ∧ s.dieUp (epDie r.1) = true ∧ s.linkUp s.myDie (epDie r.1) = true
/-- Some packet in flight meets a description. -/
def State.inFlight (s : State) (p : Pkt → Prop) : Prop := ∃ e ∈ s.net, p e.2

/-! ## Floating point -/

/-- The mode of an instruction's rm field under frm, none for an illegal one (R191). -/
def roundingMode (rm frm : BitVec 3) : Option RMode :=
  [some .rne, some .rtz, some .rdn, some .rup, some .rmm, none, none, none].getD (if rm = 7#3 then frm else rm).toNat none
/-- fflags bits of a set of exceptions: NV is bit 4, DZ 3, OF 2, UF 1, NX 0. -/
def exceptionBits (f : FFlags) : BitVec 5 :=
  BitVec.ofNat 5 (f.nv.toNat * 16 + f.dz.toNat * 8 + f.of.toNat * 4 + f.uf.toNat * 2 + f.nx.toNat)
/-- `s` after a four-byte instruction that writes v to rd and accrues exceptions. -/
def State.floatResult (s : State) (rd : Reg) (v : Dword) (f : FFlags) : State :=
  s.ended ({ s.me with csr := { s.me.csr with fflags := s.me.csr.fflags ||| exceptionBits f } }.wrote rd v (s.me.pc + 4))
/-- An FP32 pattern as an x register holds it: sign-extended from bit 31 (R132). -/
def inX (p : Nat) : Dword := wrap32 p
/-- The FP32 operand in an x register. -/
def State.operand (s : State) (r : Reg) : FVal := fdecode .f32 (lowNat (s.x r))
/-- The number that a finite value stands for. -/
def FVal.num : FVal → Option ℚ
  | .fin n m e => some ((if n then -1 else 1) * (m : ℚ) * (2 : ℚ) ^ e)
  | _ => none
/-- A number rounded to an integer in a mode: to nearest with ties to even, towards zero, down, up, to nearest with ties away. -/
def roundTo (m : RMode) (v : ℚ) : Int :=
  match m with
  | .rdn => ⌊v⌋
  | .rup => ⌈v⌉
  | .rtz => if v < 0 then ⌈v⌉ else ⌊v⌋
  | .rne =>
    let d := v - ⌊v⌋
    if d < 1 / 2 then ⌊v⌋ else if 1 / 2 < d then ⌊v⌋ + 1 else if ⌊v⌋ % 2 = 0 then ⌊v⌋ else ⌊v⌋ + 1
  | .rmm => if v < 0 then ⌈v - 1 / 2⌉ else ⌊v + 1 / 2⌋

/-! ## The vector and matrix units -/

/-- `s` after an instruction of the focus slot that has entered the dispatch queue of its core and completes, leaving the slot `t`. -/
def State.queuedEnded (s : State) (k : DqKind) (t : Slot) : State :=
  let c := s.core s.myCid
  { s with slots := kset s.focus t s.slots,
           cores := kset s.myCid { c with dq := c.dq ++ [DqEntry.new (keySlot s.focus) k], lastEntered := some (keySlot s.focus),
                                          instret := c.instret + 1 } s.cores }
/-- `s` after a vector instruction that writes v to vd, with its lane-group occupancy and latency (R248). -/
def State.vectorResult (s : State) (vd : Reg) (v : Vreg) (occ lat : Nat) : State :=
  s.queuedEnded (.vector occ lat [s.outV vd] 0) { s.me.setV vd v with pc := s.me.pc + 4 }
/-- The queue of the focus slot's core has room (R104). -/
abbrev State.queueRoom (s : State) : Prop := (s.core s.myCid).queued < 8
/-- Element widths in bits by ty code (R158). -/
def widthOf (ty : BitVec 3) : Nat := [32, 16, 16, 32, 32, 16, 8, 8].getD ty.toNat 8
/-- The float format of a ty code (R158). -/
def fmtOf (ty : BitVec 3) : Fmt := [.f32, .bf16, .f16].getD ty.toNat .f32
/-- The modes of a two-bit rounding field (R160). -/
def modeOf (rm : BitVec 2) : RMode := [.rne, .rtz, .rdn, .rup].getD rm.toNat .rne
/-- A pattern of w bits read as a signed number. -/
def signedOf (w x : Nat) : Int := (x : Int).bmod (2 ^ w)
/-- A pattern read as the integer type of a ty code reads it: .s32, .s16 and .s8 signed (R255). -/
def readAs (ty : BitVec 3) (x : Nat) : Int := if ty ∈ [3#3, 5#3, 6#3] then signedOf (widthOf ty) x else x

/-! ## CSRs -/

/-- `s` after a CSR instruction that writes v to rd and leaves the slot's CSRs at c. -/
def State.csrResult (s : State) (rd : Reg) (v : Dword) (c : SlotCsrs) : State :=
  s.ended ({ s.me with csr := c }.wrote rd v (s.me.pc + 4))
/-- The readable value of each CSR of R136, by address. -/
def State.csrTable (s : State) : List (BitVec 12 × Dword) :=
  let c := s.me.csr
  let carve := s.carve s.myPcl s.me.launch
  [(0x001, zext64 c.fflags), (0x002, zext64 c.frm), (0x003, zext64 (c.frm ++ c.fflags)), (0x800, c.xutvec), (0x801, c.xuepc),
   (0x802, c.xucause), (0x803, c.xutval), (0x804, c.xufmask), (0x805, zext64 c.xrrb), (0x806, zext64 c.xmscope), (0x807, zext64 c.xrole),
   (0x808, zext64 c.xage), (0x809, zext64 c.xshare), (0x80A, zext64 c.xgangidx), (0x810, c.mfmt), (0x811, c.msca), (0x812, c.mscb),
   (0x813, c.mklen), (0x815, zext64 c.mgrp), (0x820, BitVec.ofNat 64 carve.base), (0x821, BitVec.ofNat 64 carve.fin), (0x822, carve.xovf),
   (0xC00, BitVec.ofNat 64 (s.swcAt s.myDie)), (0xC01, BitVec.ofNat 64 (s.swcAt s.myDie)), (0xC02, (s.core s.myCid).instret),
   (0xCC0, s.dmr s.myCid s.me.group 1), (0xCC1, s.dmr s.myCid s.me.group 2), (0xCC2, s.dmr s.myCid s.me.group 3),
   (0xCC3, s.dmr s.myCid s.me.group 4), (0xCC4, BitVec.ofNat 64 s.myCid), (0xCC5, s.me.xbaton), (0xCC6, s.pkg.ready),
   (0xCC7, BitVec.ofInt 64 s.stamina), (0xCC8, (s.cluster s.myPcl).xstray)]
/-- The addresses of R136, with MMPROG, whose counts R269 takes from the ports. -/
def csrAddresses : List (BitVec 12) :=
  [0x001, 0x002, 0x003, 0x800, 0x801, 0x802, 0x803, 0x804, 0x805, 0x806, 0x807, 0x808, 0x809, 0x80A, 0x810, 0x811, 0x812, 0x813, 0x814,
   0x815, 0x820, 0x821, 0x822, 0xC00, 0xC01, 0xC02, 0xCC0, 0xCC1, 0xCC2, 0xCC3, 0xCC4, 0xCC5, 0xCC6, 0xCC7, 0xCC8]
/-- The addresses whose access is RO. -/
def csrReadOnlyAddresses : List (BitVec 12) :=
  [0x807, 0x80A, 0x820, 0x821, 0xC00, 0xC01, 0xC02, 0xCC0, 0xCC1, 0xCC2, 0xCC3, 0xCC4, 0xCC5, 0xCC6, 0xCC7, 0xCC8]

/-! ## Packets and waits -/

/-- Packet `p` of this package, with key `pid`, can be delivered now and is well formed, and no access waits for a bank of its die. -/
abbrev State.arrived (s : State) (pid : Nat) (p : Pkt) : Prop :=
  s.canDeliver pid = some p ∧ p.malformed = false ∧ p.srcPkg = 0 ∧ p.dstPkg = 0 ∧ (s.power p.hopDst).waiters = []
/-- A die has a way back to the source of a packet (R30, R33). -/
abbrev State.canAnswer (s : State) (p : Pkt) : Prop :=
  isEp p.src = true ∧ s.dieUp (epDie p.src) = true ∧ s.linkUp p.hopDst (epDie p.src) = true
/-- A request that its home deals with at once: it has arrived, it is no ranked packet and no baton, it names no NI register, its banks are
powered, and its source can be answered. -/
abbrev State.asked (s : State) (pid : Nat) (p : Pkt) : Prop :=
  s.arrived pid p ∧ p.ranked = false ∧ p.enqueue = none ∧ addrClass p.va ≠ .niBlock ∧ s.banksReady (s.pktCells p.hopDst p) = true ∧ s.canAnswer p
/-- An answer to `p` is in flight: its type, its first operand and its data. -/
abbrev State.replied (t : State) (p : Pkt) (ty : PType) (a : Dword) (data : List Byte) : Prop :=
  t.inFlight fun q => q.ty = ty ∧ q.dst = p.src ∧ q.tag = p.tag ∧ q.va = p.va ∧ q.a = a ∧ q.data = data
/-- Slot `k` holds the baton with record `r`, a member of no active gang, parked on `w`. -/
abbrev State.parkedAlone (s : State) (k r : Nat) (w : Wait) : Prop :=
  s.findSlot r = some k ∧ slotRecord k (s.slotAt k) = r ∧ (s.slotAt k).mode = .parked ∧ (s.slotAt k).wait = w ∧ s.gangOf r = none
/-- A slot that waits no more. -/
def Slot.awake (t : Slot) : Slot := { t with mode := .running, wait := .none, reason := 0, wkey := 0, wtime := 0, waitLen := 0 }
/-- A parked slot whose instruction has completed with v in rd: its pc is past that instruction. -/
def Slot.resumed (t : Slot) (rd : Reg) (v : Dword) : Slot := t.awake.wrote rd v (t.pc + BitVec.ofNat 64 t.waitLen)
/-- A load's value in a register: the low `n` bytes, sign- or zero-extended. -/
def extended (n : Nat) (sgn : Bool) (v : Nat) : Dword :=
  if sgn then BitVec.ofInt 64 ((v : Int).bmod (2 ^ (8 * n))) else BitVec.ofNat 64 (v % 2 ^ (8 * n))

/-! ## What a frame compares -/

/-- The x registers of the focus slot in `t` are those of `s` with v in rd, unless rd is x0. -/
def State.xWritten (s t : State) (rd : Reg) (v : Dword) : Prop := ∀ q, t.x q = if q = rd ∧ rd ≠ 0 then v else s.x q
/-- `t` follows `s` by an instruction of `len` bytes that writes v to rd: the pc is `len` on, and memory is as before. -/
def State.gave (s t : State) (rd : Reg) (v : Dword) (len : Nat) : Prop :=
  s.xWritten t rd v ∧ t.me.pc = s.me.pc + BitVec.ofNat 64 len ∧ t.mem = s.mem
/-- Every byte of memory outside `n` cells from `a` reads as before. -/
def State.memSameBut (s t : State) (a n : Nat) : Prop :=
  ∀ c, c < a ∨ a + n ≤ c → readByte t.mem c = readByte s.mem c
/-- All registers of the focus slot but the x registers, the pc and the CSRs are as before: the vector and status registers, and the
baton's record, track and group. -/
def Slot.sameWide (t u : Slot) : Prop :=
  u.v = t.v ∧ u.sr = t.sr ∧ u.xbaton = t.xbaton ∧ u.track = t.track ∧ u.group = t.group ∧ u.fvec = t.fvec ∧ u.token = t.token ∧
  u.phases = t.phases
/-- Every core but one is as before, and that core but for its instruction count. -/
def State.sameCores (s t : State) (cid : Nat) : Prop :=
  (∀ c, c ≠ cid → t.core c = s.core c) ∧ { t.core cid with instret := 0 } = { s.core cid with instret := 0 }

end Sys2Proof.Machine
end

