-- ==== Sys2Proof/Certificates/Slice0/Obligations.lean ====
section
/-!
DEFINITION. The statements for the provers. Each docstring says what the statement says and cites the rules of spec/ it rests on.
-/
open Sys2Proof Sys2Proof.Machine

/-- Results of the RV64I register and immediate instructions, LUI and AUIPC. Outside an active gang, ADD, SUB, SLL, SRL, SRA, SLT, SLTU, XOR,
OR, AND, ADDW, SUBW, SLLW, SRLW and SRAW complete: rd receives the exact integer result reduced to 64 bits, a W form the 32-bit result
sign-extended, shifts take the low 6 (W: 5) bits of rs2, a write to x0 is discarded, the pc advances by 4, the core counts one
instruction, and nothing else changes. Outside an active gang, ADDI, SLTI, SLTIU, XORI, ORI, ANDI, SLLI, SRLI, SRAI, ADDIW, SLLIW, SRLIW,
SRAIW, LUI and AUIPC complete with the result of the register and the sign-extended 12-bit immediate, the shift amount, or the upper
immediate (for AUIPC added to the pc); the pc advances by 4 and nothing else changes but the instruction count. (R191, R132, R136,
11_isa_control.md.) -/
def Obligations.IntegerResults : Prop :=
  (∀ (s : State) (rd rs1 rs2 : Reg), s.alone →
    let a := s.x rs1
    let b := s.x rs2
    exec (.add rd rs1 rs2) s = .next (s.result rd (wrap64 (a.toInt + b.toInt)) 4) ∧
    exec (.sub rd rs1 rs2) s = .next (s.result rd (wrap64 (a.toInt - b.toInt)) 4) ∧
    exec (.sll rd rs1 rs2) s = .next (s.result rd (wrap64 (a.toNat * 2 ^ (b.toNat % 64))) 4) ∧
    exec (.srl rd rs1 rs2) s = .next (s.result rd (wrap64 (a.toNat / 2 ^ (b.toNat % 64))) 4) ∧
    exec (.sra rd rs1 rs2) s = .next (s.result rd (wrap64 (a.toInt / 2 ^ (b.toNat % 64))) 4) ∧
    exec (.slt rd rs1 rs2) s = .next (s.result rd (truth (a.toInt < b.toInt)) 4) ∧
    exec (.sltu rd rs1 rs2) s = .next (s.result rd (truth (a.toNat < b.toNat)) 4) ∧
    exec (.xor rd rs1 rs2) s = .next (s.result rd (a ^^^ b) 4) ∧
    exec (.or rd rs1 rs2) s = .next (s.result rd (a ||| b) 4) ∧
    exec (.and rd rs1 rs2) s = .next (s.result rd (a &&& b) 4) ∧
    exec (.addw rd rs1 rs2) s = .next (s.result rd (wrap32 (a.toInt + b.toInt)) 4) ∧
    exec (.subw rd rs1 rs2) s = .next (s.result rd (wrap32 (a.toInt - b.toInt)) 4) ∧
    exec (.sllw rd rs1 rs2) s = .next (s.result rd (wrap32 (a.toNat * 2 ^ (b.toNat % 32))) 4) ∧
    exec (.srlw rd rs1 rs2) s = .next (s.result rd (wrap32 (lowNat a / 2 ^ (b.toNat % 32))) 4) ∧
    exec (.sraw rd rs1 rs2) s = .next (s.result rd (wrap32 (lowInt a / 2 ^ (b.toNat % 32))) 4)) ∧
  (∀ (s : State) (rd rs1 sh5 : Reg) (imm : BitVec 12) (sh : BitVec 6) (up : BitVec 20), s.alone →
    let a := s.x rs1
    exec (.addi rd rs1 imm) s = .next (s.result rd (wrap64 (a.toInt + imm.toInt)) 4) ∧
    exec (.slti rd rs1 imm) s = .next (s.result rd (truth (a.toInt < imm.toInt)) 4) ∧
    exec (.sltiu rd rs1 imm) s = .next (s.result rd (truth (a.toNat < (wrap64 imm.toInt).toNat)) 4) ∧
    exec (.xori rd rs1 imm) s = .next (s.result rd (a ^^^ wrap64 imm.toInt) 4) ∧
    exec (.ori rd rs1 imm) s = .next (s.result rd (a ||| wrap64 imm.toInt) 4) ∧
    exec (.andi rd rs1 imm) s = .next (s.result rd (a &&& wrap64 imm.toInt) 4) ∧
    exec (.slli rd rs1 sh) s = .next (s.result rd (wrap64 (a.toNat * 2 ^ sh.toNat)) 4) ∧
    exec (.srli rd rs1 sh) s = .next (s.result rd (wrap64 (a.toNat / 2 ^ sh.toNat)) 4) ∧
    exec (.srai rd rs1 sh) s = .next (s.result rd (wrap64 (a.toInt / 2 ^ sh.toNat)) 4) ∧
    exec (.addiw rd rs1 imm) s = .next (s.result rd (wrap32 (a.toInt + imm.toInt)) 4) ∧
    exec (.slliw rd rs1 sh5) s = .next (s.result rd (wrap32 (a.toNat * 2 ^ sh5.toNat)) 4) ∧
    exec (.srliw rd rs1 sh5) s = .next (s.result rd (wrap32 (lowNat a / 2 ^ sh5.toNat)) 4) ∧
    exec (.sraiw rd rs1 sh5) s = .next (s.result rd (wrap32 (lowInt a / 2 ^ sh5.toNat)) 4) ∧
    exec (.lui rd up) s = .next (s.result rd (wrap64 (up.toInt * 4096)) 4) ∧
    exec (.auipc rd up) s = .next (s.result rd (wrap64 (s.me.pc.toInt + up.toInt * 4096)) 4))

/-- Results of the multiply and divide instructions, with the corner cases of division. Outside an active gang, MUL writes the low 64 bits of
the product, MULH, MULHSU and MULHU the high 64 bits of the signed, signed by unsigned, and unsigned product, and MULW the low 32 bits
sign-extended; the pc advances by 4 and nothing else changes but the instruction count. Outside an active gang, DIV, DIVU, REM, REMU and
their W forms complete with the quotient truncated towards zero and the remainder with the sign of the dividend; a divisor of zero gives
all ones and the dividend; the most negative dividend by minus one gives the dividend and zero. The pc advances by 4 and nothing else
changes but the instruction count. (R191, 11_isa_control.md.) -/
def Obligations.MultiplyAndDivideResults : Prop :=
  (∀ (s : State) (rd rs1 rs2 : Reg), s.alone →
    let a := s.x rs1
    let b := s.x rs2
    exec (.mul rd rs1 rs2) s = .next (s.result rd (wrap64 (a.toInt * b.toInt)) 4) ∧
    exec (.mulh rd rs1 rs2) s = .next (s.result rd (wrap64 (a.toInt * b.toInt / 2 ^ 64)) 4) ∧
    exec (.mulhsu rd rs1 rs2) s = .next (s.result rd (wrap64 (a.toInt * b.toNat / 2 ^ 64)) 4) ∧
    exec (.mulhu rd rs1 rs2) s = .next (s.result rd (wrap64 (a.toNat * b.toNat / 2 ^ 64)) 4) ∧
    exec (.mulw rd rs1 rs2) s = .next (s.result rd (wrap32 (a.toInt * b.toInt)) 4)) ∧
  (∀ (s : State) (rd rs1 rs2 : Reg), s.alone →
    let a := s.x rs1
    let b := s.x rs2
    exec (.div rd rs1 rs2) s = .next (s.result rd (if b.toInt = 0 then wrap64 (-1) else wrap64 (a.toInt.tdiv b.toInt)) 4) ∧
    exec (.divu rd rs1 rs2) s = .next (s.result rd (if b.toNat = 0 then wrap64 (-1) else wrap64 (a.toNat / b.toNat)) 4) ∧
    exec (.rem rd rs1 rs2) s = .next (s.result rd (wrap64 (a.toInt.tmod b.toInt)) 4) ∧
    exec (.remu rd rs1 rs2) s = .next (s.result rd (wrap64 (a.toNat % b.toNat)) 4) ∧
    exec (.divw rd rs1 rs2) s = .next (s.result rd (if lowInt b = 0 then wrap64 (-1) else wrap32 ((lowInt a).tdiv (lowInt b))) 4) ∧
    exec (.divuw rd rs1 rs2) s = .next (s.result rd (if lowNat b = 0 then wrap64 (-1) else wrap32 (lowNat a / lowNat b)) 4) ∧
    exec (.remw rd rs1 rs2) s = .next (s.result rd (wrap32 ((lowInt a).tmod (lowInt b))) 4) ∧
    exec (.remuw rd rs1 rs2) s = .next (s.result rd (wrap32 (lowNat a % lowNat b)) 4))

/-- Targets of jumps and conditional branches. Outside an active gang, JAL and JALR write the address of the following instruction to rd and
go to the pc plus the signed offset in halfwords, or to the register (as it was before rd is written) plus the signed immediate with bit 0
cleared; BEQ, BNE, BLT, BGE, BLTU and BGEU go to the pc plus the signed offset in halfwords where their condition holds, with bit 0
cleared, and to the following instruction where it does not. Nothing else changes but the instruction count. (R191, 11_isa_control.md.) -/
def Obligations.JumpsAndBranches : Prop :=
  ∀ (s : State) (rd rs1 rs2 : Reg) (off20 : BitVec 20) (off imm : BitVec 12), s.alone →
    let a := s.x rs1
    let b := s.x rs2
    let after := s.me.pc + 4#64
    let taken := s.movedTo (evenPart (s.me.pc.toInt + 2 * off.toInt))
    let branch := fun (c : Bool) => Host.Outcome.next (if c then taken else s.movedTo after)
    exec (.jal rd off20) s = .next (s.wroteX rd after (evenPart (s.me.pc.toInt + 2 * off20.toInt))) ∧
    exec (.jalr rd rs1 imm) s = .next (s.wroteX rd after (evenPart (a.toInt + imm.toInt))) ∧
    exec (.beq rs1 rs2 off) s = branch (decide (a = b)) ∧
    exec (.bne rs1 rs2 off) s = branch (decide (a ≠ b)) ∧
    exec (.blt rs1 rs2 off) s = branch (decide (a.toInt < b.toInt)) ∧
    exec (.bge rs1 rs2 off) s = branch (decide (b.toInt ≤ a.toInt)) ∧
    exec (.bltu rs1 rs2 off) s = branch (decide (a.toNat < b.toNat)) ∧
    exec (.bgeu rs1 rs2 off) s = branch (decide (b.toNat ≤ a.toNat))

/-- Loads and stores of a local aperture. Outside an active gang, at an aligned address of the own TCM, scratchpad (a window resolves to its
front frame) or die shared SRAM to which the entry ATAPER of the track admits reads (log entry 7), LB, LH, LW, LD, LBU, LHU, LWU and LD.AQ
(widths 0 to 3 sign-extended and 4 to 6 zero-extended; at PACKAGE and SYSTEM scope on the state in which the die has applied its log)
complete with rd holding the little-endian bytes, sign- or zero-extended; memory is unchanged, the pc advances by 4 and no other register
changes. On a bank that is gated or waking, or for which earlier accesses wait, the instruction waits its turn instead and has no effect
yet. Outside an active gang, at an aligned address of the own TCM, scratchpad or die shared SRAM to which the entry ATAPER of the track
admits writes (log entry 7), whose bank is powered with no earlier access waiting for it, SB, SH, SW, SD, and ST.RL once the posted stores
within its scope are answered, complete: the low bytes of rs2 stand at the cell of xreg[rs1] plus the signed offset, every byte of memory
outside them reads as before, no register of the slot but the pc changes, and the pc advances by 4. While posted stores within its scope
are unanswered ST.RL waits, and the state is unchanged. (R192, R234, R50, R149, R156, 07_core_memory.md, R193.) -/
def Obligations.LocalLoadsAndStores : Prop :=
  (∀ (s : State) (rd rs1 : Reg) (imm : BitVec 12) (c : Nat),
    let a := (s.x rs1 + sext64 imm).toNat
    let load := fun (u : State) (o : Host.Outcome State Fault Refusal) (n : Nat) (sgn : Bool) (a : Nat) =>
      u.alone → a % n = 0 → u.ownCell .read a = some c →
      o = .next (if u.granted u.focus [c]
        then (u.result rd (wrap64 (if sgn then memInt u.mem c n else memNat u.mem c n)) 4).unstall u.focus
        else u.stallOn u.focus [c])
    load s (exec (.lb rd rs1 imm) s) 1 true a ∧
    load s (exec (.lh rd rs1 imm) s) 2 true a ∧
    load s (exec (.lw rd rs1 imm) s) 4 true a ∧
    load s (exec (.ld rd rs1 imm) s) 8 true a ∧
    load s (exec (.lbu rd rs1 imm) s) 1 false a ∧
    load s (exec (.lhu rd rs1 imm) s) 2 false a ∧
    load s (exec (.lwu rd rs1 imm) s) 4 false a ∧
    (∀ (scope : BitVec 2) (width : BitVec 3) (off : BitVec 7), width ≠ 7 →
      load (if 2 ≤ scope.toNat then s.applyLog s.myDie else s) (exec (.ldAq rd rs1 scope width off) s) (2 ^ (width.toNat % 4)) (decide (width.toNat < 4)) (s.x rs1 + sext64 off).toNat)) ∧
  (∀ (s : State) (rs1 rs2 : Reg) (imm : BitVec 12) (c : Nat), s.alone →
    let a := (s.x rs1 + sext64 imm).toNat
    let store := fun (o : Host.Outcome State Fault Refusal) (n a : Nat) =>
      a % n = 0 → s.ownCell .write a = some c → s.granted s.focus [c] = true →
      o = .next ((s.storedTo c (lowBytes (s.x rs2) n) 4).unstall s.focus)
    store (exec (.sb rs1 rs2 imm) s) 1 a ∧
    store (exec (.sh rs1 rs2 imm) s) 2 a ∧
    store (exec (.sw rs1 rs2 imm) s) 4 a ∧
    store (exec (.sd rs1 rs2 imm) s) 8 a ∧
    (∀ (scope width : BitVec 2) (off : BitVec 7), s.released scope.toNat = true →
      store (exec (.stRl rs1 rs2 scope width off) s) (2 ^ width.toNat) (s.x rs1 + sext64 off).toNat) ∧
    (∀ (scope width : BitVec 2) (off : BitVec 7), s.released scope.toNat = false → (s.x rs1 + sext64 off).toNat % 2 ^ width.toNat = 0 →
      exec (.stRl rs1 rs2 scope width off) s = .next s))

/-- A global load parks on a READ to its home, and a global store is posted as a WRITE. Outside an active gang, at an aligned global address
whose home in the package is up and linked: LB, LH, LW, LD, LBU, LHU and LWU park the slot with reason REMOTE and the request's 16-bit tag
in WKEY, with a READ of the bytes in flight under the baton's track; SB, SH, SW and SD complete at once, with a WRITE of the low bytes of
rs2 in flight and the request recorded among the baton's posted ones; memory is unchanged by both. (R177, R92, R33, R34, 09_ordering.md,
05_scheduler.md.) -/
def Obligations.GlobalAccessesAskTheHome : Prop :=
  ∀ (s : State) (rd rs1 rs2 : Reg) (imm : BitVec 12), s.alone →
    let a := (s.x rs1 + sext64 imm).toNat
    addrClass a = .global → s.reaches a →
    let load := fun (o : Host.Outcome State Fault Refusal) (n : Nat) (sgn : Bool) =>
      a % n = 0 → ∃ t, o = .next t ∧ t.mem = s.mem ∧
        t.me = s.me.parkedFor (.load s.nextTag rd n sgn false) 1 (BitVec.ofNat 64 (s.nextTag % 2 ^ 16)) 0 4 (s.swcAt s.myDie) ∧
        t.inFlight fun p => p.ty = .read ∧ p.tag = s.nextTag ∧ p.elems = [(a, n)] ∧ p.track = s.me.track ∧ p.src = s.myCid
    let store := fun (o : Host.Outcome State Fault Refusal) (n : Nat) =>
      a % n = 0 → ∃ t, o = .next t ∧ t.mem = s.mem ∧
        (∃ q, q.tag = s.nextTag ∧ q.store = true ∧ t.me = { s.me with pc := s.me.pc + 4, posted := s.me.posted ++ [q] }) ∧
        t.inFlight fun p => p.ty = .write ∧ p.tag = s.nextTag ∧ p.elems = [(a, n)] ∧ p.data = lowBytes (s.x rs2) n ∧
          p.track = s.me.track ∧ p.src = s.myCid
    load (exec (.lb rd rs1 imm) s) 1 true ∧
    load (exec (.lh rd rs1 imm) s) 2 true ∧
    load (exec (.lw rd rs1 imm) s) 4 true ∧
    load (exec (.ld rd rs1 imm) s) 8 true ∧
    load (exec (.lbu rd rs1 imm) s) 1 false ∧
    load (exec (.lhu rd rs1 imm) s) 2 false ∧
    load (exec (.lwu rd rs1 imm) s) 4 false ∧
    store (exec (.sb rs1 rs2 imm) s) 1 ∧
    store (exec (.sh rs1 rs2 imm) s) 2 ∧
    store (exec (.sw rs1 rs2 imm) s) 4 ∧
    store (exec (.sd rs1 rs2 imm) s) 8

/-- A misaligned scalar access traps with its address. A baton alone that can take a trap: LH, LW, LD, LHU, LWU, LR (with rl, once its posted
stores are answered) and LD.AQ at an address that is not a multiple of the width take cause 5, and SH, SW, SD, ST.RL, SC and the AMOs
cause 7, with the address in XUTVAL, XUEPC at the instruction and the pc at XUTVEC; nothing else changes. (R192, R139, R138, R137,
11_isa_control.md.) -/
def Obligations.MisalignedAccessesTrap : Prop :=
  ∀ (s : State) (rd rs1 rs2 : Reg) (imm : BitVec 12) (aq dbl : Bool), s.canTrap →
    let a := s.x rs1 + sext64 imm
    let x := s.x rs1
    let traps := fun (o : Host.Outcome State Fault Refusal) (n : Nat) (cause : BitVec 8) (a : Dword) =>
      a.toNat % n ≠ 0 → o = .next (s.trapped cause a)
    traps (exec (.lh rd rs1 imm) s) 2 5 a ∧
    traps (exec (.lw rd rs1 imm) s) 4 5 a ∧
    traps (exec (.ld rd rs1 imm) s) 8 5 a ∧
    traps (exec (.lhu rd rs1 imm) s) 2 5 a ∧
    traps (exec (.lwu rd rs1 imm) s) 4 5 a ∧
    traps (exec (.sh rs1 rs2 imm) s) 2 7 a ∧
    traps (exec (.sw rs1 rs2 imm) s) 4 7 a ∧
    traps (exec (.sd rs1 rs2 imm) s) 8 7 a ∧
    (∀ rl : Bool, (rl = true → s.released s.mscope = true) → traps (exec (.lr rd rs1 aq rl dbl) s) (if dbl then 8 else 4) 5 x) ∧
    (∀ rl, traps (exec (.sc rd rs1 rs2 aq rl dbl) s) (if dbl then 8 else 4) 7 x) ∧
    (∀ rl, traps (exec (.amoswap rd rs1 rs2 aq rl dbl) s) (if dbl then 8 else 4) 7 x) ∧
    (∀ rl, traps (exec (.amoadd rd rs1 rs2 aq rl dbl) s) (if dbl then 8 else 4) 7 x) ∧
    (∀ rl, traps (exec (.amoxor rd rs1 rs2 aq rl dbl) s) (if dbl then 8 else 4) 7 x) ∧
    (∀ rl, traps (exec (.amoand rd rs1 rs2 aq rl dbl) s) (if dbl then 8 else 4) 7 x) ∧
    (∀ rl, traps (exec (.amoor rd rs1 rs2 aq rl dbl) s) (if dbl then 8 else 4) 7 x) ∧
    (∀ rl, traps (exec (.amomin rd rs1 rs2 aq rl dbl) s) (if dbl then 8 else 4) 7 x) ∧
    (∀ rl, traps (exec (.amomax rd rs1 rs2 aq rl dbl) s) (if dbl then 8 else 4) 7 x) ∧
    (∀ rl, traps (exec (.amominu rd rs1 rs2 aq rl dbl) s) (if dbl then 8 else 4) 7 x) ∧
    (∀ rl, traps (exec (.amomaxu rd rs1 rs2 aq rl dbl) s) (if dbl then 8 else 4) 7 x) ∧
    (∀ (scope : BitVec 2) (width : BitVec 3) (off : BitVec 7),
      traps (exec (.ldAq rd rs1 scope width off) s) (2 ^ (width.toNat % 4)) 5 (x + sext64 off)) ∧
    (∀ (scope width : BitVec 2) (off : BitVec 7),
      traps (exec (.stRl rs1 rs2 scope width off) s) (2 ^ width.toNat) 7 (x + sext64 off))

/-- Results of LR, SC and the AMOs on a local address. Outside an active gang, on an aligned local address that the entry ATAPER of the track
admits (log entry 7) and whose bank is powered, with no access waiting for a bank of the die, without aq at PACKAGE or SYSTEM and with rl
only once its posted stores are answered: an AMO writes the old value, a .W form sign-extended, to rd and its result on the low bytes to
memory, and no other byte of memory changes; LR reads the value likewise and reserves the 8 bytes that hold the address; SC writes rs2 and
0 to rd if the slot holds that reservation, and otherwise stores nothing and writes 1 to rd, and gives the reservation up in both cases.
(R191, R192, R193, 11_isa_control.md.) -/
def Obligations.AtomicResults : Prop :=
  ∀ (s : State) (rd rs1 rs2 : Reg) (aq rl dbl : Bool) (c : Nat), s.alone →
    let n := if dbl then 8 else 4
    let a := (s.x rs1).toNat
    s.noBankWait → a % n = 0 → s.ownCell .read a = some c → s.ownCell .amo a = some c → s.granted s.focus [c] = true → (aq = true → s.mscope < 2) → (rl = true → s.released s.mscope = true) →
    let old := memInt s.mem c n
    let v := ((s.x rs2).toInt).bmod (2 ^ (8 * n))
    let oldU := (memNat s.mem c n : Int)
    let vU := (s.x rs2).toNat % 2 ^ (8 * n)
    let amo := fun (o : Host.Outcome State Fault Refusal) (r : Int) =>
      ∃ t, o = .next t ∧ s.xWritten t rd (wrap64 old) ∧ t.me.pc = s.me.pc + 4 ∧
        (memNat t.mem c n : Int) = r % 2 ^ (8 * n) ∧ s.memSameBut t c n
    amo (exec (.amoswap rd rs1 rs2 aq rl dbl) s) v ∧
    amo (exec (.amoadd rd rs1 rs2 aq rl dbl) s) (old + v) ∧
    amo (exec (.amoxor rd rs1 rs2 aq rl dbl) s) (wrap64 old ^^^ wrap64 v).toInt ∧
    amo (exec (.amoand rd rs1 rs2 aq rl dbl) s) (wrap64 old &&& wrap64 v).toInt ∧
    amo (exec (.amoor rd rs1 rs2 aq rl dbl) s) (wrap64 old ||| wrap64 v).toInt ∧
    amo (exec (.amomin rd rs1 rs2 aq rl dbl) s) (min old v) ∧
    amo (exec (.amomax rd rs1 rs2 aq rl dbl) s) (max old v) ∧
    amo (exec (.amominu rd rs1 rs2 aq rl dbl) s) (min oldU vU) ∧
    amo (exec (.amomaxu rd rs1 rs2 aq rl dbl) s) (max oldU vU) ∧
    (∃ t, exec (.lr rd rs1 aq rl dbl) s = .next t ∧ t.mem = s.mem ∧ t.me.pc = s.me.pc + 4 ∧ t.me.reserved = some (c / 8 * 8) ∧
      s.xWritten t rd (wrap64 old)) ∧
    (∃ t, exec (.sc rd rs1 rs2 aq rl dbl) s = .next t ∧ t.me.pc = s.me.pc + 4 ∧ t.me.reserved = none ∧ s.memSameBut t c n ∧
      (if s.me.reserved = some (c / 8 * 8)
       then (memNat t.mem c n : Int) = v % 2 ^ (8 * n) ∧ s.xWritten t rd 0
       else t.mem = s.mem ∧ s.xWritten t rd 1))

/-- Results of the 16-bit instructions. Outside an active gang, C.ADDI4SPN, C.ADDI, C.NOP, C.ADDIW, C.LI, C.ADDI16SP, C.LUI, C.SRLI, C.SRAI,
C.ANDI, C.SUB, C.XOR, C.OR, C.AND, C.SUBW, C.ADDW, C.SLLI, C.MV and C.ADD complete with the result of the instruction they expand to, on
registers 8 to 15 where a field has three bits, and the pc advances by 2; nothing else changes but the instruction count. Outside an
active gang, C.J, C.JR, C.JALR (which links the address two bytes on in x1), C.BEQZ and C.BNEZ go to their target with bit 0 cleared, and
a branch not taken to the instruction two bytes on. At an aligned local address that the entry ATAPER of the track admits (log entry 7),
on a powered bank for which no earlier access waits, C.LW, C.LD, C.LWSP and C.LDSP load rd with the sign-extended little-endian value, and
C.SW, C.SD, C.SWSP and C.SDSP store the low bytes of rs2 and nothing else; the address is a register or sp plus the unsigned scaled
offset, and the pc advances by 2. (R190, R191, 11_isa_control.md, R192.) -/
def Obligations.CompressedInstructions : Prop :=
  (∀ (s : State) (rd rs2 : Reg) (rdc rsc : BitVec 3) (i sh : BitVec 6) (u8 : BitVec 8), s.alone →
    let d : Reg := 1#2 ++ rdc
    let sp := s.x 2
    let a := s.x rd
    let x := s.x d
    let y := s.x (1#2 ++ rsc)
    exec (.cAddi4spn rdc u8) s = .next (s.result d (wrap64 (sp.toInt + 4 * u8.toNat)) 2) ∧
    exec (.cAddi rd i) s = .next (s.result rd (wrap64 (a.toInt + i.toInt)) 2) ∧
    exec (.cNop i) s = .next (s.passed 2) ∧
    exec (.cAddiw rd i) s = .next (s.result rd (wrap32 (a.toInt + i.toInt)) 2) ∧
    exec (.cLi rd i) s = .next (s.result rd (wrap64 i.toInt) 2) ∧
    exec (.cAddi16sp i) s = .next (s.result 2 (wrap64 (sp.toInt + 16 * i.toInt)) 2) ∧
    exec (.cLui rd i) s = .next (s.result rd (wrap64 (4096 * i.toInt)) 2) ∧
    exec (.cSrli rdc sh) s = .next (s.result d (wrap64 (x.toNat / 2 ^ sh.toNat)) 2) ∧
    exec (.cSrai rdc sh) s = .next (s.result d (wrap64 (x.toInt / 2 ^ sh.toNat)) 2) ∧
    exec (.cAndi rdc i) s = .next (s.result d (x &&& wrap64 i.toInt) 2) ∧
    exec (.cSub rdc rsc) s = .next (s.result d (wrap64 (x.toInt - y.toInt)) 2) ∧
    exec (.cXor rdc rsc) s = .next (s.result d (x ^^^ y) 2) ∧
    exec (.cOr rdc rsc) s = .next (s.result d (x ||| y) 2) ∧
    exec (.cAnd rdc rsc) s = .next (s.result d (x &&& y) 2) ∧
    exec (.cSubw rdc rsc) s = .next (s.result d (wrap32 (x.toInt - y.toInt)) 2) ∧
    exec (.cAddw rdc rsc) s = .next (s.result d (wrap32 (x.toInt + y.toInt)) 2) ∧
    exec (.cSlli rd sh) s = .next (s.result rd (wrap64 (a.toNat * 2 ^ sh.toNat)) 2) ∧
    exec (.cMv rd rs2) s = .next (s.result rd (s.x rs2) 2) ∧
    exec (.cAdd rd rs2) s = .next (s.result rd (wrap64 (a.toInt + (s.x rs2).toInt)) 2)) ∧
  (∀ (s : State) (rd rs1 rs2 : Reg) (r1 r2 : BitVec 3) (u5 : BitVec 5) (u6 : BitVec 6) (off : BitVec 8) (far : BitVec 11) (c : Nat), s.alone →
    let p := s.x (1#2 ++ r1)
    let y := s.x (1#2 ++ r2)
    let branch := fun (b : Bool) =>
      Host.Outcome.next (if b then s.movedTo (evenPart (s.me.pc.toInt + 2 * off.toInt)) else s.movedTo (s.me.pc + 2#64))
    let at' := fun (op : MemOp) (b : Dword) (k : Nat) (f : Nat → Prop) =>
      let a := (b.toNat + k) % 2 ^ 64
      s.ownCell op a = some c → s.granted s.focus [c] = true → f a
    let load := fun (o : Host.Outcome State Fault Refusal) (r : Reg) (n a : Nat) =>
      a % n = 0 → o = .next ((s.result r (wrap64 (memInt s.mem c n)) 2).unstall s.focus)
    let store := fun (o : Host.Outcome State Fault Refusal) (v : Dword) (n a : Nat) =>
      a % n = 0 → o = .next ((s.storedTo c (lowBytes v n) 2).unstall s.focus)
    exec (.cJ far) s = .next (s.movedTo (evenPart (s.me.pc.toInt + 2 * far.toInt))) ∧
    exec (.cJr rs1) s = .next (s.movedTo (evenPart (s.x rs1).toInt)) ∧
    exec (.cJalr rs1) s = .next (s.wroteX 1 (s.me.pc + 2#64) (evenPart (s.x rs1).toInt)) ∧
    exec (.cBeqz r1 off) s = branch (decide (p = 0)) ∧
    exec (.cBnez r1 off) s = branch (decide (p ≠ 0)) ∧
    at' .read p (4 * u5.toNat) (load (exec (.cLw r2 r1 u5) s) (1#2 ++ r2) 4) ∧
    at' .read p (8 * u5.toNat) (load (exec (.cLd r2 r1 u5) s) (1#2 ++ r2) 8) ∧
    at' .write p (4 * u5.toNat) (store (exec (.cSw r1 r2 u5) s) y 4) ∧
    at' .write p (8 * u5.toNat) (store (exec (.cSd r1 r2 u5) s) y 8) ∧
    at' .read (s.x 2) (4 * u6.toNat) (load (exec (.cLwsp rd u6) s) rd 4) ∧
    at' .read (s.x 2) (8 * u6.toNat) (load (exec (.cLdsp rd u6) s) rd 8) ∧
    at' .write (s.x 2) (4 * u6.toNat) (store (exec (.cSwsp rs2 u6) s) (s.x rs2) 4) ∧
    at' .write (s.x 2) (8 * u6.toNat) (store (exec (.cSdsp rs2 u6) s) (s.x rs2) 8))

/-- Results, exceptions and rounding modes of scalar floating-point arithmetic. Outside an active gang FADD.S, FSUB.S, FMUL.S, FDIV.S,
FSQRT.S, FMADD.S, FMSUB.S, FNMSUB.S and FNMADD.S complete in the mode of their rm field, 7 meaning frm: rd receives the once-rounded
result of the FP32 operands in bits [31:0], sign-extended from bit 31, its exceptions are accrued in fflags, the pc advances by 4 and
nothing else changes. With an rm field of 5 or 6, or 7 while frm is 5 to 7, a baton that can take a trap takes cause 2 with the
instruction word. (R132, R191, R192, R253, R254, 11_isa_control.md.) -/
def Obligations.FloatArithmeticResults : Prop :=
  ∀ (s : State) (rd rs1 rs2 rs3 : Reg) (rm : BitVec 3),
    let a := s.operand rs1
    let b := s.operand rs2
    let c := s.operand rs3
    let does := fun (i : Instr) (f : RMode → FRes) =>
      (∀ m, s.alone → roundingMode rm s.me.csr.frm = some m → exec i s = .next (s.floatResult rd (inX (f m).bits) (f m).flags)) ∧
      (∀ w, s.canTrap → roundingMode rm s.me.csr.frm = none → encode i = .word w → exec i s = .next (s.trapped 2 (zext64 w)))
    does (.faddS rd rs1 rs2 rm) (fun m => addV .f32 m a b) ∧
    does (.fsubS rd rs1 rs2 rm) (fun m => addV .f32 m a (negV b)) ∧
    does (.fmulS rd rs1 rs2 rm) (fun m => mulV .f32 m a b) ∧
    does (.fdivS rd rs1 rs2 rm) (fun m => divV .f32 m a b) ∧
    does (.fsqrtS rd rs1 rm) (fun m => sqrtV .f32 m a) ∧
    does (.fmaddS rd rs1 rs2 rs3 rm) (fun m => fmaV .f32 m a b c) ∧
    does (.fmsubS rd rs1 rs2 rs3 rm) (fun m => fmaV .f32 m a b (negV c)) ∧
    does (.fnmsubS rd rs1 rs2 rs3 rm) (fun m => fmaV .f32 m (negV a) b c) ∧
    does (.fnmaddS rd rs1 rs2 rs3 rm) (fun m => fmaV .f32 m (negV a) b (negV c))

/-- Canonical NaNs, sign injection, minimum, maximum, comparisons and classes. Outside an active gang and in a legal rounding mode, FADD.S,
FSUB.S, FMUL.S, FDIV.S, FMADD.S, FMSUB.S, FNMSUB.S and FNMADD.S with a NaN in rs1 or rs2, and FSQRT.S with a NaN in rs1, leave 0x7FC00000
in rd (unless it is x0) and set the invalid flag where that NaN is signalling; FMIN.S and FMAX.S of two NaNs do the same. Outside an
active gang: FSGNJ.S, FSGNJN.S and FSGNJX.S give the magnitude of rs1 with the sign of rs2, its inverse, or the two signs' exclusive or;
for numeric operands FEQ.S, FLT.S and FLE.S give 1 exactly where the numbers are equal, less, or less or equal, with no exception, and
FMIN.S and FMAX.S give the operand with the lesser and greater number where they differ; FCLASS.S gives one bit, chosen by sign, exponent
and fraction. The pc advances by 4 and nothing else changes. (R159, R191, 08_arithmetic.md, R192, 11_isa_control.md.) -/
def Obligations.FloatNaNsSignsAndComparisons : Prop :=
  (∀ (s : State) (rd rs1 rs2 rs3 : Reg) (rm : BitVec 3) (m : RMode), s.alone → roundingMode rm s.me.csr.frm = some m → rd ≠ 0 →
    let a := s.operand rs1
    let b := s.operand rs2
    let gives := fun (i : Instr) (snan : Bool) =>
      ∃ t, exec i s = .next t ∧ t.x rd = 0x7FC00000 ∧ (snan = true → t.me.csr.fflags.getLsbD 4 = true) ∧ t.me.pc = s.me.pc + 4
    (isNan a = true → gives (.fsqrtS rd rs1 rm) (isSnan a)) ∧
    (isNan a = true ∨ isNan b = true →
      gives (.faddS rd rs1 rs2 rm) (isSnan a || isSnan b) ∧ gives (.fsubS rd rs1 rs2 rm) (isSnan a || isSnan b) ∧
      gives (.fmulS rd rs1 rs2 rm) (isSnan a || isSnan b) ∧ gives (.fdivS rd rs1 rs2 rm) (isSnan a || isSnan b) ∧
      gives (.fmaddS rd rs1 rs2 rs3 rm) (isSnan a || isSnan b) ∧ gives (.fmsubS rd rs1 rs2 rs3 rm) (isSnan a || isSnan b) ∧
      gives (.fnmsubS rd rs1 rs2 rs3 rm) (isSnan a || isSnan b) ∧ gives (.fnmaddS rd rs1 rs2 rs3 rm) (isSnan a || isSnan b)) ∧
    (isNan a = true → isNan b = true →
      gives (.fminS rd rs1 rs2) (isSnan a || isSnan b) ∧ gives (.fmaxS rd rs1 rs2) (isSnan a || isSnan b))) ∧
  (∀ (s : State) (rd rs1 rs2 : Reg), s.alone →
    let x := lowNat (s.x rs1)
    let y := lowNat (s.x rs2)
    let mag := x % 2 ^ 31
    let e := x / 2 ^ 23 % 2 ^ 8
    let f := x % 2 ^ 23
    let neg := decide (2 ^ 31 ≤ x)
    let cls := if e = 255 then (if f = 0 then (if neg then 0 else 7) else if 2 ^ 22 ≤ f then 9 else 8)
      else if e = 0 then (if f = 0 then (if neg then 3 else 4) else if neg then 2 else 5) else if neg then 1 else 6
    exec (.fsgnjS rd rs1 rs2) s = .next (s.result rd (inX (mag + y / 2 ^ 31 * 2 ^ 31)) 4) ∧
    exec (.fsgnjnS rd rs1 rs2) s = .next (s.result rd (inX (mag + (1 - y / 2 ^ 31) * 2 ^ 31)) 4) ∧
    exec (.fsgnjxS rd rs1 rs2) s = .next (s.result rd (inX (mag + (x / 2 ^ 31 + y / 2 ^ 31) % 2 * 2 ^ 31)) 4) ∧
    exec (.fclassS rd rs1) s = .next (s.result rd (wrap64 (2 ^ cls)) 4) ∧
    (∀ p q, (s.operand rs1).num = some p → (s.operand rs2).num = some q →
      exec (.feqS rd rs1 rs2) s = .next (s.floatResult rd (truth (p = q)) {}) ∧
      exec (.fltS rd rs1 rs2) s = .next (s.floatResult rd (truth (p < q)) {}) ∧
      exec (.fleS rd rs1 rs2) s = .next (s.floatResult rd (truth (p ≤ q)) {}) ∧
      (p ≠ q → exec (.fminS rd rs1 rs2) s = .next (s.floatResult rd (inX (if p < q then x else y)) {}) ∧
        exec (.fmaxS rd rs1 rs2) s = .next (s.floatResult rd (inX (if p < q then y else x)) {}))))

/-- Conversions between integers and FP32. Outside an active gang and in a legal rounding mode: FCVT.W.S, FCVT.WU.S, FCVT.L.S and FCVT.LU.S of
a number round it to an integer in that mode and give it, sign-extended from 32 bits for a W form, where it is in range, with NX exactly
where it was not an integer, and otherwise the nearest bound with NV alone; FCVT.S.W, FCVT.S.WU, FCVT.S.L and FCVT.S.LU of an integer of
magnitude at most 2 to the 24 give the FP32 pattern of that very integer, with no exception. The pc advances by 4 and nothing else
changes. (R191, R192, R162, 11_isa_control.md.) -/
def Obligations.FloatConversions : Prop :=
  ∀ (s : State) (rd rs1 : Reg) (rm : BitVec 3) (m : RMode), s.alone → roundingMode rm s.me.csr.frm = some m →
    let a := s.x rs1
    let toInt := fun (i : Instr) (lo hi : Int) (put : Int → Dword) =>
      ∀ p, (s.operand rs1).num = some p →
        let n := roundTo m p
        exec i s = .next (if n < lo then s.floatResult rd (put lo) { nv := true } else if hi < n then s.floatResult rd (put hi) { nv := true }
          else s.floatResult rd (put n) { nx := decide ((n : ℚ) ≠ p) })
    let ofInt := fun (i : Instr) (n : Int) =>
      n.natAbs ≤ 2 ^ 24 → ∃ bits, bits < 2 ^ 32 ∧ exec i s = .next (s.floatResult rd (inX bits) {}) ∧ (fdecode .f32 bits).num = some (n : ℚ)
    toInt (.fcvtWS rd rs1 rm) (-2 ^ 31) (2 ^ 31 - 1) wrap64 ∧
    toInt (.fcvtWuS rd rs1 rm) 0 (2 ^ 32 - 1) wrap32 ∧
    toInt (.fcvtLS rd rs1 rm) (-2 ^ 63) (2 ^ 63 - 1) wrap64 ∧
    toInt (.fcvtLuS rd rs1 rm) 0 (2 ^ 64 - 1) wrap64 ∧
    ofInt (.fcvtSW rd rs1 rm) (lowInt a) ∧
    ofInt (.fcvtSWu rd rs1 rm) (lowNat a) ∧
    ofInt (.fcvtSL rd rs1 rm) a.toInt ∧
    ofInt (.fcvtSLu rd rs1 rm) a.toNat

/-- What a CSR instruction reads and writes. Outside an active gang, CSRRS and CSRRC with rs1 x0, and CSRRSI and CSRRCI with a zero immediate,
of every CSR of R136 but MMPROG complete: rd receives the value of the named register, zero-extended, the pc advances by 4 and nothing
else changes but the instruction count. Outside an active gang: on XUTVAL, a plain register, CSRRW and CSRRWI write rs1 and the immediate,
CSRRS and CSRRSI set bits, CSRRC and CSRRCI clear bits, each with the old value to rd; CSRRW writes every other RW slot CSR with its value
adjusted as R136, R137, R267 and R268 say, and XOVF with bits [5:0] zero; a write to MMPROG while an MM.TILE of the slot is stalled is
ignored; nothing else changes but the pc and the instruction count. (R135, R136, 11_isa_control.md, R137, R266, R267, R268.) -/
def Obligations.CsrReadsAndWrites : Prop :=
  (∀ (s : State) (rd : Reg) (csr : BitVec 12) (v : Dword), s.alone → (csr, v) ∈ s.csrTable →
    exec (.csrrs rd 0 csr) s = .next (s.result rd v 4) ∧
    exec (.csrrc rd 0 csr) s = .next (s.result rd v 4) ∧
    exec (.csrrsi rd csr 0) s = .next (s.result rd v 4) ∧
    exec (.csrrci rd csr 0) s = .next (s.result rd v 4)) ∧
  (∀ (s : State) (rd rs1 u : Reg), s.alone → rs1 ≠ 0 → u ≠ 0 →
    let c := s.me.csr
    let a := s.x rs1
    let put := fun (csr : BitVec 12) (old : Dword) (c' : SlotCsrs) => exec (.csrrw rd rs1 csr) s = .next (s.csrResult rd old c')
    exec (.csrrw rd rs1 0x803) s = .next (s.csrResult rd c.xutval { c with xutval := a }) ∧
    exec (.csrrs rd rs1 0x803) s = .next (s.csrResult rd c.xutval { c with xutval := c.xutval ||| a }) ∧
    exec (.csrrc rd rs1 0x803) s = .next (s.csrResult rd c.xutval { c with xutval := c.xutval &&& ~~~a }) ∧
    exec (.csrrwi rd 0x803 u) s = .next (s.csrResult rd c.xutval { c with xutval := wrap64 u.toNat }) ∧
    exec (.csrrsi rd 0x803 u) s = .next (s.csrResult rd c.xutval { c with xutval := c.xutval ||| wrap64 u.toNat }) ∧
    exec (.csrrci rd 0x803 u) s = .next (s.csrResult rd c.xutval { c with xutval := c.xutval &&& ~~~wrap64 u.toNat }) ∧
    put 0x001 (zext64 c.fflags) { c with fflags := BitVec.ofNat 5 a.toNat } ∧
    put 0x002 (zext64 c.frm) { c with frm := BitVec.ofNat 3 a.toNat } ∧
    put 0x003 (zext64 (c.frm ++ c.fflags)) { c with fflags := BitVec.ofNat 5 a.toNat, frm := BitVec.ofNat 3 (a.toNat / 32) } ∧
    put 0x800 c.xutvec { c with xutvec := BitVec.ofNat 64 (a.toNat % 2 ^ 56 / 2 * 2) } ∧
    put 0x801 c.xuepc { c with xuepc := BitVec.ofNat 64 (a.toNat / 2 * 2) } ∧
    put 0x802 c.xucause { c with xucause := BitVec.ofNat 64 (a.toNat / 2 ^ 61 % 4 * 2 ^ 61 + a.toNat % 4096) } ∧
    put 0x804 c.xufmask { c with xufmask := a } ∧
    put 0x805 (zext64 c.xrrb) { c with xrrb := BitVec.ofNat 4 a.toNat } ∧
    put 0x806 (zext64 c.xmscope) { c with xmscope := BitVec.ofNat 2 a.toNat } ∧
    put 0x808 (zext64 c.xage)
      { c with xage := if a.toNat < 8 then 8 else if 4096 < a.toNat then 4096 else BitVec.ofNat 13 a.toNat } ∧
    put 0x809 (zext64 c.xshare) { c with xshare := if a.toNat < 1 then 1 else if 15 < a.toNat then 15 else BitVec.ofNat 4 a.toNat } ∧
    put 0x810 c.mfmt
      { c with mfmt := BitVec.ofNat 64 (a.toNat / 8 % 2 * 8 + (if a.toNat % 8 ≤ 4 then a.toNat % 8 else c.mfmt.toNat % 8)) } ∧
    put 0x811 c.msca { c with msca := BitVec.ofNat 64 (a.toNat % 2 ^ 18 / 2 * 2) } ∧
    put 0x812 c.mscb { c with mscb := BitVec.ofNat 64 (a.toNat % 2 ^ 18 / 2 * 2) } ∧
    put 0x813 c.mklen { c with mklen := BitVec.ofNat 64 (min a.toNat 65536) } ∧
    put 0x815 (zext64 c.mgrp)
      { c with mgrp := if a.toNat = 32 then 32 else if a.toNat = 64 then 64 else if a.toNat = 128 then 128 else c.mgrp } ∧
    (∃ t, exec (.csrrw rd rs1 0x822) s = .next t ∧ t.mem = s.mem ∧
      (t.carve s.myPcl s.me.launch).xovf = BitVec.ofNat 64 (a.toNat / 64 * 64) ∧
      t.me = s.me.wrote rd (s.carve s.myPcl s.me.launch).xovf (s.me.pc + 4)) ∧
    (((s.core s.myCid).stalledPort (keySlot s.focus)).isSome →
      exec (.csrrw rd rs1 0x814) s = .next (s.result rd ((s.core s.myCid).mmprog (keySlot s.focus) c.mmprog) 4)) ∧
    ((s.core s.myCid).owner ≠ some (keySlot s.focus) → (s.core s.myCid).stalledPort (keySlot s.focus) = none →
      put 0x814 c.mmprog { c with mmprog := wrap64 (a.toNat / 2 ^ 58 * 2 ^ 58 + a.toNat / 2 ^ 32 % 2 ^ 16 * 2 ^ 32 + a.toNat % 2 ^ 24) }))

/-- A CSR that is absent, and a write of a read-only one, is an illegal instruction. A baton alone that can take a trap: a CSR instruction
that names an address absent from R136, CSRRW and CSRRWI to an RO CSR, and CSRRS, CSRRC, CSRRSI and CSRRCI to one with a non-zero rs1
field or immediate, take cause 2 with the instruction word, and have no other effect. (R135.) -/
def Obligations.CsrRefusals : Prop :=
  ∀ (s : State) (rd r : Reg) (csr : BitVec 12), s.canTrap →
    let illegal := fun (i : Instr) => ∀ w, encode i = .word w → exec i s = .next (s.trapped 2 (zext64 w))
    let write := csr ∉ csrAddresses ∨ csr ∈ csrReadOnlyAddresses
    let change := csr ∉ csrAddresses ∨ (csr ∈ csrReadOnlyAddresses ∧ r ≠ 0)
    (write → illegal (.csrrw rd r csr) ∧ illegal (.csrrwi rd csr r)) ∧
    (change → illegal (.csrrs rd r csr) ∧ illegal (.csrrc rd r csr) ∧ illegal (.csrrsi rd csr r) ∧ illegal (.csrrci rd csr r))

/-- Fences wait for posted stores within their scope, and hints do nothing. Outside an active gang: FENCE with an empty set, FENCE.I and C.NOP
only advance; FENCE with both sets non-empty and FENCE.TSO at XMSCOPE, and XFENCE at its own scope, leave the state unchanged while a
posted store within that scope, or a posted hurdle operation (log entry 100), is unanswered, and otherwise only advance, at PACKAGE and
SYSTEM scope after the die has applied its log; WFI with a wake token consumes it and advances, the die having applied its log, and
without one parks with reason WAKE, no deadline and the record in WKEY. (R180, R192, R218, R65, R94, 11_isa_control.md.) -/
def Obligations.FencesAndHints : Prop :=
  ∀ (s : State) (rd rs1 : Reg) (pred succ : BitVec 4) (imm : BitVec 12) (i : BitVec 6) (scope : BitVec 2), s.alone →
    let fence := fun (o : Host.Outcome State Fault Refusal) (sc : Nat) =>
      let u := if 2 ≤ sc then s.applyLog s.myDie else s
      (s.released sc = false → o = .next s) ∧ (s.released sc = true → u.alone → o = .next (u.passed 4))
    (pred = 0 ∨ succ = 0 → exec (.fence rd rs1 pred succ) s = .next (s.passed 4)) ∧
    (pred ≠ 0 → succ ≠ 0 → fence (exec (.fence rd rs1 pred succ) s) s.me.csr.xmscope.toNat) ∧
    fence (exec (.fenceTso rd rs1 pred succ) s) s.me.csr.xmscope.toNat ∧
    fence (exec (.xfence scope) s) scope.toNat ∧
    exec (.fenceI rd rs1 imm) s = .next (s.passed 4) ∧
    exec (.cNop i) s = .next (s.passed 2) ∧
    (s.me.token = true → (s.applyLog s.myDie).alone →
      exec .wfi s = .next ((s.applyLog s.myDie).ended { s.me with token := false, pc := s.me.pc + 4 })) ∧
    (s.me.token = false → exec .wfi s = .next (s.parks (.wake 0 (BitVec.allOnes 64)) 6 s.me.xbaton 0 4))

/-- ECALL functions and BAT.EXIT. Outside an active gang: ECALL and BAT.EXIT leave the state unchanged while they must wait for the baton's
posted stores, wherever they go (function 0 and BAT.EXIT for its queue entries too). After that, ECALL function 1 gives 0x10000 in a0,
every other function but 0 gives all ones in a0 and advances, and function 0 and BAT.EXIT count the instruction and end the baton. (R141,
R177, R222, 11_isa_control.md.) -/
def Obligations.EnvironmentCallsAndExits : Prop :=
  ∀ (s : State), s.alone →
    let ends := s.storesDone = true ∧ s.queueIdle = true
    let exits : Host.Outcome State Fault Refusal := .next ((s.retire s.myCid).endBaton s.focus false)
    (ends → exec .batExit s = exits ∧ (s.x 17 = 0 → exec .ecall s = exits)) ∧
    (¬ends → exec .batExit s = .next s ∧ (s.x 17 = 0 → exec .ecall s = .next s)) ∧
    (s.storesDone = false → exec .ecall s = .next s) ∧
    (s.storesDone = true → s.x 17 = 1 → exec .ecall s = .next (s.result 10 0x10000 4)) ∧
    (s.storesDone = true → s.x 17 ≠ 0 → s.x 17 ≠ 1 → exec .ecall s = .next (s.result 10 (wrap64 (-1)) 4))

/-- Taking a trap of a breakpoint or an illegal word, and returning from a trap. Outside an active gang, EBREAK and C.EBREAK take cause 3 with
the pc and an illegal word cause 2 with that word: with BUSY clear and a trap vector, XUEPC is the pc with bit 0 clear, XUTVAL the value,
XUCAUSE the cause with BUSY set and POSTED and STATUS zero, the pc is the vector, and nothing else changes; with BUSY set, or a vector of
zero, the baton ends and its launch is ABORTED. Outside an active gang XURET completes with the pc at XUEPC and XUCAUSE.BUSY clear, every
other bit of XUCAUSE, register and byte of memory as before; in a baton that has just taken a trap from an even pc it returns to that pc
with every x register as it was. (R137, R138, R139, R192, R200, R239.) -/
def Obligations.TrapsAndReturn : Prop :=
  (∀ (s : State) (w : Word32), s.alone →
    let pc := s.me.pc
    let after := fun (cause : BitVec 8) (v : Dword) =>
      let u := if s.me.busy = false ∧ s.me.csr.xutvec ≠ 0 then s.trapped cause v else s.endBaton s.focus true
      Host.Outcome.next u
    exec .ebreak s = after 3 pc ∧ exec .cEbreak s = after 3 pc ∧ exec (.illegalInstruction w) s = after 2 (zext64 w)) ∧
  (∀ (s : State), s.alone →
    exec .xuret s = .next (s.ended { s.me with pc := s.me.csr.xuepc, csr := { s.me.csr with xucause := s.me.csr.xucause &&& ~~~(1#64 <<< 62) } }) ∧
    (s.me.busy = false → s.me.csr.xutvec ≠ 0 → s.me.pc.getLsbD 0 = false → ∀ w, ∃ t u, exec (.illegalInstruction w) s = .next t ∧
      exec .xuret t = .next u ∧ u.me.pc = s.me.pc ∧ u.me.busy = false ∧ u.me.x = s.me.x ∧ u.mem = s.mem))

/-- Gangs: leading, joining and ending, the rounds of an active gang, and what it may not execute. Outside an active gang: GANG.LEAD on a core
with no gang, whose set meets no other gang, parks with reason GANG and a deadline 65,536 cycles on; a second slot on a core in a gang
waits likewise; a set that meets another gang traps at the following instruction with GANG_DISBAND and all ones, the instruction counted,
in a baton that can take a trap. GANG.JOIN that finds no gang to join parks with that deadline. GANG.END only advances. In an active gang,
a member that issues ADD, ADDI or LUI writes its own rd; while another member has still to issue, its pc stays and the gang records that
it has completed; where it is the last of the round and none has trapped, every resident member's pc becomes the leader's next one, and
the round is open again. In a member of an active gang, GANG.LEAD, GANG.JOIN, BAT.EXIT, BAT.YIELD, BAT.PARK, XURET, CTX.SAVE and
CTX.RESTORE record, for that member, a trap of cause 2 with the instruction word, and change nothing but the gang's round. (R106, R236,
R237, R108, R107, 05_scheduler.md, R217, 11_isa_control.md.) -/
def Obligations.Gangs : Prop :=
  (∀ (s : State) (rd : Reg) (n : BitVec 3), s.alone →
    let cids := gangSet s.myCid n.toNat
    let now := s.swcAt s.myDie
    let till : Dword := BitVec.ofNat 64 (now + 65536)
    ((s.gangAt s.myCid).isSome = true →
      exec (.gangLead rd n) s = .next (s.parks (.gang rd n.toNat s.myCid true) 11 (BitVec.ofNat 64 s.myCid) till 4)) ∧
    (s.gangAt s.myCid = none → s.overlaps cids = true → s.canTrap →
      exec (.gangLead rd n) s = .next ((s.retire s.myCid).setMe { s.me with
        csr := { s.me.csr with xuepc := (s.me.pc + 4) &&& ~~~1#64, xutval := BitVec.allOnes 64, xucause := 1#64 <<< 62 ||| 27 }
        pc := s.me.csr.xutvec })) ∧
    (s.gangAt s.myCid = none → s.overlaps cids = false → s.waiting = [] → 1 ≤ n.toNat → n.toNat ≤ 3 →
      ∃ t, exec (.gangLead rd n) s = .next t ∧
        t.me = s.me.parkedFor (.gang rd n.toNat s.myCid false) 11 (BitVec.ofNat 64 s.myCid) till 4 now ∧
        ∃ g, kfind t.gangs s.myRecord = some g ∧ g.active = false ∧ g.log2 = n.toNat ∧ g.cids = cids ∧ g.deadline = till.toNat ∧
          g.members = (List.replicate (2 ^ n.toNat) none).set (gangIndex s.myCid n.toNat) (some s.myRecord)) ∧
    (s.joinable s.myCid n.toNat s.me.track = none →
      exec (.gangJoin rd n) s = .next (s.parks (.gang rd n.toNat s.myCid false) 11 0 till 4)) ∧
    exec .gangEnd s = .next (s.passed 4)) ∧
  (∀ (s : State) (rd rs1 rs2 : Reg) (imm : BitVec 12) (up : BitVec 20) (key : Nat) (g : Gang) (i : Nat), s.myGang = some (key, g, i) →
    let before := g.issued.filter fun p => p.1 != i
    let issues := fun (ins : Instr) (v : Dword) =>
      (before.length + 1 < g.members.length → ∃ t, exec ins s = .next t ∧ s.xWritten t rd v ∧
        t.me.pc = s.me.pc ∧ ∃ g', kfind t.gangs key = some g' ∧ g'.issued = before ++ [(i, .completed)]) ∧
      (before.length + 1 = g.members.length → g.ending = false → (∀ p ∈ before, p.2 = .completed) → ∃ t, exec ins s = .next t ∧
        (∃ g', kfind t.gangs key = some g' ∧ g'.issued = []) ∧
        ∀ m ∈ (s.setX rd v).gangSlots g, (t.slotAt m.2).pc = if i = g.leader then s.me.pc + 4 else g.nextPc)
    issues (.add rd rs1 rs2) (s.x rs1 + s.x rs2) ∧ issues (.addi rd rs1 imm) (s.x rs1 + sext64 imm) ∧
    issues (.lui rd up) (wrap64 (up.toInt * 4096))) ∧
  (∀ (s : State) (rd rs1 rs2 : Reg) (n : BitVec 3) (key : Nat) (g : Gang) (i : Nat), s.myGang = some (key, g, i) →
    let traps := fun (ins : Instr) => ∀ w, encode ins = .word w → exec ins s = .next (s.memberDone key g i (.trapped 2 (zext64 w) 0) 0)
    traps (.gangLead rd n) ∧ traps (.gangJoin rd n) ∧ traps .batExit ∧ traps (.batYield rs1) ∧ traps (.batPark rd rs1 rs2) ∧
    traps .xuret ∧ traps (.ctxSave rs1 rs2) ∧ traps (.ctxRestore rs1 rs2))

/-- RRB.SET and LOOP.ROT, and the registers that the base renames. Outside an active gang: RRB.SET gives the old base in rd and takes the low
four bits of rs1; LOOP.ROT counts rd down by one, turns the base by minus one modulo 16, and goes to the pc plus the signed offset in
halfwords (bit 0 cleared) unless the count is zero. v-register numbers below 16 name themselves and number 16+i names physical register 16
+ (i + base) mod 16. (R238, R134, 11_isa_control.md.) -/
def Obligations.RotatingRegisters : Prop :=
  (∀ (s : State) (rd rs1 : Reg), s.alone →
    exec (.rrbSet rd rs1) s =
      .next (s.csrResult rd (zext64 s.me.csr.xrrb) { s.me.csr with xrrb := BitVec.ofNat 4 (s.x rs1).toNat })) ∧
  (∀ (s : State) (rd : Reg) (off : BitVec 11), s.alone →
    let c := s.x rd - 1
    exec (.loopRot rd off) s = .next (s.ended
      ({ s.me with csr := { s.me.csr with xrrb := BitVec.ofNat 4 (s.me.csr.xrrb.toNat + 15) } }.wrote rd c
        (if c = 0 then s.me.pc + 4 else evenPart (s.me.pc.toInt + 2 * off.toInt))))) ∧
  (∀ (b : BitVec 4) (r : Reg), (vphys b r).val = if r.toNat < 16 then r.toNat else 16 + (r.toNat - 16 + b.toNat) % 16)

/-- CTX.SAVE and CTX.RESTORE of an image in a local aperture. Outside an active gang, in a slot that does not own the matrix context, with a
64-byte aligned image in a local aperture that the access table allows and on powered banks: CTX.SAVE writes the image's x registers that
LIVE names to its cells, no register of the slot changes but the pc, and it advances; CTX.RESTORE, once the slot's queue entries have
completed, of an image without a context loads the x registers that LIVE names from it, keeps the others, and advances. An image address
that is not 64-byte aligned traps cause 7 in a baton that can take a trap. (R240, R241, R109, 11_isa_control.md.) -/
def Obligations.ContextImages : Prop :=
  ∀ (s : State) (rs1 rs2 : Reg) (cs : List Nat), s.alone → (s.core s.myCid).owner ≠ some (keySlot s.focus) →
    let a := (s.x rs1).toNat
    let live := if rs2 = 0 then BitVec.allOnes 64 else s.x rs2
    (a % 64 ≠ 0 → s.canTrap →
      exec (.ctxSave rs1 rs2) s = .next (s.trapped 7 (s.x rs1)) ∧ exec (.ctxRestore rs1 rs2) s = .next (s.trapped 7 (s.x rs1))) ∧
    (s.granted s.focus cs = true → s.noBankWait → cs.Nodup →
      (s.imageAt .write a 1536 = .cells cs → ∃ t, exec (.ctxSave rs1 rs2) s = .next t ∧ t.me = { s.me with pc := s.me.pc + 4 } ∧
        ∀ q : Reg, q ≠ 0 → live.getLsbD q.toNat = true → ((cs.drop (8 * q.toNat)).take 8).map (readByte t.mem) = lowBytes (s.x q) 8) ∧
      (s.imageAt .read a 1536 = .cells cs → s.queueIdle = true → (dwordAt (s.cellBytes cs) 0x5F8).getLsbD 0 = false →
        ∃ t, exec (.ctxRestore rs1 rs2) s = .next t ∧ t.mem = s.mem ∧ t.me.pc = s.me.pc + 4 ∧
          ∀ q : Reg, q ≠ 0 → t.x q = if live.getLsbD q.toNat then dwordAt (s.cellBytes cs) (8 * q.toNat) else s.x q))

/-- STAM.CLAIM, STAM.RD, IVL.POST, IVL.SYNC, GR.LAUNCH and GR.WAIT. Outside an active gang: STAM.CLAIM with bits [63:32] zero adds rs1 to the
launch's remainder and gives 1 where the available energy covers it, and otherwise gives 0; STAM.RD gives the reservoir, the remainder,
the energy measured or the energy available. Under track 0, IVL.POST of a record of a reserved kind gives 0, and of a record with room in
every ring assigns the next INDEX and gives it. These park on REMOTE, and the answer is written at the resumption. IVL.SYNC advances where
every live die covers the index. GR.LAUNCH, its posted stores acknowledged, puts its record last in the intake queue and parks; where the
Starter is down or 256 records wait the record is dropped and counted. The Starter takes the oldest record once the host's earlier writes
are performed: an acceptable one is queued under the next sequence number, which the waiting baton receives. GR.WAIT on a launch that is
not outstanding gives its kept status, or 255. (R242, R243, R244, R65, R80, R28, R217, R179, 11_isa_control.md.) -/
def Obligations.StaminaLogAndLaunchInstructions : Prop :=
  ∀ (s : State) (rd rs1 : Reg) (sel : BitVec 3) (cs : List Nat), s.alone →
    let v := s.x rs1
    let gives := fun (i : Instr) (r : Dword) (p : State → Prop) => ∃ t, exec i s = .next t ∧ s.awaiting t rd r 4 ∧ p t
    (∀ l, s.launchOf s.me.launch = some l →
      (if v.toNat < 2 ^ 32 ∧ (v.toNat : Int) ≤ s.available
       then gives (.stamClaim rd rs1) 1 fun t => t.launchOf s.me.launch = some { l with remainder := l.remainder + v.toNat }
       else exec (.stamClaim rd rs1) s = .next (s.awaits rd 0 4)) ∧
      exec (.stamRd rd 1) s = .next (s.awaits rd (wrap64 l.remainder) 4) ∧ exec (.stamRd rd 2) s = .next (s.awaits rd (wrap64 l.measured) 4)) ∧
    (s.launchOf s.me.launch = none → exec (.stamClaim rd rs1) s = .next (s.awaits rd 0 4)) ∧
    exec (.stamRd rd 0) s = .next (s.awaits rd (wrap64 s.stamina) 4) ∧
    (3 ≤ sel.toNat → exec (.stamRd rd sel) s = .next (s.awaits rd (wrap64 s.available) 4)) ∧
    (∀ r k a, s.parkedAlone k r (.reply rd a) → (s.poll r).slotAt k = (s.slotAt k).resumed rd a ∧ (s.poll r).mem = s.mem) ∧
    (s.me.track = 0 → s.ivlSynced (min v.toNat s.pkg.ivlIndex) = true → exec (.ivlSync rs1) s = .next (s.passed 4)) ∧
    (s.launchOf v.toNat = none → ∃ t, exec (.grWait rd rs1) s = .next t ∧ t.starter = s.starter ∧
      s.gave t rd (BitVec.ofNat 64 ((s.starter.statuses.find? fun p => p.1 == v.toNat).elim 255 Prod.snd)) 4) ∧
    (s.noBankWait → s.granted s.focus cs = true →
      (v.toNat % 32 = 0 → s.localRange .read v.toNat 32 = some cs → s.me.track = 0 →
        let r : BitVec 256 := BitVec.ofNat 256 (natLE (s.cellBytes cs))
        (3 ≤ ivlKind r → exec (.ivlPost rd rs1) s = .next (s.awaits rd 0 4)) ∧
        (ivlOk r = true → s.ivlFull r = false →
          gives (.ivlPost rd rs1) (BitVec.ofNat 64 (s.pkg.ivlIndex + 1)) fun t => t.pkg.ivlIndex = s.pkg.ivlIndex + 1)) ∧
      (v.toNat % 64 = 0 → s.localRange .read v.toNat 64 = some cs →
        let r : BitVec 512 := BitVec.ofNat 512 (natLE (s.cellBytes cs))
        let st := s.starter
        (s.released 3 = false → exec (.grLaunch rd rs1) s = .next s) ∧
        (s.released 3 = true → ∃ t, exec (.grLaunch rd rs1) s = .next t ∧ s.parkedOn t (.intake rd) 4 ∧
          if s.starterUp = true ∧ st.intake.length < 256 then
            ∃ x, t.starter = { st with intake := st.intake ++ [x] } ∧ x.record = r ∧ x.baton = some s.myRecord ∧ x.after = s.hostPosted ∧
              (x.forbidden = true ↔ s.me.track ≠ 0 ∧ recTrack r ≠ s.me.track)
          else t.starter = { st with dropped := st.dropped + 1 }))) ∧
    (∀ x rest rec' k, s.starter.intake = x :: rest → s.starterUp = true → (∀ w ∈ x.after, w ∉ s.hostPosted) → x.baton = some rec' →
      s.parkedAlone k rec' (.intake rd) → x.forbidden = false → s.recordBad x.record = false → recClaim x.record ≤ s.stamCap →
      let t := s.drainIntake 1
      let seq := s.starter.seq + 1
      t.starter.intake = rest ∧ t.starter.seq = seq ∧ t.slotAt k = (s.slotAt k).resumed rd (BitVec.ofNat 64 seq) ∧
        ∃ l, t.launchOf seq = some l ∧ l.record = x.record ∧ l.state = .queued)

/-- Spawning, sending, waking, parking, naming and yielding batons. Outside an active gang: BAT.SPAWN of a record in the own scratchpad that
the access table allows, under the own track or from track 0, waits for the posted stores; then the record stands on a ready queue, and
the baton parks on REMOTE until the answer 0 is back. BAT.SEND and BAT.SEND.R to a good destination, once they need not wait, park the
slot on the delivery of the record, or of the baton itself. BAT.WAKE of a running baton of the cluster sets its token, and it traps cause
7 on an operand that is no record address. BAT.PARK consumes a token with 0, its die having applied its log, gives 1 where its deadline
has passed, and otherwise parks with reason WAKE. BAT.ROLE gives the old role and takes the new one. BAT.SELF gives XBATON or CTRL, and
FVEC or FRAME of a record whose bank is powered. Outside an active gang, in a slot that can be saved as it stands and does not own the
matrix context, in a cluster whose scratchpad is powered with no access waiting for it, BAT.YIELD counts the instruction and, where a
frame can be obtained and written now (R111), puts the baton, its pc at the following instruction, on its ready queue and makes the die
apply its log; where none can, it only advances. While the slot cannot be saved it waits, and the state is unchanged. (R219, R220, R223,
R224, R94, 11_isa_control.md, R222, R148, R111, 05_scheduler.md.) -/
def Obligations.BatonsAndYield : Prop :=
  (∀ (s : State) (rd rs1 rs2 : Reg) (sel : BitVec 3), s.alone →
    let v := s.x rs1
    let own := spadCell s.myPcl (v.toNat - spadBase)
    let live := if rs1 = 0 then BitVec.allOnes 64 else v
    let spawns := ownRecord v.toNat = true ∧ s.spadAdmits .read = true ∧ s.spadAdmits .write = true
    let sends := fun (i : Instr) (dst : SendDst) =>
      (∀ st, dst ≠ .bad st) → (∀ r o, dst = .rank r o → s.rankFull s.myDie r = false) → s.released 3 = true →
      (rs1 = 0 → s.queueIdle = true ∧ s.granted s.focus [s.myRecord] = true) →
      (rs1 ≠ 0 → ∃ c bits, v.toNat % 64 = 0 ∧ s.ownCell .read v.toNat = some c ∧ s.granted s.focus [c] = true ∧ s.sendRecord c = .ok bits) →
      ∃ t, exec i s = .next t ∧ t.me.mode = .parked ∧ t.me.wait = .send s.nextTag rd (rs1 == 0) ∧ t.me.x = s.me.x ∧ t.me.pc = s.me.pc
    (spawns → s.released 3 = false → exec (.batSpawn rd rs1) s = .next s) ∧
    (spawns → s.released 3 = true → s.granted s.focus [own] = true →
      ((s.recRead own 0x18).extractLsb' 16 16 = s.me.track ∨ s.me.track = 0) →
      ∃ t, exec (.batSpawn rd rs1) s = .next t ∧ t.isReady own = true ∧ t.me.mode = .parked ∧ t.me.wait = .reply rd 0 ∧ t.me.reason = 1 ∧
        t.me.waitLen = 4 ∧ t.me.x = s.me.x ∧ t.me.pc = s.me.pc) ∧
    sends (.batSend rd rs1 rs2) (s.sendDst (s.x rs2)) ∧
    sends (.batSendR rd rs1 rs2) (sendDstR (s.x rs2)) ∧
    (∀ k, v.toNat % 64 = 0 → addrClass v.toNat = .spad → s.released 3 = true → s.findSlot own = some k → k ≠ s.focus →
      (s.slotAt k).mode = .running → ∃ t, exec (.batWake rs1) s = .next t ∧ t.slotAt k = { s.slotAt k with token := true } ∧
        t.me = { s.me with pc := s.me.pc + 4 } ∧ t.mem = s.mem) ∧
    (v.toNat % 64 ≠ 0 → s.canTrap → exec (.batWake rs1) s = .next (s.trapped 7 v)) ∧
    (s.me.token = true → (s.applyLog s.myDie).alone → exec (.batPark rd rs1 rs2) s =
      .next ((s.applyLog s.myDie).ended ({ s.me with token := false }.wrote rd 0 (s.me.pc + 4)))) ∧
    (s.me.token = false → rs2 ≠ 0 → (s.x rs2).toNat ≤ s.swcAt s.myDie → exec (.batPark rd rs1 rs2) s = .next (s.result rd 1 4)) ∧
    (s.me.token = false → (rs2 = 0 ∨ s.swcAt s.myDie < (s.x rs2).toNat) → exec (.batPark rd rs1 rs2) s =
      .next (s.setMe ({ s.me with live := live }.parkedFor (.wake rd live) 6 s.me.xbaton (s.x rs2) 4 (s.swcAt s.myDie)))) ∧
    exec (.batRole rd rs1) s = .next (s.csrResult rd (zext64 s.me.csr.xrole) { s.me.csr with xrole := BitVec.ofNat 2 v.toNat }) ∧
    exec (.batSelf rd 0) s = .next (s.result rd s.me.xbaton 4) ∧
    exec (.batSelf rd 1) s = .next (s.result rd (s.me.ctrl 1 0) 4) ∧
    (s.granted s.focus [s.myRecord] = true → s.noBankWait → exec (.batSelf rd 2) s = .next (s.result rd (s.recRead s.myRecord 0x30) 4) ∧
      (3 ≤ sel.toNat → exec (.batSelf rd sel) s = .next (s.result rd (s.recRead s.myRecord 0x08) 4)))) ∧
  (∀ (s : State) (rs1 : Reg), s.alone → (s.core s.myCid).owner ≠ some (keySlot s.focus) → s.me.wait = .none →
    s.granted s.focus [spadCell s.myPcl 0] = true → s.noBankWait → kfind (s.cluster (recPcl s.myRecord)).asks s.myRecord = none →
    (∀ a v, s.allocFrame s.myPcl s.me.launch s.me.track false = some (a, v) →
      s.frameBar (recPcl s.myRecord) s.me.track .write a (frameBytes false) = none) →
    let live := if rs1 = 0 then BitVec.allOnes 64 else s.x rs1
    let u := (s.retire s.myCid).setMe { s.me with live := live, pc := s.me.pc + 4 }
    (s.canSave s.focus = false → exec (.batYield rs1) s = .next s) ∧
    (s.canSave s.focus = true → u.saveFrame u.focus 0 = none → exec (.batYield rs1) s = .next (s.passed 4)) ∧
    (∀ w, s.canSave s.focus = true → u.saveFrame u.focus 0 = some w →
      exec (.batYield rs1) s = .next ((w.putAway s.focus u.me false false s.me.scales).applyLog s.myDie)))

/-- What an arrival, a withdrawal, a join and an initialisation do to a hurdle. An arrival whose BMAP bit is already set only sets DUP;
another arrival at a hurdle with ARR not below EXP only sets OVER (and its BMAP bit); otherwise ARR rises by one, and the hurdle completes
exactly where ARR then equals EXP. A withdrawal at EXP 0 only sets OVER; otherwise EXP falls by one, a BMAP member that had arrived is
taken back, and the hurdle completes exactly where ARR and EXP were unequal and are equal now. A join raises EXP, or sets OVER at the
greatest EXP. An initialisation sets EXP, MODE and WAKE, clears ARR and MASK, and keeps GEN and ERR. (R100, R99.) -/
def Obligations.HurdleRules : Prop :=
  ∀ (h : Hurdle) (m : Nat),
    let dup := h.bmap = true ∧ m < 64 ∧ h.mask.getLsbD m = true
    let a := h.arrive m 0
    let w := h.withdraw m
    let marked := if h.bmap = true ∧ m < 64 then h.mask ||| 1#64 <<< m else h.mask
    (dup → a = ({ h with err := h.err ||| 1#32 <<< 16 }, false)) ∧
    (¬dup → h.exp.toNat ≤ h.arr.toNat → a = ({ h with mask := marked, err := h.err ||| 1#32 <<< 17 }, false)) ∧
    (¬dup → h.arr.toNat < h.exp.toNat →
      a = ({ h with mask := marked, arr := BitVec.ofNat 32 (h.arr.toNat + 1) }, decide (h.arr.toNat + 1 = h.exp.toNat))) ∧
    (h.exp = 0 → w = ({ h with err := h.err ||| 1#32 <<< 17 }, false)) ∧
    (h.exp ≠ 0 → w.1.exp.toNat = h.exp.toNat - 1 ∧ w.1.gen = h.gen ∧ w.1.err = h.err ∧
      (dup → w.1.mask = h.mask &&& ~~~(1#64 <<< m) ∧ w.1.arr = h.arr - 1) ∧ (¬dup → w.1.mask = h.mask ∧ w.1.arr = h.arr) ∧
      (w.2 = true ↔ h.arr ≠ h.exp ∧ w.1.arr = w.1.exp)) ∧
    (h.join = if h.exp.toNat = 2 ^ 32 - 1 then { h with err := h.err ||| 1#32 <<< 17 } else { h with exp := h.exp + 1 }) ∧
    (∀ e md wk, h.init e md wk = { h with exp := e, arr := 0, mask := 0, mode := md, wake := wk })

/-- Hurdle instructions on a hurdle of the own cluster, of another cluster and of a rank. Outside an active gang, on a hurdle of the own
cluster that admits the access, with powered banks and posted stores within scope answered: HD.INIT with a non-zero EXP gives the old GEN
and initialises the hurdle; HD.ARRIVE, HD.WITHDRAW and HD.JOIN that complete nothing leave it as R100 says; HD.TEST gives its word;
HD.WAIT that is satisfied gives the word with DONE, the die having applied its log, as HD.TEST does with DONE, where the completion
counted an arrival of PACKAGE or SYSTEM scope (the model's choice, log entry 127); otherwise it, and an HD.ARRWAIT that does not complete
the hurdle, park with reason HURDLE. On a hurdle of another cluster, and on a rank with room, HD.ARRIVE, HD.WITHDRAW and HD.JOIN and their
.R forms are posted, as read-modify-writes that a later fence waits for, and advance. An operand that is no hurdle traps cause 30. (R225,
R226, R227, R228, R100, R179, 11_isa_control.md.) -/
def Obligations.HurdleInstructions : Prop :=
  ∀ (s : State) (rd rs1 rs2 : Reg) (flags : BitVec 3) (scope : BitVec 2) (h : Nat), s.alone → s.released scope.toNat = true →
    let v := s.x rs1
    let x := s.hurdle h
    let m := s.memberOf rs2 scope.toNat
    let near := s.hdRef v = .near h ∧ s.granted s.focus [h] = true ∧ s.noBankWait
    let may := fun (op : MemOp) => s.hurdleAdmits h s.me.track 0 op = true
    let posts := fun (i : Instr) =>
      ∃ t q, exec i s = .next t ∧ t.me = { s.me with pc := s.me.pc + 4, posted := s.me.posted ++ [q] } ∧ q.tag = s.nextTag ∧ q.store = false ∧ q.rmw = true ∧ t.mem = s.mem
    let bad := fun (i : Instr) => exec i s = .next (s.trapped 30 v)
    let seen := s.seesCompletion s.myDie h
    let sees := seen.alone ∧ seen.noBankWait
    let gives := seen.result rd (x.word true) 4
    let leaves := fun (i : Instr) (y : Hurdle) =>
      ∃ t, exec i s = .next t ∧ t.hurdle h = y ∧ t.me.pc = s.me.pc + 4 ∧ t.me.x = s.me.x ∧ s.memSameBut t h 32
    (near → may .amo → lowNat (s.x rs2) ≠ 0 → ∃ t, exec (.hdInit rd rs1 rs2 flags) s = .next t ∧ s.xWritten t rd (zext64 x.gen) ∧
      t.hurdle h = x.init (BitVec.ofNat 32 (s.x rs2).toNat) (zext64 flags |>.setWidth 32) (BitVec.ofNat 32 ((s.x rs2).toNat / 2 ^ 32)) ∧
      t.me.pc = s.me.pc + 4) ∧
    (near → may .amo → (x.arrive m 0).2 = false → leaves (.hdArrive rs1 rs2 scope) (x.arrive m 0).1) ∧
    (near → may .amo → (x.withdraw m).2 = false → leaves (.hdWithdraw rs1 rs2 scope) (x.withdraw m).1) ∧
    (near → may .amo → leaves (.hdJoin rs1) x.join) ∧
    (near → may .read → x.arr ≠ x.exp → exec (.hdTest rd rs1) s = .next (s.result rd (x.word false) 4)) ∧
    (near → may .read → x.arr = x.exp → sees → exec (.hdTest rd rs1) s = .next gives ∧ (rs2 = 0 → exec (.hdWait rd rs1 rs2) s = .next gives)) ∧
    (near → may .read → rs2 = 0 → x.arr ≠ x.exp → exec (.hdWait rd rs1 rs2) s = .next (s.parks (.hurdle rd h none) 2 v 0 4)) ∧
    (near → may .read → rs2 ≠ 0 → sees → exec (.hdWait rd rs1 rs2) s = .next (
      let g := BitVec.ofNat 32 (s.x rs2).toNat
      if 1 ≤ (x.gen - g).toNat ∧ (x.gen - g).toNat ≤ 2 ^ 31 then gives else s.parks (.hurdle rd h (some g)) 2 v 0 4)) ∧
    (near → may .amo → (x.arrive m 0).2 = false → ∃ t, exec (.hdArrwait rd rs1 rs2 scope) s = .next t ∧ t.hurdle h = (x.arrive m 0).1 ∧
      t.me = s.me.parkedFor (.hurdle rd h (some x.gen)) 2 v 0 4 (s.swcAt s.myDie)) ∧
    (s.hdRef v = .far h → s.dieUp (hurdlePcl h / 24) = true → s.linkUp s.myDie (hurdlePcl h / 24) = true → isEp (niEp (hurdlePcl h / 24)) = true →
      posts (.hdArrive rs1 rs2 scope) ∧ posts (.hdWithdraw rs1 rs2 scope) ∧ posts (.hdJoin rs1)) ∧
    (∀ r o, hdRefR v = .rank r o → s.rankFull s.myDie r = false →
      posts (.hdArriveR rs1 rs2 scope) ∧ posts (.hdWithdrawR rs1 rs2 scope) ∧ posts (.hdJoinR rs1)) ∧
    (s.canTrap → s.hdRef v = .bad → bad (.hdInit rd rs1 rs2 flags) ∧ bad (.hdArrive rs1 rs2 scope) ∧ bad (.hdWithdraw rs1 rs2 scope) ∧
      bad (.hdJoin rs1) ∧ bad (.hdTest rd rs1) ∧ bad (.hdWait rd rs1 rs2) ∧ bad (.hdArrwait rd rs1 rs2 scope)) ∧
    (s.canTrap → hdRefR v = .bad → bad (.hdArriveR rs1 rs2 scope) ∧ bad (.hdWithdrawR rs1 rs2 scope) ∧ bad (.hdJoinR rs1))

/-- LAP.END, DOM.RD, WAIT.UNTIL and WAIT.PROMISE. Outside an active gang: at a level whose DMR is invalid LAP.END traps cause 30 and DOM.RD
gives 0. At a valid level, LAP.END in RUN gives 0 and the phase becomes EXCHANGE, and in EXCHANGE with a copy command of the level
outstanding it parks with reason HURDLE; DOM.RD gives the address of the level's lap hurdle with VALID and the phase, for levels 1 to 3.
WAIT.UNTIL gives the stopwatch where its time has come, and otherwise parks with reason TIME. WAIT.PROMISE on a handle that is no longer
tracked advances, its die having applied its log, and on a command under way within its promise parks with reason PROMISE. (R98, R229,
R230, R154, R97, 05_scheduler.md.) -/
def Obligations.LapsDomainsTimeAndPromises : Prop :=
  ∀ (s : State) (rd rs1 : Reg) (level : BitVec 2), s.alone →
    let l := level.toNat + 1
    let valid := dmrValid (s.dmr s.myCid s.me.group l) = true
    let phase := s.me.phases.getLsbD level.toNat
    let v := s.x rs1
    (¬valid → s.canTrap → exec (.lapEnd rd level) s = .next (s.trapped 30 0)) ∧
    (¬valid → exec (.domRd rd level) s = .next (s.result rd 0 4)) ∧
    (valid → phase = false → s.findSlot s.myRecord = some s.focus → exec (.lapEnd rd level) s =
      .next (s.ended ({ s.me with phases := s.me.phases ||| 1#4 <<< level.toNat }.wrote rd 0 (s.me.pc + 4)))) ∧
    (valid → phase = true → s.me.lapCopies.any (fun c => c.level == l && c.status.isNone) = true →
      exec (.lapEnd rd level) s = .next (s.parks (.lapCopies rd l) 2 (s.lapHurdle l).value 0 4)) ∧
    (valid → level.toNat < 3 → exec (.domRd rd level) s = .next (s.result rd (wrap64 (
      (if level.toNat = 0 then 0x6FFF00 else if level.toNat = 1 then 0xF800000000 + (s.myDie : Int) * 2 ^ 27 + 0x2FFF20 else 0xF8002FFF40) +
      2 + (if phase then 1 else 0))) 4)) ∧
    (v.toNat ≤ s.swcAt s.myDie → exec (.waitUntil rd rs1) s = .next (s.result rd (BitVec.ofNat 64 (s.swcAt s.myDie)) 4)) ∧
    (s.swcAt s.myDie < v.toNat → exec (.waitUntil rd rs1) s = .next (s.parks (.time rd) 3 0 v 4)) ∧
    (s.tracked s.myPcl v = none → (s.applyLog s.myDie).alone → exec (.waitPromise rs1) s = .next ((s.applyLog s.myDie).passed 4)) ∧
    (∀ e, s.tracked s.myPcl v = some e → e.complete = false → s.swcAt s.myDie ≤ e.promise →
      exec (.waitPromise rs1) s = .next (s.parks (.promise v) 4 v (BitVec.ofNat 64 e.promise) 4))

/-- MSG.SEND, MSG.RECV, MSG.POLL and the rank-table instructions. Outside an active gang: MSG.SEND with a malformed destination gives 1; with
an aligned local payload on powered banks, posted stores answered and room for its rank, it parks on the acknowledgement. MSG.RECV and
MSG.POLL with an aligned local buffer take the oldest message of the baton's track: its bytes are in the buffer, its queue is one shorter,
and rd holds the sender's rank, VALID and the length; with none MSG.RECV parks with reason MESSAGE and MSG.POLL gives 0. Under track 0
with operands in range RCT.SET, RCT.HOLD and RCT.RELEASE park until every live die has applied the change; under another track, or with a
rank above 4,095, they are illegal. (R231, R232, R233, R42, R43, 11_isa_control.md.) -/
def Obligations.MessagesAndRanks : Prop :=
  ∀ (s : State) (rd rs1 rs2 : Reg) (queue : BitVec 3) (cs : List Nat), s.alone →
    let a := (s.x rs1).toNat
    let v := s.x rs2
    let q := (s.cluster s.myPcl).msgQueue queue
    let changes := fun (i : Instr) =>
      ∃ t, exec i s = .next t ∧ t.mem = s.mem ∧
        t.me = s.me.parkedFor (.rct s.nextTag (allDies.filter s.dieUp)) 1 (BitVec.ofNat 64 (s.nextTag % 2 ^ 16)) 0 4 (s.swcAt s.myDie)
    let illegal := fun (i : Instr) => ∀ w, encode i = .word w → exec i s = .next (s.trapped 2 (zext64 w))
    (msgOk v = false → exec (.msgSend rd rs1 rs2) s = .next (s.result rd 1 4)) ∧
    (msgOk v = true → a % 8 = 0 → isLocal a = true → s.localRange .read a (msgLen v) = some cs → s.granted s.focus cs = true → s.released 3 = true →
      s.rankFull s.myDie (msgRank v) = false →
      ∃ t, exec (.msgSend rd rs1 rs2) s = .next t ∧ t.me.mode = .parked ∧ t.me.wait = .msgSend s.nextTag rd none ∧ t.me.x = s.me.x) ∧
    (a % 8 = 0 → isLocal a = true → (∀ m ∈ q, m.track ≠ s.me.track) →
      exec (.msgPoll rd rs1 queue) s = .next (s.result rd 0 4) ∧
      exec (.msgRecv rd rs1 queue) s = .next (s.parks (.msgRecv rd queue (s.x rs1)) 5 (zext64 queue) 0 4)) ∧
    (∀ l m r, q = l ++ m :: r → (∀ p ∈ l, p.track ≠ s.me.track) → m.track = s.me.track → a % 8 = 0 → isLocal a = true →
      s.localRange .write a m.data.length = some cs → cs.Nodup → s.granted s.focus cs = true → s.noBankWait →
      ∀ i, i = .msgRecv rd rs1 queue ∨ i = .msgPoll rd rs1 queue → ∃ t, exec i s = .next t ∧
        s.xWritten t rd (BitVec.ofNat 64 (m.rank * 2 ^ 52 + 2 ^ 16 + m.data.length)) ∧ t.cellBytes cs = m.data ∧
        (t.cluster s.myPcl).msgQueue queue = l ++ r ∧ t.me.pc = s.me.pc + 4) ∧
    (s.me.track = 0 → a < 4096 →
      (rctOk v = true → changes (.rctSet rs1 rs2)) ∧ changes (.rctHold rs1) ∧ changes (.rctRelease rs1)) ∧
    (s.canTrap → s.me.track ≠ 0 ∨ 4096 ≤ a → illegal (.rctSet rs1 rs2) ∧ illegal (.rctHold rs1) ∧ illegal (.rctRelease rs1))

/-- Element-wise integer and bitwise vector instructions give the modular result in every element. Outside an active gang, with room in the
dispatch queue and an integer type: VADD, VSUB, VMUL, VMIN, VMAX, VAND, VOR, VXOR, VSHL, VSHR, VSRA, VABS and VNEG complete; element k of
vd is the operation on elements k of the sources modulo 2 to the width, VMIN and VMAX in the type's order, shifts by the second operand
modulo the width. An entry of occupancy 1 and latency 4 has entered the queue, the pc advances by 4, and nothing else changes. With a full
queue the instruction has no effect yet. (R255, R245, R246, R248, R104, 12_isa_vector.md.) -/
def Obligations.VectorIntegerResults : Prop :=
  ∀ (s : State) (vd vs1 vs2 : Reg) (ty : BitVec 3), 3 ≤ ty.toNat →
    let w := widthOf ty
    let m := 2 ^ w
    let does := fun (i : Instr) (g : Nat → Nat → Nat) =>
      (s.alone → s.queueRoom → ∃ r, exec i s = .next (s.vectorResult vd r 1 4) ∧
        ∀ k < 256 / w, velem w r k = g (velem w (s.v vs1) k) (velem w (s.v vs2) k)) ∧
      (¬s.queueRoom → exec i s = .next s)
    does (.vaddInt vd vs1 vs2 ty) (fun x y => (x + y) % m) ∧
    does (.vsubInt vd vs1 vs2 ty) (fun x y => (x + m - y) % m) ∧
    does (.vmulInt vd vs1 vs2 ty) (fun x y => x * y % m) ∧
    does (.vminInt vd vs1 vs2 ty) (fun x y => if readAs ty x ≤ readAs ty y then x else y) ∧
    does (.vmaxInt vd vs1 vs2 ty) (fun x y => if readAs ty x ≤ readAs ty y then y else x) ∧
    does (.vand vd vs1 vs2 ty) (fun x y => x &&& y) ∧
    does (.vor vd vs1 vs2 ty) (fun x y => x ||| y) ∧
    does (.vxor vd vs1 vs2 ty) (fun x y => x ^^^ y) ∧
    does (.vshl vd vs1 vs2 ty) (fun x y => x * 2 ^ (y % w) % m) ∧
    does (.vshr vd vs1 vs2 ty) (fun x y => x / 2 ^ (y % w)) ∧
    does (.vsra vd vs1 vs2 ty) (fun x y => (signedOf w x / 2 ^ (y % w) % m).toNat) ∧
    does (.vabsInt vd vs1 ty) (fun x _ => (signedOf w x).natAbs % m) ∧
    does (.vnegInt vd vs1 ty) (fun x _ => (m - x) % m)

/-- Element-wise float vector instructions round once to their own format. Outside an active gang, with room in the dispatch queue and a float
type: VADD, VSUB, VMUL, VDIV (RNE), VSQRT and VRSQ (the mode of their field) give in every element the once-rounded result in the
element's own format; VMIN and VMAX of finite numbers that differ give the lesser and greater operand, and with a NaN the canonical NaN;
VABS and VNEG of a number clear and invert its sign, and of a NaN give the canonical NaN; VFMA, VFMS, VFNMA and VFNMS round the FP32
product and addend once. Occupancy and latency in the queue are those of R248, the pc advances by 4, and nothing else changes. (R253,
R254, R247, R248, R160, 12_isa_vector.md.) -/
def Obligations.VectorFloatResults : Prop :=
  ∀ (s : State) (vd vs1 vs2 vs3 : Reg) (ty : BitVec 3) (rm : BitVec 2), s.alone → s.queueRoom → ty.toNat < 3 →
    let w := widthOf ty
    let f := fmtOf ty
    let val := fdecode f
    let e := fun (r : Reg) (k : Nat) => velem w (s.v r) k
    let sgn := 2 ^ (w - 1)
    let nan := [0x7FC00000, 0x7FC0, 0x7E00].getD ty.toNat 0
    let does := fun (i : Instr) (occ lat w : Nat) (p : Nat → Nat → Prop) =>
      ∃ r, exec i s = .next (s.vectorResult vd r occ lat) ∧ ∀ k < 256 / w, p k (velem w r k)
    does (.vaddFloat vd vs1 vs2 ty) 1 4 w (fun k z => let x := e vs1 k; let y := e vs2 k; z = (addV f .rne (val x) (val y)).bits) ∧
    does (.vsubFloat vd vs1 vs2 ty) 1 4 w (fun k z => let x := e vs1 k; let y := e vs2 k; z = (addV f .rne (val x) (negV (val y))).bits) ∧
    does (.vmulFloat vd vs1 vs2 ty) 1 4 w (fun k z => let x := e vs1 k; let y := e vs2 k; z = (mulV f .rne (val x) (val y)).bits) ∧
    does (.vdiv vd vs1 vs2 ty) 8 14 w (fun k z => let x := e vs1 k; let y := e vs2 k; z = (divV f .rne (val x) (val y)).bits) ∧
    does (.vsqrt vd vs1 ty rm) 8 14 w (fun k z => z = (sqrtV f (modeOf rm) (val (e vs1 k))).bits) ∧
    does (.vrsq vd vs1 ty rm) 8 14 w (fun k z => z = (rsqrtV f (modeOf rm) (val (e vs1 k))).bits) ∧
    does (.vminFloat vd vs1 vs2 ty) 1 4 w (fun k z =>
      (∀ p q, (val (e vs1 k)).num = some p → (val (e vs2 k)).num = some q → p ≠ q → z = if p < q then e vs1 k else e vs2 k) ∧
      (isNan (val (e vs1 k)) = true ∨ isNan (val (e vs2 k)) = true → z = nan)) ∧
    does (.vmaxFloat vd vs1 vs2 ty) 1 4 w (fun k z =>
      (∀ p q, (val (e vs1 k)).num = some p → (val (e vs2 k)).num = some q → p ≠ q → z = if p < q then e vs2 k else e vs1 k) ∧
      (isNan (val (e vs1 k)) = true ∨ isNan (val (e vs2 k)) = true → z = nan)) ∧
    does (.vabsFloat vd vs1 ty) 1 4 w (fun k z => z = if isNan (val (e vs1 k)) then nan else e vs1 k % sgn) ∧
    does (.vnegFloat vd vs1 ty) 1 4 w (fun k z => z = if isNan (val (e vs1 k)) then nan else (e vs1 k + sgn) % (2 * sgn)) ∧
    let x := fun (r : Reg) (k : Nat) => fdecode .f32 (velem 32 (s.v r) k)
    does (.vfma vd vs1 vs2 vs3) 1 5 32 (fun k z => z = (fmaV .f32 .rne (x vs1 k) (x vs2 k) (x vs3 k)).bits) ∧
    does (.vfms vd vs1 vs2 vs3) 1 5 32 (fun k z => z = (fmaV .f32 .rne (x vs1 k) (x vs2 k) (negV (x vs3 k))).bits) ∧
    does (.vfnma vd vs1 vs2 vs3) 1 5 32 (fun k z => z = (fmaV .f32 .rne (negV (x vs1 k)) (x vs2 k) (negV (x vs3 k))).bits) ∧
    does (.vfnms vd vs1 vs2 vs3) 1 5 32 (fun k z => z = (fmaV .f32 .rne (negV (x vs1 k)) (x vs2 k) (x vs3 k)).bits)

/-- VCMP, VSEL, VCVT and VSPLAT by element. Outside an active gang and with room in the dispatch queue: VCMP sets an element to all ones where
the condition holds of the elements, read as the type reads them (finite floats by number; with a NaN only NE holds), and to zero
elsewhere; VSEL takes vs1 where the top bit of the old vd element is 1 and vs2 elsewhere; VSPLAT writes the low bits of rs1 to every
element; VCVT from one integer type to another saturates where it narrows to another type or keeps the width, keeps the number where it
widens, and between a float and an integer rounds in its mode and saturates, a NaN giving 0; bits above the results are zero. The pc
advances by 4 and nothing else changes. (R256, R257, R262, R162, R248, 12_isa_vector.md.) -/
def Obligations.VectorComparesSelectsAndConverts : Prop :=
  ∀ (s : State) (vd vs1 vs2 rs1 : Reg) (ty cond dst : BitVec 3) (rm : BitVec 2), s.alone → s.queueRoom →
    let w := widthOf ty
    let e := fun (r : Reg) (k : Nat) => velem w (s.v r) k
    let val := fdecode (fmtOf ty)
    let does := fun (i : Instr) (p : Vreg → Prop) => ∃ r, exec i s = .next (s.vectorResult vd r 1 4) ∧ p r
    let holds := fun (p q : ℚ) => [decide (p = q), decide (p ≠ q), decide (p < q), decide (p ≤ q), decide (q < p), decide (q ≤ p)].getD cond.toNat false
    let mask := fun (b : Bool) => if b then 2 ^ w - 1 else 0
    let v := widthOf dst
    let lo : Int := if dst ∈ [3#3, 5#3, 6#3] then -2 ^ (v - 1) else 0
    let hi : Int := if dst ∈ [3#3, 5#3, 6#3] then 2 ^ (v - 1) - 1 else 2 ^ v - 1
    let n := 256 / max w v
    (cond.toNat < 6 → does (.vcmp vd vs1 vs2 ty cond) (fun r => ∀ k < 256 / w,
      (3 ≤ ty.toNat → velem w r k = mask (holds (readAs ty (e vs1 k)) (readAs ty (e vs2 k)))) ∧
      (ty.toNat < 3 → ∀ p q, (val (e vs1 k)).num = some p → (val (e vs2 k)).num = some q → velem w r k = mask (holds p q)) ∧
      (ty.toNat < 3 → isNan (val (e vs1 k)) = true ∨ isNan (val (e vs2 k)) = true → velem w r k = mask (cond == 1)))) ∧
    does (.vsel vd vs1 vs2 ty) (fun r => ∀ k < 256 / w, velem w r k = if 2 ^ (w - 1) ≤ e vd k then e vs1 k else e vs2 k) ∧
    does (.vsplat vd rs1 ty) (fun r => ∀ k < 256 / w, velem w r k = (s.x rs1).toNat % 2 ^ w) ∧
    does (.vcvt vd vs1 ty rm dst) (fun r => r.toNat < 2 ^ (n * v) ∧ ∀ k < n,
      (3 ≤ ty.toNat → 3 ≤ dst.toNat → velem v r k =
        ((if w < v then readAs ty (e vs1 k) else max lo (min hi (readAs ty (e vs1 k)))) % 2 ^ v).toNat) ∧
      (3 ≤ ty.toNat → dst.toNat < 3 → velem v r k = (ofIntV (fmtOf dst) (modeOf rm) (readAs ty (e vs1 k))).bits) ∧
      (ty.toNat < 3 → 3 ≤ dst.toNat → isNan (val (e vs1 k)) = true → velem v r k = 0) ∧
      (ty.toNat < 3 → 3 ≤ dst.toNat → ∀ p, (val (e vs1 k)).num = some p →
        velem v r k = (max lo (min hi (roundTo (modeOf rm) p)) % 2 ^ v).toNat) ∧
      (ty.toNat < 3 → dst.toNat < 3 → ty ≠ dst → velem v r k = (roundV (fmtOf dst) (modeOf rm) (val (e vs1 k))).bits))

/-- Reductions, permutes, inserts and quantisation outside a gang. Outside an active gang, with room in the dispatch queue, N the elements of
a register: VREDSUM of an integer type leaves the sum of the elements modulo 2 to the 32, and of .f32 the pairwise tree of once-rounded
sums, zero above; VREDMAX of an integer type leaves the greatest element; VPERM takes the elements that the indices modulo N name; VSHUF
interleaves the low halves; VSLIDE shifts by its signed amount with zeros; VINS writes one element; VEXT writes the element to rd, zero-
extended for .n32 and .n8 and sign-extended otherwise; VQNT leaves the q bytes, the scale record and zeros of the quantised pair; VDQNT of
an AQ8 register leaves s × (q − z) rounded once in the pair. The pc advances by 4. (R260, R261, R262, R258, R259, R170, R165, R166, R248,
12_isa_vector.md.) -/
def Obligations.VectorGangWideResults : Prop :=
  ∀ (s : State) (vd vs1 vs2 rd rs1 rs2 : Reg) (pair : BitVec 4) (ty : BitVec 3) (amount : BitVec 5), s.alone → s.queueRoom →
    let w := widthOf ty
    let n := 256 / w
    let e := fun (r : Reg) (k : Nat) => velem w (s.v r) k
    let b := fun (r : Reg) (k : Nat) => velem 8 (s.v r) k
    let does := fun (i : Instr) (occ lat : Nat) (p : Vreg → Prop) => ∃ r, exec i s = .next (s.vectorResult vd r occ lat) ∧ p r
    let slide := fun (k : Nat) => if amount.toNat < 16 then (if k + amount.toNat < n then e vs1 (k + amount.toNat) else 0)
      else if amount.toNat - 16 ≤ k then e vs1 (k - (amount.toNat - 16)) else 0
    let j := (s.x rs1).toNat % n
    let got := e vs2 j
    let xs := (List.range 16).map fun k => velem 32 (s.v (pair ++ BitVec.ofNat 1 (k / 8))) (k % 8)
    let scale := b vs1 16 + 256 * b vs1 17
    let outs := [s.outV (pair ++ 0#1), s.outV (pair ++ 1#1)]
    (3 ≤ ty.toNat → does (.vredsum vd vs1 ty) 1 6 fun r => (r.toNat : Int) = ((List.range n).map fun k => readAs ty (e vs1 k)).sum % 2 ^ 32) ∧
    (ty = 0 → does (.vredsum vd vs1 ty) 1 6 fun r => r.toNat =
      add32 (add32 (add32 (e vs1 0) (e vs1 1)) (add32 (e vs1 2) (e vs1 3))) (add32 (add32 (e vs1 4) (e vs1 5)) (add32 (e vs1 6) (e vs1 7)))) ∧
    (3 ≤ ty.toNat → does (.vredmax vd vs1 ty) 1 6 fun r => (∃ k < n, r.toNat = e vs1 k) ∧ ∀ k < n, readAs ty (e vs1 k) ≤ readAs ty r.toNat) ∧
    does (.vperm vd vs1 vs2 ty) 1 6 (fun r => ∀ k < n, velem w r k = e vs1 (e vs2 k % n)) ∧
    does (.vshuf vd vs1 vs2 ty) 1 6 (fun r => ∀ k < n, velem w r k = e (if k % 2 = 0 then vs1 else vs2) (k / 2)) ∧
    does (.vslide vd vs1 ty amount) 1 6 (fun r => ∀ k < n, velem w r k = slide k) ∧
    does (.vins vd rs1 rs2 ty) 1 6 (fun r => ∀ k < n, velem w r k = if k = (s.x rs2).toNat % n then (s.x rs1).toNat % 2 ^ w else e vd k) ∧
    exec (.vext rd rs1 vs2 ty) s = .next (s.queuedEnded (.vector 1 6 [regOfX rd] 0)
      (s.me.wrote rd (wrap64 (if ty ∈ [4#3, 7#3] then (got : Int) else signedOf w got)) (s.me.pc + 4))) ∧
    does (.vqnt vd pair false) 4 16 (fun r =>
      let q := quantise 255 xs
      (∀ k < 16, velem 8 r k = q.2.2.getD k 0) ∧ velem 32 r 4 = q.2.1 * 2 ^ 16 + q.1 ∧ r.toNat < 2 ^ 160) ∧
    does (.vqnt vd pair true) 4 16 (fun r =>
      let q := quantise 15 xs
      (∀ k < 16, velem 4 r k = q.2.2.getD k 0) ∧ velem 32 r 2 = q.2.1 * 2 ^ 16 + q.1 ∧ r.toNat < 2 ^ 96) ∧
    (∃ r0 r1, (∀ k < 16, velem 32 (if k < 8 then r0 else r1) (k % 8) = dequantise .f32 scale (b vs1 18) (b vs1 k)) ∧
      exec (.vdqnt pair vs1 false) s = .next (s.queuedEnded (.vector 4 16 outs 0)
        { (s.me.setV (pair ++ 0#1) r0).setV (pair ++ 1#1) r1 with pc := s.me.pc + 4 })) ∧
    (∃ r0 r1, (∀ k < 16, velem 32 (if k < 8 then r0 else r1) (k % 8) =
        dequantise .f32 (velem 16 (s.v vs1) 4) (velem 4 (s.v vs1) 20) (velem 4 (s.v vs1) k)) ∧
      exec (.vdqnt pair vs1 true) s = .next (s.queuedEnded (.vector 4 16 outs 0)
        { (s.me.setV (pair ++ 0#1) r0).setV (pair ++ 1#1) r1 with pc := s.me.pc + 4 }))

/-- Vector loads and stores of local elements. Outside an active gang, where every element address is a multiple of the element size, has a
local cell that the access table allows and whose bank is powered, with no access waiting for a bank of the die: VLD, VLDS and VLDX leave
in element k the little-endian bytes at the base plus k times the size, k times the stride, or the signed index times the size; VLDB one
element in all; VLDQ, with an aligned record, s × (q − z) rounded once to the type; memory is unchanged. VST, VSTS and VSTX store the
elements in ascending order: an element that no later one overlaps stands at its cell, and every byte outside the elements' cells reads as
before. The pc advances by 4, and no other register changes. (R249, R250, R251, R252, R166, R58, 12_isa_vector.md.) -/
def Obligations.VectorLoadsAndStores : Prop :=
  ∀ (s : State) (vd rs1 rs2 vs2 : Reg) (ty : BitVec 3) (cell : Nat → Nat), s.alone → s.noBankWait →
    let w := widthOf ty
    let n := 256 / w
    let size := w / 8
    let base := s.x rs1
    let unit := fun (k : Nat) => (base + BitVec.ofNat 64 (k * size)).toNat
    let stride := fun (k : Nat) => (base + BitVec.ofNat 64 k * s.x rs2).toNat
    let index := fun (k : Nat) => (base + wrap64 (signedOf w (velem w (s.v vs2) k) * size)).toNat
    let placed := fun (op : MemOp) (m sz : Nat) (addr : Nat → Nat) =>
      (∀ k < m, addr k % sz = 0 ∧ s.ownCell op (addr k) = some (cell k)) ∧ s.granted s.focus ((List.range m).map cell) = true
    let loads := fun (i : Instr) (m sz : Nat) (addr : Nat → Nat) (val : Nat → Nat) => placed .read m sz addr →
      ∃ r, exec i s = .next (s.ended { s.me.setV vd r with pc := s.me.pc + 4 }) ∧ ∀ k < n, velem w r k = val k
    let stores := fun (i : Instr) (addr : Nat → Nat) => placed .write n size addr →
      ∃ t, exec i s = .next t ∧ t.me = { s.me with pc := s.me.pc + 4 } ∧
        (∀ k < n, (∀ j < n, k < j → cell j + size ≤ cell k ∨ cell k + size ≤ cell j) → memNat t.mem (cell k) size = velem w (s.v vd) k) ∧
        ∀ c, (∀ k < n, c < cell k ∨ cell k + size ≤ c) → readByte t.mem c = readByte s.mem c
    loads (.vld vd rs1 ty) n size unit (fun k => memNat s.mem (cell k) size) ∧
    loads (.vlds vd rs1 rs2 ty) n size stride (fun k => memNat s.mem (cell k) size) ∧
    loads (.vldx vd rs1 vs2 ty) n size index (fun k => memNat s.mem (cell k) size) ∧
    loads (.vldb vd rs1 ty) 1 size (fun _ => base.toNat) (fun _ => memNat s.mem (cell 0) size) ∧
    (ty.toNat < 3 → (s.x rs2).toNat % 4 < 2 →
      let four := (s.x rs2).toNat % 2 = 1
      let recAt := cell n
      (∀ k < n, s.ownCell .read (base + BitVec.ofNat 64 (if four then k / 2 else k)).toNat = some (cell k)) →
      s.ownCell .read ((s.x rs2).toNat / 2 * 2) = some recAt → s.granted s.focus (recAt :: (List.range n).map cell) = true →
      ∃ r, exec (.vldq vd rs1 rs2 ty) s = .next (s.ended { s.me.setV vd r with pc := s.me.pc + 4 }) ∧
        ∀ k < n, velem w r k = dequantise (fmtOf ty) (memNat s.mem recAt 2)
          (if four then memNat s.mem (recAt + 2) 1 % 16 else memNat s.mem (recAt + 2) 1)
          (if four then memNat s.mem (cell k) 1 / (if k % 2 = 0 then 1 else 16) % 16 else memNat s.mem (cell k) 1)) ∧
    stores (.vst vd rs1 ty) unit ∧
    stores (.vsts vd rs1 rs2 ty) stride ∧
    stores (.vstx vd rs1 vs2 ty) index

/-- Vector accesses, and matrix and stream instructions, trap at issue on operands that their rules exclude. A baton alone that can take a
trap, where some element address of the access is not a multiple of the element size: VLD, VLDS, VLDX and VLDB take cause 5, VST, VSTS and
VSTX cause 7, with the lowest element address in XUTVAL, and VLDQ with bit 1 of its record operand set takes cause 5 with that operand,
bit 0 cleared; nothing else changes. A baton alone that can take a trap: where the access table allows the accesses, MM.DRAIN takes cause
7 and MM.LOAD cause 5 where one of the 4,096 element addresses is misaligned or outside the own TCM and scratchpad, with the lowest such
address in XUTVAL; ST.BIND of an operand above 255 takes cause 2 with its word; ST.FILL of an address that is not 64-byte aligned takes
cause 5 with it. Nothing else changes: the trap comes before the matrix context is taken, and before the baton waits for it (log entry 93,
the model's choice). (R250, R252, R263, R137, 12_isa_vector.md, R274, R276, R277, R200, 13_isa_matrix_copy.md.) -/
def Obligations.VectorAndMatrixOperandTraps : Prop :=
  (∀ (s : State) (vd rs1 rs2 vs2 : Reg) (ty : BitVec 3), s.canTrap →
    let w := widthOf ty
    let n := 256 / w
    let size := w / 8
    let base := s.x rs1
    let traps := fun (i : Instr) (m : Nat) (addr : Nat → Nat) (cause : BitVec 8) => (∃ k < m, addr k % size ≠ 0) →
      ∃ j < m, (∀ k < m, addr j ≤ addr k) ∧ exec i s = .next (s.trapped cause (BitVec.ofNat 64 (addr j)))
    let unit := fun (k : Nat) => (base + BitVec.ofNat 64 (k * size)).toNat
    let stride := fun (k : Nat) => (base + BitVec.ofNat 64 k * s.x rs2).toNat
    let index := fun (k : Nat) => (base + wrap64 (signedOf w (velem w (s.v vs2) k) * size)).toNat
    traps (.vld vd rs1 ty) n unit 5 ∧ traps (.vlds vd rs1 rs2 ty) n stride 5 ∧ traps (.vldx vd rs1 vs2 ty) n index 5 ∧
    traps (.vldb vd rs1 ty) 1 (fun _ => base.toNat) 5 ∧
    traps (.vst vd rs1 ty) n unit 7 ∧ traps (.vsts vd rs1 rs2 ty) n stride 7 ∧ traps (.vstx vd rs1 vs2 ty) n index 7 ∧
    ((s.x rs2).getLsbD 1 = true → exec (.vldq vd rs1 rs2 ty) s = .next (s.trapped 5 (s.x rs2 &&& ~~~1#64)))) ∧
  (∀ (s : State) (rs1 rs2 : Reg) (acc pm : BitVec 2) (clear : Bool) (port : BitVec 1) (fmt cnt : BitVec 3), s.canTrap →
    let a := s.x rs1
    let size : Nat := [4, 2, 2, 4, 1, 1].getD fmt.toNat 1
    let pitch : Int := if rs2 = 0 then 64 * size else (s.x rs2).toInt
    let at' := fun (k : Nat) => ((a.toNat + (k / 64 : Nat) * pitch + (k % 64 * size : Nat)) % 2 ^ 64).toNat
    let bad := fun (k : Nat) => at' k % size ≠ 0 ∨ ¬(at' k < 2 ^ 18 ∨ addrClass (at' k) = .spad)
    let traps := fun (i : Instr) (cause : BitVec 8) => (∃ k < 4096, bad k) →
      ∃ k < 4096, bad k ∧ (∀ j < 4096, bad j → at' k ≤ at' j) ∧ exec i s = .next (s.trapped cause (BitVec.ofNat 64 (at' k)))
    (s.spadAdmits .write = true → traps (.mmDrain rs1 rs2 acc pm clear fmt) 7) ∧
    (s.spadAdmits .read = true → traps (.mmLoad rs1 rs2 acc pm fmt) 5) ∧
    (256 ≤ a.toNat → ∀ w, encode (.stBind rs1 port) = .word w → exec (.stBind rs1 port) s = .next (s.trapped 2 (zext64 w))) ∧
    (a.toNat % 64 ≠ 0 → exec (.stFill rs1 cnt port) s = .next (s.trapped 5 a)))

/-- Matrix and stream instructions at issue. Outside an active gang: MM.TILE, MM.ZERO, MM.MSET, MM.DRAIN, MM.LOAD, MM.TOSTRM, ST.BIND (operand
at most 255), ST.FILL (64-byte aligned, panels in the own TCM or scratchpad) and ST.SKIP enter the core's queue with their word, their
sampled registers and the matrix CSRs, and complete; a free context is taken first, its accumulators +0, its masks all ones, and the
expected counts of MMPROG those of its ports. While another slot owns the context they park with reason MATRIX and that slot in WKEY;
while the queue is full they have no effect yet. MM.DRAIN and MM.LOAD are for tiles whose 4,096 addresses are aligned and in the own TCM
or scratchpad. The access table allows the own cluster the accesses of MM.DRAIN, MM.LOAD, ST.FILL and the scale records of MM.TILE.
Outside an active gang, in the slot that owns the matrix context: MM.WAIT completes where the slot has no matrix or stream entry left,
parks with reason MATRIX and its slot number while it has and none stalls, and with one stalled, for a baton that can take a trap, takes
cause 31 with the port; ST.STAT gives the panels held in bits [3:0], the expected count in [15:8] and OVF in [19]; ST.FLUSH empties the
port, its count and its OVF. While another slot owns the context all three park with reason MATRIX. (R266, R110, R153, R104, R272, R274,
R276, R277, 13_isa_matrix_copy.md, R273, R278.) -/
def Obligations.MatrixQueueAndStatus : Prop :=
  (∀ (s : State) (rd rs1 rs2 : Reg) (acc pm : BitVec 2) (flag : Bool) (port : BitVec 1) (fmt cnt : BitVec 3), s.alone →
    let slot := keySlot s.focus
    let c := s.core s.myCid
    let a := s.x rs1
    let b := s.x rs2
    let went := { s.me with pc := s.me.pc + 4 }
    let fresh := { c with owner := some slot, acc := Vector.replicate 4 0, pmRow := Vector.replicate 4 (BitVec.allOnes 64),
                          pmCol := Vector.replicate 4 (BitVec.allOnes 64), tile := none, scales := [] }
    let prog := s.me.csr.mmprog
    let taken := { went with csr := { s.me.csr with mmprog := prog.extractLsb' 48 16 ++ c.stb.exp ++ c.sta.exp ++ prog.extractLsb' 0 32 } }
    let enters := fun (i : Instr) (p q : Dword) =>
      (∀ w, s.queueRoom → encode i = .word w → c.owner = some slot → exec i s = .next (s.queuedEnded (.matrix w p q s.me.matCsr) went)) ∧
      (∀ w, s.queueRoom → encode i = .word w → c.owner = none →
        exec i s = .next ((s.setCore s.myCid fresh).queuedEnded (.matrix w p q s.me.matCsr) taken)) ∧
      (∀ o, s.queueRoom → c.owner = some o → o ≠ slot → exec i s = .next (s.parks (.matrix s.myCid) 12 (BitVec.ofNat 64 o) 0 4)) ∧
      (¬s.queueRoom → exec i s = .next s)
    let size : Nat := [4, 2, 2, 4, 1, 1].getD fmt.toNat 1
    let pitch : Int := if rs2 = 0 then 64 * size else b.toInt
    let fits := ∀ i : Nat, i < 64 → ∀ j : Nat, j < 64 →
      let x : Nat := ((a.toNat + i * pitch + j * size) % 2 ^ 64).toNat
      x % size = 0 ∧ (x < 2 ^ 18 ∨ addrClass x = .spad)
    let n := 4096 * (cnt.toNat + 1)
    (matScaled s.me.matCsr = false ∨ s.spadAdmits .read = true → enters (.mmTile acc pm flag) 0 0) ∧
    enters (.mmZero acc pm) 0 0 ∧
    enters (.mmMset rs1 rs2 pm flag) a b ∧
    (fits → (s.spadAdmits .write = true → enters (.mmDrain rs1 rs2 acc pm flag fmt) a b) ∧
      (s.spadAdmits .read = true → enters (.mmLoad rs1 rs2 acc pm fmt) a b)) ∧
    enters (.mmTostrm acc pm flag port) 0 0 ∧
    (a.toNat < 256 → enters (.stBind rs1 port) a 0) ∧
    (s.spadAdmits .read = true → a.toNat % 64 = 0 → a.toNat + n ≤ 2 ^ 18 ∨ (0x400000 ≤ a.toNat ∧ a.toNat + n ≤ 0x800000) → enters (.stFill rs1 cnt port) a 0) ∧
    enters (.stSkip rd rs1 port) a 0) ∧
  (∀ (s : State) (rd : Reg) (port : BitVec 1), s.alone →
    let slot := keySlot s.focus
    let c := s.core s.myCid
    let stall := c.stalledPort slot
    let entries := ∃ e ∈ c.dq, e.slot = slot ∧ ∃ w a b m, e.kind = .matrix w a b m
    (c.owner = some slot →
      (stall = none → ¬entries → exec .mmWait s = .next (s.passed 4)) ∧
      (stall = none → entries → exec .mmWait s = .next (s.parks .mmWait 12 (BitVec.ofNat 64 slot) 0 4)) ∧
      (∀ b, stall = some b → s.canTrap → exec .mmWait s = .next (s.trapped 31 (if b then 1 else 0))) ∧
      (∃ v, exec (.stStat rd port) s = .next (s.result rd v 4) ∧
        (v.extractLsb' 0 4).toNat = (c.port (port == 1)).panels.length % 16 ∧ v.extractLsb' 8 8 = (c.port (port == 1)).exp ∧
        v.getLsbD 19 = (c.port (port == 1)).ovf ∧ v.extractLsb' 20 44 = 0) ∧
      (∃ t, exec (.stFlush port) s = .next t ∧ (t.core t.myCid).port (port == 1) = ⟨[], false, 0⟩ ∧ t.me.x = s.me.x ∧
        t.me.pc = s.me.pc + 4 ∧ t.mem = s.mem)) ∧
    (∀ o, c.owner = some o → o ≠ slot →
      exec .mmWait s = .next (s.parks (.matrix s.myCid) 12 (BitVec.ofNat 64 o) 0 4) ∧
      exec (.stStat rd port) s = .next (s.parks (.matrix s.myCid) 12 (BitVec.ofNat 64 o) 0 4) ∧
      exec (.stFlush port) s = .next (s.parks (.matrix s.myCid) 12 (BitVec.ofNat 64 o) 0 4)))

/-- What the entry at the head of a dispatch queue does when it completes. DISPATCH_ENTRY_COMPLETE of the bound first entry of a core's queue
whose time has come and whose slot does not wait in CTX.SAVE removes it, while no baton out of any slot waits for the core's context and
no access for a bank of the die. A vector entry changes no register or memory, and one of a gang-wide instruction that has not bound in
every member stays; MM.ZERO sets every active element of its tile to 0 and keeps the others and the other tiles; MM.MSET sets the pair's
masks, or prefixes of min(64, operand) ones; ST.BIND raises the expected count, saturating at 255; ST.SKIP drops min(operand, held) panels
and writes that number to rd; with banks powered and the own TCM allowed by the access table, an f32 MM.DRAIN of a floating-point tile to
the TCM stores each active element at base + 256 i + 4 j and leaves every other byte, and MM.LOAD takes each active element from there.
(R266, R272, R274, R276, R277, R153, R248, R58, 13_isa_matrix_copy.md.) -/
def Obligations.MatrixEntriesComplete : Prop :=
  ∀ (s : State) (cid : Nat) (e : DqEntry) (rest : List DqEntry) (w : Word32) (a b : Dword) (m : MatCsr) (rd rs1 rs2 : Reg) (acc pm : BitVec 2)
    (port : BitVec 1) (flag : Bool),
    (s.core cid).dq = e :: rest → e.bound = true → s.entryHeld cid e.slot = false → e.doneAt ≤ s.swcAt (cidDie cid) →
    (s.power (cidDie cid)).waiters = [] → (∀ x ∈ (s.cluster (cidPcl cid)).away, x.2.wait.contextOf ≠ some cid) →
    let c := s.core cid
    let k := slotKey cid e.slot
    let elem := fun (u : State) (x : Nat) (i j : Nat) => ((u.core cid).tileAt x).extractLsb' (32 * (64 * i + j)) 32
    let on := fun (i j : Nat) => (vcGet c.pmRow pm.toNat).getLsbD i = true ∧ (vcGet c.pmCol pm.toNat).getLsbD j = true
    let ones := fun (n : Nat) => BitVec.ofNat 64 (2 ^ min n 64 - 1)
    let base := a.toNat
    let at' := fun (i j : Nat) => tcmCell cid (base + 256 * i + 4 * j)
    let ends := fun (p : State → Prop) => ∃ t, exec (.dispatchEntryComplete cid 0) s = .next t ∧ (t.core cid).dq = rest ∧ p t
    let does := fun (i : Instr) (p : State → Prop) => encode i = .word w → e.kind = .matrix w a b m → ends p
    let own := fun (op : MemOp) => ∀ x, x < 2 ^ 18 → s.coreCell k op x = some (tcmCell cid x)
    (∀ occ lat outs wide, e.kind = .vector occ lat outs wide → s.wideOpen wide = true → exec (.dispatchEntryComplete cid 0) s = .next s) ∧
    (∀ occ lat outs wide, e.kind = .vector occ lat outs wide → s.wideOpen wide = false → ends fun t => t.mem = s.mem ∧ (∀ q, (t.slotAt q).x = (s.slotAt q).x ∧ (t.slotAt q).v = (s.slotAt q).v)) ∧
    does (.mmZero acc pm) (fun t => t.mem = s.mem ∧
      (∀ i < 64, ∀ j < 64, (on i j → elem t acc.toNat i j = 0) ∧ (¬on i j → elem t acc.toNat i j = elem s acc.toNat i j)) ∧
      ∀ x < 4, x ≠ acc.toNat → (t.core cid).tileAt x = c.tileAt x) ∧
    does (.mmMset rs1 rs2 pm flag) (fun t => vcGet (t.core cid).pmRow pm.toNat = (if flag then ones a.toNat else a) ∧
      vcGet (t.core cid).pmCol pm.toNat = (if flag then ones b.toNat else b) ∧ (t.core cid).acc = c.acc) ∧
    (a.toNat < 256 → does (.stBind rs1 port) fun t => ((t.core cid).port (port == 1)).exp.toNat = min 255 ((c.port (port == 1)).exp.toNat + a.toNat) ∧
      ((t.core cid).port (port == 1)).panels = (c.port (port == 1)).panels) ∧
    does (.stSkip rd rs1 port) (fun t => ((t.core cid).port (port == 1)).panels = (c.port (port == 1)).panels.drop a.toNat ∧
      (rd ≠ 0 → (t.slotAt k).getX rd = BitVec.ofNat 64 (min a.toNat (c.port (port == 1)).panels.length)) ∧ t.mem = s.mem) ∧
    (base % 4 = 0 → base + 16384 ≤ 2 ^ 18 → m.mfmt.toNat % 8 < 3 → (∀ x, s.banksReady [x] = true) →
      (own .write → does (.mmDrain rs1 0 acc pm false 0) fun t =>
        (∀ i < 64, ∀ j < 64, on i j → memNat t.mem (at' i j) 4 = (elem s acc.toNat i j).toNat) ∧
        (∀ x, (∀ i < 64, ∀ j < 64, on i j → x < at' i j ∨ at' i j + 4 ≤ x) → readByte t.mem x = readByte s.mem x) ∧ (t.core cid).acc = c.acc) ∧
      (own .read → does (.mmLoad rs1 0 acc pm 0) fun t => t.mem = s.mem ∧ ∀ i : Nat, i < 64 → ∀ j : Nat, j < 64 →
        (on i j → (elem t acc.toNat i j).toNat = memNat s.mem (at' i j) 4) ∧ (¬on i j → elem t acc.toNat i j = elem s acc.toNat i j)))

/-- A panel step of an integer-only MM.TILE adds the products of its two head panels to every active element. PANEL_STEP of a core whose queue
head is a started MM.TILE in AQ8 integer-only mode with steps left, both ports holding a panel, the array idle and the Pacer's opportunity
its own: every active element becomes, modulo 2 to the 32, itself plus the sum over the K positions of the panel below MKLEN of the
products of the panel bytes, read signed where SIGNED is set; inactive elements and memory are unchanged, each port has lost its head
panel, and the tile is one step further or, after its last step, ended with its entry bound. Without such a head the event changes
nothing. (R270, R168, R267, R268, R153, R104, 13_isa_matrix_copy.md.) -/
def Obligations.PanelStepIntegerProducts : Prop :=
  ∀ (s : State) (cid : Nat) (e : DqEntry) (acc pm : BitVec 2) (init : Bool) (w : Word32) (m : MatCsr) (step : Nat) (pa pb : BitVec 32768)
    (ra rb : List (BitVec 32768)),
    let c := s.core cid
    let q := cidPcl cid * 4 + cidQuad cid
    (c.matrixHead = none → exec (.panelStep cid) s = .next s) ∧
    (c.matrixHead = some (e, w, m) → encode (.mmTile acc pm init) = .word w → e.started = true → s.entryHeld cid e.slot = false →
      (m.mfmt.extractLsb' 0 3).toNat = 3 → c.tile = some step → step < (matK m + 63) / 64 → c.sta.panels = pa :: ra → c.stb.panels = pb :: rb →
      (s.quad q).arrayBusy ≤ s.swcAt (cidDie cid) → (s.opportunity q (s.arrayHead q) (s.quad q).matrix).1 = some (cidCore cid) →
      ∃ t, exec (.panelStep cid) s = .next t ∧ t.mem = s.mem ∧ (t.core cid).sta.panels = ra ∧ (t.core cid).stb.panels = rb ∧
        (t.core cid).tile = (if (matK m + 63) / 64 ≤ step + 1 then none else some (step + 1)) ∧
        ∀ i : Nat, i < 64 → ∀ j : Nat, j < 64 →
          let old := ((c.tileAt acc.toNat).extractLsb' (32 * (64 * i + j)) 32).toNat
          let new := (((t.core cid).tileAt acc.toNat).extractLsb' (32 * (64 * i + j)) 32).toNat
          let val := fun (p : BitVec 32768) (r k : Nat) =>
            let x := p.extractLsb' (512 * r + 8 * k) 8
            if m.mfmt.getLsbD 3 then x.toInt else (x.toNat : Int)
          if (vcGet c.pmRow pm.toNat).getLsbD i && (vcGet c.pmCol pm.toNat).getLsbD j
          then (new : Int) = (old + ((List.range (min 64 (matK m - 64 * step))).map fun k => val pa i k * val pb j k).sum) % 2 ^ 32
          else new = old)

/-- A copy command takes an engine entry, samples its hurdle's generation and returns its handle. Outside an active gang, with no posted store
unanswered and a free engine entry, a well-formed CP.GET, CP.PUT, CP.XFER, CP.FILL, CP.FEED, CP.GATH, CP.SCAT or CP.ATOM with something to
move, addressed through no unassigned die number, with no hurdle or one of the own cluster in a powered bank whose data the own TCM,
scratchpad or port receives, and a CP.MCAST whose list can be read and whose branches have no hurdle, complete, where no access waits for
a bank of the die: rd holds the handle of R280, the entry holds the command's kind, group registers, track and baton, and the hurdle with
its GEN; memory and every other x register are unchanged and the pc advances by 4. A CP.GET between TCM addresses with no bank gated
promises the count plus 48 plus the bytes over 128, rounded up. With no free entry the baton parks with reason PROMISE, a misplaced hurdle
operand traps 30, and with posted stores unanswered the command waits. (R279, R280, R282, R284, R285, R286, R287, R288, R46,
13_isa_matrix_copy.md.) -/
def Obligations.CopyCommandsIssue : Prop :=
  ∀ (s : State) (rd xg rs2 : Reg), s.alone → s.noBankWait →
    let pcl := s.myPcl
    let g0 := s.x xg
    let g1 := s.x (xg + 1)
    let g2 := s.x (xg + 2)
    let ctl := s.x (xg + 3)
    let h := s.x rs2
    let placed := h.toNat % 32 = 0 ∧ spadBase ≤ h.toNat ∧ h.toNat ≤ 0x6FFFE0
    let near := ctlDrank ctl = false ∧ (addrClass g0.toNat = .tcm ∨ addrClass g0.toNat = .spad)
    let took := fun (kind : CpKind) (i : Nat) (t : State) (e : CpEntry) =>
      let v := e.handle
      kfind (t.cluster pcl).engine i = some e ∧ e.kind = kind ∧ e.g0 = g0 ∧ e.g1 = g1 ∧ e.g2 = g2 ∧ e.ctl = ctl ∧ e.track = s.me.track ∧
        e.baton = s.myRecord ∧ e.cid = s.myCid ∧ e.complete = false ∧ s.gave t rd v 4 ∧
        v.extractLsb' 57 7 = 0 ∧ (v.extractLsb' 48 9).toNat = pcl % 512 ∧ v.extractLsb' 16 32 ≠ 0 ∧ v.extractLsb' 6 10 = 0 ∧ (v.extractLsb' 0 6).toNat = i
    let issues := fun (kind : CpKind) (ins : Instr) =>
      (∀ i, s.released 3 = true → (s.cluster pcl).freeSlot = some i → cpOk kind pcl g0 g1 g2 ctl = true →
        cpUnassigned kind g0 g1 g2 ctl = false →
        (match kind with | .feed => 0 < feedKlen g0 | .gath | .scat => 0 < gathCount ctl | _ => g2 ≠ 0) →
        (rs2 ≠ 0 → placed ∧ (kind = .feed ∨ near) ∧ s.granted s.focus [spadCell pcl (h.toNat - spadBase)] = true) →
        ∃ t e, exec ins s = .next t ∧ took kind i t e ∧
          (rs2 = 0 → e.hurdle = none) ∧ (rs2 ≠ 0 → e.hurdle = some (spadCell pcl (h.toNat - spadBase)) ∧ e.gen = (s.hurdle (spadCell pcl (h.toNat - spadBase))).gen) ∧
          (kind = .get → ctlSrank ctl = false → g1.toNat < 2 ^ 18 → g0.toNat < 2 ^ 18 → (∀ b, s.bankOff b = false) →
            e.promise = s.swcAt s.myDie + 48 + (g2.toNat + 127) / 128)) ∧
      (s.canTrap → s.released 3 = true → rs2 ≠ 0 → ¬placed → exec ins s = .next (s.trapped 30 h)) ∧
      (s.released 3 = true → rs2 = 0 → (s.cluster pcl).freeSlot = none → exec ins s = .next (s.parks (.cpIssue kind rd g0 g1 g2 ctl h true) 4 0 0 4)) ∧
      (s.released 3 = false → exec ins s = .next s)
    issues .get (.cpGet rd xg rs2) ∧
    issues .put (.cpPut rd xg rs2) ∧
    issues .xfer (.cpXfer rd xg rs2) ∧
    issues .fill (.cpFill rd xg rs2) ∧
    issues .feed (.cpFeed rd xg rs2) ∧
    issues .gath (.cpGath rd xg rs2) ∧
    issues .scat (.cpScat rd xg rs2) ∧
    issues .atom (.cpAtom rd xg rs2) ∧
    (∀ i l, s.released 3 = true → (s.cluster pcl).freeSlot = some i → cpOk .mcast pcl g0 g1 g2 ctl = true →
      cpUnassigned .mcast g0 g1 g2 ctl = false → g2 ≠ 0 → s.granted s.focus (s.issueCells .mcast g0 ctl .none) = true →
      s.mcastList s.focus s.me.track g0.toNat (ctlSpec ctl % 128) = (0, l) → l ≠ [] → (∀ b ∈ l, b.ctl.extractLsb' 5 18 = 0) →
      ∃ t e, exec (.cpMcast rd xg) s = .next t ∧ took .mcast i t e ∧ e.branches = l)

/-- CP.STAT, CP.CANCEL and the buffer-map instructions. Outside an active gang: CP.STAT of an untracked handle gives 0x200 and zeros, and of a
completed command DONE and TRACKED with its status, STRAY and MISSED, the bytes performed, the promise, the failed branches and the count
at completion in the group; CP.CANCEL of four zero handles gives 0, and with one handle of a command of the own track that has pieces left
and has not been cancelled and three zeros gives 1 and marks it cancelled. The pc advances by 4. Outside an active gang, for a window
below 64: BUF.MAP of frames at most 191 sets FRONT, VALID, SHADOW and SVALID and keeps PUBGEN, BUF.UNMAP clears VALID and SVALID,
BUF.SHADOW sets SHADOW and SVALID, unless FRONT would equal SHADOW with both valid; each returns the old entry. BUF.PUB publishes (R150)
and returns the new entry. Other windows and memory are unchanged and the pc advances by 4. For a baton that can take a trap, a window
above 63, a frame above 191 or another set bit traps with cause 2 and the instruction word. (R289, R290, 13_isa_matrix_copy.md, R291,
R149, R150, R200.) -/
def Obligations.CopyStatusCancelAndBufferMap : Prop :=
  (∀ (s : State) (rd xg rs2 : Reg), s.alone → 0 < xg.toNat → xg.toNat ≤ 28 →
    let h := s.x rs2
    let reads := fun (t : State) (q a b c d : Dword) =>
      (∀ r, t.x r = if r = rd ∧ rd ≠ 0 then q else if r = xg then a else if r = xg + 1 then b else if r = xg + 2 then c else if r = xg + 3 then d
        else s.x r) ∧ t.me.pc = s.me.pc + 4 ∧ t.mem = s.mem
    (s.tracked s.myPcl h = none → ∃ t, exec (.cpStat rd xg rs2) s = .next t ∧ reads t 0x200 0 0 0 0) ∧
    (∀ e, s.tracked s.myPcl h = some e → e.complete = true → ∃ t q, exec (.cpStat rd xg rs2) s = .next t ∧
      reads t q (BitVec.ofNat 64 e.moved) (BitVec.ofNat 64 e.promise) (branchBits e) (BitVec.ofNat 64 e.completeAt) ∧
      (q.extractLsb' 0 4).toNat = e.status % 16 ∧ q.getLsbD 8 = true ∧ q.getLsbD 9 = true ∧ q.getLsbD 10 = e.missed ∧ q.getLsbD 11 = e.stray) ∧
    (s.x (xg + 1) = 0 → s.x (xg + 2) = 0 → s.x (xg + 3) = 0 →
      (s.x xg = 0 → exec (.cpCancel rd xg) s = .next (s.result rd 0 4)) ∧
      (∀ e, s.x xg ≠ 0 → s.tracked s.myPcl (s.x xg) = some e → e.complete = false → e.cancelled = false → e.arriving = false →
        piecesEnded e = false → e.track = s.me.track → ∃ t, exec (.cpCancel rd xg) s = .next t ∧ s.gave t rd 1 4 ∧
        t.tracked s.myPcl (s.x xg) = some { e with cancelled := true }))) ∧
  (∀ (s : State) (rd rs1 rs2 : Reg),
    let w := (s.x rs1).toNat
    let v := s.x rs2
    let old := s.window s.myPcl w
    let sets := fun (i : Instr) (gives new : Dword) => s.alone → w < 64 →
      ¬(new.getLsbD 16 = true ∧ new.getLsbD 17 = true ∧ new.extractLsb' 0 8 = new.extractLsb' 8 8) →
      ∃ t, exec i s = .next t ∧ s.gave t rd gives 4 ∧ t.window s.myPcl w = new ∧ ∀ p u, u < 64 → ¬(p = s.myPcl ∧ u = w) → t.window p u = s.window p u
    let traps := fun (i : Instr) => s.canTrap → ∀ word, encode i = .word word → exec i s = .next (s.trapped 2 (zext64 word))
    (v.toNat < 2 ^ 17 → v.toNat % 256 ≤ 191 → v.toNat / 256 % 256 ≤ 191 →
      sets (.bufMap rd rs1 rs2) old (old &&& ~~~0x3FFFF#64 ||| v &&& 0xFFFF#64 ||| 1#64 <<< 16 ||| (v >>> 16) <<< 17)) ∧
    sets (.bufUnmap rd rs1) old (old &&& ~~~0x30000#64) ∧
    (v.toNat ≤ 191 → sets (.bufShadow rd rs1 rs2) old (old &&& ~~~0xFF00#64 ||| v <<< 8 ||| 1#64 <<< 17)) ∧
    (s.alone → w < 64 → ∃ t, exec (.bufPub rd rs1) s = .next t ∧ s.gave t rd (publishEntry old) 4 ∧ t.window s.myPcl w = publishEntry old) ∧
    (64 ≤ w → traps (.bufUnmap rd rs1) ∧ traps (.bufPub rd rs1) ∧ traps (.bufMap rd rs1 rs2) ∧ traps (.bufShadow rd rs1 rs2)) ∧
    (2 ^ 17 ≤ v.toNat ∨ 191 < v.toNat % 256 ∨ 191 < v.toNat / 256 % 256 → traps (.bufMap rd rs1 rs2)) ∧
    (191 < v.toNat → traps (.bufShadow rd rs1 rs2)))

/-- Results of the scalar statistics instructions, and that updates and merges of well-formed triples are well-formed. Outside an active gang:
STAT.INIT gives the empty code; STAT.UPD (weight 1), STAT.UPDW and STAT.MERGE of well-formed operands give the update or merge of R172 and
R173, where a NaN input only sets NAN, an infinite one only INF, a negative or non-finite weight on a number only WBAD, and a number
absorbed into the empty triple becomes its mean with its weight; a merge with an empty side keeps the other side with the tags joined.
With a malformed operand a baton that can take a trap takes cause 28 with the instruction word. STAT.LD and STAT.ST of a 16-byte aligned
local address on a powered bank load and store the 16 bytes, where the access table allows them and no access waits for a bank of the die.
The pc advances by 4 and nothing else changes. For every well-formed STAT128 value and every FP32 input and weight, the update of R172 is
well-formed, and so is the merge of R173 of two well-formed values: no reserved bit set, an empty value with W, MU and M2 +0, and
otherwise W finite and above zero; tags once set stay set. (R171, R172, R173, R294, R296, R297, 14_isa_stat_cycle.md, 08_arithmetic.md.) -/
def Obligations.StatisticsResults : Prop :=
  (∀ (s : State) (std st1 st2 : BitVec 3) (rs1 rs2 : Reg) (c : Nat),
    let a := statOf (s.st std)
    let x := lowNat (s.x rs1)
    let w := lowNat (s.x rs2)
    let one := 0x3F800000
    let done := fun (v : Streg) => s.ended { s.me.setSt std v with pc := s.me.pc + 4 }
    let traps := fun (i : Instr) => s.canTrap → ∀ w, encode i = .word w → exec i s = .next (s.trapped 28 (zext64 w))
    let updates := fun (i : Instr) (w : Nat) =>
      (s.alone → statMalformed (s.st std) = false → exec i s = .next (done (statTo (statUpd a x w))) ∧
        (isNan (fdecode .f32 x) = true → statUpd a x w = { a with nan := true }) ∧
        (x % 2 ^ 31 = 0x7F800000 → statUpd a x w = { a with inf := true }) ∧
        (∀ p, (fdecode .f32 x).num = some p →
          ((fdecode .f32 w).num = none → statUpd a x w = { a with wbad := true }) ∧
          (∀ q, (fdecode .f32 w).num = some q → (q = 0 → statUpd a x w = a) ∧ (q < 0 → statUpd a x w = { a with wbad := true }) ∧
            (0 < q → a.empty = true → statUpd a x w = { a with w := w, mu := x, m2 := 0, empty := false })))) ∧
      (statMalformed (s.st std) = true → traps i)
    (s.alone → exec (.statInit std) s = .next (done 1#128)) ∧
    updates (.statUpd std rs1) one ∧
    updates (.statUpdw std rs1 rs2) w ∧
    (s.alone → statMalformed (s.st st1) = false → statMalformed (s.st st2) = false →
      let l := statOf (s.st st1)
      let r := statOf (s.st st2)
      let tags := fun (q : Stat) => { q with wbad := l.wbad || r.wbad, wovf := l.wovf || r.wovf, inf := l.inf || r.inf, nan := l.nan || r.nan }
      exec (.statMerge std st1 st2) s = .next (done (statTo (statMerge l r))) ∧
        (l.empty = true → statMerge l r = tags r) ∧ (l.empty = false → r.empty = true → statMerge l r = tags l)) ∧
    (statMalformed (s.st st1) = true ∨ statMalformed (s.st st2) = true → traps (.statMerge std st1 st2)) ∧
    ((s.x rs1).toNat % 16 = 0 → s.granted s.focus [c] = true → s.noBankWait →
      let v := BitVec.ofNat 128 (memNat s.mem c 16)
      (s.ownCell .read (s.x rs1).toNat = some c →
        (s.alone → statMalformed v = false → exec (.statLd std rs1) s = .next (done v)) ∧ (statMalformed v = true → traps (.statLd std rs1))) ∧
      (s.alone → s.ownCell .write (s.x rs1).toNat = some c → exec (.statSt rs1 st2) s = .next (s.storedTo c ((List.range 16).map fun i => (s.st st2).extractLsb' (8 * i) 8) 4)))) ∧
  (∀ (v u : Streg) (x w : BitVec 32), statMalformed v = false →
    let a := statOf v
    let q := statUpd a x.toNat w.toNat
    statMalformed (statTo q) = false ∧ statOf (statTo q) = q ∧
    (a.nan = true → q.nan = true) ∧ (a.inf = true → q.inf = true) ∧ (a.wovf = true → q.wovf = true) ∧ (a.wbad = true → q.wbad = true) ∧
    (statMalformed u = false →
      let m := statMerge a (statOf u)
      statMalformed (statTo m) = false ∧ statOf (statTo m) = m ∧
      ((a.nan || (statOf u).nan) = true → m.nan = true) ∧ ((a.wovf || (statOf u).wovf) = true → m.wovf = true)))

/-- VSTAT.UPD, VSTAT.UPDW, STAT.DRAIN and VSTAT.NORM complete, and their results. Outside an active gang: VSTAT.UPD and VSTAT.UPDW of a float
type, with room in the queue and a well-formed triple, complete: the triple is updated once for each element in ascending order, the
elements widened to FP32, with weight 1 or the element of vs2, and the entry occupies a lane group for 6 cycles an element. STAT.DRAIN of
a well-formed triple completes under each option: RAW gives its two halves, NORM the mean and RSTD, the other options one FP32 result;
MEAN is the mean, VARP M2 over W rounded once, VARS the canonical NaN for W at most 1, RSTD the canonical NaN for a NaN eps, and all of
them 0x7FC00000 for a triple that is empty or has NAN, INF or WOVF set. VSTAT.NORM, with room in the queue, completes with the once-
rounded product of the exact difference and the factor in every element. With a full queue the vector forms have no effect yet, and a
malformed triple traps with cause 28. (R174, R171, R172, R245, R248, R295, R298, R299, R300, 14_isa_stat_cycle.md.) -/
def Obligations.StatisticsVectorsAndDrains : Prop :=
  ∀ (s : State) (std st1 : BitVec 3) (vd vs1 vs2 rd rs2 : Reg) (ty : BitVec 2) (drain : BitVec 3) (pair : BitVec 4),
    let f := fmtOf (ty.setWidth 3)
    let w := widthOf (ty.setWidth 3)
    let n := 256 / w
    let e := fun (r : Reg) (k : Nat) => velem w (s.v r) k
    let wide := fun (r : Reg) (k : Nat) => if ty = 0 then e r k else toF32 f (e r k)
    let folded := fun (weight : Nat → Nat) => (List.range n).foldl (fun a k => statUpd a (wide vs1 k) (weight k)) (statOf (s.st std))
    let updated := fun (weight : Nat → Nat) => s.queuedEnded (.vector (6 * n) (6 * n + 4) [regOfSt std] 0)
      { s.me.setSt std (statTo (folded weight)) with pc := s.me.pc + 4 }
    let v := s.st st1
    let a := statOf v
    let eps := lowNat (s.x rs2)
    let two := fun (p q : Dword) => s.ended ({ s.me.wrote rd p s.me.pc with pc := s.me.pc }.wrote (rd + 1) q (s.me.pc + 4))
    let one := fun (p : Nat) => s.result rd (wrap32 p) 4
    let m := fdecode .f32 (lowNat (s.x (pair ++ 0#1)))
    let q := fdecode .f32 (lowNat (s.x (pair ++ 1#1)))
    let malformed := fun (i : Instr) => ∀ w, encode i = .word w → exec i s = .next (s.trapped 28 (zext64 w))
    (s.alone → s.queueRoom → ty.toNat < 3 → statMalformed (s.st std) = false →
      exec (.vstatUpd std vs1 ty) s = .next (updated fun _ => 0x3F800000) ∧
      exec (.vstatUpdw std vs1 vs2 ty) s = .next (updated fun k => wide vs2 k)) ∧
    (s.alone → s.queueRoom → ty.toNat < 3 → ∃ r, exec (.vstatNorm vd vs1 ty pair) s = .next (s.vectorResult vd r 1 5) ∧
      ∀ k < n, velem w r k = (mulV f .rne (subExact (fdecode f (e vs1 k)) m) q).bits) ∧
    (s.alone → statMalformed v = false →
      exec (.statDrain rd st1 rs2 drain) s = .next (
        if drain = 0 then two (v.extractLsb' 64 64) (v.extractLsb' 0 64)
        else if drain = 5 then two (wrap32 (statDrain a 1 eps)) (wrap32 (statDrain a 4 eps))
        else one (statDrain a drain.toNat eps))) ∧
    (a.nan = true ∨ a.inf = true ∨ a.wovf = true ∨ a.empty = true → ∀ k, statDrain a k eps = 0x7FC00000) ∧
    (a.nan = false → a.inf = false → a.wovf = false → a.empty = false →
      statDrain a 1 eps = a.mu ∧ statDrain a 2 eps = (divV .f32 .rne (fdecode .f32 a.m2) (fdecode .f32 a.w)).bits ∧
      (∀ p, (fdecode .f32 a.w).num = some p → p ≤ 1 → statDrain a 3 eps = 0x7FC00000) ∧
      (isNan (fdecode .f32 eps) = true → statDrain a 4 eps = 0x7FC00000)) ∧
    (¬s.queueRoom → statMalformed (s.st std) = false → exec (.vstatUpd std vs1 ty) s = .next s ∧
      exec (.vstatUpdw std vs1 vs2 ty) s = .next s ∧ exec (.vstatNorm vd vs1 ty pair) s = .next s) ∧
    (s.canTrap → statMalformed (s.st std) = true → malformed (.vstatUpd std vs1 ty) ∧ malformed (.vstatUpdw std vs1 vs2 ty)) ∧
    (s.canTrap → statMalformed v = true → malformed (.statDrain rd st1 rs2 drain))

/-- CYC.OPEN opens a record from a local descriptor, and CYC.FREEZE adds a range. Outside an active gang, with the cycle controller up and no
posted request of the baton waiting: CYC.OPEN of an aligned 64-byte descriptor without ranges in a local aperture that the access table
allows, on powered banks and with no access waiting for a bank of the die, parks on REMOTE for the answer: the new open sequence number
and the lowest free record, which is OPEN with the descriptor's fields and the own track; a descriptor that breaks R302 gives 1, and with
no free record 2, below bit 63. CYC.FREEZE of an OPEN record parks for the new range count with the range installed, or all ones where
there are 8 ranges or the range breaks R302. With the controller down a baton that can take a trap takes cause 29 with the descriptor
address. (R302, R303, R305, R306, R304, 14_isa_stat_cycle.md.) -/
def Obligations.CycleOpenAndFreeze : Prop :=
  ∀ (s : State) (rd rs1 rs2 : Reg) (cs : List Nat) (n : Nat) (r : CycRec),
    let a := (s.x rs1).toNat
    let l := s.cellBytes cs
    let w := wordAt l 0
    let quiet := s.alone ∧ s.cycUp = true ∧ s.noBankWait ∧ s.granted s.focus cs = true ∧ ∀ q ∈ s.cyc.queue, q.record ≠ s.myRecord
    let range := (wordAt l 0, wordAt l 8)
    let legal := 2 ^ 40 ≤ range.1 ∧ range.1 < range.2 ∧ range.2 ≤ 2 ^ 56
    (quiet → a % 64 = 0 → s.localRange .read a 64 = some cs → w / 2 ^ 24 % 16 = 0 →
      (descOk l = false → exec (.cycOpen rd rs1) s = .next (s.awaits rd (1#64 <<< 63 ||| 1) 4)) ∧
      (descOk l = true → s.freeCycle = none → exec (.cycOpen rd rs1) s = .next (s.awaits rd (1#64 <<< 63 ||| 2) 4)) ∧
      (descOk l = true → s.freeCycle = some n → (∀ d ∈ s.freezeDies, (s.ni d).freeze.length ≤ 512) →
        ∃ t, exec (.cycOpen rd rs1) s = .next t ∧ s.awaiting t rd (BitVec.ofNat 64 (nextCycSeq s.cyc.lastSeq * 2 ^ 32 + n)) 4 ∧
          (t.cycRec n).state = .opened ∧ (t.cycRec n).track = s.me.track ∧ (t.cycRec n).seq = nextCycSeq s.cyc.lastSeq ∧
          (t.cycRec n).nbm1 = w % 256 ∧ (t.cycRec n).limit = w / 256 % 256 ∧ (t.cycRec n).blimit = w / 2 ^ 16 % 256 ∧
          (t.cycRec n).start = BitVec.ofNat 64 (wordAt l 8) ∧ (t.cycRec n).ranges = [] ∧ ∀ m, m ≠ n → t.cycRec m = s.cycRec m)) ∧
    (quiet → (s.x rs2).toNat % 16 = 0 → s.localRange .read (s.x rs2).toNat 16 = some cs → s.cycNamed (s.x rs1) s.me.track = some r → r.state = .opened →
      (8 ≤ r.ranges.length ∨ ¬legal → exec (.cycFreeze rd rs1 rs2) s = .next (s.awaits rd (BitVec.allOnes 64) 4)) ∧
      (r.ranges.length < 8 → legal → (∀ d ∈ s.freezeDies, (s.ni d).freeze.length < 512) → ∃ t, exec (.cycFreeze rd rs1 rs2) s = .next t ∧
        s.awaiting t rd (BitVec.ofNat 64 (r.ranges.length + 1)) 4 ∧ (t.cycRec (cycNum (s.x rs1))).ranges = r.ranges ++ [range] ∧
        ∀ d ∈ s.freezeDies, ∃ e ∈ (t.ni d).freeze, e.base = range.1 ∧ e.limit = range.2 ∧ e.cycle = cycNum (s.x rs1) ∧ e.track = r.track)) ∧
    (s.canTrap → s.cycUp = false → exec (.cycOpen rd rs1) s = .next (s.trapped 29 (s.x rs1)))

/-- The cycle instructions on a live record, and how an iteration closes. Outside an active gang, with no posted request of the baton waiting
and a handle that names a record of the track (R301): CYC.ITER, CYC.BWD, CYC.STAT, CYC.CLOSE and CYC.ABORT park on REMOTE for their
answer; CYC.ITER's is the status word, an OPEN record becoming ITERATING; CYC.TAKE of the first block gives INIT or ADJ, of another the
predecessor's passed value, and the die of a TAKE has applied its log, that of the first block too (log entry 47, the model's choice), and
parks with reason CYCLE while there is none and no NEXT; CYC.NEXT parks and sets the block's flag; CYC.BWD moves a CONVERGED or INEXACT
record to BACKWARD; CYC.STAT gives its item; CYC.CLOSE ends a finished record. CYC.RES (of a well-formed triple) and CYC.PASS with no
unanswered posted store in the package queue a posted request. For a baton that can take a trap, an instruction in another state and one
whose handle names nothing take cause 29 with REC. The residuals of an iteration are merged in ascending block order from the empty
triple. The iteration closes with code 3 where the merge has NAN, INF or WOVF, or its once-rounded W times MU is infinite; with 1 where
that product, or +0 of an empty merge, is at most T; with 2 where the iterations reach the direction's limit; and otherwise with 0, ITER
one higher. Every slot is cleared; forward, FWDSTAT takes a non-zero code and the state is CONVERGED, INEXACT or DIVERGED; backward, only
BWDSTAT takes it. (R301, R303, R304, R308, R309, R310, R311, R312, R313, R217, R179, 14_isa_stat_cycle.md.) -/
def Obligations.CycleInstructionsAndIterations : Prop :=
  (∀ (s : State) (rd rs1 rs2 : Reg) (st2 : BitVec 3) (sel : BitVec 2),
    let h := s.x rs1
    let n := cycNum h
    let b := cycBlock h
    let quiet := ∀ q ∈ s.cyc.queue, q.record ≠ s.myRecord
    let works := fun (r : CycRec) => r.state = .opened ∨ r.state = .iterating ∨ (r.state = .backward ∧ r.bwdstat = 0)
    let begun := fun (r : CycRec) => if r.state = .opened then { r with state := .iterating, iter := 0 } else r
    let trap := fun (i : Instr) => exec i s = .next (s.trapped 29 (BitVec.ofNat 64 n))
    (s.canTrap → quiet → s.cycNamed h s.me.track = none → trap (.cycIter rd rs1) ∧ trap (.cycTake rd rs1) ∧ trap (.cycNext rd rs1) ∧
      trap (.cycBwd rs1 rs2) ∧ trap (.cycStat rd rs1 sel) ∧ trap (.cycClose rs1) ∧ trap (.cycAbort rs1)) ∧
    (s.alone → s.cycUp = true → cycClean h = true → s.released 2 = true →
      let posts := fun (i : Instr) (res : Option Streg) (v : Dword) => ∃ t q, exec i s = .next t ∧ t.cyc.queue = s.cyc.queue ++ [q] ∧
        q.handle = h ∧ q.res = res ∧ q.value = v ∧ q.track = s.me.track ∧ q.record = s.myRecord ∧ t.cyc.recs = s.cyc.recs ∧
        t.me.x = s.me.x ∧ t.me.pc = s.me.pc + 4 ∧ t.mem = s.mem
      (statMalformed (s.st st2) = false → posts (.cycRes rs1 st2) (some (s.st st2)) 0) ∧ posts (.cycPass rs1 rs2) none (s.x rs2)) ∧
    (∀ r, s.cycNamed h s.me.track = some r → quiet →
      let u := (s.setCyc n (begun r)).applyLog s.myDie
      let takes := fun (v : Dword) => u.alone → exec (.cycTake rd rs1) s = .next (u.ended (s.me.wrote rd v (s.me.pc + 4)))
      let p := (begun r).slots.getD (if r.dir then b + 1 else b - 1) CycSlot.init
      let first := if r.dir then r.nbm1 else 0
      (s.alone → works r →
        exec (.cycIter rd rs1) s = .next ((s.setCyc n (begun r)).awaits rd (begun r).word 4) ∧
        (b = first → takes (if r.dir then r.adj else r.start)) ∧ (∀ v, b ≠ first → p.passed = some v → takes v) ∧
        (b ≠ first → p.passed = none → p.next = false →
          exec (.cycTake rd rs1) s = .next ((s.setCyc n (begun r)).parks (.cycTake rd h) 8 (BitVec.ofNat 64 n) 0 4)) ∧
        (s.me.mode = .running → s.waiting = [] → b < r.slots.length → (∃ j < r.slots.length, j ≠ b ∧ (r.slots.getD j CycSlot.init).next = false) →
          ∃ t, exec (.cycNext rd rs1) s = .next t ∧
          t.me = s.me.parkedFor (.cycNext rd h) 8 (BitVec.ofNat 64 n) 0 4 (s.swcAt s.myDie) ∧ ((t.cycRec n).slots.getD b CycSlot.init).next = true ∧
          (t.cycRec n).state = (begun r).state)) ∧
      (s.alone → r.state = .converged ∨ r.state = .inexact → ∃ t, exec (.cycBwd rs1 rs2) s = .next t ∧ (t.cycRec n).state = .backward ∧
        (t.cycRec n).dir = true ∧ (t.cycRec n).iter = 0 ∧ (t.cycRec n).adj = s.x rs2 ∧ (t.cycRec n).fwdstat = r.fwdstat ∧
        (t.cycRec n).slots = List.replicate (r.nbm1 + 1) CycSlot.init ∧ s.awaiting t 0 0 4) ∧
      (s.alone → exec (.cycStat rd rs1 sel) s = .next (s.awaits rd
        (if sel = 0 then r.word else if sel = 1 then r.res.extractLsb' 64 64 else if sel = 2 then r.res.extractLsb' 0 64 else r.out) 4)) ∧
      (s.alone → r.state = .converged ∨ r.state = .inexact ∨ r.state = .diverged ∨ (r.state = .backward ∧ r.bwdstat ≠ 0) →
        ∃ t, exec (.cycClose rs1) s = .next t ∧ (t.cycRec n).state = .closed ∧ (t.cycRec n).res = r.res ∧ (t.cycRec n).out = r.out ∧
          (∀ d, ∀ e ∈ (t.ni d).freeze, e.cycle ≠ n) ∧ s.awaiting t 0 0 4) ∧
      (s.alone → s.waiting = [] → r.state = .closed → ∃ t, exec (.cycAbort rs1) s = .next t ∧ t.cycRec n = r ∧ s.awaiting t 0 0 4) ∧
      (s.alone → s.waiting = [] → r.state.live = true → ∃ t, exec (.cycAbort rs1) s = .next t ∧ (t.cycRec n).state = .aborted ∧
        s.awaiting t 0 0 4) ∧
      (s.canTrap → ¬works r → trap (.cycIter rd rs1) ∧ trap (.cycTake rd rs1) ∧ trap (.cycNext rd rs1)) ∧
      (s.canTrap → r.state ≠ .converged → r.state ≠ .inexact → trap (.cycBwd rs1 rs2)))) ∧
  (∀ (r : CycRec),
    let m := statOf ((List.range (r.nbm1 + 1)).foldl (fun m b => statTo (statMerge (statOf m) (statOf (r.slots.getD b CycSlot.init).res))) 1#128)
    let res := if m.empty then (0 : Nat) else (mulV .f32 .rne (fdecode .f32 m.w) (fdecode .f32 m.mu)).bits
    let bad := m.nan = true ∨ m.inf = true ∨ m.wovf = true
    let c := r.close.1
    let q := r.close.2
    (bad → c = 3) ∧ (¬bad → res = 0x7F800000 → c = 3) ∧
    (∀ p t, ¬bad → (fdecode .f32 res).num = some p → (fdecode .f32 r.tol2).num = some t →
      c = if p ≤ t then 1 else if (if r.dir then r.blimit else r.limit) ≤ r.iter + 1 then 2 else 0) ∧
    q.slots = List.replicate (r.nbm1 + 1) CycSlot.init ∧ q.iter = (if c = 0 then r.iter + 1 else r.iter) ∧ q.dir = r.dir ∧ q.out = r.out ∧
    (c = 0 → q.state = r.state ∧ q.fwdstat = r.fwdstat ∧ q.bwdstat = r.bwdstat) ∧
    (c ≠ 0 → r.dir = false → q.fwdstat = c ∧ q.bwdstat = r.bwdstat ∧ q.state = (if c = 1 then .converged else if c = 2 then .inexact else .diverged)) ∧
    (c ≠ 0 → r.dir = true → q.bwdstat = c ∧ q.fwdstat = r.fwdstat ∧ q.state = r.state))

/-- The collective instructions at a Relay that is up. Outside an active gang and with the Relay up, CL.LOAD, CL.GRP, CL.JOIN and CL.LEAVE
park on REMOTE for their answer: CL.LOAD with an rs1 field of 0 unloads a plan with 0, or gives code 1 for a stale handle and 7 with an
open run; of a well-formed local image whose group is undefined, whose id is new and that fits, it stores the plan and returns its handle.
CL.GRP of a local definition gives the next GEN and sets the group, or code 7 with an open run. CL.RUN gives 0 for a stale plan and
otherwise a ticket with the plan's slot and id. CL.WAIT parks on an open run, and gives a kept status or 255. CL.CANCEL ends an open run
of its track. CL.JOIN and CL.LEAVE give the next GEN or codes 9, 10, 11. CL.PAUSE and CL.RESUME of a rank that no other package's Relay
sequences park on a packet to the Relay. With the Relay down, CL.WAIT gives 5 and CL.RUN 0. (R315, R316, R317, R318, R319, R320, R321,
R120, R130, 14_isa_stat_cycle.md.) -/
def Obligations.CollectiveInstructions : Prop :=
  ∀ (s : State) (rd rs1 rs2 : Reg), s.alone →
    let a := s.x rs1
    let b := s.x rs2
    let code := fun (c : Nat) => 1#64 <<< 63 ||| BitVec.ofNat 64 c
    let table := ∃ cs, b.toNat % 8 = 0 ∧ s.localRange .read b.toNat 128 = some cs ∧ s.granted s.focus cs = true
    let image := fun (op : DescOp) (at' : Nat) (l : List Byte) => isLocal at' = true ∧ ∃ c0 c1, s.localRange .read at' (op.total []) = some c0 ∧ s.granted s.focus c0 = true ∧
      s.localRange .read at' (op.total (s.cellBytes c0)) = some c1 ∧ s.granted s.focus c1 = true ∧ l = s.cellBytes c1
    let g := s.group a.toNat
    (s.relayUp = false → s.noBankWait →
      exec (.clWait rd rs1) s = .next (s.result rd 5 4) ∧ (table → s.released 3 = true → exec (.clRun rd rs1 rs2) s = .next (s.result rd 0 4))) ∧
    (s.relayUp = true → s.noBankWait →
      (s.planNamed b = none → exec (.clLoad rd 0 rs2) s = .next (s.awaits rd (code 1) 4)) ∧
      (∀ slot p, s.planNamed b = some (slot, p) →
        (s.relay.runsOf slot ≠ [] → exec (.clLoad rd 0 rs2) s = .next (s.awaits rd (code 7) 4)) ∧
        (s.relay.runsOf slot = [] → ∃ t, exec (.clLoad rd 0 rs2) s = .next t ∧ s.awaiting t rd 0 4 ∧ kfind t.relay.plans slot = none)) ∧
      (∀ l h nodes succ, rs1 ≠ 0 → a.toNat % 64 = 0 → b.toNat < 2 ^ 16 → image (.clLoad b.toNat) a.toNat l → planOf l = .ok (h, nodes, succ) →
        (s.group h.group).defined = false → s.relay.findPlan h.group b.toNat = none → s.relay.planRoom h = true →
        ∃ t v p, exec (.clLoad rd rs1 rs2) s = .next t ∧ s.awaiting t rd v 4 ∧ v.extractLsb' 48 16 = 0 ∧ v.extractLsb' 0 16 = b.extractLsb' 0 16 ∧
          t.planNamed v = some ((v.extractLsb' 16 6).toNat, p) ∧ p.hdr = h ∧ p.nodes = nodes ∧ p.succ = succ) ∧
      (∀ l, b.toNat % 8 = 0 → a.toNat < 1024 → image (.clGrp a.toNat) b.toNat l → defOk l = true → (∀ r ∈ defRanks l, r < 4096) → (defRanks l).Nodup →
        s.me.track = 0 →
        (s.relay.groupBusy a.toNat = true → exec (.clGrp rd rs1 rs2) s = .next (s.awaits rd (code 7) 4)) ∧
        (s.relay.groupBusy a.toNat = false → s.relay.entries a.toNat + (defRanks l).length ≤ 65536 → ∃ t, exec (.clGrp rd rs1 rs2) s = .next t ∧
          s.awaiting t rd (zext64 (g.gen + 1)) 4 ∧ (t.group a.toNat).ranks = defRanks l ∧ (t.group a.toNat).gen = g.gen + 1 ∧ (t.group a.toNat).defined = true)) ∧
      (s.released 3 = true → table →
        (s.planNamed a = none → exec (.clRun rd rs1 rs2) s = .next (s.result rd 0 4)) ∧
        (∀ slot p rank, s.planNamed a = some (slot, p) → (s.group p.hdr.group).track = s.me.track → s.groupRank s.myPcl (s.group p.hdr.group) = some rank →
          ∃ t v, exec (.clRun rd rs1 rs2) s = .next t ∧ s.gave t rd v 4 ∧ (v.extractLsb' 0 16).toNat = p.pid ∧ (v.extractLsb' 16 6).toNat = slot ∧
            v.extractLsb' 22 10 = 0)) ∧
      (∀ k, s.ticketIs a = .isOpen k → exec (.clWait rd rs1) s = .next (s.parks (.coll rd a) 9 a 0 4) ∧
        ∀ r, kfind s.relay.runs k = some r → s.me.track = r.track → ∃ t q, exec (.clCancel rs1) s = .next t ∧ t.me = { s.me with pc := s.me.pc + 4 } ∧
          t.mem = s.mem ∧ kfind t.relay.runs k = some q ∧ (r.ended = none → r.over = false → q.ended = some 6)) ∧
      (∀ v, s.ticketIs a = .status v → exec (.clWait rd rs1) s = .next (s.result rd (BitVec.ofNat 64 v) 4) ∧ exec (.clCancel rs1) s = .next (s.passed 4)) ∧
      (s.ticketIs a = .unknown → exec (.clWait rd rs1) s = .next (s.result rd 255 4) ∧ exec (.clCancel rs1) s = .next (s.passed 4)) ∧
      (a.toNat < 1024 → b.toNat < 4096 →
        (g.defined = false → exec (.clJoin rd rs1 rs2) s = .next (s.awaits rd (code 11) 4) ∧ exec (.clLeave rd rs1 rs2) s = .next (s.awaits rd (code 11) 4)) ∧
        (g.defined = true → g.track = s.me.track →
          (b.toNat ∈ g.ranks → exec (.clJoin rd rs1 rs2) s = .next (s.awaits rd (code 10) 4) ∧ ∃ t, exec (.clLeave rd rs1 rs2) s = .next t ∧
            s.awaiting t rd (zext64 (g.gen + 1)) 4 ∧ b.toNat ∉ (t.group a.toNat).ranks ∧ (t.group a.toNat).gen = g.gen + 1) ∧
          (b.toNat ∉ g.ranks → exec (.clLeave rd rs1 rs2) s = .next (s.awaits rd (code 9) 4) ∧
            (g.ranks.length < 4096 → s.relay.entries a.toNat + g.ranks.length < 65536 → ∃ t, exec (.clJoin rd rs1 rs2) s = .next t ∧
              s.awaiting t rd (zext64 (g.gen + 1)) 4 ∧ (t.group a.toNat).ranks = g.ranks ++ [b.toNat] ∧ (t.group a.toNat).gen = g.gen + 1)))) ∧
      (a.toNat < 4096 → s.farRelays a.toNat = [] → s.dieUp xDie = true → s.linkUp s.myDie xDie = true →
        let asks := fun (i : Instr) (ty : PType) => ∃ t, exec i s = .next t ∧ t.mem = s.mem ∧
          t.me = s.me.parkedFor (.store s.nextTag) 1 (BitVec.ofNat 64 (s.nextTag % 2 ^ 16)) 0 4 (s.swcAt s.myDie) ∧
          t.inFlight fun p => p.ty = ty ∧ p.a = a ∧ p.dst = relayEp ∧ p.tag = s.nextTag
        asks (.clPause rs1) .pause ∧ asks (.clResume rs1) .resume))

/-- Requests performed at their home, and the answers in flight. A packet that cannot be delivered changes nothing. A READ, WRITE, AMO,
COPY_DATA, MCAST_DATA, ATOM_BATCH or CHUNK whose home performs it on one range of cells, behind no request of its line that waits for a
walk, is performed and answered: a read leaves memory as it is and answers READ_REPLY with the bytes; a write stores its data and answers
WRITE_ACK; an AMO stores the result of its operation on the old value and answers the old bytes; an FADD32 batch adds each element; no
byte outside the range changes. A request of one page that the check refuses answers FAULT_REPLY with the status and changes no memory. An
ARRIVE, its withdraw and join forms act on the hurdle as R100 says and answer WRITE_ACK. (R59, R191, R283, R286, R288, R121, R226, R355,
R34, 02_links_fabric.md.) -/
def Obligations.RequestsAtTheirHome : Prop :=
  ∀ (s : State) (pid n c : Nat) (p : Pkt),
    let events : List Instr := [.read pid, .write pid, .amo pid, .copyData pid, .mcastData pid, .atomBatch pid, .chunk pid, .arrive pid]
    let old := (List.range n).map fun i => readByte s.mem (c + i)
    let v := memNat s.mem c n
    let w := 8 * n
    let src := p.a.toNat % 2 ^ w
    let new := match p.amo with
      | .swap => src | .add => (v + src) % 2 ^ w | .xor => v ^^^ src | .and => v &&& src | .or => v ||| src
      | .min => if signedOf w v < signedOf w src then v else src | .max => if signedOf w v < signedOf w src then src else v
      | .minu => min v src | .maxu => max v src | .lr => v | .sc => v
    let ran := fun (i : Instr) (ty : PType) (data : List Byte) (m : Memory) => ∃ t, exec i s = .next t ∧ t.mem = m ∧ t.replied p ty 0 data
    let clean := s.poisoned c n = false
    (s.canDeliver pid = none → ∀ i ∈ events, exec i s = .next s) ∧
    (s.asked pid p → s.lineHeld p.hopDst p = false → p.dst ≠ mgmtEp → s.homeCheck p.hopDst p false = .ok [(c, n)] →
      (p.ty = .read → clean → ran (.read pid) .readReply old s.mem) ∧
      (p.ty = .amo → n ∈ [4, 8] → p.amo ∉ [.lr, .sc] → clean →
        ran (.amo pid) .readReply old (writeBytes s.mem c (lowBytes (BitVec.ofNat 64 new) n))) ∧
      (p.data.length = n → p.poison = false →
        let m := writeBytes s.mem c p.data
        (p.ty = .write → ran (.write pid) .writeAck [] m) ∧ (p.ty = .copyData → ran (.copyData pid) .writeAck [] m) ∧
        (p.ty = .mcastData → ran (.mcastData pid) .writeAck [] m) ∧
        (p.ty = .chunk → ran (.chunk pid) .writeAck [] m)) ∧
      (p.ty = .atomBatch → p.sub ≠ 1 → p.data.length = n → n % 4 = 0 → clean → ∃ t, exec (.atomBatch pid) s = .next t ∧ t.replied p .writeAck 0 [] ∧
        (∀ i < n / 4, memNat t.mem (c + 4 * i) 4 = add32 (memNat s.mem (c + 4 * i) 4) (natLE ((p.data.drop (4 * i)).take 4)) % 2 ^ 32) ∧
        s.memSameBut t c n)) ∧
    (∀ st, s.asked pid p → s.lineHeld p.hopDst p = false → p.dst ≠ mgmtEp → s.homeCheck p.hopDst p false = .refuse st →
      (∀ r ∈ p.elems, r.1 / 4096 = p.va / 4096) →
      let refused := fun (i : Instr) => ∃ t, exec i s = .next t ∧ t.mem = s.mem ∧ t.replied p .faultReply (BitVec.ofNat 64 st) []
      (p.ty = .read → refused (.read pid)) ∧ (p.ty = .write → refused (.write pid)) ∧ (p.ty = .amo → refused (.amo pid)) ∧
      (p.ty = .copyData → refused (.copyData pid)) ∧ (p.ty = .mcastData → refused (.mcastData pid)) ∧
      (p.ty = .atomBatch → refused (.atomBatch pid)) ∧ (p.ty = .chunk → refused (.chunk pid))) ∧
    (let h := s.hurdle p.va
      let m := p.a.toNat
      let does := fun (y : Hurdle) => ∃ t, exec (.arrive pid) s = .next t ∧ t.hurdle p.va = y ∧ s.memSameBut t p.va 32 ∧ t.replied p .writeAck 0 []
      s.asked pid p → p.ty = .arrive → (s.trackEntry p.hopDst p.track).isSome = true → isHurdleCell p.va = true → hurdlePcl p.va / 24 = p.hopDst →
      s.hurdleAdmits p.va p.track (arriveClass p.hopDst p) .amo = true →
      let r := h.arrive m (p.c.extractLsb' 0 32)
      let engine := p.master = 2 ∨ p.master = 3
      (¬engine → p.b = 0 → r.2 = false → does r.1) ∧ (engine → h.gen = p.c.extractLsb' 32 32 → r.2 = false → does r.1) ∧
      (¬engine → p.b = 1 → (h.withdraw m).2 = false → does (h.withdraw m).1) ∧ (¬engine → p.b = 2 → does h.join))

/-- Answers, messages and acknowledgements at the party that waits for them. An answer that cannot be delivered changes nothing. READ_REPLY
completes the parked load or AMO of the baton that owns its tag, with the extended value in rd, and drops the tag. WRITE_ACK completes a
parked store and ends a posted one. FAULT_REPLY leaves a deferred REMOTE_FAULT, cause 26, with the failed address and status: for a posted
request beside what the slot is doing, for a parked load with the pc of that instruction, past which the slot goes on while the fault is
held (log entry 8, the model's choice). MSG_ACK with 0 completes MSG.SEND with 0, and with full arms the resend 1,024 cycles on. MSG_MOVED
puts a packet back on the hold queue of a rank in transit, its baton waiting for the rank. MSG_RESEND sends the message again to a valid
rank. No answer changes memory. (R63, R177, R251, R231, R44, R43, R139, R34, 02_links_fabric.md, 11_isa_control.md.) -/
def Obligations.AnswersAtTheirIssuer : Prop :=
  ∀ (s : State) (pid k r tag : Nat) (p : Pkt) (rd : Reg),
    let d := epDie p.dst
    let o := kfind s.owners p.tag
    let u := s.slotAt k
    let events : List Instr := [.readReply pid, .writeAck pid, .faultReply pid, .msgAck pid, .msgMoved pid]
    let leaves := fun (i : Instr) (u' : Slot) => ∃ t, exec i s = .next t ∧ t.slotAt k = u' ∧ kfind t.owners p.tag = none ∧ t.mem = s.mem
    let fault := fun (posted : Bool) => ({ cause := 26, value := BitVec.ofNat 64 p.va, status := p.a.toNat, posted := posted, sync := false, at' := if posted then none else some u.pc } : Deferred)
    let rest := u.posted.filter fun q => q.tag != p.tag
    (s.canDeliver pid = none → ∀ i ∈ events, exec i s = .next s) ∧
    (s.arrived pid p →
      (o = some (.baton r) →
        (∀ n sgn lr, n ∈ [1, 2, 4, 8] → s.parkedAlone k r (.load p.tag rd n sgn lr) →
          (p.ty = .readReply → leaves (.readReply pid) (u.resumed rd (extended n sgn (natLE p.data)))) ∧
          (p.ty = .faultReply → leaves (.faultReply pid) { u.awake with pc := u.pc + BitVec.ofNat 64 u.waitLen, deferred := u.deferred ++ [fault false] })) ∧
        (∀ n, n ∈ [4, 8] → s.parkedAlone k r (.amo p.tag rd n) → p.ty = .readReply →
          leaves (.readReply pid) (u.resumed rd (extended n true (natLE p.data)))) ∧
        (s.parkedAlone k r (.sc p.tag rd) → p.ty = .readReply → leaves (.readReply pid) (u.resumed rd (BitVec.ofNat 64 (natLE p.data)))) ∧
        (s.parkedAlone k r (.store p.tag) → p.ty = .writeAck → leaves (.writeAck pid) (u.resumed 0 0)) ∧
        (s.parkedAlone k r (.msgSend p.tag rd none) → p.ty = .msgAck →
          (p.a = 0 → leaves (.msgAck pid) (u.resumed rd 0)) ∧
          (p.a ≠ 0 → ∃ t, exec (.msgAck pid) s = .next t ∧ t.mem = s.mem ∧
            t.slotAt k = { u with wait := .msgSend p.tag rd (some (s.swcAt d + 1024)) }))) ∧
      (o = some (.posted r) → s.findSlot r = some k →
        (p.ty = .writeAck → leaves (.writeAck pid) { u with posted := rest }) ∧
        (p.ty = .faultReply → leaves (.faultReply pid) { u with posted := rest, deferred := u.deferred ++ [fault true] }))) ∧
    (∀ q, s.arrived pid p → p.ty = .msgMoved → o = some (.baton r) → (s.ni d).rankSent = [q] → q.tag = p.tag → q.attempt = p.b.toNat →
      q.forwarded = false → rctState (s.rct d q.dstRank) = 2 → ∀ w, ((∃ rd self, w = .send p.tag rd self) ∨ ∃ rd a, w = .msgSend p.tag rd a) → s.parkedAlone k r w →
      ∃ t, exec (.msgMoved pid) s = .next t ∧ (t.ni d).rankSent = [] ∧ (t.ni d).rankHold = { q with attempt := q.attempt + 1 } :: (s.ni d).rankHold ∧
        t.mem = s.mem ∧ t.slots = (s.setSlotAt k { u with reason := 10, wkey := BitVec.ofNat 64 q.dstRank }).slots) ∧
    (∀ q at', let die := recPcl r / 24
      let e := s.rct die q.dstRank
      s.parkedAlone k r (.msgSend tag rd (some at')) →
      (s.swcAt die < at' → exec (.msgResend k) s = .next s) ∧
      (at' ≤ s.swcAt die → (s.ni die).rankSent = [q] → q.tag = tag → kfind s.owners tag = some (.baton r) → epDie q.src = die → rctState e = 1 → s.foreign (rctPkg e) = false →
        isEp (niEp (rctDie e)) = true → s.dieUp (rctDie e) = true → s.linkUp die (rctDie e) = true →
        ∃ t, exec (.msgResend k) s = .next t ∧ t.mem = s.mem ∧ 
          t.slotAt k = { u with wait := .msgSend tag rd none, reason := 5, wkey := BitVec.ofNat 64 (q.dstRank * 2 ^ 52 + q.a.toNat * 2 ^ 32 + q.data.length) } ∧
          t.inFlight fun q' => q'.ty = q.ty ∧ q'.tag = tag ∧ q'.data = q.data ∧ q'.dst = niEp (rctDie e)))

/-- Messages and control packets at their destination. A packet that cannot be delivered changes nothing. A MSG of a track that its
destination knows is appended to the queue, if it holds fewer than 16 entries, and answered 0; a full queue is left as it is and answers
1. COPY_DONE becomes an ARRIVE on its own die. PAUSE and RESUME at a Relay that is up begin and end the pause of the rank and are
acknowledged. IVL writes its record to the ring of its C-die and renews the time of the pending record. RCT_UPD sets, holds or releases
the rank's entry as R42 and R43 say, and completes the issuing instruction with the last die. (R231, R44, R34, R282, R129, R321, R65, R42,
R43, 02_links_fabric.md.) -/
def Obligations.MessagesAndControlPackets : Prop :=
  ∀ (s : State) (pid k r : Nat) (p : Pkt),
    let d := p.hopDst
    let pcl := hurdlePcl p.va
    let q : BitVec 3 := p.a.setWidth 3
    let queue := (s.cluster pcl).msgQueue q
    let rank := p.c.toNat % 4096
    let old := s.rct d rank
    let events : List Instr := [.msg pid, .copyDone pid, .pause pid, .resume pid, .ivl pid, .rctUpd pid]
    (s.canDeliver pid = none → ∀ i ∈ events, exec i s = .next s) ∧
    (s.asked pid p → p.ty = .msg → (s.trackEntry d p.track).isSome = true → s.waiting = [] →
      (queue.length < 16 → ∃ t, exec (.msg pid) s = .next t ∧ t.mem = s.mem ∧ t.replied p .msgAck 0 [] ∧
        (t.cluster pcl).msgQueue q = queue ++ [{ rank := p.srcRank, track := p.track, data := p.data }]) ∧
      (16 ≤ queue.length → ∃ t, exec (.msg pid) s = .next t ∧ t.mem = s.mem ∧ t.replied p .msgAck 1 [] ∧ (t.cluster pcl).msgQueue q = queue)) ∧
    (s.asked pid p → p.ty = .copyDone → ∃ t, exec (.copyDone pid) s = .next t ∧ t.mem = s.mem ∧ t.slots = s.slots ∧
      t.inFlight fun x => x.ty = .arrive ∧ x.va = p.va ∧ x.src = p.src ∧ x.tag = p.tag ∧ x.a = p.a ∧ x.c = p.c ∧ x.hopSrc = d ∧ x.hopDst = d) ∧
    (s.arrived pid p → s.canAnswer p → s.relayUp = true →
      let has := fun (t : State) => ∃ x ∈ t.relay.pauses, x.rank = p.a.toNat % 4096
      (p.ty = .pause → ∃ t, exec (.pause pid) s = .next t ∧ has t ∧ t.mem = s.mem ∧ t.slots = s.slots ∧ t.replied p .writeAck 0 []) ∧
      (p.ty = .resume → ∃ t, exec (.resume pid) s = .next t ∧ ¬has t ∧ t.mem = s.mem ∧ t.slots = s.slots ∧ t.replied p .writeAck 0 [])) ∧
    (s.arrived pid p → p.ty = .ivl → isCDie d = true →
      ∃ t, exec (.ivl pid) s = .next t ∧
        t.mem = writeBytes s.mem (hbmCell d (s.pkg.logbase.toNat + 32 * (ivlNumber p % 4096)))
          (lowBytes p.a 8 ++ lowBytes p.b 8 ++ lowBytes (BitVec.ofNat 64 p.va) 8 ++ lowBytes p.c 8) ∧
        (t.ni d).log.pending = (s.ni d).log.pending.map fun x => if x.1 = p.a.toNat then (x.1, s.swcAt d) else x) ∧
    (s.arrived pid p → p.ty = .rctUpd → (∀ x ∈ (s.ni d).rankHold, x.dstRank ≠ rank) →
      (∀ w ∈ s.waiting, ∀ q rd b c, w.2 ≠ .rankSend q rd b c) →
      (∀ n, kfind s.owners p.tag = some (.baton n) → (s.findSlot n).isSome = true ∧ s.gangOf n = none) →
      ∃ t, exec (.rctUpd pid) s = .next t ∧ t.mem = s.mem ∧
        t.rct d rank = (if p.a = 0 then rctSet old p.b else if p.a = 1 then rctHold old else rctRelease old) ∧
        (∀ n, n ≠ rank → t.rct d n = s.rct d n) ∧
        (kfind s.owners p.tag = some (.baton r) → s.parkedAlone k r (.rct p.tag [d]) → t.slotAt k = (s.slotAt k).resumed 0 0))

/-- Flits, slot returns and training of a link. On a link that is up: a good flit carries the return of the VC whose turn it is, that VC and
its current F, unless an error that the CRC missed has changed them; a plausible return sets F at the sender of the reverse link, an
implausible one leaves F and counts a link error; either ends the run of failures, and the next VC is next. A bad flit counts one more
failure, and after 8 the link is down in both directions and no packet is left on it. A marker carries S; its arrival leaves S and the
occupied slots as the reply; the reply sets F to S - O. A link that is down between dies that are up is trained with every counter zero; a
packet that it has kept (log entry 104, the model's choice) is sent again. A link that is down takes no flit and no marker. Memory and
slots are unchanged. (R30, R35, R36, 02_links_fabric.md.) -/
def Obligations.LinkEvents : Prop :=
  ∀ (s : State) (a b vc : Nat) (field : Option (BitVec 2)) (ret : Option (BitVec 16)), isDie a = true → isDie b = true → a ≠ b → vc < 4 →
    let link := a * 32 + b
    let l := s.link a b
    let back := s.link b a
    let F := ret.getD (vcGet back.recvFreed l.nextVc)
    let v := (field.map BitVec.toNat).getD l.nextVc
    let gives := fun (i : Instr) (P : State → Prop) => ∃ t, exec i s = .next t ∧ t.mem = s.mem ∧ t.slots = s.slots ∧ P t
    (s.linkUp a b = true →
      (let turned := fun (t : State) => t.link a b = { l with fails := 0, nextVc := (l.nextVc + 1) % 4 }
       ((vcGet back.sent v - F).toNat ≤ 64 → gives (.linkFlit link true field ret) fun t => turned t ∧
          vcGet (t.link b a).freed v = F ∧ (t.link b a).errors = back.errors) ∧
        (64 < (vcGet back.sent v - F).toNat → gives (.linkFlit link true field ret) fun t => turned t ∧
          t.link b a = { back with errors := back.errors + 1 })) ∧
      (l.fails < 8 → gives (.linkFlit link false field ret) fun t => t.link a b = { l with fails := l.fails + 1 } ∧ t.link b a = back) ∧
      (8 ≤ l.fails → gives (.linkFlit link false field ret) fun t => t.linkUp a b = false ∧ t.linkUp b a = false ∧
        ∀ e ∈ t.net, ¬(e.2.hopSrc = a ∧ e.2.hopDst = b) ∧ ¬(e.2.hopSrc = b ∧ e.2.hopDst = a)) ∧
      (gives (.slotSyncMarker link vc) fun t => vcGet (t.link a b).marker vc = some (vcGet l.sent vc)) ∧
      (∀ m, vcGet l.marker vc = some m → (m - vcGet l.recvFreed vc).toNat ≤ 64 → gives (.slotSync link vc false) fun t =>
        vcGet (t.link a b).reply vc = some (m, m - vcGet l.recvFreed vc) ∧ vcGet (t.link a b).marker vc = none) ∧
      (∀ m o, vcGet l.reply vc = some (m, o) → gives (.slotSync link vc true) fun t =>
        vcGet (t.link a b).freed vc = m - o ∧ vcGet (t.link a b).reply vc = none) ∧
      exec (.linkRetrain link true) s = .next s) ∧
    (s.linkUp a b = false →
      (∀ crc, exec (.linkFlit link crc field ret) s = .next s) ∧ exec (.slotSyncMarker link vc) s = .next s ∧
      (∀ reply, exec (.slotSync link vc reply) s = .next s) ∧ exec (.linkRetrain link false) s = .next s ∧
      (s.dieUp a = true → s.dieUp b = true → 
        (l.owed = [] → back.owed = [] → gives (.linkRetrain link true) fun t => t.linkUp a b = true ∧
          t.link a b = { Link.init with errors := l.errors } ∧ t.link b a = { Link.init with errors := back.errors }) ∧
        (∀ q, l.owed = [q] → back.owed = [] → epDie q.src = a → epDie q.dst = b → isEp q.dst = true → q.dstPkg = 0 →
          gives (.linkRetrain link true) fun t => t.linkUp a b = true ∧ (t.link a b).owed = [] ∧
            t.inFlight fun x => x.ty = q.ty ∧ x.a = q.a ∧ x.b = q.b ∧ x.c = q.c ∧ x.tag = q.tag ∧ x.hopSrc = a ∧ x.hopDst = b)))

/-- The gateway, the planes and the stopwatch. SWC_SYNC_SEND sends the count to every other live die over its link; SWC_SYNC takes as
correction, with what is being made, the difference of the master count and the own one, to within one count of measurement (log entry 22,
the model's choice); SWC_SLEW, at multiples of 1,024 of the master count (log entry 62, the model's choice), makes the die add or withhold
one count in the next cycle, and does nothing with no correction left. A packet that waits at the gateway leaves on the next up plane in
round robin, with the next SEQ, and is kept for replay. A stored packet that is due is sprayed again with its SEQ. A plane without a flit
for 4,096 cycles goes down. An arrival that was delivered before is discarded, one that must wait is held, and a deliverable request goes
to its home. An E2E_ACK is due after 64 deliveries or 1,024 cycles, carries the SEQ after the last of those before which none is missing,
and an arriving one frees exactly the packets before its SEQ (log entry 68, the model's choice). (R37, R38, R39, R40, R41, R53,
02_links_fabric.md.) -/
def Obligations.GatewayAndStopwatchEvents : Prop :=
  ∀ (s : State) (pid plane die stream seq : Nat) (p : Pkt),
    let g := s.gateway
    let now := s.swcAt xDie
    let o := g.outStream p.dstPkg
    let i := g.inStream p.srcPkg now
    let up := s.readyBit 52 = true
    let adj := (s.ni die).swcAdjust
    (∀ d, d ≠ bDie → isDie d = true → s.dieUp d = true → s.linkUp bDie d = true → ∃ t, exec .swcSyncSend s = .next t ∧ t.mem = s.mem ∧
      t.inFlight fun q => q.ty = .swcSync ∧ q.dst = niEp d ∧ q.a = BitVec.ofNat 64 s.swc) ∧
    (s.arrived pid p → p.ty = .swcSync → ∃ t, exec (.swcSync pid) s = .next t ∧ t.mem = s.mem ∧ t.slots = s.slots ∧
      ((t.ni p.hopDst).swcAdjust + (t.ni p.hopDst).swcPending - ((s.swc : Int) - s.swcAt p.hopDst)).natAbs ≤ 1) ∧
    (adj = 0 ∨ (s.ni die).swcPending ≠ 0 ∨ s.swc % 1024 ≠ 0 → exec (.swcSlew die) s = .next s) ∧
    (adj ≠ 0 → (∀ x ∈ s.nis, x.2.swcPending = 0) → (s.ni die).swcPending = 0 → s.swc % 1024 = 0 → 1 ≤ (s.swc : Int) + (s.ni die).swcOffset →
      let up : Int := if 0 < adj then 1 else -1
      ∃ t, exec (.swcSlew die) s = .next t ∧ t.mem = s.mem ∧ t.swc = s.swc ∧ t.swcAt die = s.swcAt die ∧ (t.ni die).swcAdjust = adj - up ∧
        ((t.swcStep 1).swcAt die : Int) = s.swcAt die + 1 + up) ∧
    (s.canDeliver pid = some p → s.foreign p.dstPkg = true → p.hopDst = xDie → p.malformed = false → s.planesUp ≠ [] → up →
      (g.full = false → ∃ t to' q, exec (.gatewayOutbound pid) s = .next t ∧ t.mem = s.mem ∧ t.gateway.sprayed = g.sprayed ++ [(to', q)] ∧
        to' ∈ s.planesUp ∧ q.seq = o.nextSeq ∧ q.srcPkg = s.pkg.fabric ∧ q.dstPkg = p.dstPkg ∧ q.data = p.data ∧ q.tag = p.tag ∧
        (p.ranked = false → ∃ n < 8, to' = (g.nextPlane + n) % 8 ∧ ∀ m < n, (g.nextPlane + m) % 8 ∉ s.planesUp) ∧
        (t.gateway.outStream p.dstPkg).nextSeq = (o.nextSeq + 1) % 2 ^ 32 ∧ (t.gateway.outStream p.dstPkg).replay = o.replay ++ [(q, to', now)]) ∧
      (g.full = true → p.vc = 0 → exec (.gatewayOutbound pid) s = .next s)) ∧
    (∀ r ∈ (g.outStream stream).replay, r.1.seq = seq → (r.2.1 = 8 ∨ r.2.2 + 65536 ≤ now) → s.planesUp ≠ [] →
      ∃ t to' q, exec (.replayTimeout stream seq) s = .next t ∧ t.mem = s.mem ∧ t.net = s.net ∧ t.gateway.sprayed = g.sprayed ++ [(to', q)] ∧
        q.seq = seq ∧ q ∈ (g.outStream stream).replay.map Prod.fst ∧ to' ∈ s.planesUp) ∧
    (plane < 8 → s.readyBit (40 + plane) = true →
      (g.lastFlit.toList.getD plane 0 + 4096 ≤ now → ∃ t, exec (.planeIdleTimeout xDie plane) s = .next t ∧ t.readyBit (40 + plane) = false ∧ t.mem = s.mem) ∧
      (now < g.lastFlit.toList.getD plane 0 + 4096 → exec (.planeIdleTimeout xDie plane) s = .next s)) ∧
    (kfind g.arrivals pid = some (plane, p) → plane < 8 → s.readyBit (40 + plane) = true → up → p.malformed = false →
      (p.ty ∉ [.e2eAck, .swcSync, .slotSync] → g.reorder = [] →
        (i.delivered p.seq = true → ∃ t, exec (.gatewayInbound pid) s = .next t ∧ t.mem = s.mem ∧ t.net = s.net ∧ t.gateway.reorder = []) ∧
        (i.delivered p.seq = false → i.ready p = false → ∃ t q, exec (.gatewayInbound pid) s = .next t ∧ t.mem = s.mem ∧ t.net = s.net ∧
          t.gateway.reorder = [q] ∧ q.seq = p.seq ∧ q.data = p.data) ∧
        (∀ d, i.delivered p.seq = false → i.ready p = true → p.ty.isRequest = true → p.ranked = false → addrClass p.va = .global →
          s.homeOf xDie p.track p.va = .die d → isEp (niEp d) = true → s.dieUp d = true → s.linkUp xDie d = true →
          ∃ t, exec (.gatewayInbound pid) s = .next t ∧ t.mem = s.mem ∧
            t.inFlight fun q => q.dst = niEp d ∧ q.dstPkg = 0 ∧ q.ty = p.ty ∧ q.va = p.va ∧ q.tag = p.tag ∧ q.data = p.data ∧
              q.master = if p.ty = .arrive then p.master else 7)) ∧
      (p.ty = .e2eAck → ∃ t, exec (.e2eAck pid) s = .next t ∧ t.mem = s.mem ∧ t.net = s.net ∧
        ∀ r, r ∈ (t.gateway.outStream p.srcPkg).replay ↔ r ∈ (g.outStream p.srcPkg).replay ∧ seqBefore r.1.seq p.a.toNat = false)) ∧
    (∀ n, kfind g.inn stream = some n → s.planesUp ≠ [] →
      (64 ≤ n.sinceAck ∨ n.ackAt + 1024 ≤ now → ∃ t to' q, exec (.e2eAckSend stream) s = .next t ∧ t.mem = s.mem ∧
        t.gateway.sprayed = g.sprayed ++ [(to', q)] ∧ q.ty = .e2eAck ∧ q.dstPkg = stream ∧ q.a = BitVec.ofNat 64 ((n.below + 1) % 2 ^ 32) ∧
        kfind t.gateway.inn stream = some { n with sinceAck := 0, ackAt := now }) ∧
      (n.sinceAck < 64 → now < n.ackAt + 1024 → exec (.e2eAckSend stream) s = .next s))

/-- Walks, the fault queue, logs, page moves and reloads of the track table. A walk that ends PRESENT caches the translation, and a READ that
its page admits is answered with its bytes. A fault record answered REFUSE answers its request with the status, or NOT_MAPPED for 0, one
still PENDING holds it, and one 1,048,576 cycles old is answered TIMEOUT. Records 65,536 cycles old are applied, a PAGE record dropping
the translations that it covers; younger ones are not. An applied index is reported and ends an IVL.SYNC. A page move marks the entry
MIGRATING and joins the moves; the end of a tier move copies every byte. TRKLOAD starts a reload unless one is under way; its end gives
every live die the entry and drops its translations. (R51, R54, R56, R61, R62, R64, R65, R66, R67, R68, 03_translation.md.) -/
def Obligations.TranslationAndLogEvents : Prop :=
  ∀ (s : State) (die id idx c n k r va ix at' : Nat) (w : Walk) (p : Pkt) (tk : BitVec 16) (e : TcEntry),
    let ni := s.ni die
    let now := s.swcAt die
    let rd := kget FaultRec.free ni.fq idx
    let gives := fun (i : Instr) (P : State → Prop) => ∃ t, exec i s = .next t ∧ P t
    ((ni.walks.find? fun x => x.id == id) = none → exec (.walkDone die id) s = .next s) ∧
    (∀ ent, (ni.walks.find? fun x => x.id == id) = some w → s.trackEntry die w.pkt.track = some ent → addrClass w.pkt.va = .global →
      s.walk die w.pkt.track ent w.pkt.va false = .present e → (isCDie die = true → s.readyBit (12 + die) = true) → ni.behind = [] →
      w.pkt.ty = .read → w.pkt.op = .read → w.pkt.srcPkg = 0 → w.pkt.hopDst = die → s.canAnswer w.pkt → s.homeCheck die w.pkt true = .ok [(c, n)] → s.poisoned c n = false →
      gives (.walkDone die id) fun t => e ∈ (t.ni die).tcache ∧ t.mem = s.mem ∧ (∀ x ∈ (t.ni die).walks, x.id ≠ id) ∧
        t.replied w.pkt .readReply 0 ((List.range n).map fun i => readByte s.mem (c + i))) ∧
    (idx < 256 → ni.behind = [] → rd.held = some p → rd.action = 0 → p.ranked = false → p.hopDst = die → p.srcPkg = 0 → s.canAnswer p →
      (∀ st : BitVec 4, gives (.faultAnswer die idx (st ++ 2#4)) fun t => t.mem = s.mem ∧ (kget FaultRec.free (t.ni die).fq idx).held = none ∧
        t.replied p .faultReply (if st = 0 then 3 else zext64 st) []) ∧
      (∀ st : BitVec 4, gives (.faultAnswer die idx (st ++ 0#4)) fun t => t.mem = s.mem ∧ t.net = s.net ∧
        (kget FaultRec.free (t.ni die).fq idx).held = some p) ∧
      (rd.time.toNat + 1048576 ≤ now → gives (.faultRecordTimeout die idx) fun t => t.mem = s.mem ∧
        (kget FaultRec.free (t.ni die).fq idx).held = none ∧ t.replied p .faultReply 8 []) ∧
      (now < rd.time.toNat + 1048576 → exec (.faultRecordTimeout die idx) s = .next s)) ∧
    (rd.held = none → exec (.faultRecordTimeout die idx) s = .next s) ∧
    (s.appendedIvl die = [] → exec (.logApply die) s = .next s) ∧
    (s.appendedIvl die = [(ix, at')] →
      (now < at' + 65536 → exec (.logApply die) s = .next s) ∧
      (at' + 65536 ≤ now → isCDie die = true →
        let rec' := s.entry32 (hbmCell die (s.pkg.logbase.toNat + 32 * (ni.log.consumed % 4096)))
        gives (.logApply die) fun t => t.mem = s.mem ∧ (t.ni die).log.applied = ix ∧ (t.ni die).log.consumed = ni.log.consumed + 1 ∧
          (∀ x ∈ (t.ni die).log.pending, x.1 ≠ ix) ∧
          (ivlKind rec' = 1 → ∀ x ∈ (t.ni die).tcache, ¬(x.track = ivlTrack rec' ∧ x.base < (rec'.extractLsb' 192 64).toNat ∧
            (rec'.extractLsb' 128 64).toNat < x.base + 2 ^ x.log2)))) ∧
    (gives (.appliedIndexReport die) fun t => (s.waiting = [] → t.mem = s.mem ∧ (t.ni die).log.reported = ni.log.applied) ∧
      (s.waiting = [(r, .ivlSync ix)] → s.parkedAlone k r (.ivlSync ix) →
        (∀ d, isDie d = true → s.dieUp d = true →
          ({ (s.ni d).log with reported := if d = die then (s.ni d).log.applied else (s.ni d).log.reported }).covers ix = true) →
        t.slotAt k = (s.slotAt k).resumed 0 0)) ∧
    (∀ (pe : PageEntry) (m pa : Nat), let far := m + 1
      let v := if e.far then 16 + e.fmod / 8 else 16 + m / 8
      let vault := fun (x : Nat) => s.readyBit (53 + (x - 16)) = true ∧ s.dieUp x = true
      s.pageEntry die tk va = some (pe, .present e) → s.dieUp die = true → e.base + 2 ^ e.log2 < 2 ^ 64 →
      let moved := fun (i : Instr) (home : Bool) (x dest place phys : Nat) => gives i fun t =>
        t.mem = (s.putEntry pe.migrating).mem ∧ (∀ q ∈ (t.ni die).tcache, ¬(q.track = tk ∧ q.base < e.base + 2 ^ e.log2 ∧ e.base < q.base + 2 ^ q.log2)) ∧
        t.pkg.moves = s.pkg.moves ++ [{ id := s.pkg.nextMove, home := home, vault := x, oldDie := die, newDie := dest, track := tk, va := e.base,
                                        log2 := e.log2, oldPlace := e.place, oldPhys := e.phys, newPlace := place, newPhys := phys }]
      (isCDie die = true → e.far = false → m < 16 → pa % 2 ^ e.log2 = 0 → pa + 2 ^ e.log2 ≤ farSize → s.placeUp 0 die = true → s.placeUp far die = true →
        s.vaultAdmits 0 die e.ati tk .read = true → s.vaultAdmits far die e.ati tk .write = true → vault v → moved (.tierMove die va tk.toNat far pa) false v die far pa) ∧
      (∀ dest, (isCDie die = true ∨ isFDie die = true) → isCDie dest = true → dest ≠ die → s.placeUp e.place die = true → s.placeUp 0 dest = true →
        pa % 2 ^ e.log2 = 0 → pa + 2 ^ e.log2 ≤ hbmSize → (s.newSlot dest tk va pe).isSome = true →
        s.vaultAdmits e.place die e.ati tk .read = true → s.vaultAdmits 0 dest e.ati tk .write = true →
        let x := if e.far then 16 + e.fmod / 8 else if s.readyBit 53 then 16 else 17
        vault x → moved (.homeMove die va tk.toNat dest 0 pa) true x dest 0 pa)) ∧
    (∀ (m : Move) (cell : Nat) (word : BitVec 256) (out : WalkRes), (s.pkg.moves.find? fun x => x.id == id && x.oldDie == die) = some m → m.home = false →
      s.pageEntry die m.track m.va = some (.hashed cell word, out) → s.placeUp m.oldPlace die = true → s.placeUp m.newPlace m.newDie = true →
      ni.migrating = [] → ni.behind = [] → Memory.wf s.mem →
      let src := placeCell m.oldPlace die m.oldPhys
      let dst := placeCell m.newPlace m.newDie m.newPhys
      let size := 2 ^ m.log2
      gives (.vaultCopyDone die id) fun t => (∀ x ∈ t.pkg.moves, x.id ≠ m.id) ∧
        (∀ j < size, ¬(cell ≤ dst + j ∧ dst + j < cell + 32) → readByte t.mem (dst + j) = readByte s.mem (src + j)) ∧
        (∀ a, (a < dst ∨ dst + size ≤ a) → (a < cell ∨ cell + 32 ≤ a) → readByte t.mem a = readByte s.mem a) ∧
        (t.entry32 cell).extractLsb' 192 2 = 1#2) ∧
    (∀ v, (s.pkg.trkstat.getLsbD 0 = true → exec (.trkload v) s = .next s) ∧
      (s.pkg.trkstat.getLsbD 0 = false → exec .trkloadDone s = .next s ∧
        gives (.trkload v) fun t => t.mem = s.mem ∧ t.pkg.trkstat = 1 ∧ t.pkg.trkIndex = v.toNat % 1024 ∧ t.slots = s.slots) ∧
      (s.pkg.trkstat.getLsbD 0 = true → gives .trkloadDone fun t => t.mem = s.mem ∧ t.pkg.trkstat = 0 ∧ ∀ d, isDie d = true → s.dieUp d = true →
        kget 0 (t.ni d).trk s.pkg.trkIndex = s.trkLoaded s.pkg.trkIndex d ∧ ∀ x ∈ (t.ni d).tcache, trkIdx x.track ≠ s.pkg.trkIndex))

/-- Pre-emption, checkpoint and restore requests. A PRECTL write is ignored while a request is BUSY; otherwise PRESTAT becomes BUSY, with
result 3 during a checkpoint or restore, 1 for a launch that cannot be named, 2 for one that is already in the asked state, else 0, and
the launch is marked. PRESTAT_DONE ends the request with its result, 0 until then (log entry 55, the model's choice), for a pre-emption
once no slot holds a baton of the launch. CKCTL stores BASE and AUTO; START ends FAILED with NO_SPACE where the region does not fit,
quiesces from IDLE and copies from QUIESCED; QUIESCE and RESTORE start only from the states that allow them, RESTORE also where START or
QUIESCE is set beside it (log entry 56, the model's choice). A quiesce ends once every slot is empty and every copy complete; a copy
begins with the region's header cleared and ends DONE, with errors noted; a restore ends FAILED with nothing written back, or begins its
write-back once every check holds and ends DONE with the saved count plus one. (R21, R23, R24, R25, R26, R27, R112, R113, 01_package.md.) -/
def Obligations.PreemptionAndCheckpointEvents : Prop :=
  ∀ (s : State) (v : Dword),
    let op := v.toNat / 2 ^ 62
    let seq := v.toNat % 2 ^ 62
    let busy := s.starter.prestat.toNat / 16 % 16 = 1
    let ck := s.ckState
    let gives := fun (i : Instr) (P : State → Prop) => ∃ t, exec i s = .next t ∧ P t
    let result := fun (i : Instr) (c : Nat) => gives i fun t => t.starter.prestat = 16 ∧ t.starter.preResult = c ∧ t.starter.preTarget = seq ∧ t.mem = s.mem
    let still := s.slots = [] ∧ s.gangs = [] ∧ s.aways = [] ∧ s.relay.runs = []
    let request := fun (i : Instr) (pre : Bool) =>
      (busy → exec i s = .next s) ∧
      (¬busy → (ck ∈ [1, 2, 3, 6] → result i 3) ∧
        (ck ∉ [1, 2, 3, 6] → s.preTarget seq = none → result i 1) ∧
        (∀ l, ck ∉ [1, 2, 3, 6] → s.preTarget seq = some l → (l.preempted = pre → result i 2) ∧
          (l.preempted ≠ pre → still → result i 0 ∧ gives i fun t => t.launchOf seq = some { l with preempted := pre })))
    let word := v.extractLsb' 30 34 ++ 0#27 ++ BitVec.ofBool (v.getLsbD 2) ++ 0#2
    let fits := ({ s with pkg := { s.pkg with ckctl := word } }).ckFits
    let goes := fun (i : Instr) (c : Nat) => gives i fun t => t.ckState = c ∧ t.pkg.ckctl = word
    (op ≠ 1 → exec (.prectlPreempt v) s = .next s) ∧ (op ≠ 2 → exec (.prectlResume v) s = .next s) ∧
    (op = 1 → request (.prectlPreempt v) true) ∧ (op = 2 → request (.prectlResume v) false) ∧
    (¬busy → exec .prestatDone s = .next s) ∧
    (busy → (s.starter.preResult ≠ 0 ∨ s.starter.preResume = true → s.starter.preResult < 16 →
        gives .prestatDone fun t => t.starter.prestat.toNat = 32 + s.starter.preResult ∧ t.mem = s.mem) ∧
      (s.starter.preResult = 0 → still → gives .prestatDone fun t => t.starter.prestat.toNat = 32 ∧ t.mem = s.mem)) ∧
    (v.getLsbD 0 = false → exec (.ckctlStart v) s = .next s) ∧ (v.getLsbD 1 = false → exec (.ckctlQuiesce v) s = .next s) ∧
    (v.getLsbD 3 = false → exec (.ckctlRestore v) s = .next s) ∧
    (v.getLsbD 0 = true → v.getLsbD 3 = false → (ck ∈ [1, 3, 6] → goes (.ckctlStart v) ck) ∧ (ck ∉ [1, 3, 6] → fits = false → goes (.ckctlStart v) 5) ∧
      (ck = 2 → fits = true → goes (.ckctlStart v) 3) ∧ (ck = 0 → fits = true → gives (.ckctlStart v) fun t => t.ckState = 1)) ∧
    (v.getLsbD 1 = true → v.getLsbD 0 = false → v.getLsbD 3 = false → (ck ∈ [1, 2, 3, 6] → goes (.ckctlQuiesce v) ck) ∧
      (ck = 0 → gives (.ckctlQuiesce v) fun t => t.ckState = 1)) ∧
    (v.getLsbD 3 = true → ck = 0 → s.pkg.sinceReset = true → goes (.ckctlRestore v) 6) ∧
    (ck ≠ 1 → exec .quiesceDone s = .next s) ∧
    (ck = 1 → still → s.copiesDone = true → gives .quiesceDone fun t => t.ckState = (if s.pkg.copyAfter then 3 else 2) ∧
      t.mem = match s.pkg.copyAfter, s.farMods with | true, m :: _ => writeBytes s.mem (farCell m s.ckBase) (List.replicate ckHeader 0) | _, _ => s.mem) ∧
    (ck ≠ 3 → exec .checkpointCopyDone s = .next s) ∧
    (ck = 3 → s.pkg.resetHeld = false → gives .checkpointCopyDone fun t => t.ckState = 4 ∧
      t.pkg.ckstat.toNat / 16 % 16 = if ∃ a ∈ s.poison, a < 2 ^ 80 then 3 else 0) ∧
    (ck ≠ 6 → exec .restoreDone s = .next s) ∧
    (ck = 6 → gives .restoreDone fun t => match s.restoreFails, s.pkg.writeBack with
      | some st, _ => t.ckState = 5 ∧ t.pkg.ckstat.toNat / 16 % 16 = st ∧ t.mem = s.mem
      | none, false => t.ckState = 6 ∧ t.pkg.writeBack = true ∧ t.mem = s.mem ∧ t.pkg.copyStart = s.swcAt bDie
      | none, true => t.ckState = 4 ∧ t.starter.stopped = false ∧ t.swc = memNat s.mem (farCell (s.farMods.headD 0) s.ckBase + 0x10) 8 + 1)

/-- Boot, register writes, the host aperture and the banks. Frames that the boot ROM does not wait for are ignored; the next TFTP block is
appended, loaded behind the earlier ones in C-die 0's HBM (from an address of the model's choice, log entry 122) and acknowledged, and a
short one ends the fetch; the forms of frames, block numbers and acknowledgements are those of the family (log entry 23). The last packet
is sent again after 1 s up to 5 times, then the fetch waits 10 s and goes on from the address step. An accepted image runs from its entry
point, another one, as one without the magic number, is rejected. A register write stores what the register keeps, with BUDGET at most
3,600 and a timer of 0 as 1, and a read-only register ignores it. A host access with HAEN 0 fails and is counted; one within a line goes
to its home. A bank that is powered is gated at once, then off, and reads zero; a wake takes 3,200 cycles and leaves zeros. (R2, R76, R77,
R73, R74, R86, R116, R72, R155, R156, R157, 01_package.md.) -/
def Obligations.BootRegistersAndBanks : Prop :=
  ∀ (s : State) (v : Dword) (f : List Byte) (d w b a len data : Nat) (poison : Bool),
    let bt := s.boot
    let now := s.swcAt bDie
    let gives := fun (i : Instr) (P : State → Prop) => ∃ t, exec i s = .next t ∧ t.slots = s.slots ∧ P t
    let sets := fun (off : Nat) (P : Pkg → Prop) => gives (.registerWrite off v) fun t => t.mem = s.mem ∧ P t.pkg
    (bt.step ∈ [.verify, .running, .rejected, .hbm] → exec (.managementEthernetFrame f) s = .next s) ∧
    (∀ udp : List Byte, bt.step = .fetch → bt.waitUntil = none → ipv6Payload f 17 = some (bt.server, udp) →
      netField (udp.drop 8) 0 2 = 3 → netField (udp.drop 8) 2 2 = (bt.blocks + 1) % 65536 → (udp.drop 12).length ≤ 1408 →
      Config.bootBase.toNat + bt.image.length + (udp.drop 12).length ≤ hbmSize →
      ∃ t, exec (.managementEthernetFrame f) s = .next t ∧ t.boot.image = bt.image ++ udp.drop 12 ∧ t.boot.blocks = bt.blocks + 1 ∧
        t.boot.step = (if (udp.drop 12).length < 1408 then .verify else .fetch) ∧
        t.boot.sent = [0#8, 4#8, BitVec.ofNat 8 ((bt.blocks + 1) / 256), BitVec.ofNat 8 (bt.blocks + 1)] :: bt.sent ∧
        ∀ j (h : j < (udp.drop 12).length), readByte t.mem (hbmCell 0 (Config.bootBase.toNat + bt.image.length) + j) = (udp.drop 12)[j]) ∧
    (bt.step ≠ .fetch → exec .tftpResend s = .next s) ∧
    (bt.step = .fetch → bt.waitUntil = none →
      (now < bt.sentAt + 1600000000 → exec .tftpResend s = .next s) ∧
      (bt.sentAt + 1600000000 ≤ now → gives .tftpResend fun t =>
        t.boot = if bt.resends < 5 then { bt with resends := bt.resends + 1, sentAt := now, sent := bt.sent.take 1 ++ bt.sent } else { bt with waitUntil := some (now + 16000000000) })) ∧
    (bt.waitUntil = none → exec .fetchRestart s = .next s) ∧
    (∀ at', bt.waitUntil = some at' → bt.step ∈ [.fetch, .rejected] → (now < at' → exec .fetchRestart s = .next s) ∧
      (at' ≤ now → gives .fetchRestart fun t => t.boot.step = .address ∧ t.boot.image = [] ∧ t.boot.blocks = 0 ∧ t.boot.waitUntil = none ∧
        t.boot.restarts.toNat = min 4095 (bt.restarts.toNat + 1))) ∧
    (bt.step ≠ .verify → exec .imageVerify s = .next s) ∧
    (bt.step = .verify → (gives .imageVerify fun t =>
        if imageOk bt.image then t.boot.step = .running ∧ t.boot.entry = some (natLE ((bt.image.drop 16).take 8)) ∧
          t.boot.version = natLE ((bt.image.drop 8).take 4)
        else t.boot = { bt with step := .rejected, waitUntil := some (now + 16000000000) }) ∧
      (natLE (bt.image.take 4) ≠ 0x4D494A4E → gives .imageVerify fun t => t.boot = { bt with step := .rejected, waitUntil := some (now + 16000000000) })) ∧
    (sets 0x220 fun k => k.lnctl.toNat % 4 = v.toNat % 4 ∧ k.lnctl.toNat / 4 % 2 ^ 26 = 0 ∧ k.lnctl.toNat / 2 ^ 28 = v.toNat / 2 ^ 28) ∧
    (sets 0x310 fun k => k.grtrk.toNat = v.toNat % 2 ^ 16) ∧
    (sets 0x400 fun k => k.stamcfg.toNat % 2 ^ 32 = min 3600 (v.toNat % 2 ^ 12) ∧ k.stamcfg.toNat / 2 ^ 32 = v.toNat / 2 ^ 32) ∧
    (sets 0x600 fun k => k.trkimg = v) ∧ (sets 0x608 fun k => k.pmapimg = v) ∧ (sets 0x610 fun k => k.logbase = v) ∧
    (sets 0x3000 fun k => k.rlytim0.toNat % 2 ^ 32 = max 1 (v.toNat % 2 ^ 32) ∧ k.rlytim0.toNat / 2 ^ 32 = max 1 (v.toNat / 2 ^ 32)) ∧
    (sets 0x3008 fun k => k.rlytim1.toNat = max 1 (v.toNat % 2 ^ 32)) ∧
    (∀ off ∈ [0x000, 0x108, 0x200, 0x208, 0x210, 0x218, 0x230, 0x308, 0x408, 0x500, 0x620], exec (.registerWrite off v) s = .next s) ∧
    (∀ i q, i < 16 → q < 8 → gives (.registerWrite (0x1000 + 64 * i + 8 * q) v) fun t => t.stagingWord (64 * i + 8 * q) = v ∧ t.mem = s.mem) ∧
    (let c := s.pkg.lnctl
      let va := c.toNat / 2 ^ 28 % 2 ^ 20 * 2 ^ 36 + a
      let tk := c.extractLsb' 48 16
      let access := fun (wr : Bool) => Instr.hostApertureAccess wr a len data poison
      let dest := s.routeTo xDie tk va
      (s.readyBit 55 = false → ∀ wr, exec (access wr) s = .next s) ∧
      (s.readyBit 55 = true → s.dieUp xDie = true →
        (c.getLsbD 0 = false → ∀ wr, gives (access wr) fun t => t.pkg.aer = s.pkg.aer + 1 ∧ t.mem = s.mem ∧ t.net = s.net ∧
          t.pkg.hostReads = if wr then s.pkg.hostReads else (none, false) :: s.pkg.hostReads) ∧
        (c.getLsbD 0 = true → a + len ≤ 2 ^ 36 → addrClass va = .global → 0 < len → va % 64 + len ≤ 64 → dest.2 = 0 → isEp dest.1 = true →
          s.dieUp (epDie dest.1) = true → s.linkUp xDie (epDie dest.1) = true →
          ∀ wr, gives (access wr) fun t => t.mem = s.mem ∧ kfind t.owners s.nextTag = some (.host (!wr)) ∧ t.inFlight fun p =>
            p.ty = (if wr then .write else .read) ∧ p.va = va ∧ p.dst = dest.1 ∧ p.track = tk ∧ p.tag = s.nextTag ∧ p.elems = [(va, len)] ∧
            p.data = (if wr then (List.range len).map fun i => BitVec.ofNat 8 (data / 256 ^ i) else []) ∧ p.poison = (wr && poison)))) ∧
    (let off := s.bankOff (d, w, b)
      let waking := s.bankWaking (d, w, b)
      (isBank d w b = false → exec (.bankGate d w b) s = .next s ∧ exec (.bankWake d w b) s = .next s) ∧
      (isBank d w b = true →
        (off = false → waking = false → (w, b) ∉ (s.power d).gateHeld → gives (.bankGate d w b) fun t =>
          t.bankOff (d, w, b) = true ∧ ∀ r ∈ bankRanges d w b, ∀ j < r.2, readByte t.mem (r.1 + j) = 0) ∧
        (off = true → exec (.bankGate d w b) s = .next s) ∧
        (off = true → waking = false → gives (.bankWake d w b) fun t => t.mem = s.mem ∧ t.bankOff (d, w, b) = false ∧
          (w, b, s.swcAt d + 3200) ∈ (t.power d).waking)) ∧
      (waking = false → (w, b) ∉ (s.power d).gateHeld → exec (.bankWakeDone d w b) s = .next s) ∧
      (∀ at', (s.power d).waking = [(w, b, at')] → (s.power d).gateHeld = [] → (s.power d).late = [] →
        (s.swcAt d < at' → exec (.bankWakeDone d w b) s = .next s) ∧
        (at' ≤ s.swcAt d → gives (.bankWakeDone d w b) fun t => t.bankWaking (d, w, b) = false ∧
          ∀ r ∈ bankRanges d w b, ∀ j < r.2, readByte t.mem (r.1 + j) = 0)))

/-- The intake, admission, placement, graph definitions and energy of the Starter. An intake write that is not one of 64 aligned bytes with
all enables, that finds 256 records waiting behind writes of the host, or that comes while the Starter is down is dropped and counted; a
record waits for the host's earlier writes; then a broken one is rejected and counted, and a sound one whose CLAIM fits CAP takes the next
sequence number and enters admission. INTAKECOMMIT submits an OS core's own slot and no other, whole where nothing waits before it (log
entry 116, the model's choice, of a slot written later). A covered launch at the head of admission goes to placement with its CLAIM as
remainder; an uncovered one waits. A launch past its WTIME completes DEADLINE, one in placement for 1,048,576 cycles NO_PLACEMENT.
Placement reserves a carve-out, writes the first baton and makes it READY. A due report goes out as a WRITE of the cluster's word with the
next RSEQ, and its arrival gives the Starter that word. ENERGY_MEASURE draws on the reservoir and splits the energy in proportion to slot-
cycles, rounded down (log entry 118, the model's choice). GRDEF asks for the image's header unless a copy runs; the lines asked for having
come, the body is asked for, and then a sound graph is installed, or GRSTAT says why not. (R79, R80, R82, R84, R85, R86, R87, R88, R89,
R75, R113, 04_host_launch.md.) -/
def Obligations.StarterEvents : Prop :=
  ∀ (s : State) (rec' : BitVec 512) (v : Dword) (n pcl core energy die off len pid : Nat) (full : Bool) (l : Launch) (p : Pkt),
    let st := s.starter
    let now := s.swcAt bDie
    let gives := fun (i : Instr) (P : State → Prop) => ∃ t, exec i s = .next t ∧ t.slots = s.slots ∧ P t
    let drops := fun (i : Instr) => gives i fun t => t.starter = { st with dropped := st.dropped + 1 } ∧ t.mem = s.mem
    let takes := fun (i : Instr) (r : BitVec 512) =>
      (recordBroken r = true → recFrame r = 0 → gives i fun t => t.starter = { st with rejected := st.rejected + 1 } ∧ t.mem = s.mem) ∧
      (s.recordBad r = false → s.stamCap < recClaim r → recFrame r = 0 → gives i fun t => t.starter = { st with rejected := st.rejected + 1 }) ∧
      (s.recordBad r = false → recClaim r ≤ s.stamCap → gives i fun t => t.starter.seq = st.seq + 1 ∧ t.starter.rejected = st.rejected ∧
        t.starter.admission = st.admission ++ [st.seq + 1] ∧ t.mem = s.mem ∧
        ∃ x, t.launchOf (st.seq + 1) = some x ∧ x.record = r ∧ x.remainder = 0 ∧ x.node = none)
    let ends := fun (i : Instr) (status : Nat) => gives i fun t => t.launchOf n = none ∧ t.starter.statuses.head? = some (n, status) ∧
      t.starter.doneSeq = st.doneSeq + 1 ∧ t.mem = s.mem
    let up := s.starterUp = true
    let write := Instr.intakeWrite ⟨off, len, full, rec'⟩
    let whole := off % 64 = 0 ∧ len = 64 ∧ full = true
    (s.readyBit 55 = false → exec write s = .next s) ∧
    (s.readyBit 55 = true →
      (¬whole ∨ ¬up → drops write) ∧
      (∀ x rest, st.intake = x :: rest → 256 ≤ st.intake.length → x.after.any s.hostPosted.contains = true → drops write) ∧
      (whole → up → st.intake = [] → s.hostPosted ≠ [] → gives write fun t => t.mem = s.mem ∧
        t.starter = { st with intake := [{ record := rec', after := s.hostPosted, baton := none, forbidden := false, slot := none }] }) ∧
      (whole → up → st.intake = [] → s.hostPosted = [] → takes write rec')) ∧
    ((16 ≤ v.toNat ∨ core ≠ v.toNat ∨ ¬up) → drops (.intakecommit core v)) ∧
    (∀ h : v.toNat < 16, core = v.toNat → up → st.intake = [] → s.hostPosted = [] → takes (.intakecommit core v) s.pkg.staging[v.toNat]) ∧
    ((¬up ∨ st.stopped = true ∨ st.admission = []) → exec .launchAdmit s = .next s) ∧
    (up → st.stopped = false → st.admission = [n] → s.launchOf n = some l → recKind l.record = 0 → l.node = none →
      (s.available < recClaim l.record → exec .launchAdmit s = .next s) ∧
      ((recClaim l.record : Int) ≤ s.available → (recWtime l.record = 0 ∨ now ≤ recWtime l.record) → gives .launchAdmit fun t =>
        t.starter.admission = [] ∧ t.starter.placement = st.placement ++ [n] ∧ t.mem = s.mem ∧
        t.launchOf n = some { l with remainder := recClaim l.record, state := .placing now })) ∧
    (s.launchOf n = some l → l.node = none → recFrame l.record = 0 →
      (n ∈ st.admission → recWtime l.record ≠ 0 → recWtime l.record < now → ends (.admissionDeadline n) 4) ∧
      (recWtime l.record = 0 ∨ now ≤ recWtime l.record → exec (.admissionDeadline n) s = .next s) ∧
      (∀ t0, l.state = .placing t0 → recPlace l.record = 0xFFFF → t0 + 1048576 ≤ now → ends (.placementTimeout n) 3) ∧
      (∀ t0, l.state = .placing t0 → now < t0 + 1048576 → exec (.placementTimeout n) s = .next s)) ∧
    (up → st.placement = [n] → s.launchOf n = some l → s.pickCluster l = some pcl → pcl < 288 → (s.cluster pcl).carves = [] →
      (∀ q, (s.cluster pcl).queue q = []) → recSpill l.record ≤ 3071 →
      (∀ t0, st.placedAt = some t0 → now < t0 + 16 → exec .launchPlace s = .next s) ∧
      (∀ b, st.placedAt = none → bankOf (spadCell pcl 0) = some b → s.bankUp b = false → ∃ t, exec .launchPlace s = .next t ∧
        t.bankWaking b = true ∧ t.starter = st ∧ t.mem = s.mem) ∧
      (st.placedAt = none → (s.power (pcl / 24)).waiters = [] → (∀ b, bankOf (spadCell pcl 0) = some b → s.bankUp b = true) → let base := spadCell pcl 0
        let kib := max (recSpill l.record) 1
        ∃ t, exec .launchPlace s = .next t ∧ t.starter.placement = [] ∧ t.launchOf n = some { l with state := .running, placed := some pcl } ∧
          t.isReady base = true ∧ t.load64 base = recPc l.record ∧ t.load64 (base + 0x38) = l.record.extractLsb' 448 64 ∧
          s.memSameBut t base 64 ∧ ∃ c, kfind (t.cluster pcl).carves n = some c ∧ c.base = 0x400000 ∧ c.fin = 0x400000 + kib * 1024)) ∧
    (288 ≤ pcl → exec (.resourceReport pcl) s = .next s) ∧
    (pcl < 288 → s.dieUp (pcl / 24) = true → s.dieUp bDie = true → s.linkUp (pcl / 24) bDie = true → (s.cluster pcl).rseq = 0 →
      gives (.resourceReport pcl) fun t => t.mem = s.mem ∧ (t.cluster pcl).rseq = 1 ∧
        t.inFlight fun q => q.ty = .write ∧ q.va = 0x2000 + 8 * pcl ∧ q.src = niEp (pcl / 24) ∧ q.dst = mgmtEp ∧ q.master = 1 ∧ q.track = 0 ∧
          q.data = bytesLE 8 (1#16 ++ (s.resourceWord pcl).extractLsb' 0 48).toNat) ∧
    (s.asked pid p → p.ty = .write → p.dst = mgmtEp → p.hopDst = bDie → pcl < 288 → p.va = 0x2000 + 8 * pcl → p.src = niEp (pcl / 24) → p.data.length = 8 →
      s.dieUp (pcl / 24) = true → st.placement = [] → s.ataperAdmits bDie 0 p.track (p.classAt bDie) .write = true → gives (.write pid) fun t => t.mem = s.mem ∧ t.resource pcl = BitVec.ofNat 64 (natLE p.data) ∧
        t.replied p .writeAck 0 []) ∧
    (s.dieUp die = false → exec (.energyMeasure die energy) s = .next s) ∧
    (∀ m l' c c', s.dieUp die = true → die < 32 → m ≠ n → s.launchOf n = some l → s.launchOf m = some l' → l.state = .running → l'.state = .running →
      st.slotCycles = [(n * 32 + die, c), (m * 32 + die, c')] →
      let drawn := fun (x : Launch) (a : Nat) => { x with measured := x.measured + energy * a / (c + c'), remainder := x.remainder - energy * a / (c + c') }
      gives (.energyMeasure die energy) fun t => t.starter.reservoir = st.reservoir - energy * 1600000 ∧ t.mem = s.mem ∧ t.starter.slotCycles = [] ∧
        t.launchOf n = some (drawn l c) ∧ t.launchOf m = some (drawn l' c')) ∧
    (s.grBusy = true → exec (.grdef v) s = .next s) ∧
    (let a := (v.extractLsb' 6 42).toNat * 64
      let tk := s.pkg.grtrk.extractLsb' 0 16
      let copy := fun (parts : List (Nat × Nat)) (failed : Bool) =>
        ({ gnum := (v.extractLsb' 48 10).toNat, addr := a, track := tk, parts := parts, got := [], failed := failed, body := false } : GraphCopy)
      s.grBusy = false →
        (addrClass a ≠ .global → gives (.grdef v) fun t => t.grBusy = true ∧ t.mem = s.mem ∧ t.starter.copying = some (copy [] true)) ∧
        (addrClass a = .global → gives (.grdef v) fun t => t.grBusy = true ∧ t.mem = s.mem ∧ t.starter.copying = some (copy [(s.nextTag, 0)] false) ∧
          kfind t.owners s.nextTag = some .grdef ∧
          (let dest := s.routeTo bDie tk a
           dest.2 = 0 → isEp dest.1 = true → s.dieUp (epDie dest.1) = true → s.linkUp bDie (epDie dest.1) = true →
            t.inFlight fun q => q.ty = .read ∧ q.va = a ∧ q.track = tk ∧ q.dst = dest.1 ∧ q.master = 5 ∧ q.tag = s.nextTag ∧ q.elems = [(a, 64)]))) ∧
    (st.copying = none → exec .grdefCopyDone s = .next s) ∧
    (∀ g, st.copying = some g → g.parts ≠ [] → exec .grdefCopyDone s = .next s) ∧
    (∀ g, st.copying = some g → g.parts = [] →
      let code := fun (c : Nat) => gives .grdefCopyDone fun t => t.starter.copying = none ∧ t.starter.grstat.toNat % 2 ^ 32 = c ∧ t.mem = s.mem
      let header := BitVec.ofNat 512 (natLE (g.bytes.take 64))
      let n := (header.extractLsb' 0 9).toNat
      let more := g.body = false ∧ 1 ≤ n ∧ n ≤ 256
      (g.failed = true → code 3) ∧
      (g.failed = false → more → (∀ i < (96 * n + 63) / 64, addrClass (g.addr + 64 + 64 * i) = .global) → gives .grdefCopyDone fun t => t.mem = s.mem ∧
        ∃ x, t.starter.copying = some x ∧ x.body = true ∧ x.failed = false ∧ x.got = g.got ∧
          x.parts.map Prod.snd = (List.range ((96 * n + 63) / 64)).map fun i => 64 + 64 * i) ∧
      (g.failed = false → ¬more →
        let made := graphOf g.gnum ((match st.current g.gnum with | some x => x.version | none => 0) + 1) g.track header ((g.bytes.drop 64).take (96 * n))
        (made = none → code 1) ∧ (made ≠ none → 128 ≤ st.graphs.length → code 2) ∧
        (∀ x, made = some x → st.graphs.length < 128 → (st.current g.gnum = none) → code 0 ∧ gives .grdefCopyDone fun t => t.starter.current g.gnum = some x)))

/-- Dispatch, ageing, promotion, eviction, deadlines, promises and deferred faults of slots. The dispatcher starts the READY baton that R91
chooses in the first free slot of the core with the most free slots, with the record's PC and ARG and zeros, and does nothing while no
slot is free. AGE_TICK adds one to the age of a READY baton up to 255. A running slot unchosen for XAGE is promoted. The victim of a full
cluster is saved with its wait armed. A passed deadline ends BAT.PARK with 1 and WAIT.UNTIL with the count, a passed formation deadline
gives GANG_DISBAND, and an earlier one changes nothing. A deferred fault is taken at the vector by a running slot with BUSY clear; with
BUSY set it waits, but the trap of a waiting instruction ends the baton (log entry 8). A parked WAIT.PROMISE returns for a handle no
longer tracked and fails with cause 24 for a promise missed. (R91, R94, R95, R103, R106, R133, R138, R154, R223, R230, 05_scheduler.md.) -/
def Obligations.SchedulerEvents : Prop :=
  ∀ (s : State) (cid slot pcl r : Nat), slot < 4 →
    let k := slotKey cid slot
    let u := s.slotAt k
    let now := s.swcAt (recPcl r / 24)
    let gives := fun (i : Instr) (P : State → Prop) => ∃ t, exec i s = .next t ∧ P t
    let wakes := fun (i : Instr) (u' : Slot) => gives i fun t => t.slotAt k = u' ∧ t.mem = s.mem
    (s.pickCore pcl = none → exec (.batonDispatch pcl) s = .next s) ∧ (s.nextReady pcl = none → exec (.batonDispatch pcl) s = .next s) ∧
    (∀ c role q, s.pickCore pcl = some c → s.nextReady pcl = some (role, q) → (s.cluster pcl).queue role = [q] → recPcl q.record = pcl →
      s.dieUp (pcl / 24) = true → (∀ b, bankOf (spadCell pcl 0) = some b → s.bankUp b = true) → (s.power (pcl / 24)).waiters = [] →
      kfind (s.cluster pcl).asks q.record = none →
      s.recRead q.record 8 = 0 → ctrlReserved (s.recRead q.record 0x18) = false →
      let j := slotKey c ((s.freeSlots c).headD 0)
      gives (.batonDispatch pcl) fun t => (t.slotAt j).mode = .running ∧ (t.slotAt j).pc = s.recRead q.record 0 &&& ~~~1#64 ∧
        (t.slotAt j).launch = q.launch ∧ (t.slotAt j).track = (s.recRead q.record 0x18).extractLsb' 16 16 ∧
        (∀ x, (t.slotAt j).getX x = if x = 10 then s.recRead q.record 0x38 else 0) ∧ (t.cluster pcl).queue role = []) ∧
    (s.swc / 1024 ≤ s.pkg.aged → exec .ageTick s = .next s) ∧
    (∀ q, s.pkg.aged < s.swc / 1024 → (s.clusters.flatMap fun c => c.2.ready.toList.flatten) = [q] → gives .ageTick fun t =>
      t.pkg.aged = s.pkg.aged + 1 ∧ s.memSameBut t (q.record + 0x18) 8 ∧
      (t.recRead q.record 0x18).toNat / 2 ^ 56 = min 255 ((s.recRead q.record 0x18).toNat / 2 ^ 56 + 1) ∧
      (t.recRead q.record 0x18).toNat % 2 ^ 56 = (s.recRead q.record 0x18).toNat % 2 ^ 56) ∧
    (gives (.slotPromotion cid) fun t => t.mem = s.mem ∧ t.slotAt k =
      if u.mode = .running ∧ u.promoted = none ∧ u.csr.xage.toNat ≤ u.unchosen then { u with promoted := some (s.swcAt (cidDie cid)) } else u) ∧
    (s.evictNeeded (cidPcl cid) = false → exec (.batonEvict cid slot) s = .next s) ∧
    (s.victim (cidPcl cid) ≠ some k → exec (.batonEvict cid slot) s = .next s) ∧
    (∀ rd, s.evictNeeded (cidPcl cid) = true → s.victim (cidPcl cid) = some k → (s.core (keyCid k)).owner ≠ some (keySlot k) → s.canSave k = true →
      s.parkedAlone k r (.time rd) →
      (∀ b, bankOf (spadCell (keyPcl k) 0) = some b → s.bankUp b = true) → (s.power (keyDie k)).waiters = [] → kfind (s.cluster (recPcl r)).asks r = none →
      (∀ a v, s.allocFrame (keyPcl k) u.launch u.track false = some (a, v) → s.frameBar (recPcl r) u.track .write a (frameBytes false) = none) →
      (s.saveFrame k 0 = none → exec (.batonEvict cid slot) s = .next s) ∧
      (s.saveFrame k 0 ≠ none → gives (.batonEvict cid slot) fun t => ∃ a, t.findAway r = some a ∧ a.wait = .time rd ∧ a.wtime = u.wtime ∧
        a.waitLen = u.waitLen ∧ a.launch = u.launch ∧ a.satisfied = false ∧ a.preempted = false)) ∧
    (∀ rd live, s.parkedAlone k r (.wake rd live) →
      (u.wtime ≠ 0 → u.wtime.toNat ≤ now → wakes (.waitDeadline cid slot) (u.resumed rd 1)) ∧
      (u.wtime = 0 ∨ now < u.wtime.toNat → exec (.waitDeadline cid slot) s = .next s)) ∧
    (∀ rd, s.parkedAlone k r (.time rd) →
      (u.wtime.toNat ≤ now → wakes (.waitDeadline cid slot) (u.resumed rd (BitVec.ofNat 64 now))) ∧
      (now < u.wtime.toNat → exec (.waitDeadline cid slot) s = .next s)) ∧
    (∀ rd log2 c lead, s.parkedAlone k r (.gang rd log2 c lead) → s.anyGangOf r = none →
      (u.wtime.toNat ≤ now → wakes (.gangFormationTimeout cid slot)
        { u.awake with pc := u.pc + BitVec.ofNat 64 u.waitLen, disband := some (BitVec.allOnes 64) }) ∧
      (now < u.wtime.toNat → exec (.gangFormationTimeout cid slot) s = .next s)) ∧
    (u.mode ≠ .running → exec (.deferredFaultDelivery cid slot) s = .next s) ∧
    (∀ f rest, u.mode = .running → s.gangOf (slotRecord k u) = none → u.disband = none → u.deferred = f :: rest → (∀ q ∈ rest, q.sync = false) →
      (u.busy = false → f.cause ≠ 26 → u.csr.xutvec ≠ 0 → wakes (.deferredFaultDelivery cid slot) { u with
        deferred := rest, pc := u.csr.xutvec, csr := { u.csr with xuepc := f.at'.getD u.pc &&& ~~~1#64, xutval := f.value, xucause := xucauseWord f.posted f.status f.cause } }) ∧
      (u.busy = true → f.sync = false → exec (.deferredFaultDelivery cid slot) s = .next s) ∧
      (u.busy = true → f.sync = true → f.cause ≠ 26 →
        exec (.deferredFaultDelivery cid slot) s = .next ((s.setSlotAt k { u with deferred := rest }).endBaton k true))) ∧
    (u.mode ≠ .parked → exec (.promiseMissed cid slot) s = .next s) ∧
    (∀ h, h ≠ 0 → s.parkedAlone k r (.promise h) → recPcl r = cidPcl cid → s.waiting = [(r, .promise h)] →
      (s.tracked (cidPcl cid) h = none → wakes (.promiseMissed cid slot) (u.resumed 0 0)) ∧
      (∀ e, s.tracked (cidPcl cid) h = some e → parkedPromise e now = .missed → wakes (.promiseMissed cid slot)
        { u.awake with deferred := u.deferred ++ [{ cause := 24, value := h, status := 0, posted := false, sync := true, at' := none }] }) ∧
      (∀ e, s.tracked (cidPcl cid) h = some e → parkedPromise e now = .wait → exec (.promiseMissed cid slot) s = .next s))

/-- The Pacer, copy engines, feeds, the cycle controller and the Relay's sequencer. A vector entry alone in its quad binds when a lane group
is free, and its completion is due after its latency; empty queues bind nothing. A command whose pieces have ended completes with its
status. A feed delivers its next panel into a port with room. A completed handle entry lapses after 65,536 cycles and not before. The
controller takes the oldest posted request, or leaves a posted CYCLE_STATE. A node whose counter is 0 and that this Relay sequences
starts: a nop ends, one of no member ends NOT_MAPPED, a load reads its first piece; a begun node with nothing left ends. A run stalled for
STALL ends TIMEOUT, not while it is paused, a pause ends at its limit, reservations end at RSVREL, and a Relay that goes down has no run
and no pause. Other dies have no Relay. (R104, R248, R280, R282, R285, R304, R121, R122, R129, R130, R138, 13_isa_matrix_copy.md.) -/
def Obligations.PacerEngineAndRelayEvents : Prop :=
  ∀ (s : State) (quad i cid pcl k n r : Nat) (b : Bool) (run : Run) (node : RunNode),
    let gives := fun (j : Instr) (P : State → Prop) => ∃ t, exec j s = .next t ∧ t.mem = s.mem ∧ P t
    let x := s.quad quad
    let now := s.swcAt (quad / 4 / 24)
    let sound := x.lanes.queue < 4 ∧ x.matrix.queue < 4
    let done := fun (t : State) (j : Nat) => ∃ y, kfind t.relay.runs k = some y ∧ ∃ m, y.nodes[j]? = some m ∧ m.phase = .ended
    let noReplay := ∀ j < 4, ∀ m < 4, (s.slotAt (slotKey (quadCid quad j) m)).replay = []
    (sound → noReplay → (∀ j < 4, (s.core (quadCid quad j)).dq = []) → gives (.pacerBind quad) fun t => t.cores = s.cores ∧ t.slots = s.slots) ∧
    (∀ e occ lat outs, sound → noReplay → i < 4 → (∀ j < 4, j ≠ i → (s.core (quadCid quad j)).dq = []) → (s.core (quadCid quad i)).dq = [e] → e.kind = .vector occ lat outs 0 →
      e.bound = false → (∃ g < 4, vcGet x.laneBusy g ≤ now) → gives (.pacerBind quad) fun t =>
        (t.core (quadCid quad i)).dq = [{ e with bound := true, doneAt := now + lat }] ∧ t.slots = s.slots) ∧
    (∀ e, kfind (s.cluster pcl).engine i = some e →
      (e.complete = true → exec (.copyComplete pcl i) s = .next s) ∧
      (e.complete = false → e.arriving = false → piecesEnded e = true → e.kind ≠ .mcast → e.hurdle = none → e.dropped = false → s.waiting = [] →
        e.baton = r → s.findSlot r = some k → gives (.copyComplete pcl i) fun t => ∃ e', kfind (t.cluster pcl).engine i = some e' ∧ e'.complete = true ∧
          e'.completeAt = s.swcAt (pcl / 24) ∧ e'.handle = e.handle ∧ e'.status = if e.cancelled then 6 else e.status) ∧
      (e.complete = true → e.completeAt + 65536 ≤ s.swcAt (pcl / 24) → s.waiting = [] → gives (.handleEntryLapse pcl i) fun t =>
        kfind (t.cluster pcl).engine i = none) ∧
      (s.swcAt (pcl / 24) < e.completeAt + 65536 → exec (.handleEntryLapse pcl i) s = .next s)) ∧
    (s.feedsTo (cidPcl cid) cid b = [] → exec (.feedPanel cid b) s = .next s) ∧
    (∀ e rest panel, s.feedsTo (cidPcl cid) cid b = (i, e) :: rest → feedOver e = false → e.cancelled = false → e.arriving = false → e.gathering = false →
      e.flight = [] → ((s.core cid).port b).panels.length < 8 → (s.power (cidPcl cid / 24)).waiters = [] → s.assemble (cidPcl cid) i e (feedDelivered e) = .ok panel →
      gives (.feedPanel cid b) fun t => ((t.core cid).port b).panels = ((s.core cid).port b).panels ++ [panel] ∧
        kfind (t.cluster (cidPcl cid)).engine i = some { e with moved := e.moved + 4096, reads := [] } ∧ t.slots = s.slots) ∧
    (s.cyc.queue = [] → exec .cycleControllerRequest s = .next s) ∧
    (∀ q rest, s.cyc.queue = q :: rest → s.waiting = [] →
      (∀ c c', s.cycNamed q.handle q.track = some c → c.apply q = some c' → gives .cycleControllerRequest fun t =>
        t.cycRec (cycNum q.handle) = c' ∧ t.cyc.queue = rest) ∧
      ((s.cycNamed q.handle q.track).bind (fun c => c.apply q) = none → s.findSlot q.record = some k →
        kfind s.owners q.tag = some (.posted q.record) → gives .cycleControllerRequest fun t => t.cyc.queue = rest ∧
        (t.slotAt k).deferred = (s.slotAt k).deferred ++ [{ cause := 29, value := BitVec.ofNat 64 (cycNum q.handle), status := 0, posted := true, sync := false, at' := none }])) ∧
    (∀ d, d ≠ xDie → exec (.nodeStart d k n) s = .next s ∧ exec (.nodeEnd d k n) s = .next s ∧ exec (.stallTimeout d k) s = .next s ∧
      exec (.pauseLimit d k) s = .next s ∧ exec (.reservationRelease d k) s = .next s ∧ exec (.relayDown d) s = .next s) ∧
    (s.relayUp = true → s.relay.runs = [(k, run)] → run.nodes[n]? = some node →
      (node.phase ≠ .idle → exec (.nodeStart xDie k n) s = .next s) ∧
      (0 < node.counter → exec (.nodeStart xDie k n) s = .next s) ∧
      (s.sequencedHere run node = false → run.ended = none → exec (.nodeStart xDie k n) s = .next s) ∧
      (∀ m, node.phase = .idle → node.counter = 0 → node.kind = .nop → run.ended = none → s.sequencedHere run node = true → run.members[node.member]? = some m → m.withdrawn = false →
        (run.endNode n node.status).over = false → gives (.nodeStart xDie k n) fun t => done t n ∧ t.slots = s.slots) ∧
      (node.phase = .idle → node.counter = 0 → node.status = 0 → run.ended = none → s.sequencedHere run node = true → run.members[node.member]? = none → (run.endNode n 3).over = false →
        gives (.nodeStart xDie k n) fun t => done t n ∧ t.slots = s.slots ∧ ∃ y, kfind t.relay.runs k = some y ∧ ∃ m, y.nodes[n]? = some m ∧ m.status = 3) ∧
      (∀ m a, node.phase = .idle → node.counter = 0 → node.kind = .load → node.status = 0 → run.ended = none → run.hdr.kind = 0 → node.pos = 0 → node.raw = [] →
        node.tag = 0 → 0 < node.bytes → s.sequencedHere run node = true → run.members[node.member]? = some m → m.withdrawn = false → m.joined = true → rctState (s.rct xDie m.rank) = 1 →
        run.baseOk node = true → run.placeOf node 0 = .global a → let dest := s.routeTo xDie run.track a
        dest.2 = 0 → isEp dest.1 = true → s.dieUp (epDie dest.1) = true → s.linkUp xDie (epDie dest.1) = true →
        gives (.nodeStart xDie k n) fun t => kfind t.owners s.nextTag = some (.node k n) ∧ t.inFlight fun p => p.ty = .read ∧ p.op = .read ∧
          p.va = a ∧ p.dst = dest.1 ∧ p.tag = s.nextTag ∧ p.elems = [(a, min (min 64 node.bytes) (4096 - a % 4096))]) ∧
      (node.phase = .begun → node.tag = 0 → node.bytes ≤ node.pos → (run.endNode n node.status).over = false →
        gives (.nodeEnd xDie k n) fun t => done t n ∧ t.slots = s.slots) ∧
      (run.ended = none → run.over = false → s.runPaused run = false → run.stall ≤ run.elapsed s.relayNow → gives (.stallTimeout xDie k) fun t =>
        kfind t.relay.runs k = some { run with ended := some 8 }) ∧
      (s.runPaused run = true ∨ run.elapsed s.relayNow < run.stall → exec (.stallTimeout xDie k) s = .next s)) ∧
    (∀ p, s.relayUp = true → s.relay.pauses[i]? = some p →
      (p.started + p.limit ≤ s.relayNow → gives (.pauseLimit xDie i) fun t => ∀ q ∈ t.relay.pauses, q.rank ≠ p.rank) ∧
      (s.relayNow < p.started + p.limit → exec (.pauseLimit xDie i) s = .next s) ∧
      (gives (.reservationRelease xDie i) fun t => t.relay.pauses = s.relay.pauses ∧ t.slots = s.slots ∧
        ∀ y ∈ t.relay.runs, (∃ m ∈ y.2.members, m.rank = p.rank ∧ m.withdrawn = false) → p.started + y.2.rsvrel ≤ s.relayNow → y.2.reserved = false)) ∧
    (s.relayUp = true → s.relay.runs = [] → s.waiting = [] → gives (.relayDown xDie) fun t => t.relayUp = false ∧ t.relay.runs = [] ∧ t.relay.pauses = [])

/-- Resets of the package and of dies, and functions that come and go. Power-on, an undervoltage and a reset request that nothing holds leave
no slot, packet or gang, zero outside the far tier (log entry 1, the model's choice) and the far tier as it was; a request during
QUIESCING or COPYING is held, and with AUTO, but during a restore, a checkpoint starts first; an undervoltage resets at once, even during
QUIESCING or COPYING (log entry 57, the model's choice). At 105 degrees a die is throttled, at 115 it is reset. A die that is reset is
down with an empty NI; a die that returns is up, with the rank table that the B-die keeps, the current INDEX, the track table of the B-die
and no cached translation. A function that becomes usable sets its bit, HBM with zeros (log entry 24, the model's choice); one that fails
clears it. An event of a die, module or function that is in that state already changes nothing. (R17, R18, R19, R25, R37, R41, R42, R51,
R66, R76, R304, 01_package.md.) -/
def Obligations.ResetAndFunctionEvents : Prop :=
  ∀ (s : State) (d m b : Nat) (c : Int),
    let gives := fun (i : Instr) (P : State → Prop) => ∃ t, exec i s = .next t ∧ P t
    let fresh := fun (t : State) => t.slots = [] ∧ t.gangs = [] ∧ t.net = [] ∧ t.ckState = 0 ∧ t.pkg.sinceReset = true ∧ t.boot.leaf = s.boot.leaf ∧
      ∀ a, readByte t.mem a = if a < 2 ^ 80 then 0 else readByte s.mem a
    let ck := s.ckState
    let auto := s.pkg.ckctl.getLsbD 2 = true
    let same := fun (t : State) => t.mem = s.mem ∧ t.slots = s.slots
    let clears := fun (n : Nat) => s.readyBit n = true → exec (.functionFailure n) s = .next (s.setReady n false)
    let sets := fun (n : Nat) => s.readyBit n = false → exec (.functionReady n) s = .next (s.setReady n true)
    (gives .powerOnReset fun t => fresh t ∧ t.boot.powered = true) ∧ (gives .inputUndervoltage fresh) ∧
    (ck ∈ [1, 3] → exec .resetRequest s = .next { s with pkg := { s.pkg with resetHeld := true } }) ∧
    (ck ∉ [1, 3] → (¬auto ∨ ck = 6 ∨ s.readyBit 56 = false) → gives .resetRequest fresh) ∧
    (ck ∉ [1, 3, 6] → auto → s.readyBit 56 = true → gives .resetRequest fun t => t.ckState = (if ck = 2 then 3 else 1) ∧ t.pkg.resetHeld = true) ∧
    (isDie d = true → (105 ≤ c → c < 115 → gives (.thermalReport d c) fun t => d ∈ t.pkg.throttled ∧ same t) ∧
      (c < 105 → gives (.thermalReport d c) fun t => d ∉ t.pkg.throttled ∧ same t)) ∧
    (s.dieUp d = false → exec (.dieReset d) s = .next s) ∧
    (isDie d = true → s.dieUp d = true → s.pkg.resetHeld = false →
      (gives (.dieReset d) fun t => t.dieUp d = false ∧ (t.ni d).tcache = [] ∧ (t.ni d).walks = [] ∧ (t.ni d).fq = []) ∧
      (115 ≤ c → gives (.thermalReport d c) fun t => t.dieUp d = false) ∧ exec (.dieReturn d) s = .next s) ∧
    (isDie d = true → s.dieUp d = false → gives (.dieReturn d) fun t => t.dieUp d = true ∧ same t ∧ (t.ni d).tcache = [] ∧
      (t.ni d).rct = s.pkg.rct ∧ (t.ni d).log.applied = s.pkg.ivlIndex ∧ (t.ni d).swcOffset = 0 ∧
      ∀ i < 1024, kget 0 (t.ni d).trk i = s.trkLoaded i d) ∧
    (16 ≤ m → exec (.farModuleLoss m) s = .next s) ∧
    (m < 16 → ck ≠ 3 → gives (.farModuleLoss m) fun t => t.readyBit (24 + m) = false ∧ same t ∧
      (s.readyBit (24 + m) = true → exec (.functionFailure (24 + m)) s = .next t)) ∧
    (s.readyBit b = true → exec (.functionReady b) s = .next s) ∧ (s.readyBit b = false → exec (.functionFailure b) s = .next s) ∧
    (∀ n ∈ [50, 51, 52, 53, 54, 55], sets n) ∧ (s.starter.intake = [] → sets 48) ∧
    (s.readyBit 58 = false → exec (.functionReady 58) s = .next (s.setReady 58 (decide (0 < s.boot.quotes)))) ∧ (∀ n ∈ [48, 49, 50, 53, 54, 55], clears n) ∧
    (12 ≤ b → b < 24 → clears b ∧ (s.readyBit b = false → gives (.functionReady b) fun t => t.readyBit b = true ∧ t.slots = s.slots ∧
      ∀ a, readByte t.mem (hbmCell (b - 12) 0 + a) = if a < 2 ^ 64 then 0 else readByte s.mem (hbmCell (b - 12) 0 + a))) ∧
    (m < 16 → s.readyBit (24 + m) = false → gives (.functionReady (24 + m)) fun t => t.readyBit (24 + m) = true ∧ same t) ∧
    (m < 8 → (s.readyBit (40 + m) = false → gives (.functionReady (40 + m)) fun t => t.readyBit (40 + m) = true ∧ same t ∧
        t.gateway.lastFlit.toList.getD m 0 = s.swcAt xDie) ∧
      (s.readyBit (40 + m) = true → gives (.functionFailure (40 + m)) fun t => t.readyBit (40 + m) = false ∧ same t)) ∧
    (s.readyBit 49 = false → s.cyc.recs = [] → s.waiting = [] → gives (.functionReady 49) fun t => t.readyBit 49 = true ∧ same t) ∧
    (s.readyBit 52 = true → gives (.functionFailure 52) fun t => t.readyBit 52 = false ∧ same t)

/-- A step runs the instruction that the bytes at the program counter decode to. Where it is the turn of a slot that may issue (it runs a
baton, is not held, and has no deferred fault due) and the bytes fetched at the pc of its fetching slot, or those that its gang is in the
middle of, decode to an instruction that nothing interlocks, the step is exec of that instruction with the slot in focus and marked as the
one last chosen; the pc, the registers and the memory are as they were. Bytes that decode to no instruction are executed as an illegal
word. A unit of code of which the instruction cache holds no copy that differs is fetched as its home gives it. The step of an event is
exec of that event; and a step with an empty agenda only fills the agenda. (R1, R103, R107, R194, R195, 10_encoding_assembly.md.) -/
def Obligations.StepRunsDecodedInstruction : Prop :=
  ∀ (s : State) (rest : List Turn),
    (s.agenda = [] → step s = .next { s with agenda := s.plan }) ∧
    (∀ i, s.agenda = .event i :: rest → step s = exec i { s with agenda := rest }) ∧
    (∀ f n l, s.homeUnit (keyDie f) (s.slotAt f).track n = .bytes l → s.staleUnit f n l = none → s.codeUnit f n = .bytes l) ∧
    (∀ (k : Nat) (l : List Byte), s.agenda = .slot k :: rest →
      let u := { s with agenda := rest }
      let f := u.fetchSlot k
      u.resting k = false → u.faultDue k = false → (u.roundCode k = some l ∨ u.roundCode k = none ∧ u.fetch f = .code l) →
        let c := u.chosen k l
        (∀ i r, decode l = .ok (i, r) → u.interlocked k i = false → step s = exec i c) ∧
        (∀ e, decode l = .error e → step s = exec (.illegalInstruction (BitVec.ofNat 32 (natLE l))) c) ∧
        c.focus = k ∧ c.me = { u.slotAt k with unchosen := 0, promoted := none } ∧ c.mem = s.mem ∧ c.agenda = rest ∧
        (c.core (keyCid k)).lastSlot = keySlot k ∧ ∀ j, j ≠ k → c.slotAt j = s.slotAt j)

/-- Words written out in the encoding tables of the spec decode to the instructions they stand for. The words that the chapters print beside
xuret, ctx.save, hd.init, hd.arrive.r, lap.end, ld.aq.w, loop.rot, vldq, vcvt, vfma, mm.drain, st.fill, cp.get, stat.drain, cyc.stat and
cl.run, and words put together from the fields of R191 for addi, sd, bltu, jal, csrrwi, amoadd.d and c.lwsp, decode to those instructions
with those operands, whatever follows them. (R191, R195, R196, R199, R204.) -/
def Obligations.DecodesSpecWords : Prop :=
  ∀ rest : List Byte,
    let reads := fun (w : Nat) (i : Instr) => decode (bytesLE 4 w ++ rest) = .ok (i, rest)
    reads 0xFFF10093 (.addi 1 2 0xFFF) ∧ reads 0xFE513C23 (.sd 2 5 0xFF8) ∧ reads 0xFE62EEE3 (.bltu 5 6 0xFFE) ∧
    reads 0x0080006F (.jal 0 4) ∧ reads 0x0031D2F3 (.csrrwi 5 3 3) ∧ reads 0x06A5B52F (.amoadd 10 11 10 true true true) ∧
    decode (bytesLE 2 0x45A2 ++ rest) = .ok (.cLwsp 11 2, rest) ∧
    reads 0x0000700B .xuret ∧ reads 0x10C5F00B (.ctxSave 11 12) ∧ reads 0x0AC5950B (.hdInit 10 11 12 5) ∧
    reads 0x1E07100B (.hdArriveR 14 0 3) ∧ reads 0x7200150B (.lapEnd 10 1) ∧ reads 0x97C6450B (.ldAq 10 12 2 2 0x7C) ∧
    reads 0xFF80628B (.loopRot 5 0x7F8) ∧ reads 0x08C5D12B (.vldq 2 11 12 0) ∧ reads 0x00E0B1AB (.vcvt 3 1 0 1 6) ∧
    reads 0x1820F22B (.vfma 4 1 2 3) ∧ reads 0x0415965B (.mmDrain 11 12 1 0 false 1) ∧ reads 0x1065A05B (.stFill 11 3 0) ∧
    reads 0x00E6355B (.cpGet 10 12 14) ∧ reads 0x28C0957B (.statDrain 10 1 12 4) ∧ reads 0x8205A57B (.cycStat 10 11 1) ∧
    reads 0x10C5B57B (.clRun 10 11 12)

/-- Decoding the encoding of a well-formed instruction gives it back. For every well-formed instruction that has an encoding, with every
operand at every value that the encoding admits: the decoder reads it back from the bytes of its encoding, and leaves the bytes that
follow. (R191, R195, R196, R197, R198, R199, 10_encoding_assembly.md.) -/
def Obligations.DecodeEncodeRoundTrip : Prop :=
  ∀ (i : Instr) (rest : List Byte), i.wellFormed = true → encode i ≠ .none →
    decode ((encode i).bytes ++ rest) = .ok (i, rest)

/-- The length of an instruction, the longer encodings and the major opcodes that are not listed. Of what the decoder reads, an instruction
that starts with a halfword whose bits [1:0] are not 0b11 takes that halfword, and one whose bits are takes 32 bits, of which bits [4:2]
are not 0b111 and bits [6:0] are a major opcode that R191 lists or one of the custom opcodes. A fetch reads a halfword, and another one
where its bits [1:0] are 0b11. What the decoder refuses is executed as an illegal word, and so a slot that comes to it traps cause 2: a
longer encoding whatever lies behind it, and every other major opcode. (R195.) -/
def Obligations.InstructionLengths : Prop :=
  (∀ (b0 b1 : Byte) (l r : List Byte) (i : Instr), decode (b0 :: b1 :: l) = .ok (i, r) →
    (b0.toNat % 4 ≠ 3 → r = l) ∧
    (b0.toNat % 4 = 3 → r = l.drop 2 ∧ 2 ≤ l.length ∧ b0.toNat / 4 % 8 ≠ 7 ∧
      b0.toNat % 128 ∈ [0x37, 0x17, 0x6F, 0x67, 0x63, 0x03, 0x23, 0x13, 0x1B, 0x33, 0x3B, 0x0F, 0x73, 0x2F, 0x53, 0x43, 0x47, 0x4B, 0x4F, 0x0B, 0x2B, 0x5B, 0x7B])) ∧
  (∀ (s : State) (f : Nat) (h h2 : List Byte),
    let pc := (s.slotAt f).pc.toNat
    s.codeAt f pc = .bytes h →
      (natLE h % 4 ≠ 3 → s.fetch f = .code h) ∧
      (natLE h % 4 = 3 → s.codeAt f (pc + 2) = .bytes h2 → s.fetch f = .code (h ++ h2)) ∧
      (natLE h % 32 = 31 → ∃ l, s.fetch f = .code l ∧ (l = h ∨ ∃ h2, l = h ++ h2))) ∧
  (∀ (s : State) (k : Nat) (rest : List Turn) (l : List Byte) (e : Reject), s.agenda = .slot k :: rest →
    let u := { s with agenda := rest }
    let f := u.fetchSlot k
    u.resting k = false → u.faultDue k = false → (u.roundCode k = some l ∨ u.roundCode k = none ∧ u.fetch f = .code l) → decode l = .error e →
      step s = .next ((u.chosen k l).trap 2 (zext64 (BitVec.ofNat 32 (natLE l)))))

/-- The Relay's timer registers and the runs that take them. At package reset PAUSELIM is 2,000,000 µs, STALL 50,000 µs and RSVREL 10,000 µs,
and the reserved half of RLYTIM1 is zero. A write of RLYTIM0 at 0x3000 or RLYTIM1 at 0x3008 sets its fields, a field written as 0 being
set to 1, and leaves every open run as it is; a run that is opened takes the registers as they stand, at 1,600 cycles for each µs. (R116.) -/
def Obligations.RelayTimers : Prop :=
  (State.reset.mgmtRead 0x3000).toNat = 2000000 * 2 ^ 32 + 50000 ∧ (State.reset.mgmtRead 0x3008).toNat = 10000 ∧
  (∀ (s : State) (v : Dword),
    (∃ t, exec (.registerWrite 0x3000 v) s = .next t ∧ t.relay = s.relay ∧ t.mgmtRead 0x3008 = s.mgmtRead 0x3008 ∧
      (t.mgmtRead 0x3000).toNat % 2 ^ 32 = max 1 (v.toNat % 2 ^ 32) ∧ (t.mgmtRead 0x3000).toNat / 2 ^ 32 = max 1 (v.toNat / 2 ^ 32)) ∧
    (∃ t, exec (.registerWrite 0x3008 v) s = .next t ∧ t.relay = s.relay ∧ t.mgmtRead 0x3000 = s.mgmtRead 0x3000 ∧
      (t.mgmtRead 0x3008).toNat = max 1 (v.toNat % 2 ^ 32))) ∧
  (∀ (s : State) (slot : Nat) (p : Plan), 0 < (s.mgmtRead 0x3008).toNat → 0 < (s.mgmtRead 0x3000).toNat / 2 ^ 32 → 0 < (s.mgmtRead 0x3000).toNat % 2 ^ 32 →
    (s.mgmtRead 0x3008).toNat < 2 ^ 32 →
    ∃ r, kfind (s.openRun slot p).2.relay.runs (s.openRun slot p).1 = some r ∧
      r.pauseLim = (s.mgmtRead 0x3000).toNat / 2 ^ 32 * 1600 ∧ r.stall = (s.mgmtRead 0x3000).toNat % 2 ^ 32 * 1600 ∧
      r.rsvrel = (s.mgmtRead 0x3008).toNat * 1600 ∧
      ∀ k, k ≠ (s.openRun slot p).1 → kfind (s.openRun slot p).2.relay.runs k = kfind s.relay.runs k)

/-- Every step keeps the memory in its canonical form. From every state whose memory lists its bytes at strictly rising addresses, none of
them zero, every step that gives a next state gives one whose memory does too; and every next state of an instruction or an event does.
(The form is the model's own, log entry 1; that no byte of memory has two values is the rule of R1 that it carries.) (R1,
07_core_memory.md.) -/
def Obligations.MemoryStaysCanonical : Prop :=
  ∀ s : State, Memory.wf s.mem →
    (∀ t, step s = .next t → Memory.wf t.mem) ∧ (∀ (i : Instr) t, exec i s = .next t → Memory.wf t.mem)

/-- The module right after package reset. No slot holds a baton, no packet is in flight, the memory lists nothing and is canonical, the
stopwatch and BOOTSTAT are zero, PKREADY is clear, every matrix context is free with accumulators of +0 and masks of ones, each Pacer's
round robins stand on queue 0, each buffer map is clear, XSTRAY is zero, every rank-table entry is INVALID with GATE 1 and every plane,
the registers of the package management block hold their reset values, and every bank is powered. (Where the spec gives no reset value, of
TRKIMG, PMAPIMG and LOGBASE and of memory, the zeros are the model's choice: log entries 1 and 2.) (R13, R18, R42, R76, R86, R102, R104,
R116, R149, R153, R155, 01_package.md.) -/
def Obligations.ResetState : Prop :=
  let s := State.reset
  Memory.wf s.mem ∧ (∀ a, readByte s.mem a = 0) ∧ s.poison = [] ∧ (∀ k, (s.slotAt k).mode = .empty) ∧ s.net = [] ∧ s.agenda = [] ∧ s.swc = 0 ∧
  (∀ c, (s.core c).owner = none ∧ (s.core c).dq = [] ∧ (s.core c).acc = Vector.replicate 4 0 ∧
    (s.core c).pmRow = Vector.replicate 4 (BitVec.allOnes 64) ∧ (s.core c).pmCol = Vector.replicate 4 (BitVec.allOnes 64) ∧ (s.core c).instret = 0) ∧
  (∀ q, (s.quad q).lanes.queue = 0 ∧ (s.quad q).matrix.queue = 0) ∧
  (∀ c, (s.cluster c).bufMap = Vector.replicate 64 0 ∧ (s.cluster c).xstray = 0 ∧ (s.cluster c).engine = []) ∧
  (∀ d r, (s.rct d r).toNat = 2 ^ 57 + 255 * 2 ^ 49) ∧
  (∀ o ∈ [0x000, 0x100, 0x108, 0x200, 0x208, 0x210, 0x218, 0x220, 0x230, 0x308, 0x310, 0x408, 0x500, 0x600, 0x608, 0x610, 0x620], s.mgmtRead o = 0) ∧
  (s.mgmtRead 0x400).toNat = 65536 * 2 ^ 32 + 3600 ∧ (s.mgmtRead 0x3000).toNat = 2000000 * 2 ^ 32 + 50000 ∧ (s.mgmtRead 0x3008).toNat = 10000 ∧
  (∀ b, s.bankOff b = false) ∧ (∀ d < 12, (s.mgmtRead (0x4000 + 64 * d)).toNat = 2 ^ 60 - 1 ∧ (s.mgmtRead (0x4008 + 64 * d)).toNat = 2 ^ 24 - 1)
end

