-- ==== Sys2Proof/Laws/Arith.lean ====
section
/-! SUPPORT. The values of the scalar operations as integers that wrap: each operation of Flags.lean and Operands.lean beside the arithmetic that the
statements of the results use. -/
namespace Sys2Proof.Machine

theorem signExtend_eq_wrap32 (n : Int) (v : BitVec 32) (h : v = BitVec.ofInt 32 n) : v.signExtend 64 = wrap32 n := by
  subst h; unfold wrap32; rw [BitVec.signExtend, BitVec.toInt_ofInt]
theorem lowW_toNat (a : Dword) : (lowW a).toNat = lowNat a := by
  unfold lowW lowNat; simp [BitVec.extractLsb'_toNat]
theorem lowW_toInt (a : Dword) : (lowW a).toInt = lowInt a := by
  unfold lowW lowInt
  rw [BitVec.toInt_eq_toNat_bmod, BitVec.extractLsb'_toNat, BitVec.toInt_eq_toNat_bmod]
  simp only [Nat.shiftRight_zero]
  rw [Int.bmod_bmod_of_dvd (by decide), Int.natCast_mod, Int.emod_bmod]
theorem lowW_eq_ofInt (a : Dword) : lowW a = BitVec.ofInt 32 a.toInt := by
  apply BitVec.eq_of_toInt_eq
  rw [lowW_toInt, BitVec.toInt_ofInt]; rfl
theorem lowW_eq_ofNat (a : Dword) : lowW a = BitVec.ofNat 32 a.toNat := by
  apply BitVec.eq_of_toNat_eq
  rw [lowW_toNat, BitVec.toNat_ofNat]; rfl
theorem ofInt_toInt64 (a : Dword) : BitVec.ofInt 64 a.toInt = a := BitVec.ofInt_toInt
theorem dword_add (a b : Dword) : a + b = wrap64 (a.toInt + b.toInt) := by simp [wrap64, BitVec.ofInt_add]
theorem dword_sub (a b : Dword) : a - b = wrap64 (a.toInt - b.toInt) := by
  simp [wrap64, Int.sub_eq_add_neg, BitVec.ofInt_add, BitVec.ofInt_neg, BitVec.sub_eq_add_neg]
theorem dword_shl (a : Dword) (n : Nat) : a <<< n = wrap64 (a.toNat * 2 ^ n : Int) := by
  apply BitVec.eq_of_toNat_eq
  rw [wrap64, BitVec.toNat_shiftLeft, BitVec.toNat_ofInt, Nat.shiftLeft_eq]
  norm_cast
theorem dword_shr (a : Dword) (n : Nat) : a >>> n = wrap64 (a.toNat / 2 ^ n : Int) := by
  apply BitVec.eq_of_toNat_eq
  rw [wrap64, BitVec.toNat_ushiftRight, BitVec.toNat_ofInt, Nat.shiftRight_eq_div_pow]
  have : a.toNat / 2 ^ n < 2 ^ 64 := Nat.lt_of_le_of_lt (Nat.div_le_self _ _) a.isLt
  norm_cast
  rw [Nat.mod_eq_of_lt this]
theorem dword_sar (a : Dword) (n : Nat) : a.sshiftRight n = wrap64 (a.toInt / 2 ^ n) := by
  unfold BitVec.sshiftRight wrap64
  rw [Int.shiftRight_eq_div_pow]; norm_cast
theorem dword_slt (a b : Dword) : boolX (a.slt b) = truth (a.toInt < b.toInt) := by
  unfold boolX truth BitVec.slt; simp
theorem dword_sltu (a b : Dword) : boolX (a.ult b) = truth (a.toNat < b.toNat) := by
  unfold boolX truth BitVec.ult; simp
theorem word_add (a b : Dword) : onW (fun a b => a + b) a b = wrap32 (a.toInt + b.toInt) := by
  apply signExtend_eq_wrap32; simp [lowW_eq_ofInt, BitVec.ofInt_add]
theorem word_sub (a b : Dword) : onW (fun a b => a - b) a b = wrap32 (a.toInt - b.toInt) := by
  apply signExtend_eq_wrap32; simp [lowW_eq_ofInt, Int.sub_eq_add_neg, BitVec.ofInt_add, BitVec.ofInt_neg, BitVec.sub_eq_add_neg]
theorem word_mul (a b : Dword) : onW (fun a b => a * b) a b = wrap32 (a.toInt * b.toInt) := by
  apply signExtend_eq_wrap32; simp [lowW_eq_ofInt, BitVec.ofInt_mul]
theorem word_shl (a : Dword) (n : Nat) : ((lowW a) <<< n).signExtend 64 = wrap32 (a.toNat * 2 ^ n : Int) := by
  apply signExtend_eq_wrap32
  apply BitVec.eq_of_toNat_eq
  rw [BitVec.toNat_shiftLeft, BitVec.toNat_ofInt, Nat.shiftLeft_eq, lowW_toNat]
  unfold lowNat; norm_cast; simp [Nat.mod_mul_mod]
theorem word_shr (a : Dword) (n : Nat) : ((lowW a) >>> n).signExtend 64 = wrap32 (lowNat a / 2 ^ n : Int) := by
  apply signExtend_eq_wrap32
  apply BitVec.eq_of_toNat_eq
  rw [BitVec.toNat_ushiftRight, BitVec.toNat_ofInt, Nat.shiftRight_eq_div_pow, lowW_toNat]
  have : lowNat a / 2 ^ n < 2 ^ 32 := Nat.lt_of_le_of_lt (Nat.div_le_self _ _) (Nat.mod_lt _ (by decide))
  norm_cast; rw [Nat.mod_eq_of_lt this]
theorem word_sar (a : Dword) (n : Nat) : ((lowW a).sshiftRight n).signExtend 64 = wrap32 (lowInt a / 2 ^ n) := by
  apply signExtend_eq_wrap32
  unfold BitVec.sshiftRight
  rw [Int.shiftRight_eq_div_pow, lowW_toInt]; norm_cast
theorem lowW_shamt (b : Dword) : (lowW b).toNat % 32 = b.toNat % 32 := by rw [lowW_toNat]; unfold lowNat; omega
theorem dword_mul (a b : Dword) : a * b = wrap64 (a.toInt * b.toInt) := by simp [wrap64, BitVec.ofInt_mul]
theorem toInt_eq_zero {w} (b : BitVec w) : b.toInt = 0 ↔ b = 0 := by
  rw [← BitVec.toInt_inj]; simp
theorem remS_eq {w} (a b : BitVec w) : remS a b = BitVec.ofInt w (a.toInt.tmod b.toInt) := by
  unfold remS
  split
  · rename_i h; subst h; simp
  · rw [← BitVec.toInt_srem, BitVec.ofInt_toInt]
theorem divU_eq {w} (a b : BitVec w) : divU a b = if b.toNat = 0 then BitVec.ofInt w (-1) else BitVec.ofInt w (a.toNat / b.toNat : Int) := by
  unfold divU
  have : b.toNat = 0 ↔ b = 0 := by rw [← BitVec.toNat_inj]; simp
  simp only [this]
  split
  · simp [BitVec.ofInt_neg, BitVec.neg_one_eq_allOnes]
  · apply BitVec.eq_of_toNat_eq
    rw [BitVec.toNat_udiv, BitVec.toNat_ofInt]
    have : a.toNat / b.toNat < 2 ^ w := Nat.lt_of_le_of_lt (Nat.div_le_self _ _) a.isLt
    norm_cast; rw [Nat.mod_eq_of_lt this]
theorem remU_eq {w} (a b : BitVec w) : remU a b = BitVec.ofInt w (a.toNat % b.toNat : Int) := by
  unfold remU
  split
  · rename_i h; subst h; simp
  · apply BitVec.eq_of_toNat_eq
    rw [BitVec.toNat_umod, BitVec.toNat_ofInt]
    have : a.toNat % b.toNat < 2 ^ w := Nat.lt_of_le_of_lt (Nat.mod_le _ _) a.isLt
    norm_cast; rw [Nat.mod_eq_of_lt this]
theorem sext64_eq {w} (i : BitVec w) : sext64 i = wrap64 i.toInt := rfl
theorem sext64_toInt (i : BitVec 12) : (sext64 i).toInt = i.toInt := by
  unfold sext64; exact BitVec.toInt_signExtend_of_le (by decide)
theorem wrap64_add (m n : Int) : wrap64 m + wrap64 n = wrap64 (m + n) := by simp [wrap64, BitVec.ofInt_add]
theorem eq_wrap64_toInt (a : Dword) : a = wrap64 a.toInt := BitVec.ofInt_toInt.symm
theorem upper_eq (up : BitVec 20) : (sext64 (up ++ 0#12)) = wrap64 (up.toInt * 4096) := by
  have : (up ++ 0#12).toInt = up.toInt * 4096 := by
    rw [BitVec.toInt_append]; simp; omega
  rw [sext64_eq, this]
theorem wrap64_even (n : Int) : wrap64 n &&& ~~~1#64 = evenPart n := by
  apply BitVec.eq_of_toNat_eq
  have e : (wrap64 n &&& ~~~1#64) = (wrap64 n >>> 1) <<< 1 := by
    generalize wrap64 n = v
    ext i hi
    simp only [BitVec.getElem_and, BitVec.getElem_not, BitVec.getElem_shiftLeft, BitVec.getElem_one]
    by_cases h0 : i = 0
    · simp [h0]
    · have : ¬ i < 1 := by omega
      simp [h0, this]
      rw [BitVec.getElem_eq_testBit_toNat, BitVec.getLsbD]; congr 1; omega
  rw [e, evenPart, BitVec.toNat_shiftLeft, BitVec.toNat_ushiftRight, wrap64, BitVec.toNat_ofInt, BitVec.toNat_ofInt, Nat.shiftLeft_eq,
    Nat.shiftRight_eq_div_pow]
  omega
theorem target_eq (s : State) {n : Nat} (off : BitVec n) : s.target off = wrap64 (s.me.pc.toInt + 2 * off.toInt) := by
  unfold State.target
  have : sext64 off <<< 1 = wrap64 (2 * off.toInt) := by
    apply BitVec.eq_of_toNat_eq
    rw [sext64_eq, wrap64, wrap64, BitVec.toNat_shiftLeft, BitVec.toNat_ofInt, BitVec.toNat_ofInt, Nat.shiftLeft_eq]
    omega
  rw [this, ← wrap64_add, ← eq_wrap64_toInt]
theorem zext64_toNat {n} (i : BitVec n) (h : n ≤ 11) : (zext64 i).toNat = i.toNat := by
  have := i.isLt
  simp only [zext64, BitVec.toNat_setWidth]; rw [Nat.mod_eq_of_lt]; calc _ < 2^n := this
    _ ≤ 2^64 := Nat.pow_le_pow_right (by decide) (by omega)
theorem uimm_eq {n} (i : BitVec n) (h : n ≤ 11) (k : Nat) (hk : k ≤ 3) : (uimm i k).toNat = 2^k * i.toNat := by
  have := i.isLt
  have h2 : i.toNat < 2 ^ 11 := Nat.lt_of_lt_of_le this (Nat.pow_le_pow_right (by decide) h)
  unfold uimm; rw [BitVec.toNat_shiftLeft, zext64_toNat _ h, Nat.shiftLeft_eq]
  have : 2 ^ k ≤ 8 := by interval_cases k <;> decide
  rw [Nat.mod_eq_of_lt]; ring
  nlinarith
theorem divS_eq {w} (a b : BitVec w) : divS a b = if b = 0 then BitVec.ofInt w (-1) else BitVec.ofInt w (a.toInt.tdiv b.toInt) := by
  unfold divS
  split
  · simp [BitVec.ofInt_neg, BitVec.neg_one_eq_allOnes]
  · rw [← BitVec.ofInt_toInt (x := a.sdiv b), BitVec.toInt_sdiv]
    apply BitVec.eq_of_toInt_eq
    simp [BitVec.toInt_ofInt]
theorem simm6_shl (i : BitVec 6) (k : Nat) : simm6 i <<< k = wrap64 (2 ^ k * i.toInt) := by
  unfold simm6 wrap64
  rw [show sext64 i = BitVec.ofInt 64 i.toInt from rfl]
  apply BitVec.eq_of_toInt_eq
  rw [BitVec.toInt_shiftLeft, BitVec.toInt_ofInt, BitVec.toNat_ofInt, Nat.shiftLeft_eq]
  push_cast
  rw [Int.toNat_of_nonneg (Int.emod_nonneg _ (by decide)), Int.mul_comm]
  have h : (i.toInt % 18446744073709551616).bmod 18446744073709551616 = i.toInt.bmod 18446744073709551616 := Int.emod_bmod ..
  simp [Int.mul_bmod, h]
/-- The exception bits of a result. -/
theorem flagBits_eq (f : FFlags) : flagBits f = exceptionBits f := by
  obtain ⟨a, b, c, d, e⟩ := f; revert a b c d e; decide
/-- The rounding mode that an instruction names. -/
theorem rmodeOf_eq (rm frm : BitVec 3) : rmodeOf rm frm = roundingMode rm frm := by revert rm frm; decide

end Sys2Proof.Machine
end

