-- ==== Sys2Proof/Laws/KMap.lean ====
section
/-! SUPPORT. The laws of sparse tables: a read after a write, and that a write leaves every other key alone. -/
namespace Sys2Proof.Machine

@[simp] theorem kget_kset_same {α : Type} (d x : α) (j : Nat) (m : KMap α) : kget d (kset j x m) j = x := by
  induction m with
  | nil => simp [kset, kget]
  | cons p r ih =>
    obtain ⟨k, v⟩ := p
    simp only [kset]
    split
    · simp [kget]
    · split
      · simp [kget]
      · next h1 h2 => simp [kget, h2, ih]

theorem kget_kset_other {α : Type} (d x : α) (i j : Nat) (m : KMap α) (h : i ≠ j) :
    kget d (kset j x m) i = kget d m i := by
  induction m with
  | nil => simp [kset, kget, h]
  | cons p r ih =>
    obtain ⟨k, v⟩ := p
    simp only [kset]
    split
    · simp [kget, h]
    · split
      · next h2 => subst h2; simp [kget, h]
      · simp [kget, ih]

theorem kget_kset {α : Type} (d x : α) (i j : Nat) (m : KMap α) :
    kget d (kset j x m) i = if i = j then x else kget d m i := by
  split
  · next h => subst h; simp
  · next h => exact kget_kset_other d x i j m h

@[simp] theorem kget_kdel_same {α : Type} (d : α) (j : Nat) (m : KMap α) : kget d (kdel j m) j = d := by
  induction m with
  | nil => rfl
  | cons p r ih =>
    obtain ⟨k, v⟩ := p
    by_cases h : k = j
    · subst h; simpa [kdel, kget] using ih
    · have h' : j ≠ k := fun e => h e.symm
      simpa [kdel, kget, h, h'] using ih

theorem kget_kdel_other {α : Type} (d : α) (i j : Nat) (m : KMap α) (h : i ≠ j) :
    kget d (kdel j m) i = kget d m i := by
  induction m with
  | nil => rfl
  | cons p r ih =>
    obtain ⟨k, v⟩ := p
    by_cases hk : k = j
    · subst hk; simpa [kdel, kget, h] using ih
    · by_cases hi : i = k
      · subst hi; simp [kdel, kget, hk]
      · simpa [kdel, kget, hk, hi] using ih

@[simp] theorem kfind_kset_same {α : Type} (x : α) (j : Nat) (m : KMap α) : kfind (kset j x m) j = some x := by
  induction m with
  | nil => simp [kset, kfind]
  | cons p r ih =>
    obtain ⟨k, v⟩ := p
    simp only [kset]
    split
    · simp [kfind]
    · split
      · simp [kfind]
      · next h1 h2 => simp [kfind, h2, ih]

theorem kfind_kset_other {α : Type} (x : α) (i j : Nat) (m : KMap α) (h : i ≠ j) :
    kfind (kset j x m) i = kfind m i := by
  induction m with
  | nil => simp [kset, kfind, h]
  | cons p r ih =>
    obtain ⟨k, v⟩ := p
    simp only [kset]
    split
    · simp [kfind, h]
    · split
      · next h2 => subst h2; simp [kfind, h]
      · simp [kfind, ih]

theorem kset_kset {α : Type} (j : Nat) (x y : α) (m : KMap α) : kset j x (kset j y m) = kset j x m := by
  induction m with
  | nil => simp [kset]
  | cons p r ih =>
    obtain ⟨k, v⟩ := p
    by_cases h1 : j < k
    · simp [kset, h1]
    · by_cases h2 : j = k
      · simp [kset, h2]
      · simp [kset, h1, h2, ih]

end Sys2Proof.Machine
end

