-- ==== Sys2Proof/Laws/State.lean ====
section
/-! SUPPORT. The fields of the state after each update: one lemma per field and update, so that no proof unfolds a record update. -/
namespace Sys2Proof.Machine

@[simp] theorem mem_setSlotAt (s : State) (k : Nat) (t : Slot) : (s.setSlotAt k t).mem = s.mem := rfl
@[simp] theorem poison_setSlotAt (s : State) (k : Nat) (t : Slot) : (s.setSlotAt k t).poison = s.poison := rfl
@[simp] theorem cores_setSlotAt (s : State) (k : Nat) (t : Slot) : (s.setSlotAt k t).cores = s.cores := rfl
@[simp] theorem quads_setSlotAt (s : State) (k : Nat) (t : Slot) : (s.setSlotAt k t).quads = s.quads := rfl
@[simp] theorem clusters_setSlotAt (s : State) (k : Nat) (t : Slot) : (s.setSlotAt k t).clusters = s.clusters := rfl
@[simp] theorem gangs_setSlotAt (s : State) (k : Nat) (t : Slot) : (s.setSlotAt k t).gangs = s.gangs := rfl
@[simp] theorem nis_setSlotAt (s : State) (k : Nat) (t : Slot) : (s.setSlotAt k t).nis = s.nis := rfl
@[simp] theorem links_setSlotAt (s : State) (k : Nat) (t : Slot) : (s.setSlotAt k t).links = s.links := rfl
@[simp] theorem net_setSlotAt (s : State) (k : Nat) (t : Slot) : (s.setSlotAt k t).net = s.net := rfl
@[simp] theorem nextPkt_setSlotAt (s : State) (k : Nat) (t : Slot) : (s.setSlotAt k t).nextPkt = s.nextPkt := rfl
@[simp] theorem owners_setSlotAt (s : State) (k : Nat) (t : Slot) : (s.setSlotAt k t).owners = s.owners := rfl
@[simp] theorem nextTag_setSlotAt (s : State) (k : Nat) (t : Slot) : (s.setSlotAt k t).nextTag = s.nextTag := rfl
@[simp] theorem gateway_setSlotAt (s : State) (k : Nat) (t : Slot) : (s.setSlotAt k t).gateway = s.gateway := rfl
@[simp] theorem starter_setSlotAt (s : State) (k : Nat) (t : Slot) : (s.setSlotAt k t).starter = s.starter := rfl
@[simp] theorem boot_setSlotAt (s : State) (k : Nat) (t : Slot) : (s.setSlotAt k t).boot = s.boot := rfl
@[simp] theorem pkg_setSlotAt (s : State) (k : Nat) (t : Slot) : (s.setSlotAt k t).pkg = s.pkg := rfl
@[simp] theorem relay_setSlotAt (s : State) (k : Nat) (t : Slot) : (s.setSlotAt k t).relay = s.relay := rfl
@[simp] theorem cyc_setSlotAt (s : State) (k : Nat) (t : Slot) : (s.setSlotAt k t).cyc = s.cyc := rfl
@[simp] theorem farReserved_setSlotAt (s : State) (k : Nat) (t : Slot) : (s.setSlotAt k t).farReserved = s.farReserved := rfl
@[simp] theorem swc_setSlotAt (s : State) (k : Nat) (t : Slot) : (s.setSlotAt k t).swc = s.swc := rfl
@[simp] theorem focus_setSlotAt (s : State) (k : Nat) (t : Slot) : (s.setSlotAt k t).focus = s.focus := rfl
@[simp] theorem agenda_setSlotAt (s : State) (k : Nat) (t : Slot) : (s.setSlotAt k t).agenda = s.agenda := rfl
@[simp] theorem fresh_setSlotAt (s : State) (k : Nat) (t : Slot) : (s.setSlotAt k t).fresh = s.fresh := rfl
@[simp] theorem saved_setSlotAt (s : State) (k : Nat) (t : Slot) : (s.setSlotAt k t).saved = s.saved := rfl

@[simp] theorem mem_setMe (s : State) (t : Slot) : (s.setMe t).mem = s.mem := rfl
@[simp] theorem poison_setMe (s : State) (t : Slot) : (s.setMe t).poison = s.poison := rfl
@[simp] theorem cores_setMe (s : State) (t : Slot) : (s.setMe t).cores = s.cores := rfl
@[simp] theorem quads_setMe (s : State) (t : Slot) : (s.setMe t).quads = s.quads := rfl
@[simp] theorem clusters_setMe (s : State) (t : Slot) : (s.setMe t).clusters = s.clusters := rfl
@[simp] theorem gangs_setMe (s : State) (t : Slot) : (s.setMe t).gangs = s.gangs := rfl
@[simp] theorem nis_setMe (s : State) (t : Slot) : (s.setMe t).nis = s.nis := rfl
@[simp] theorem links_setMe (s : State) (t : Slot) : (s.setMe t).links = s.links := rfl
@[simp] theorem net_setMe (s : State) (t : Slot) : (s.setMe t).net = s.net := rfl
@[simp] theorem nextPkt_setMe (s : State) (t : Slot) : (s.setMe t).nextPkt = s.nextPkt := rfl
@[simp] theorem owners_setMe (s : State) (t : Slot) : (s.setMe t).owners = s.owners := rfl
@[simp] theorem nextTag_setMe (s : State) (t : Slot) : (s.setMe t).nextTag = s.nextTag := rfl
@[simp] theorem gateway_setMe (s : State) (t : Slot) : (s.setMe t).gateway = s.gateway := rfl
@[simp] theorem starter_setMe (s : State) (t : Slot) : (s.setMe t).starter = s.starter := rfl
@[simp] theorem boot_setMe (s : State) (t : Slot) : (s.setMe t).boot = s.boot := rfl
@[simp] theorem pkg_setMe (s : State) (t : Slot) : (s.setMe t).pkg = s.pkg := rfl
@[simp] theorem relay_setMe (s : State) (t : Slot) : (s.setMe t).relay = s.relay := rfl
@[simp] theorem cyc_setMe (s : State) (t : Slot) : (s.setMe t).cyc = s.cyc := rfl
@[simp] theorem farReserved_setMe (s : State) (t : Slot) : (s.setMe t).farReserved = s.farReserved := rfl
@[simp] theorem swc_setMe (s : State) (t : Slot) : (s.setMe t).swc = s.swc := rfl
@[simp] theorem focus_setMe (s : State) (t : Slot) : (s.setMe t).focus = s.focus := rfl
@[simp] theorem agenda_setMe (s : State) (t : Slot) : (s.setMe t).agenda = s.agenda := rfl
@[simp] theorem fresh_setMe (s : State) (t : Slot) : (s.setMe t).fresh = s.fresh := rfl
@[simp] theorem saved_setMe (s : State) (t : Slot) : (s.setMe t).saved = s.saved := rfl

@[simp] theorem mem_setCore (s : State) (cid : Nat) (c : Core) : (s.setCore cid c).mem = s.mem := rfl
@[simp] theorem poison_setCore (s : State) (cid : Nat) (c : Core) : (s.setCore cid c).poison = s.poison := rfl
@[simp] theorem slots_setCore (s : State) (cid : Nat) (c : Core) : (s.setCore cid c).slots = s.slots := rfl
@[simp] theorem quads_setCore (s : State) (cid : Nat) (c : Core) : (s.setCore cid c).quads = s.quads := rfl
@[simp] theorem clusters_setCore (s : State) (cid : Nat) (c : Core) : (s.setCore cid c).clusters = s.clusters := rfl
@[simp] theorem gangs_setCore (s : State) (cid : Nat) (c : Core) : (s.setCore cid c).gangs = s.gangs := rfl
@[simp] theorem nis_setCore (s : State) (cid : Nat) (c : Core) : (s.setCore cid c).nis = s.nis := rfl
@[simp] theorem links_setCore (s : State) (cid : Nat) (c : Core) : (s.setCore cid c).links = s.links := rfl
@[simp] theorem net_setCore (s : State) (cid : Nat) (c : Core) : (s.setCore cid c).net = s.net := rfl
@[simp] theorem nextPkt_setCore (s : State) (cid : Nat) (c : Core) : (s.setCore cid c).nextPkt = s.nextPkt := rfl
@[simp] theorem owners_setCore (s : State) (cid : Nat) (c : Core) : (s.setCore cid c).owners = s.owners := rfl
@[simp] theorem nextTag_setCore (s : State) (cid : Nat) (c : Core) : (s.setCore cid c).nextTag = s.nextTag := rfl
@[simp] theorem gateway_setCore (s : State) (cid : Nat) (c : Core) : (s.setCore cid c).gateway = s.gateway := rfl
@[simp] theorem starter_setCore (s : State) (cid : Nat) (c : Core) : (s.setCore cid c).starter = s.starter := rfl
@[simp] theorem boot_setCore (s : State) (cid : Nat) (c : Core) : (s.setCore cid c).boot = s.boot := rfl
@[simp] theorem pkg_setCore (s : State) (cid : Nat) (c : Core) : (s.setCore cid c).pkg = s.pkg := rfl
@[simp] theorem relay_setCore (s : State) (cid : Nat) (c : Core) : (s.setCore cid c).relay = s.relay := rfl
@[simp] theorem cyc_setCore (s : State) (cid : Nat) (c : Core) : (s.setCore cid c).cyc = s.cyc := rfl
@[simp] theorem farReserved_setCore (s : State) (cid : Nat) (c : Core) : (s.setCore cid c).farReserved = s.farReserved := rfl
@[simp] theorem swc_setCore (s : State) (cid : Nat) (c : Core) : (s.setCore cid c).swc = s.swc := rfl
@[simp] theorem focus_setCore (s : State) (cid : Nat) (c : Core) : (s.setCore cid c).focus = s.focus := rfl
@[simp] theorem agenda_setCore (s : State) (cid : Nat) (c : Core) : (s.setCore cid c).agenda = s.agenda := rfl
@[simp] theorem fresh_setCore (s : State) (cid : Nat) (c : Core) : (s.setCore cid c).fresh = s.fresh := rfl
@[simp] theorem saved_setCore (s : State) (cid : Nat) (c : Core) : (s.setCore cid c).saved = s.saved := rfl

@[simp] theorem mem_setQuad (s : State) (q : Nat) (x : Quad) : (s.setQuad q x).mem = s.mem := rfl
@[simp] theorem poison_setQuad (s : State) (q : Nat) (x : Quad) : (s.setQuad q x).poison = s.poison := rfl
@[simp] theorem slots_setQuad (s : State) (q : Nat) (x : Quad) : (s.setQuad q x).slots = s.slots := rfl
@[simp] theorem cores_setQuad (s : State) (q : Nat) (x : Quad) : (s.setQuad q x).cores = s.cores := rfl
@[simp] theorem clusters_setQuad (s : State) (q : Nat) (x : Quad) : (s.setQuad q x).clusters = s.clusters := rfl
@[simp] theorem gangs_setQuad (s : State) (q : Nat) (x : Quad) : (s.setQuad q x).gangs = s.gangs := rfl
@[simp] theorem nis_setQuad (s : State) (q : Nat) (x : Quad) : (s.setQuad q x).nis = s.nis := rfl
@[simp] theorem links_setQuad (s : State) (q : Nat) (x : Quad) : (s.setQuad q x).links = s.links := rfl
@[simp] theorem net_setQuad (s : State) (q : Nat) (x : Quad) : (s.setQuad q x).net = s.net := rfl
@[simp] theorem nextPkt_setQuad (s : State) (q : Nat) (x : Quad) : (s.setQuad q x).nextPkt = s.nextPkt := rfl
@[simp] theorem owners_setQuad (s : State) (q : Nat) (x : Quad) : (s.setQuad q x).owners = s.owners := rfl
@[simp] theorem nextTag_setQuad (s : State) (q : Nat) (x : Quad) : (s.setQuad q x).nextTag = s.nextTag := rfl
@[simp] theorem gateway_setQuad (s : State) (q : Nat) (x : Quad) : (s.setQuad q x).gateway = s.gateway := rfl
@[simp] theorem starter_setQuad (s : State) (q : Nat) (x : Quad) : (s.setQuad q x).starter = s.starter := rfl
@[simp] theorem boot_setQuad (s : State) (q : Nat) (x : Quad) : (s.setQuad q x).boot = s.boot := rfl
@[simp] theorem pkg_setQuad (s : State) (q : Nat) (x : Quad) : (s.setQuad q x).pkg = s.pkg := rfl
@[simp] theorem relay_setQuad (s : State) (q : Nat) (x : Quad) : (s.setQuad q x).relay = s.relay := rfl
@[simp] theorem cyc_setQuad (s : State) (q : Nat) (x : Quad) : (s.setQuad q x).cyc = s.cyc := rfl
@[simp] theorem farReserved_setQuad (s : State) (q : Nat) (x : Quad) : (s.setQuad q x).farReserved = s.farReserved := rfl
@[simp] theorem swc_setQuad (s : State) (q : Nat) (x : Quad) : (s.setQuad q x).swc = s.swc := rfl
@[simp] theorem focus_setQuad (s : State) (q : Nat) (x : Quad) : (s.setQuad q x).focus = s.focus := rfl
@[simp] theorem agenda_setQuad (s : State) (q : Nat) (x : Quad) : (s.setQuad q x).agenda = s.agenda := rfl
@[simp] theorem fresh_setQuad (s : State) (q : Nat) (x : Quad) : (s.setQuad q x).fresh = s.fresh := rfl
@[simp] theorem saved_setQuad (s : State) (q : Nat) (x : Quad) : (s.setQuad q x).saved = s.saved := rfl

@[simp] theorem mem_setCluster (s : State) (p : Nat) (c : Cluster) : (s.setCluster p c).mem = s.mem := rfl
@[simp] theorem poison_setCluster (s : State) (p : Nat) (c : Cluster) : (s.setCluster p c).poison = s.poison := rfl
@[simp] theorem slots_setCluster (s : State) (p : Nat) (c : Cluster) : (s.setCluster p c).slots = s.slots := rfl
@[simp] theorem cores_setCluster (s : State) (p : Nat) (c : Cluster) : (s.setCluster p c).cores = s.cores := rfl
@[simp] theorem quads_setCluster (s : State) (p : Nat) (c : Cluster) : (s.setCluster p c).quads = s.quads := rfl
@[simp] theorem gangs_setCluster (s : State) (p : Nat) (c : Cluster) : (s.setCluster p c).gangs = s.gangs := rfl
@[simp] theorem nis_setCluster (s : State) (p : Nat) (c : Cluster) : (s.setCluster p c).nis = s.nis := rfl
@[simp] theorem links_setCluster (s : State) (p : Nat) (c : Cluster) : (s.setCluster p c).links = s.links := rfl
@[simp] theorem net_setCluster (s : State) (p : Nat) (c : Cluster) : (s.setCluster p c).net = s.net := rfl
@[simp] theorem nextPkt_setCluster (s : State) (p : Nat) (c : Cluster) : (s.setCluster p c).nextPkt = s.nextPkt := rfl
@[simp] theorem owners_setCluster (s : State) (p : Nat) (c : Cluster) : (s.setCluster p c).owners = s.owners := rfl
@[simp] theorem nextTag_setCluster (s : State) (p : Nat) (c : Cluster) : (s.setCluster p c).nextTag = s.nextTag := rfl
@[simp] theorem gateway_setCluster (s : State) (p : Nat) (c : Cluster) : (s.setCluster p c).gateway = s.gateway := rfl
@[simp] theorem starter_setCluster (s : State) (p : Nat) (c : Cluster) : (s.setCluster p c).starter = s.starter := rfl
@[simp] theorem boot_setCluster (s : State) (p : Nat) (c : Cluster) : (s.setCluster p c).boot = s.boot := rfl
@[simp] theorem pkg_setCluster (s : State) (p : Nat) (c : Cluster) : (s.setCluster p c).pkg = s.pkg := rfl
@[simp] theorem relay_setCluster (s : State) (p : Nat) (c : Cluster) : (s.setCluster p c).relay = s.relay := rfl
@[simp] theorem cyc_setCluster (s : State) (p : Nat) (c : Cluster) : (s.setCluster p c).cyc = s.cyc := rfl
@[simp] theorem farReserved_setCluster (s : State) (p : Nat) (c : Cluster) : (s.setCluster p c).farReserved = s.farReserved := rfl
@[simp] theorem swc_setCluster (s : State) (p : Nat) (c : Cluster) : (s.setCluster p c).swc = s.swc := rfl
@[simp] theorem focus_setCluster (s : State) (p : Nat) (c : Cluster) : (s.setCluster p c).focus = s.focus := rfl
@[simp] theorem agenda_setCluster (s : State) (p : Nat) (c : Cluster) : (s.setCluster p c).agenda = s.agenda := rfl
@[simp] theorem fresh_setCluster (s : State) (p : Nat) (c : Cluster) : (s.setCluster p c).fresh = s.fresh := rfl
@[simp] theorem saved_setCluster (s : State) (p : Nat) (c : Cluster) : (s.setCluster p c).saved = s.saved := rfl

@[simp] theorem mem_setNi (s : State) (d : Nat) (n : Ni) : (s.setNi d n).mem = s.mem := rfl
@[simp] theorem poison_setNi (s : State) (d : Nat) (n : Ni) : (s.setNi d n).poison = s.poison := rfl
@[simp] theorem slots_setNi (s : State) (d : Nat) (n : Ni) : (s.setNi d n).slots = s.slots := rfl
@[simp] theorem cores_setNi (s : State) (d : Nat) (n : Ni) : (s.setNi d n).cores = s.cores := rfl
@[simp] theorem quads_setNi (s : State) (d : Nat) (n : Ni) : (s.setNi d n).quads = s.quads := rfl
@[simp] theorem clusters_setNi (s : State) (d : Nat) (n : Ni) : (s.setNi d n).clusters = s.clusters := rfl
@[simp] theorem gangs_setNi (s : State) (d : Nat) (n : Ni) : (s.setNi d n).gangs = s.gangs := rfl
@[simp] theorem links_setNi (s : State) (d : Nat) (n : Ni) : (s.setNi d n).links = s.links := rfl
@[simp] theorem net_setNi (s : State) (d : Nat) (n : Ni) : (s.setNi d n).net = s.net := rfl
@[simp] theorem nextPkt_setNi (s : State) (d : Nat) (n : Ni) : (s.setNi d n).nextPkt = s.nextPkt := rfl
@[simp] theorem owners_setNi (s : State) (d : Nat) (n : Ni) : (s.setNi d n).owners = s.owners := rfl
@[simp] theorem nextTag_setNi (s : State) (d : Nat) (n : Ni) : (s.setNi d n).nextTag = s.nextTag := rfl
@[simp] theorem gateway_setNi (s : State) (d : Nat) (n : Ni) : (s.setNi d n).gateway = s.gateway := rfl
@[simp] theorem starter_setNi (s : State) (d : Nat) (n : Ni) : (s.setNi d n).starter = s.starter := rfl
@[simp] theorem boot_setNi (s : State) (d : Nat) (n : Ni) : (s.setNi d n).boot = s.boot := rfl
@[simp] theorem pkg_setNi (s : State) (d : Nat) (n : Ni) : (s.setNi d n).pkg = s.pkg := rfl
@[simp] theorem relay_setNi (s : State) (d : Nat) (n : Ni) : (s.setNi d n).relay = s.relay := rfl
@[simp] theorem cyc_setNi (s : State) (d : Nat) (n : Ni) : (s.setNi d n).cyc = s.cyc := rfl
@[simp] theorem farReserved_setNi (s : State) (d : Nat) (n : Ni) : (s.setNi d n).farReserved = s.farReserved := rfl
@[simp] theorem swc_setNi (s : State) (d : Nat) (n : Ni) : (s.setNi d n).swc = s.swc := rfl
@[simp] theorem focus_setNi (s : State) (d : Nat) (n : Ni) : (s.setNi d n).focus = s.focus := rfl
@[simp] theorem agenda_setNi (s : State) (d : Nat) (n : Ni) : (s.setNi d n).agenda = s.agenda := rfl
@[simp] theorem fresh_setNi (s : State) (d : Nat) (n : Ni) : (s.setNi d n).fresh = s.fresh := rfl
@[simp] theorem saved_setNi (s : State) (d : Nat) (n : Ni) : (s.setNi d n).saved = s.saved := rfl

@[simp] theorem mem_setLink (s : State) (a b : Nat) (l : Link) : (s.setLink a b l).mem = s.mem := rfl
@[simp] theorem poison_setLink (s : State) (a b : Nat) (l : Link) : (s.setLink a b l).poison = s.poison := rfl
@[simp] theorem slots_setLink (s : State) (a b : Nat) (l : Link) : (s.setLink a b l).slots = s.slots := rfl
@[simp] theorem cores_setLink (s : State) (a b : Nat) (l : Link) : (s.setLink a b l).cores = s.cores := rfl
@[simp] theorem quads_setLink (s : State) (a b : Nat) (l : Link) : (s.setLink a b l).quads = s.quads := rfl
@[simp] theorem clusters_setLink (s : State) (a b : Nat) (l : Link) : (s.setLink a b l).clusters = s.clusters := rfl
@[simp] theorem gangs_setLink (s : State) (a b : Nat) (l : Link) : (s.setLink a b l).gangs = s.gangs := rfl
@[simp] theorem nis_setLink (s : State) (a b : Nat) (l : Link) : (s.setLink a b l).nis = s.nis := rfl
@[simp] theorem net_setLink (s : State) (a b : Nat) (l : Link) : (s.setLink a b l).net = s.net := rfl
@[simp] theorem nextPkt_setLink (s : State) (a b : Nat) (l : Link) : (s.setLink a b l).nextPkt = s.nextPkt := rfl
@[simp] theorem owners_setLink (s : State) (a b : Nat) (l : Link) : (s.setLink a b l).owners = s.owners := rfl
@[simp] theorem nextTag_setLink (s : State) (a b : Nat) (l : Link) : (s.setLink a b l).nextTag = s.nextTag := rfl
@[simp] theorem gateway_setLink (s : State) (a b : Nat) (l : Link) : (s.setLink a b l).gateway = s.gateway := rfl
@[simp] theorem starter_setLink (s : State) (a b : Nat) (l : Link) : (s.setLink a b l).starter = s.starter := rfl
@[simp] theorem boot_setLink (s : State) (a b : Nat) (l : Link) : (s.setLink a b l).boot = s.boot := rfl
@[simp] theorem pkg_setLink (s : State) (a b : Nat) (l : Link) : (s.setLink a b l).pkg = s.pkg := rfl
@[simp] theorem relay_setLink (s : State) (a b : Nat) (l : Link) : (s.setLink a b l).relay = s.relay := rfl
@[simp] theorem cyc_setLink (s : State) (a b : Nat) (l : Link) : (s.setLink a b l).cyc = s.cyc := rfl
@[simp] theorem farReserved_setLink (s : State) (a b : Nat) (l : Link) : (s.setLink a b l).farReserved = s.farReserved := rfl
@[simp] theorem swc_setLink (s : State) (a b : Nat) (l : Link) : (s.setLink a b l).swc = s.swc := rfl
@[simp] theorem focus_setLink (s : State) (a b : Nat) (l : Link) : (s.setLink a b l).focus = s.focus := rfl
@[simp] theorem agenda_setLink (s : State) (a b : Nat) (l : Link) : (s.setLink a b l).agenda = s.agenda := rfl
@[simp] theorem fresh_setLink (s : State) (a b : Nat) (l : Link) : (s.setLink a b l).fresh = s.fresh := rfl
@[simp] theorem saved_setLink (s : State) (a b : Nat) (l : Link) : (s.setLink a b l).saved = s.saved := rfl

@[simp] theorem mem_setPower (s : State) (d : Nat) (p : Power) : (s.setPower d p).mem = s.mem := rfl
@[simp] theorem poison_setPower (s : State) (d : Nat) (p : Power) : (s.setPower d p).poison = s.poison := rfl
@[simp] theorem slots_setPower (s : State) (d : Nat) (p : Power) : (s.setPower d p).slots = s.slots := rfl
@[simp] theorem cores_setPower (s : State) (d : Nat) (p : Power) : (s.setPower d p).cores = s.cores := rfl
@[simp] theorem quads_setPower (s : State) (d : Nat) (p : Power) : (s.setPower d p).quads = s.quads := rfl
@[simp] theorem clusters_setPower (s : State) (d : Nat) (p : Power) : (s.setPower d p).clusters = s.clusters := rfl
@[simp] theorem gangs_setPower (s : State) (d : Nat) (p : Power) : (s.setPower d p).gangs = s.gangs := rfl
@[simp] theorem nis_setPower (s : State) (d : Nat) (p : Power) : (s.setPower d p).nis = s.nis := rfl
@[simp] theorem links_setPower (s : State) (d : Nat) (p : Power) : (s.setPower d p).links = s.links := rfl
@[simp] theorem net_setPower (s : State) (d : Nat) (p : Power) : (s.setPower d p).net = s.net := rfl
@[simp] theorem nextPkt_setPower (s : State) (d : Nat) (p : Power) : (s.setPower d p).nextPkt = s.nextPkt := rfl
@[simp] theorem owners_setPower (s : State) (d : Nat) (p : Power) : (s.setPower d p).owners = s.owners := rfl
@[simp] theorem nextTag_setPower (s : State) (d : Nat) (p : Power) : (s.setPower d p).nextTag = s.nextTag := rfl
@[simp] theorem gateway_setPower (s : State) (d : Nat) (p : Power) : (s.setPower d p).gateway = s.gateway := rfl
@[simp] theorem starter_setPower (s : State) (d : Nat) (p : Power) : (s.setPower d p).starter = s.starter := rfl
@[simp] theorem boot_setPower (s : State) (d : Nat) (p : Power) : (s.setPower d p).boot = s.boot := rfl
@[simp] theorem relay_setPower (s : State) (d : Nat) (p : Power) : (s.setPower d p).relay = s.relay := rfl
@[simp] theorem cyc_setPower (s : State) (d : Nat) (p : Power) : (s.setPower d p).cyc = s.cyc := rfl
@[simp] theorem farReserved_setPower (s : State) (d : Nat) (p : Power) : (s.setPower d p).farReserved = s.farReserved := rfl
@[simp] theorem swc_setPower (s : State) (d : Nat) (p : Power) : (s.setPower d p).swc = s.swc := rfl
@[simp] theorem focus_setPower (s : State) (d : Nat) (p : Power) : (s.setPower d p).focus = s.focus := rfl
@[simp] theorem agenda_setPower (s : State) (d : Nat) (p : Power) : (s.setPower d p).agenda = s.agenda := rfl
@[simp] theorem fresh_setPower (s : State) (d : Nat) (p : Power) : (s.setPower d p).fresh = s.fresh := rfl
@[simp] theorem saved_setPower (s : State) (d : Nat) (p : Power) : (s.setPower d p).saved = s.saved := rfl

@[simp] theorem mem_setReady (s : State) (b : Nat) (on : Bool) : (s.setReady b on).mem = s.mem := rfl
@[simp] theorem poison_setReady (s : State) (b : Nat) (on : Bool) : (s.setReady b on).poison = s.poison := rfl
@[simp] theorem slots_setReady (s : State) (b : Nat) (on : Bool) : (s.setReady b on).slots = s.slots := rfl
@[simp] theorem cores_setReady (s : State) (b : Nat) (on : Bool) : (s.setReady b on).cores = s.cores := rfl
@[simp] theorem quads_setReady (s : State) (b : Nat) (on : Bool) : (s.setReady b on).quads = s.quads := rfl
@[simp] theorem clusters_setReady (s : State) (b : Nat) (on : Bool) : (s.setReady b on).clusters = s.clusters := rfl
@[simp] theorem gangs_setReady (s : State) (b : Nat) (on : Bool) : (s.setReady b on).gangs = s.gangs := rfl
@[simp] theorem nis_setReady (s : State) (b : Nat) (on : Bool) : (s.setReady b on).nis = s.nis := rfl
@[simp] theorem links_setReady (s : State) (b : Nat) (on : Bool) : (s.setReady b on).links = s.links := rfl
@[simp] theorem net_setReady (s : State) (b : Nat) (on : Bool) : (s.setReady b on).net = s.net := rfl
@[simp] theorem nextPkt_setReady (s : State) (b : Nat) (on : Bool) : (s.setReady b on).nextPkt = s.nextPkt := rfl
@[simp] theorem owners_setReady (s : State) (b : Nat) (on : Bool) : (s.setReady b on).owners = s.owners := rfl
@[simp] theorem nextTag_setReady (s : State) (b : Nat) (on : Bool) : (s.setReady b on).nextTag = s.nextTag := rfl
@[simp] theorem gateway_setReady (s : State) (b : Nat) (on : Bool) : (s.setReady b on).gateway = s.gateway := rfl
@[simp] theorem starter_setReady (s : State) (b : Nat) (on : Bool) : (s.setReady b on).starter = s.starter := rfl
@[simp] theorem boot_setReady (s : State) (b : Nat) (on : Bool) : (s.setReady b on).boot = s.boot := rfl
@[simp] theorem relay_setReady (s : State) (b : Nat) (on : Bool) : (s.setReady b on).relay = s.relay := rfl
@[simp] theorem cyc_setReady (s : State) (b : Nat) (on : Bool) : (s.setReady b on).cyc = s.cyc := rfl
@[simp] theorem farReserved_setReady (s : State) (b : Nat) (on : Bool) : (s.setReady b on).farReserved = s.farReserved := rfl
@[simp] theorem swc_setReady (s : State) (b : Nat) (on : Bool) : (s.setReady b on).swc = s.swc := rfl
@[simp] theorem focus_setReady (s : State) (b : Nat) (on : Bool) : (s.setReady b on).focus = s.focus := rfl
@[simp] theorem agenda_setReady (s : State) (b : Nat) (on : Bool) : (s.setReady b on).agenda = s.agenda := rfl
@[simp] theorem fresh_setReady (s : State) (b : Nat) (on : Bool) : (s.setReady b on).fresh = s.fresh := rfl
@[simp] theorem saved_setReady (s : State) (b : Nat) (on : Bool) : (s.setReady b on).saved = s.saved := rfl

@[simp] theorem cores_store (s : State) (who : Option Nat) (a : Nat) (l : List Byte) : (s.store who a l).cores = s.cores := rfl
@[simp] theorem quads_store (s : State) (who : Option Nat) (a : Nat) (l : List Byte) : (s.store who a l).quads = s.quads := rfl
@[simp] theorem clusters_store (s : State) (who : Option Nat) (a : Nat) (l : List Byte) : (s.store who a l).clusters = s.clusters := rfl
@[simp] theorem gangs_store (s : State) (who : Option Nat) (a : Nat) (l : List Byte) : (s.store who a l).gangs = s.gangs := rfl
@[simp] theorem nis_store (s : State) (who : Option Nat) (a : Nat) (l : List Byte) : (s.store who a l).nis = s.nis := rfl
@[simp] theorem links_store (s : State) (who : Option Nat) (a : Nat) (l : List Byte) : (s.store who a l).links = s.links := rfl
@[simp] theorem net_store (s : State) (who : Option Nat) (a : Nat) (l : List Byte) : (s.store who a l).net = s.net := rfl
@[simp] theorem nextPkt_store (s : State) (who : Option Nat) (a : Nat) (l : List Byte) : (s.store who a l).nextPkt = s.nextPkt := rfl
@[simp] theorem owners_store (s : State) (who : Option Nat) (a : Nat) (l : List Byte) : (s.store who a l).owners = s.owners := rfl
@[simp] theorem nextTag_store (s : State) (who : Option Nat) (a : Nat) (l : List Byte) : (s.store who a l).nextTag = s.nextTag := rfl
@[simp] theorem gateway_store (s : State) (who : Option Nat) (a : Nat) (l : List Byte) : (s.store who a l).gateway = s.gateway := rfl
@[simp] theorem starter_store (s : State) (who : Option Nat) (a : Nat) (l : List Byte) : (s.store who a l).starter = s.starter := rfl
@[simp] theorem boot_store (s : State) (who : Option Nat) (a : Nat) (l : List Byte) : (s.store who a l).boot = s.boot := rfl
@[simp] theorem pkg_store (s : State) (who : Option Nat) (a : Nat) (l : List Byte) : (s.store who a l).pkg = s.pkg := rfl
@[simp] theorem relay_store (s : State) (who : Option Nat) (a : Nat) (l : List Byte) : (s.store who a l).relay = s.relay := rfl
@[simp] theorem cyc_store (s : State) (who : Option Nat) (a : Nat) (l : List Byte) : (s.store who a l).cyc = s.cyc := rfl
@[simp] theorem swc_store (s : State) (who : Option Nat) (a : Nat) (l : List Byte) : (s.store who a l).swc = s.swc := rfl
@[simp] theorem focus_store (s : State) (who : Option Nat) (a : Nat) (l : List Byte) : (s.store who a l).focus = s.focus := rfl
@[simp] theorem agenda_store (s : State) (who : Option Nat) (a : Nat) (l : List Byte) : (s.store who a l).agenda = s.agenda := rfl
@[simp] theorem fresh_store (s : State) (who : Option Nat) (a : Nat) (l : List Byte) : (s.store who a l).fresh = s.fresh := rfl
@[simp] theorem saved_store (s : State) (who : Option Nat) (a : Nat) (l : List Byte) : (s.store who a l).saved = s.saved := rfl

@[simp] theorem mem_setGang (s : State) (key : Nat) (g : Gang) : (s.setGang key g).mem = s.mem := rfl
@[simp] theorem poison_setGang (s : State) (key : Nat) (g : Gang) : (s.setGang key g).poison = s.poison := rfl
@[simp] theorem slots_setGang (s : State) (key : Nat) (g : Gang) : (s.setGang key g).slots = s.slots := rfl
@[simp] theorem cores_setGang (s : State) (key : Nat) (g : Gang) : (s.setGang key g).cores = s.cores := rfl
@[simp] theorem quads_setGang (s : State) (key : Nat) (g : Gang) : (s.setGang key g).quads = s.quads := rfl
@[simp] theorem clusters_setGang (s : State) (key : Nat) (g : Gang) : (s.setGang key g).clusters = s.clusters := rfl
@[simp] theorem nis_setGang (s : State) (key : Nat) (g : Gang) : (s.setGang key g).nis = s.nis := rfl
@[simp] theorem links_setGang (s : State) (key : Nat) (g : Gang) : (s.setGang key g).links = s.links := rfl
@[simp] theorem net_setGang (s : State) (key : Nat) (g : Gang) : (s.setGang key g).net = s.net := rfl
@[simp] theorem nextPkt_setGang (s : State) (key : Nat) (g : Gang) : (s.setGang key g).nextPkt = s.nextPkt := rfl
@[simp] theorem owners_setGang (s : State) (key : Nat) (g : Gang) : (s.setGang key g).owners = s.owners := rfl
@[simp] theorem nextTag_setGang (s : State) (key : Nat) (g : Gang) : (s.setGang key g).nextTag = s.nextTag := rfl
@[simp] theorem gateway_setGang (s : State) (key : Nat) (g : Gang) : (s.setGang key g).gateway = s.gateway := rfl
@[simp] theorem starter_setGang (s : State) (key : Nat) (g : Gang) : (s.setGang key g).starter = s.starter := rfl
@[simp] theorem boot_setGang (s : State) (key : Nat) (g : Gang) : (s.setGang key g).boot = s.boot := rfl
@[simp] theorem pkg_setGang (s : State) (key : Nat) (g : Gang) : (s.setGang key g).pkg = s.pkg := rfl
@[simp] theorem relay_setGang (s : State) (key : Nat) (g : Gang) : (s.setGang key g).relay = s.relay := rfl
@[simp] theorem cyc_setGang (s : State) (key : Nat) (g : Gang) : (s.setGang key g).cyc = s.cyc := rfl
@[simp] theorem farReserved_setGang (s : State) (key : Nat) (g : Gang) : (s.setGang key g).farReserved = s.farReserved := rfl
@[simp] theorem swc_setGang (s : State) (key : Nat) (g : Gang) : (s.setGang key g).swc = s.swc := rfl
@[simp] theorem focus_setGang (s : State) (key : Nat) (g : Gang) : (s.setGang key g).focus = s.focus := rfl
@[simp] theorem agenda_setGang (s : State) (key : Nat) (g : Gang) : (s.setGang key g).agenda = s.agenda := rfl
@[simp] theorem fresh_setGang (s : State) (key : Nat) (g : Gang) : (s.setGang key g).fresh = s.fresh := rfl
@[simp] theorem saved_setGang (s : State) (key : Nat) (g : Gang) : (s.setGang key g).saved = s.saved := rfl

@[simp] theorem mem_retire (s : State) (cid : Nat) : (s.retire cid).mem = s.mem := rfl
@[simp] theorem poison_retire (s : State) (cid : Nat) : (s.retire cid).poison = s.poison := rfl
@[simp] theorem slots_retire (s : State) (cid : Nat) : (s.retire cid).slots = s.slots := rfl
@[simp] theorem quads_retire (s : State) (cid : Nat) : (s.retire cid).quads = s.quads := rfl
@[simp] theorem clusters_retire (s : State) (cid : Nat) : (s.retire cid).clusters = s.clusters := rfl
@[simp] theorem gangs_retire (s : State) (cid : Nat) : (s.retire cid).gangs = s.gangs := rfl
@[simp] theorem nis_retire (s : State) (cid : Nat) : (s.retire cid).nis = s.nis := rfl
@[simp] theorem links_retire (s : State) (cid : Nat) : (s.retire cid).links = s.links := rfl
@[simp] theorem net_retire (s : State) (cid : Nat) : (s.retire cid).net = s.net := rfl
@[simp] theorem nextPkt_retire (s : State) (cid : Nat) : (s.retire cid).nextPkt = s.nextPkt := rfl
@[simp] theorem owners_retire (s : State) (cid : Nat) : (s.retire cid).owners = s.owners := rfl
@[simp] theorem nextTag_retire (s : State) (cid : Nat) : (s.retire cid).nextTag = s.nextTag := rfl
@[simp] theorem gateway_retire (s : State) (cid : Nat) : (s.retire cid).gateway = s.gateway := rfl
@[simp] theorem starter_retire (s : State) (cid : Nat) : (s.retire cid).starter = s.starter := rfl
@[simp] theorem boot_retire (s : State) (cid : Nat) : (s.retire cid).boot = s.boot := rfl
@[simp] theorem pkg_retire (s : State) (cid : Nat) : (s.retire cid).pkg = s.pkg := rfl
@[simp] theorem relay_retire (s : State) (cid : Nat) : (s.retire cid).relay = s.relay := rfl
@[simp] theorem cyc_retire (s : State) (cid : Nat) : (s.retire cid).cyc = s.cyc := rfl
@[simp] theorem farReserved_retire (s : State) (cid : Nat) : (s.retire cid).farReserved = s.farReserved := rfl
@[simp] theorem swc_retire (s : State) (cid : Nat) : (s.retire cid).swc = s.swc := rfl
@[simp] theorem focus_retire (s : State) (cid : Nat) : (s.retire cid).focus = s.focus := rfl
@[simp] theorem agenda_retire (s : State) (cid : Nat) : (s.retire cid).agenda = s.agenda := rfl
@[simp] theorem fresh_retire (s : State) (cid : Nat) : (s.retire cid).fresh = s.fresh := rfl
@[simp] theorem saved_retire (s : State) (cid : Nat) : (s.retire cid).saved = s.saved := rfl

@[simp] theorem mem_ended (s : State) (t : Slot) : (s.ended t).mem = s.mem := rfl
@[simp] theorem poison_ended (s : State) (t : Slot) : (s.ended t).poison = s.poison := rfl
@[simp] theorem quads_ended (s : State) (t : Slot) : (s.ended t).quads = s.quads := rfl
@[simp] theorem clusters_ended (s : State) (t : Slot) : (s.ended t).clusters = s.clusters := rfl
@[simp] theorem gangs_ended (s : State) (t : Slot) : (s.ended t).gangs = s.gangs := rfl
@[simp] theorem nis_ended (s : State) (t : Slot) : (s.ended t).nis = s.nis := rfl
@[simp] theorem links_ended (s : State) (t : Slot) : (s.ended t).links = s.links := rfl
@[simp] theorem net_ended (s : State) (t : Slot) : (s.ended t).net = s.net := rfl
@[simp] theorem nextPkt_ended (s : State) (t : Slot) : (s.ended t).nextPkt = s.nextPkt := rfl
@[simp] theorem owners_ended (s : State) (t : Slot) : (s.ended t).owners = s.owners := rfl
@[simp] theorem nextTag_ended (s : State) (t : Slot) : (s.ended t).nextTag = s.nextTag := rfl
@[simp] theorem gateway_ended (s : State) (t : Slot) : (s.ended t).gateway = s.gateway := rfl
@[simp] theorem starter_ended (s : State) (t : Slot) : (s.ended t).starter = s.starter := rfl
@[simp] theorem boot_ended (s : State) (t : Slot) : (s.ended t).boot = s.boot := rfl
@[simp] theorem pkg_ended (s : State) (t : Slot) : (s.ended t).pkg = s.pkg := rfl
@[simp] theorem relay_ended (s : State) (t : Slot) : (s.ended t).relay = s.relay := rfl
@[simp] theorem cyc_ended (s : State) (t : Slot) : (s.ended t).cyc = s.cyc := rfl
@[simp] theorem farReserved_ended (s : State) (t : Slot) : (s.ended t).farReserved = s.farReserved := rfl
@[simp] theorem swc_ended (s : State) (t : Slot) : (s.ended t).swc = s.swc := rfl
@[simp] theorem focus_ended (s : State) (t : Slot) : (s.ended t).focus = s.focus := rfl
@[simp] theorem agenda_ended (s : State) (t : Slot) : (s.ended t).agenda = s.agenda := rfl
@[simp] theorem fresh_ended (s : State) (t : Slot) : (s.ended t).fresh = s.fresh := rfl
@[simp] theorem saved_ended (s : State) (t : Slot) : (s.ended t).saved = s.saved := rfl

@[simp] theorem mem_accrue (s : State) (f : FFlags) : (s.accrue f).mem = s.mem := rfl
@[simp] theorem poison_accrue (s : State) (f : FFlags) : (s.accrue f).poison = s.poison := rfl
@[simp] theorem cores_accrue (s : State) (f : FFlags) : (s.accrue f).cores = s.cores := rfl
@[simp] theorem quads_accrue (s : State) (f : FFlags) : (s.accrue f).quads = s.quads := rfl
@[simp] theorem clusters_accrue (s : State) (f : FFlags) : (s.accrue f).clusters = s.clusters := rfl
@[simp] theorem gangs_accrue (s : State) (f : FFlags) : (s.accrue f).gangs = s.gangs := rfl
@[simp] theorem nis_accrue (s : State) (f : FFlags) : (s.accrue f).nis = s.nis := rfl
@[simp] theorem links_accrue (s : State) (f : FFlags) : (s.accrue f).links = s.links := rfl
@[simp] theorem net_accrue (s : State) (f : FFlags) : (s.accrue f).net = s.net := rfl
@[simp] theorem nextPkt_accrue (s : State) (f : FFlags) : (s.accrue f).nextPkt = s.nextPkt := rfl
@[simp] theorem owners_accrue (s : State) (f : FFlags) : (s.accrue f).owners = s.owners := rfl
@[simp] theorem nextTag_accrue (s : State) (f : FFlags) : (s.accrue f).nextTag = s.nextTag := rfl
@[simp] theorem gateway_accrue (s : State) (f : FFlags) : (s.accrue f).gateway = s.gateway := rfl
@[simp] theorem starter_accrue (s : State) (f : FFlags) : (s.accrue f).starter = s.starter := rfl
@[simp] theorem boot_accrue (s : State) (f : FFlags) : (s.accrue f).boot = s.boot := rfl
@[simp] theorem pkg_accrue (s : State) (f : FFlags) : (s.accrue f).pkg = s.pkg := rfl
@[simp] theorem relay_accrue (s : State) (f : FFlags) : (s.accrue f).relay = s.relay := rfl
@[simp] theorem cyc_accrue (s : State) (f : FFlags) : (s.accrue f).cyc = s.cyc := rfl
@[simp] theorem farReserved_accrue (s : State) (f : FFlags) : (s.accrue f).farReserved = s.farReserved := rfl
@[simp] theorem swc_accrue (s : State) (f : FFlags) : (s.accrue f).swc = s.swc := rfl
@[simp] theorem focus_accrue (s : State) (f : FFlags) : (s.accrue f).focus = s.focus := rfl
@[simp] theorem agenda_accrue (s : State) (f : FFlags) : (s.accrue f).agenda = s.agenda := rfl
@[simp] theorem fresh_accrue (s : State) (f : FFlags) : (s.accrue f).fresh = s.fresh := rfl
@[simp] theorem saved_accrue (s : State) (f : FFlags) : (s.accrue f).saved = s.saved := rfl

@[simp] theorem mem_setV (s : State) (r : Reg) (v : Vreg) : (s.setV r v).mem = s.mem := rfl
@[simp] theorem poison_setV (s : State) (r : Reg) (v : Vreg) : (s.setV r v).poison = s.poison := rfl
@[simp] theorem cores_setV (s : State) (r : Reg) (v : Vreg) : (s.setV r v).cores = s.cores := rfl
@[simp] theorem quads_setV (s : State) (r : Reg) (v : Vreg) : (s.setV r v).quads = s.quads := rfl
@[simp] theorem clusters_setV (s : State) (r : Reg) (v : Vreg) : (s.setV r v).clusters = s.clusters := rfl
@[simp] theorem gangs_setV (s : State) (r : Reg) (v : Vreg) : (s.setV r v).gangs = s.gangs := rfl
@[simp] theorem nis_setV (s : State) (r : Reg) (v : Vreg) : (s.setV r v).nis = s.nis := rfl
@[simp] theorem links_setV (s : State) (r : Reg) (v : Vreg) : (s.setV r v).links = s.links := rfl
@[simp] theorem net_setV (s : State) (r : Reg) (v : Vreg) : (s.setV r v).net = s.net := rfl
@[simp] theorem nextPkt_setV (s : State) (r : Reg) (v : Vreg) : (s.setV r v).nextPkt = s.nextPkt := rfl
@[simp] theorem owners_setV (s : State) (r : Reg) (v : Vreg) : (s.setV r v).owners = s.owners := rfl
@[simp] theorem nextTag_setV (s : State) (r : Reg) (v : Vreg) : (s.setV r v).nextTag = s.nextTag := rfl
@[simp] theorem gateway_setV (s : State) (r : Reg) (v : Vreg) : (s.setV r v).gateway = s.gateway := rfl
@[simp] theorem starter_setV (s : State) (r : Reg) (v : Vreg) : (s.setV r v).starter = s.starter := rfl
@[simp] theorem boot_setV (s : State) (r : Reg) (v : Vreg) : (s.setV r v).boot = s.boot := rfl
@[simp] theorem pkg_setV (s : State) (r : Reg) (v : Vreg) : (s.setV r v).pkg = s.pkg := rfl
@[simp] theorem relay_setV (s : State) (r : Reg) (v : Vreg) : (s.setV r v).relay = s.relay := rfl
@[simp] theorem cyc_setV (s : State) (r : Reg) (v : Vreg) : (s.setV r v).cyc = s.cyc := rfl
@[simp] theorem farReserved_setV (s : State) (r : Reg) (v : Vreg) : (s.setV r v).farReserved = s.farReserved := rfl
@[simp] theorem swc_setV (s : State) (r : Reg) (v : Vreg) : (s.setV r v).swc = s.swc := rfl
@[simp] theorem focus_setV (s : State) (r : Reg) (v : Vreg) : (s.setV r v).focus = s.focus := rfl
@[simp] theorem agenda_setV (s : State) (r : Reg) (v : Vreg) : (s.setV r v).agenda = s.agenda := rfl
@[simp] theorem fresh_setV (s : State) (r : Reg) (v : Vreg) : (s.setV r v).fresh = s.fresh := rfl
@[simp] theorem saved_setV (s : State) (r : Reg) (v : Vreg) : (s.setV r v).saved = s.saved := rfl

@[simp] theorem mem_setSt (s : State) (r : BitVec 3) (v : Streg) : (s.setSt r v).mem = s.mem := rfl
@[simp] theorem poison_setSt (s : State) (r : BitVec 3) (v : Streg) : (s.setSt r v).poison = s.poison := rfl
@[simp] theorem cores_setSt (s : State) (r : BitVec 3) (v : Streg) : (s.setSt r v).cores = s.cores := rfl
@[simp] theorem quads_setSt (s : State) (r : BitVec 3) (v : Streg) : (s.setSt r v).quads = s.quads := rfl
@[simp] theorem clusters_setSt (s : State) (r : BitVec 3) (v : Streg) : (s.setSt r v).clusters = s.clusters := rfl
@[simp] theorem gangs_setSt (s : State) (r : BitVec 3) (v : Streg) : (s.setSt r v).gangs = s.gangs := rfl
@[simp] theorem nis_setSt (s : State) (r : BitVec 3) (v : Streg) : (s.setSt r v).nis = s.nis := rfl
@[simp] theorem links_setSt (s : State) (r : BitVec 3) (v : Streg) : (s.setSt r v).links = s.links := rfl
@[simp] theorem net_setSt (s : State) (r : BitVec 3) (v : Streg) : (s.setSt r v).net = s.net := rfl
@[simp] theorem nextPkt_setSt (s : State) (r : BitVec 3) (v : Streg) : (s.setSt r v).nextPkt = s.nextPkt := rfl
@[simp] theorem owners_setSt (s : State) (r : BitVec 3) (v : Streg) : (s.setSt r v).owners = s.owners := rfl
@[simp] theorem nextTag_setSt (s : State) (r : BitVec 3) (v : Streg) : (s.setSt r v).nextTag = s.nextTag := rfl
@[simp] theorem gateway_setSt (s : State) (r : BitVec 3) (v : Streg) : (s.setSt r v).gateway = s.gateway := rfl
@[simp] theorem starter_setSt (s : State) (r : BitVec 3) (v : Streg) : (s.setSt r v).starter = s.starter := rfl
@[simp] theorem boot_setSt (s : State) (r : BitVec 3) (v : Streg) : (s.setSt r v).boot = s.boot := rfl
@[simp] theorem pkg_setSt (s : State) (r : BitVec 3) (v : Streg) : (s.setSt r v).pkg = s.pkg := rfl
@[simp] theorem relay_setSt (s : State) (r : BitVec 3) (v : Streg) : (s.setSt r v).relay = s.relay := rfl
@[simp] theorem cyc_setSt (s : State) (r : BitVec 3) (v : Streg) : (s.setSt r v).cyc = s.cyc := rfl
@[simp] theorem farReserved_setSt (s : State) (r : BitVec 3) (v : Streg) : (s.setSt r v).farReserved = s.farReserved := rfl
@[simp] theorem swc_setSt (s : State) (r : BitVec 3) (v : Streg) : (s.setSt r v).swc = s.swc := rfl
@[simp] theorem focus_setSt (s : State) (r : BitVec 3) (v : Streg) : (s.setSt r v).focus = s.focus := rfl
@[simp] theorem agenda_setSt (s : State) (r : BitVec 3) (v : Streg) : (s.setSt r v).agenda = s.agenda := rfl
@[simp] theorem fresh_setSt (s : State) (r : BitVec 3) (v : Streg) : (s.setSt r v).fresh = s.fresh := rfl
@[simp] theorem saved_setSt (s : State) (r : BitVec 3) (v : Streg) : (s.setSt r v).saved = s.saved := rfl

@[simp] theorem slots_setSlotAt (s : State) (k : Nat) (t : Slot) : (s.setSlotAt k t).slots = kset k t s.slots := rfl
@[simp] theorem cores_setCore (s : State) (c : Nat) (x : Core) : (s.setCore c x).cores = kset c x s.cores := rfl
@[simp] theorem mem_store (s : State) (who : Option Nat) (a : Nat) (l : List Byte) : (s.store who a l).mem = writeBytes s.mem a l := rfl

/-! ## Reading back what was set -/

@[simp] theorem slotAt_setSlotAt (s : State) (k : Nat) (t : Slot) : (s.setSlotAt k t).slotAt k = t := kget_kset_same _ _ _ _
theorem slotAt_setSlotAt_other (s : State) (j k : Nat) (t : Slot) (h : j ≠ k) : (s.setSlotAt k t).slotAt j = s.slotAt j :=
  kget_kset_other _ _ _ _ _ h
@[simp] theorem me_setMe (s : State) (t : Slot) : (s.setMe t).me = t := kget_kset_same _ _ _ _
@[simp] theorem core_setCore (s : State) (c : Nat) (x : Core) : (s.setCore c x).core c = x := kget_kset_same _ _ _ _
theorem core_setCore_other (s : State) (a c : Nat) (x : Core) (h : a ≠ c) : (s.setCore c x).core a = s.core a :=
  kget_kset_other _ _ _ _ _ h
@[simp] theorem cluster_setCluster (s : State) (p : Nat) (c : Cluster) : (s.setCluster p c).cluster p = c := kget_kset_same _ _ _ _
theorem cluster_setCluster_other (s : State) (a p : Nat) (c : Cluster) (h : a ≠ p) : (s.setCluster p c).cluster a = s.cluster a :=
  kget_kset_other _ _ _ _ _ h
@[simp] theorem ni_setNi (s : State) (d : Nat) (n : Ni) : (s.setNi d n).ni d = n := kget_kset_same _ _ _ _
@[simp] theorem link_setLink (s : State) (a b : Nat) (l : Link) : (s.setLink a b l).link a b = l := kget_kset_same _ _ _ _
@[simp] theorem power_setPower (s : State) (d : Nat) (p : Power) : (s.setPower d p).power d = p := kget_kset_same _ _ _ _
@[simp] theorem quad_setQuad (s : State) (q : Nat) (x : Quad) : (s.setQuad q x).quad q = x := kget_kset_same _ _ _ _
@[simp] theorem me_setCore (s : State) (c : Nat) (x : Core) : (s.setCore c x).me = s.me := rfl
@[simp] theorem slotAt_setCore (s : State) (k c : Nat) (x : Core) : (s.setCore c x).slotAt k = s.slotAt k := rfl
@[simp] theorem core_setSlotAt (s : State) (k c : Nat) (t : Slot) : (s.setSlotAt k t).core c = s.core c := rfl
@[simp] theorem core_setMe (s : State) (c : Nat) (t : Slot) : (s.setMe t).core c = s.core c := rfl
@[simp] theorem myCid_setMe (s : State) (t : Slot) : (s.setMe t).myCid = s.myCid := rfl
@[simp] theorem myDie_setMe (s : State) (t : Slot) : (s.setMe t).myDie = s.myDie := rfl
@[simp] theorem myPcl_setMe (s : State) (t : Slot) : (s.setMe t).myPcl = s.myPcl := rfl
@[simp] theorem setMe_setMe (s : State) (t u : Slot) : (s.setMe t).setMe u = s.setMe u := by
  simp [State.setMe, State.setSlotAt, kset_kset]

/-! ## Registers of a slot -/

@[simp] theorem getX_zero (t : Slot) : t.getX 0 = 0 := rfl
theorem getX_wrote (t : Slot) (rd r : Reg) (v npc : Dword) :
    (t.wrote rd v npc).getX r = if r = rd ∧ rd ≠ 0#5 then v else t.getX r := by
  unfold Slot.wrote Slot.getX
  by_cases h0 : r = 0#5
  · subst h0
    by_cases h1 : rd = 0#5
    · simp [h1]
    · simp [Ne.symm h1]
  · by_cases h1 : rd = 0#5
    · simp [h0, h1]
    · by_cases h2 : r = rd
      · subst h2; simp [h0]
      · have : rd.toNat ≠ r.toNat := fun h => h2 (BitVec.eq_of_toNat_eq h.symm)
        simp [h0, h1, h2, this]
@[simp] theorem getV_setV (t : Slot) (r : Reg) (v : Vreg) : (t.setV r v).getV r = v := by
  simp [Slot.setV, Slot.getV]
@[simp] theorem getSt_setSt (t : Slot) (r : BitVec 3) (v : Streg) : (t.setSt r v).getSt r = v := by
  simp [Slot.setSt, Slot.getSt]

/-! ## How an instruction of the focus slot ends -/

theorem wrote_eq_setX (t : Slot) (rd : Reg) (v npc : Dword) : t.wrote rd v npc = { t.setX rd v with pc := npc } := by
  unfold Slot.wrote Slot.setX; by_cases h : rd = 0#5 <;> simp [h]
theorem slotRecord_congr (k : Nat) (t u : Slot) (h : u.xbaton = t.xbaton) : slotRecord k u = slotRecord k t := by
  simp [slotRecord, h]
theorem gangOf_congr (s t : State) (r : Nat) (h : t.gangs = s.gangs) : t.gangOf r = s.gangOf r := by
  simp [State.gangOf, h]
/-- Outside an active gang, an instruction that completes moves the pc and the count alone. -/
theorem complete_alone (s : State) (t : Slot) (npc : Dword) (h : s.alone) (ht : t.xbaton = s.me.xbaton) :
    (s.setMe t).complete s.focus npc = s.ended { t with pc := npc } := by
  have hg : (s.gangOf (slotRecord s.focus t)) = none := by
    rw [slotRecord_congr _ _ _ ht]
    simpa [State.alone, State.ganged, State.myGang, Option.isSome_eq_false_iff] using h
  unfold State.complete
  have e : (((s.setMe t).retire (keyCid s.focus)).slotAt s.focus) = t := me_setMe s t
  dsimp only
  rw [e, gangOf_congr s ((s.setMe t).retire (keyCid s.focus)) _ rfl, hg]
  simp [State.ended, State.setSlotAt, State.retire, State.setMe, State.setCore, kset_kset, State.core, State.myCid]
/-- Outside an active gang, an instruction that only goes on. -/
theorem completes_alone (s : State) (npc : Dword) (h : s.alone) : s.complete s.focus npc = s.movedTo npc := by
  have hg : (s.gangOf (slotRecord s.focus s.me)) = none := by
    simpa [State.alone, State.ganged, State.myGang, Option.isSome_eq_false_iff] using h
  unfold State.complete
  have e : ((s.retire (keyCid s.focus)).slotAt s.focus) = s.me := rfl
  dsimp only
  rw [e, gangOf_congr s (s.retire (keyCid s.focus)) _ rfl, hg]
  rfl
theorem fin_alone (s : State) (len : Nat) (h : s.alone) : s.fin len = s.passed len := completes_alone s _ h
theorem jump_alone (s : State) (t : Dword) (h : s.alone) : s.jump t = s.movedTo (t &&& ~~~1#64) := completes_alone s _ h
/-- What `finX` does outside an active gang. -/
theorem finX_alone (s : State) (rd : Reg) (v : Dword) (len : Nat) (h : s.alone) : s.finX rd v len = s.result rd v len := by
  have hb : (s.me.setX rd v).xbaton = s.me.xbaton := by unfold Slot.setX; split <;> rfl
  have hp : (s.me.setX rd v).pc = s.me.pc := by unfold Slot.setX; split <;> rfl
  unfold State.finX State.fin State.setX
  rw [me_setMe, focus_setMe, complete_alone s _ _ h hb, hp]
  rw [State.result, State.wroteX, wrote_eq_setX]
/-- What a jump that writes rd does outside an active gang. -/
theorem setX_jump_alone (s : State) (rd : Reg) (v t : Dword) (h : s.alone) : (s.setX rd v).jump t = s.wroteX rd v (t &&& ~~~1#64) := by
  have hb : (s.me.setX rd v).xbaton = s.me.xbaton := by unfold Slot.setX; split <;> rfl
  unfold State.jump State.setX
  rw [focus_setMe, complete_alone s _ _ h hb, State.wroteX, wrote_eq_setX]
/-- What `trap` does to a baton alone that can take a trap, for every cause but REMOTE_FAULT. -/
theorem trap_alone (s : State) (c : Nat) (v : Dword) (h : s.canTrap) (hr : c ≠ 26) :
    s.trap c v = s.trapped (BitVec.ofNat 8 c) v := by
  obtain ⟨ha, hb, hv⟩ := h
  have hg : (s.gangOf (slotRecord s.focus s.me)) = none := by
    simpa [State.alone, State.ganged, State.myGang, Option.isSome_eq_false_iff] using ha
  have hm : s.slotAt s.focus = s.me := rfl
  unfold State.trap State.trapSlot
  rw [hm]
  simp only [hg]
  unfold State.deliver State.trapTarget
  rw [hm]
  simp only [hb, hr, false_and, if_false, hv, Bool.false_eq_true]
  have : xucauseWord false 0 c = 1#64 <<< 62 ||| zext64 (BitVec.ofNat 8 c) := by
    unfold xucauseWord zext64
    generalize BitVec.ofNat 8 c = b
    revert b; decide
  rw [this]; rfl
/-- What parking does. -/
theorem park_eq (s : State) (w : Wait) (r : Nat) (k t : Dword) (len : Nat) :
    s.park w r k t len = s.parks w (BitVec.ofNat 8 r) k t len := rfl

end Sys2Proof.Machine
end

