-- ==== Sys2Proof/Laws/Banks.lean ====
section
/-!
SUPPORT. Lemmas of the banks and of the checks at a home: whose turn an access has, what waiting for a bank changes, and a request of one page.
-/
namespace Sys2Proof.Machine

theorem bankTurn_of_no_waiters (s : State) (key : Nat) (b : Nat × Nat × Nat) (h : (s.power b.1).waiters = []) : s.bankTurn key b = true := by
  simp [State.bankTurn, h]
@[simp] theorem granted_nil (s : State) (key : Nat) : s.granted key [] = true := rfl
/-- An access whose banks are powered, at dies where no access waits, is granted. -/
theorem granted_of_no_waiters (s : State) (key : Nat) (cells : List Nat)
    (h : ∀ b ∈ cells.filterMap bankOf, s.bankUp b = true ∧ (s.power b.1).waiters = []) : s.granted key cells = true := by
  simp only [State.granted, List.all_eq_true, Bool.and_eq_true]
  exact fun b hb => ⟨(h b hb).1, bankTurn_of_no_waiters s key b (h b hb).2⟩
theorem unstallAt_of_no_waiters (s : State) (d key : Nat) (h : (s.power d).waiters = []) : s.unstallAt d key = s := by
  simp [State.unstallAt, h]
/-- An operation in its turn is performed, and its party waits no more; otherwise it only waits. -/
theorem inTurn_granted (s : State) (die key : Nat) (stamp : Dword) (cells : List Nat) (f : State → State) (h : s.granted key cells = true) :
    s.inTurn die key stamp cells f = (f s).unstallAt die key := by simp [State.inTurn, h]
theorem inTurn_waits (s : State) (die key : Nat) (stamp : Dword) (cells : List Nat) (f : State → State) (h : s.granted key cells = false) :
    s.inTurn die key stamp cells f = s.stallKey key stamp cells := by simp [State.inTurn, h]
/-- A wake changes power alone. -/
theorem startWake_frame (s : State) (b : Nat × Nat × Nat) :
    (s.startWake b).mem = s.mem ∧ (s.startWake b).slots = s.slots ∧ (s.startWake b).starter = s.starter := by
  unfold State.startWake
  split <;> exact ⟨rfl, rfl, rfl⟩
/-- Waiting for banks changes no byte of memory, no slot and nothing of the Starter. -/
theorem stallKey_frame (s : State) (key : Nat) (stamp : Dword) (cells : List Nat) :
    (s.stallKey key stamp cells).mem = s.mem ∧ (s.stallKey key stamp cells).slots = s.slots ∧
      (s.stallKey key stamp cells).starter = s.starter := by
  unfold State.stallKey
  induction cells.filterMap bankOf generalizing s with
  | nil => exact ⟨rfl, rfl, rfl⟩
  | cons b bs ih =>
    simp only [List.foldl_cons]
    split
    · exact ih s
    · obtain ⟨hm, hs, ht⟩ := ih ((s.startWake b).setPower b.1 { (s.startWake b).power b.1 with
        waiters := addWaiter ((s.startWake b).power b.1).waiters (b.2.1, b.2.2, key, stamp) })
      obtain ⟨wm, ws, wt⟩ := startWake_frame s b
      exact ⟨hm.trans wm, hs.trans ws, ht.trans wt⟩
/-- A request of one page is checked there (R59, R70). -/
theorem globalCheck_one (s : State) (d : Nat) (p : Pkt) (ent : BitVec 128) (walked : Bool)
    (h : ∀ e, s.translation d p ent walked p.va = some (.present e) → p.elems.all e.holds = true) :
    s.globalCheck d p ent walked = s.onePage d p (s.translation d p ent walked p.va) := by
  unfold State.globalCheck
  refine if_pos ?_
  split
  · exact h _ ‹_›
  · rfl

end Sys2Proof.Machine
end

