-- ==== Sys2Proof/Laws/PerInstr.lean ====
section
/-!
SUPPORT. A statement about every instruction: the two low bits of its encoding say its length (R195).
-/
namespace Sys2Proof.Laws.EncodingLength

/-- A halfword's low two bits are not 0b11, and a word's are (R195). -/
def Statement (i : Instr) : Prop :=
  (∀ h, encode i = .half h → h.toNat % 4 ≠ 3) ∧ (∀ w, encode i = .word w → w.toNat % 4 = 3)

theorem of_none {i : Instr} (h : encode i = .none) : Statement i :=
  ⟨fun _ e => by simp [h] at e, fun _ e => by simp [h] at e⟩
theorem of_word {i : Instr} {w : Word32} (h : encode i = .word w) (hw : w.toNat % 4 = 3) : Statement i :=
  ⟨fun _ e => by simp [h] at e, fun _ e => by rw [h] at e; cases e; exact hw⟩
theorem of_half {i : Instr} {w : BitVec 16} (h : encode i = .half w) (hw : w.toNat % 4 ≠ 3) : Statement i :=
  ⟨fun _ e => by rw [h] at e; cases e; exact hw, fun _ e => by simp [h] at e⟩
theorem low_append {m n : Nat} (x : BitVec m) (y : BitVec n) (hn : 2 ≤ n) : (x ++ y).toNat % 4 = y.toNat % 4 := by
  obtain ⟨k, rfl⟩ := Nat.exists_eq_add_of_le hn
  rw [BitVec.toNat_append, Nat.shiftLeft_eq, Nat.or_comm]
  have h4 : (4 : Nat) = 2 ^ 2 := rfl
  rw [h4, Nat.or_mod_two_pow, Nat.pow_add, ← Nat.mul_assoc, Nat.mul_comm _ (2 ^ 2), Nat.mul_assoc, Nat.mul_mod_right, Nat.or_zero]

theorem lui (a0 : Reg) (a1 : BitVec 20) : Statement (.lui a0 a1) := of_word rfl (low_append _ _ (by decide))
theorem auipc (a0 : Reg) (a1 : BitVec 20) : Statement (.auipc a0 a1) := of_word rfl (low_append _ _ (by decide))
theorem jal (a0 : Reg) (a1 : BitVec 20) : Statement (.jal a0 a1) := of_word rfl (low_append _ _ (by decide))
theorem jalr (a0 : Reg) (a1 : Reg) (a2 : BitVec 12) : Statement (.jalr a0 a1 a2) := of_word rfl (low_append _ _ (by decide))
theorem beq (a0 : Reg) (a1 : Reg) (a2 : BitVec 12) : Statement (.beq a0 a1 a2) := of_word rfl (low_append _ _ (by decide))
theorem bne (a0 : Reg) (a1 : Reg) (a2 : BitVec 12) : Statement (.bne a0 a1 a2) := of_word rfl (low_append _ _ (by decide))
theorem blt (a0 : Reg) (a1 : Reg) (a2 : BitVec 12) : Statement (.blt a0 a1 a2) := of_word rfl (low_append _ _ (by decide))
theorem bge (a0 : Reg) (a1 : Reg) (a2 : BitVec 12) : Statement (.bge a0 a1 a2) := of_word rfl (low_append _ _ (by decide))
theorem bltu (a0 : Reg) (a1 : Reg) (a2 : BitVec 12) : Statement (.bltu a0 a1 a2) := of_word rfl (low_append _ _ (by decide))
theorem bgeu (a0 : Reg) (a1 : Reg) (a2 : BitVec 12) : Statement (.bgeu a0 a1 a2) := of_word rfl (low_append _ _ (by decide))
theorem lb (a0 : Reg) (a1 : Reg) (a2 : BitVec 12) : Statement (.lb a0 a1 a2) := of_word rfl (low_append _ _ (by decide))
theorem lh (a0 : Reg) (a1 : Reg) (a2 : BitVec 12) : Statement (.lh a0 a1 a2) := of_word rfl (low_append _ _ (by decide))
theorem lw (a0 : Reg) (a1 : Reg) (a2 : BitVec 12) : Statement (.lw a0 a1 a2) := of_word rfl (low_append _ _ (by decide))
theorem ld (a0 : Reg) (a1 : Reg) (a2 : BitVec 12) : Statement (.ld a0 a1 a2) := of_word rfl (low_append _ _ (by decide))
theorem lbu (a0 : Reg) (a1 : Reg) (a2 : BitVec 12) : Statement (.lbu a0 a1 a2) := of_word rfl (low_append _ _ (by decide))
theorem lhu (a0 : Reg) (a1 : Reg) (a2 : BitVec 12) : Statement (.lhu a0 a1 a2) := of_word rfl (low_append _ _ (by decide))
theorem lwu (a0 : Reg) (a1 : Reg) (a2 : BitVec 12) : Statement (.lwu a0 a1 a2) := of_word rfl (low_append _ _ (by decide))
theorem sb (a0 : Reg) (a1 : Reg) (a2 : BitVec 12) : Statement (.sb a0 a1 a2) := of_word rfl (low_append _ _ (by decide))
theorem sh (a0 : Reg) (a1 : Reg) (a2 : BitVec 12) : Statement (.sh a0 a1 a2) := of_word rfl (low_append _ _ (by decide))
theorem sw (a0 : Reg) (a1 : Reg) (a2 : BitVec 12) : Statement (.sw a0 a1 a2) := of_word rfl (low_append _ _ (by decide))
theorem sd (a0 : Reg) (a1 : Reg) (a2 : BitVec 12) : Statement (.sd a0 a1 a2) := of_word rfl (low_append _ _ (by decide))
theorem addi (a0 : Reg) (a1 : Reg) (a2 : BitVec 12) : Statement (.addi a0 a1 a2) := of_word rfl (low_append _ _ (by decide))
theorem slti (a0 : Reg) (a1 : Reg) (a2 : BitVec 12) : Statement (.slti a0 a1 a2) := of_word rfl (low_append _ _ (by decide))
theorem sltiu (a0 : Reg) (a1 : Reg) (a2 : BitVec 12) : Statement (.sltiu a0 a1 a2) := of_word rfl (low_append _ _ (by decide))
theorem xori (a0 : Reg) (a1 : Reg) (a2 : BitVec 12) : Statement (.xori a0 a1 a2) := of_word rfl (low_append _ _ (by decide))
theorem ori (a0 : Reg) (a1 : Reg) (a2 : BitVec 12) : Statement (.ori a0 a1 a2) := of_word rfl (low_append _ _ (by decide))
theorem andi (a0 : Reg) (a1 : Reg) (a2 : BitVec 12) : Statement (.andi a0 a1 a2) := of_word rfl (low_append _ _ (by decide))
theorem slli (a0 : Reg) (a1 : Reg) (a2 : BitVec 6) : Statement (.slli a0 a1 a2) := of_word rfl (low_append _ _ (by decide))
theorem srli (a0 : Reg) (a1 : Reg) (a2 : BitVec 6) : Statement (.srli a0 a1 a2) := of_word rfl (low_append _ _ (by decide))
theorem srai (a0 : Reg) (a1 : Reg) (a2 : BitVec 6) : Statement (.srai a0 a1 a2) := of_word rfl (low_append _ _ (by decide))
theorem addiw (a0 : Reg) (a1 : Reg) (a2 : BitVec 12) : Statement (.addiw a0 a1 a2) := of_word rfl (low_append _ _ (by decide))
theorem slliw (a0 : Reg) (a1 : Reg) (a2 : Reg) : Statement (.slliw a0 a1 a2) := of_word rfl (low_append _ _ (by decide))
theorem srliw (a0 : Reg) (a1 : Reg) (a2 : Reg) : Statement (.srliw a0 a1 a2) := of_word rfl (low_append _ _ (by decide))
theorem sraiw (a0 : Reg) (a1 : Reg) (a2 : Reg) : Statement (.sraiw a0 a1 a2) := of_word rfl (low_append _ _ (by decide))
theorem add (a0 : Reg) (a1 : Reg) (a2 : Reg) : Statement (.add a0 a1 a2) := of_word rfl (low_append _ _ (by decide))
theorem sll (a0 : Reg) (a1 : Reg) (a2 : Reg) : Statement (.sll a0 a1 a2) := of_word rfl (low_append _ _ (by decide))
theorem slt (a0 : Reg) (a1 : Reg) (a2 : Reg) : Statement (.slt a0 a1 a2) := of_word rfl (low_append _ _ (by decide))
theorem sltu (a0 : Reg) (a1 : Reg) (a2 : Reg) : Statement (.sltu a0 a1 a2) := of_word rfl (low_append _ _ (by decide))
theorem xor (a0 : Reg) (a1 : Reg) (a2 : Reg) : Statement (.xor a0 a1 a2) := of_word rfl (low_append _ _ (by decide))
theorem srl (a0 : Reg) (a1 : Reg) (a2 : Reg) : Statement (.srl a0 a1 a2) := of_word rfl (low_append _ _ (by decide))
theorem or (a0 : Reg) (a1 : Reg) (a2 : Reg) : Statement (.or a0 a1 a2) := of_word rfl (low_append _ _ (by decide))
theorem and (a0 : Reg) (a1 : Reg) (a2 : Reg) : Statement (.and a0 a1 a2) := of_word rfl (low_append _ _ (by decide))
theorem sub (a0 : Reg) (a1 : Reg) (a2 : Reg) : Statement (.sub a0 a1 a2) := of_word rfl (low_append _ _ (by decide))
theorem sra (a0 : Reg) (a1 : Reg) (a2 : Reg) : Statement (.sra a0 a1 a2) := of_word rfl (low_append _ _ (by decide))
theorem mul (a0 : Reg) (a1 : Reg) (a2 : Reg) : Statement (.mul a0 a1 a2) := of_word rfl (low_append _ _ (by decide))
theorem mulh (a0 : Reg) (a1 : Reg) (a2 : Reg) : Statement (.mulh a0 a1 a2) := of_word rfl (low_append _ _ (by decide))
theorem mulhsu (a0 : Reg) (a1 : Reg) (a2 : Reg) : Statement (.mulhsu a0 a1 a2) := of_word rfl (low_append _ _ (by decide))
theorem mulhu (a0 : Reg) (a1 : Reg) (a2 : Reg) : Statement (.mulhu a0 a1 a2) := of_word rfl (low_append _ _ (by decide))
theorem div (a0 : Reg) (a1 : Reg) (a2 : Reg) : Statement (.div a0 a1 a2) := of_word rfl (low_append _ _ (by decide))
theorem divu (a0 : Reg) (a1 : Reg) (a2 : Reg) : Statement (.divu a0 a1 a2) := of_word rfl (low_append _ _ (by decide))
theorem rem (a0 : Reg) (a1 : Reg) (a2 : Reg) : Statement (.rem a0 a1 a2) := of_word rfl (low_append _ _ (by decide))
theorem remu (a0 : Reg) (a1 : Reg) (a2 : Reg) : Statement (.remu a0 a1 a2) := of_word rfl (low_append _ _ (by decide))
theorem addw (a0 : Reg) (a1 : Reg) (a2 : Reg) : Statement (.addw a0 a1 a2) := of_word rfl (low_append _ _ (by decide))
theorem sllw (a0 : Reg) (a1 : Reg) (a2 : Reg) : Statement (.sllw a0 a1 a2) := of_word rfl (low_append _ _ (by decide))
theorem srlw (a0 : Reg) (a1 : Reg) (a2 : Reg) : Statement (.srlw a0 a1 a2) := of_word rfl (low_append _ _ (by decide))
theorem subw (a0 : Reg) (a1 : Reg) (a2 : Reg) : Statement (.subw a0 a1 a2) := of_word rfl (low_append _ _ (by decide))
theorem sraw (a0 : Reg) (a1 : Reg) (a2 : Reg) : Statement (.sraw a0 a1 a2) := of_word rfl (low_append _ _ (by decide))
theorem mulw (a0 : Reg) (a1 : Reg) (a2 : Reg) : Statement (.mulw a0 a1 a2) := of_word rfl (low_append _ _ (by decide))
theorem divw (a0 : Reg) (a1 : Reg) (a2 : Reg) : Statement (.divw a0 a1 a2) := of_word rfl (low_append _ _ (by decide))
theorem divuw (a0 : Reg) (a1 : Reg) (a2 : Reg) : Statement (.divuw a0 a1 a2) := of_word rfl (low_append _ _ (by decide))
theorem remw (a0 : Reg) (a1 : Reg) (a2 : Reg) : Statement (.remw a0 a1 a2) := of_word rfl (low_append _ _ (by decide))
theorem remuw (a0 : Reg) (a1 : Reg) (a2 : Reg) : Statement (.remuw a0 a1 a2) := of_word rfl (low_append _ _ (by decide))
theorem fence (a0 : Reg) (a1 : Reg) (a2 : BitVec 4) (a3 : BitVec 4) : Statement (.fence a0 a1 a2 a3) := of_word rfl (low_append _ _ (by decide))
theorem fenceTso (a0 : Reg) (a1 : Reg) (a2 : BitVec 4) (a3 : BitVec 4) : Statement (.fenceTso a0 a1 a2 a3) := of_word rfl (low_append _ _ (by decide))
theorem fenceI (a0 : Reg) (a1 : Reg) (a2 : BitVec 12) : Statement (.fenceI a0 a1 a2) := of_word rfl (low_append _ _ (by decide))
theorem ecall : Statement .ecall := of_word rfl (low_append _ _ (by decide))
theorem ebreak : Statement .ebreak := of_word rfl (low_append _ _ (by decide))
theorem wfi : Statement .wfi := of_word rfl (low_append _ _ (by decide))
theorem csrrw (a0 : Reg) (a1 : Reg) (a2 : BitVec 12) : Statement (.csrrw a0 a1 a2) := of_word rfl (low_append _ _ (by decide))
theorem csrrs (a0 : Reg) (a1 : Reg) (a2 : BitVec 12) : Statement (.csrrs a0 a1 a2) := of_word rfl (low_append _ _ (by decide))
theorem csrrc (a0 : Reg) (a1 : Reg) (a2 : BitVec 12) : Statement (.csrrc a0 a1 a2) := of_word rfl (low_append _ _ (by decide))
theorem csrrwi (a0 : Reg) (a1 : BitVec 12) (a2 : Reg) : Statement (.csrrwi a0 a1 a2) := of_word rfl (low_append _ _ (by decide))
theorem csrrsi (a0 : Reg) (a1 : BitVec 12) (a2 : Reg) : Statement (.csrrsi a0 a1 a2) := of_word rfl (low_append _ _ (by decide))
theorem csrrci (a0 : Reg) (a1 : BitVec 12) (a2 : Reg) : Statement (.csrrci a0 a1 a2) := of_word rfl (low_append _ _ (by decide))
theorem lr (a0 : Reg) (a1 : Reg) (a2 : Bool) (a3 : Bool) (a4 : Bool) : Statement (.lr a0 a1 a2 a3 a4) := of_word rfl (low_append _ _ (by decide))
theorem sc (a0 : Reg) (a1 : Reg) (a2 : Reg) (a3 : Bool) (a4 : Bool) (a5 : Bool) : Statement (.sc a0 a1 a2 a3 a4 a5) := of_word rfl (low_append _ _ (by decide))
theorem amoswap (a0 : Reg) (a1 : Reg) (a2 : Reg) (a3 : Bool) (a4 : Bool) (a5 : Bool) : Statement (.amoswap a0 a1 a2 a3 a4 a5) := of_word rfl (low_append _ _ (by decide))
theorem amoadd (a0 : Reg) (a1 : Reg) (a2 : Reg) (a3 : Bool) (a4 : Bool) (a5 : Bool) : Statement (.amoadd a0 a1 a2 a3 a4 a5) := of_word rfl (low_append _ _ (by decide))
theorem amoxor (a0 : Reg) (a1 : Reg) (a2 : Reg) (a3 : Bool) (a4 : Bool) (a5 : Bool) : Statement (.amoxor a0 a1 a2 a3 a4 a5) := of_word rfl (low_append _ _ (by decide))
theorem amoand (a0 : Reg) (a1 : Reg) (a2 : Reg) (a3 : Bool) (a4 : Bool) (a5 : Bool) : Statement (.amoand a0 a1 a2 a3 a4 a5) := of_word rfl (low_append _ _ (by decide))
theorem amoor (a0 : Reg) (a1 : Reg) (a2 : Reg) (a3 : Bool) (a4 : Bool) (a5 : Bool) : Statement (.amoor a0 a1 a2 a3 a4 a5) := of_word rfl (low_append _ _ (by decide))
theorem amomin (a0 : Reg) (a1 : Reg) (a2 : Reg) (a3 : Bool) (a4 : Bool) (a5 : Bool) : Statement (.amomin a0 a1 a2 a3 a4 a5) := of_word rfl (low_append _ _ (by decide))
theorem amomax (a0 : Reg) (a1 : Reg) (a2 : Reg) (a3 : Bool) (a4 : Bool) (a5 : Bool) : Statement (.amomax a0 a1 a2 a3 a4 a5) := of_word rfl (low_append _ _ (by decide))
theorem amominu (a0 : Reg) (a1 : Reg) (a2 : Reg) (a3 : Bool) (a4 : Bool) (a5 : Bool) : Statement (.amominu a0 a1 a2 a3 a4 a5) := of_word rfl (low_append _ _ (by decide))
theorem amomaxu (a0 : Reg) (a1 : Reg) (a2 : Reg) (a3 : Bool) (a4 : Bool) (a5 : Bool) : Statement (.amomaxu a0 a1 a2 a3 a4 a5) := of_word rfl (low_append _ _ (by decide))
theorem faddS (a0 : Reg) (a1 : Reg) (a2 : Reg) (a3 : BitVec 3) : Statement (.faddS a0 a1 a2 a3) := of_word rfl (low_append _ _ (by decide))
theorem fsubS (a0 : Reg) (a1 : Reg) (a2 : Reg) (a3 : BitVec 3) : Statement (.fsubS a0 a1 a2 a3) := of_word rfl (low_append _ _ (by decide))
theorem fmulS (a0 : Reg) (a1 : Reg) (a2 : Reg) (a3 : BitVec 3) : Statement (.fmulS a0 a1 a2 a3) := of_word rfl (low_append _ _ (by decide))
theorem fdivS (a0 : Reg) (a1 : Reg) (a2 : Reg) (a3 : BitVec 3) : Statement (.fdivS a0 a1 a2 a3) := of_word rfl (low_append _ _ (by decide))
theorem fsqrtS (a0 : Reg) (a1 : Reg) (a2 : BitVec 3) : Statement (.fsqrtS a0 a1 a2) := of_word rfl (low_append _ _ (by decide))
theorem fsgnjS (a0 : Reg) (a1 : Reg) (a2 : Reg) : Statement (.fsgnjS a0 a1 a2) := of_word rfl (low_append _ _ (by decide))
theorem fsgnjnS (a0 : Reg) (a1 : Reg) (a2 : Reg) : Statement (.fsgnjnS a0 a1 a2) := of_word rfl (low_append _ _ (by decide))
theorem fsgnjxS (a0 : Reg) (a1 : Reg) (a2 : Reg) : Statement (.fsgnjxS a0 a1 a2) := of_word rfl (low_append _ _ (by decide))
theorem fminS (a0 : Reg) (a1 : Reg) (a2 : Reg) : Statement (.fminS a0 a1 a2) := of_word rfl (low_append _ _ (by decide))
theorem fmaxS (a0 : Reg) (a1 : Reg) (a2 : Reg) : Statement (.fmaxS a0 a1 a2) := of_word rfl (low_append _ _ (by decide))
theorem fleS (a0 : Reg) (a1 : Reg) (a2 : Reg) : Statement (.fleS a0 a1 a2) := of_word rfl (low_append _ _ (by decide))
theorem fltS (a0 : Reg) (a1 : Reg) (a2 : Reg) : Statement (.fltS a0 a1 a2) := of_word rfl (low_append _ _ (by decide))
theorem feqS (a0 : Reg) (a1 : Reg) (a2 : Reg) : Statement (.feqS a0 a1 a2) := of_word rfl (low_append _ _ (by decide))
theorem fcvtWS (a0 : Reg) (a1 : Reg) (a2 : BitVec 3) : Statement (.fcvtWS a0 a1 a2) := of_word rfl (low_append _ _ (by decide))
theorem fcvtWuS (a0 : Reg) (a1 : Reg) (a2 : BitVec 3) : Statement (.fcvtWuS a0 a1 a2) := of_word rfl (low_append _ _ (by decide))
theorem fcvtLS (a0 : Reg) (a1 : Reg) (a2 : BitVec 3) : Statement (.fcvtLS a0 a1 a2) := of_word rfl (low_append _ _ (by decide))
theorem fcvtLuS (a0 : Reg) (a1 : Reg) (a2 : BitVec 3) : Statement (.fcvtLuS a0 a1 a2) := of_word rfl (low_append _ _ (by decide))
theorem fcvtSW (a0 : Reg) (a1 : Reg) (a2 : BitVec 3) : Statement (.fcvtSW a0 a1 a2) := of_word rfl (low_append _ _ (by decide))
theorem fcvtSWu (a0 : Reg) (a1 : Reg) (a2 : BitVec 3) : Statement (.fcvtSWu a0 a1 a2) := of_word rfl (low_append _ _ (by decide))
theorem fcvtSL (a0 : Reg) (a1 : Reg) (a2 : BitVec 3) : Statement (.fcvtSL a0 a1 a2) := of_word rfl (low_append _ _ (by decide))
theorem fcvtSLu (a0 : Reg) (a1 : Reg) (a2 : BitVec 3) : Statement (.fcvtSLu a0 a1 a2) := of_word rfl (low_append _ _ (by decide))
theorem fclassS (a0 : Reg) (a1 : Reg) : Statement (.fclassS a0 a1) := of_word rfl (low_append _ _ (by decide))
theorem fmaddS (a0 : Reg) (a1 : Reg) (a2 : Reg) (a3 : Reg) (a4 : BitVec 3) : Statement (.fmaddS a0 a1 a2 a3 a4) := of_word rfl (low_append _ _ (by decide))
theorem fmsubS (a0 : Reg) (a1 : Reg) (a2 : Reg) (a3 : Reg) (a4 : BitVec 3) : Statement (.fmsubS a0 a1 a2 a3 a4) := of_word rfl (low_append _ _ (by decide))
theorem fnmsubS (a0 : Reg) (a1 : Reg) (a2 : Reg) (a3 : Reg) (a4 : BitVec 3) : Statement (.fnmsubS a0 a1 a2 a3 a4) := of_word rfl (low_append _ _ (by decide))
theorem fnmaddS (a0 : Reg) (a1 : Reg) (a2 : Reg) (a3 : Reg) (a4 : BitVec 3) : Statement (.fnmaddS a0 a1 a2 a3 a4) := of_word rfl (low_append _ _ (by decide))
theorem cAddi4spn (a0 : BitVec 3) (a1 : BitVec 8) : Statement (.cAddi4spn a0 a1) := of_half rfl (by rw [low_append _ _ (by decide)]; decide)
theorem cLw (a0 : BitVec 3) (a1 : BitVec 3) (a2 : Reg) : Statement (.cLw a0 a1 a2) := of_half rfl (by rw [low_append _ _ (by decide)]; decide)
theorem cLd (a0 : BitVec 3) (a1 : BitVec 3) (a2 : Reg) : Statement (.cLd a0 a1 a2) := of_half rfl (by rw [low_append _ _ (by decide)]; decide)
theorem cSw (a0 : BitVec 3) (a1 : BitVec 3) (a2 : Reg) : Statement (.cSw a0 a1 a2) := of_half rfl (by rw [low_append _ _ (by decide)]; decide)
theorem cSd (a0 : BitVec 3) (a1 : BitVec 3) (a2 : Reg) : Statement (.cSd a0 a1 a2) := of_half rfl (by rw [low_append _ _ (by decide)]; decide)
theorem cAddi (a0 : Reg) (a1 : BitVec 6) : Statement (.cAddi a0 a1) := of_half rfl (by rw [low_append _ _ (by decide)]; decide)
theorem cNop (a0 : BitVec 6) : Statement (.cNop a0) := of_half rfl (by rw [low_append _ _ (by decide)]; decide)
theorem cAddiw (a0 : Reg) (a1 : BitVec 6) : Statement (.cAddiw a0 a1) := of_half rfl (by rw [low_append _ _ (by decide)]; decide)
theorem cLi (a0 : Reg) (a1 : BitVec 6) : Statement (.cLi a0 a1) := of_half rfl (by rw [low_append _ _ (by decide)]; decide)
theorem cAddi16sp (a0 : BitVec 6) : Statement (.cAddi16sp a0) := of_half rfl (by rw [low_append _ _ (by decide)]; decide)
theorem cLui (a0 : Reg) (a1 : BitVec 6) : Statement (.cLui a0 a1) := of_half rfl (by rw [low_append _ _ (by decide)]; decide)
theorem cSrli (a0 : BitVec 3) (a1 : BitVec 6) : Statement (.cSrli a0 a1) := of_half rfl (by rw [low_append _ _ (by decide)]; decide)
theorem cSrai (a0 : BitVec 3) (a1 : BitVec 6) : Statement (.cSrai a0 a1) := of_half rfl (by rw [low_append _ _ (by decide)]; decide)
theorem cAndi (a0 : BitVec 3) (a1 : BitVec 6) : Statement (.cAndi a0 a1) := of_half rfl (by rw [low_append _ _ (by decide)]; decide)
theorem cSub (a0 : BitVec 3) (a1 : BitVec 3) : Statement (.cSub a0 a1) := of_half rfl (by rw [low_append _ _ (by decide)]; decide)
theorem cXor (a0 : BitVec 3) (a1 : BitVec 3) : Statement (.cXor a0 a1) := of_half rfl (by rw [low_append _ _ (by decide)]; decide)
theorem cOr (a0 : BitVec 3) (a1 : BitVec 3) : Statement (.cOr a0 a1) := of_half rfl (by rw [low_append _ _ (by decide)]; decide)
theorem cAnd (a0 : BitVec 3) (a1 : BitVec 3) : Statement (.cAnd a0 a1) := of_half rfl (by rw [low_append _ _ (by decide)]; decide)
theorem cSubw (a0 : BitVec 3) (a1 : BitVec 3) : Statement (.cSubw a0 a1) := of_half rfl (by rw [low_append _ _ (by decide)]; decide)
theorem cAddw (a0 : BitVec 3) (a1 : BitVec 3) : Statement (.cAddw a0 a1) := of_half rfl (by rw [low_append _ _ (by decide)]; decide)
theorem cJ (a0 : BitVec 11) : Statement (.cJ a0) := of_half rfl (by rw [low_append _ _ (by decide)]; decide)
theorem cBeqz (a0 : BitVec 3) (a1 : BitVec 8) : Statement (.cBeqz a0 a1) := of_half rfl (by rw [low_append _ _ (by decide)]; decide)
theorem cBnez (a0 : BitVec 3) (a1 : BitVec 8) : Statement (.cBnez a0 a1) := of_half rfl (by rw [low_append _ _ (by decide)]; decide)
theorem cSlli (a0 : Reg) (a1 : BitVec 6) : Statement (.cSlli a0 a1) := of_half rfl (by rw [low_append _ _ (by decide)]; decide)
theorem cLwsp (a0 : Reg) (a1 : BitVec 6) : Statement (.cLwsp a0 a1) := of_half rfl (by rw [low_append _ _ (by decide)]; decide)
theorem cLdsp (a0 : Reg) (a1 : BitVec 6) : Statement (.cLdsp a0 a1) := of_half rfl (by rw [low_append _ _ (by decide)]; decide)
theorem cJr (a0 : Reg) : Statement (.cJr a0) := of_half rfl (by rw [low_append _ _ (by decide)]; decide)
theorem cMv (a0 : Reg) (a1 : Reg) : Statement (.cMv a0 a1) := of_half rfl (by rw [low_append _ _ (by decide)]; decide)
theorem cEbreak : Statement .cEbreak := of_half rfl (by rw [low_append _ _ (by decide)]; decide)
theorem cJalr (a0 : Reg) : Statement (.cJalr a0) := of_half rfl (by rw [low_append _ _ (by decide)]; decide)
theorem cAdd (a0 : Reg) (a1 : Reg) : Statement (.cAdd a0 a1) := of_half rfl (by rw [low_append _ _ (by decide)]; decide)
theorem cSwsp (a0 : Reg) (a1 : BitVec 6) : Statement (.cSwsp a0 a1) := of_half rfl (by rw [low_append _ _ (by decide)]; decide)
theorem cSdsp (a0 : Reg) (a1 : BitVec 6) : Statement (.cSdsp a0 a1) := of_half rfl (by rw [low_append _ _ (by decide)]; decide)
theorem illegalInstruction (a0 : BitVec 32) : Statement (.illegalInstruction a0) := of_none rfl
theorem batSpawn (a0 : Reg) (a1 : Reg) : Statement (.batSpawn a0 a1) := of_word rfl (low_append _ _ (by decide))
theorem batSend (a0 : Reg) (a1 : Reg) (a2 : Reg) : Statement (.batSend a0 a1 a2) := of_word rfl (low_append _ _ (by decide))
theorem batSendR (a0 : Reg) (a1 : Reg) (a2 : Reg) : Statement (.batSendR a0 a1 a2) := of_word rfl (low_append _ _ (by decide))
theorem batExit : Statement .batExit := of_word rfl (low_append _ _ (by decide))
theorem batYield (a0 : Reg) : Statement (.batYield a0) := of_word rfl (low_append _ _ (by decide))
theorem batPark (a0 : Reg) (a1 : Reg) (a2 : Reg) : Statement (.batPark a0 a1 a2) := of_word rfl (low_append _ _ (by decide))
theorem batWake (a0 : Reg) : Statement (.batWake a0) := of_word rfl (low_append _ _ (by decide))
theorem batRole (a0 : Reg) (a1 : Reg) : Statement (.batRole a0 a1) := of_word rfl (low_append _ _ (by decide))
theorem batSelf (a0 : Reg) (a1 : BitVec 3) : Statement (.batSelf a0 a1) := of_word rfl (low_append _ _ (by decide))
theorem hdInit (a0 : Reg) (a1 : Reg) (a2 : Reg) (a3 : BitVec 3) : Statement (.hdInit a0 a1 a2 a3) := of_word rfl (low_append _ _ (by decide))
theorem hdArrive (a0 : Reg) (a1 : Reg) (a2 : BitVec 2) : Statement (.hdArrive a0 a1 a2) := of_word rfl (low_append _ _ (by decide))
theorem hdArriveR (a0 : Reg) (a1 : Reg) (a2 : BitVec 2) : Statement (.hdArriveR a0 a1 a2) := of_word rfl (low_append _ _ (by decide))
theorem hdWait (a0 : Reg) (a1 : Reg) (a2 : Reg) : Statement (.hdWait a0 a1 a2) := of_word rfl (low_append _ _ (by decide))
theorem hdArrwait (a0 : Reg) (a1 : Reg) (a2 : Reg) (a3 : BitVec 2) : Statement (.hdArrwait a0 a1 a2 a3) := of_word rfl (low_append _ _ (by decide))
theorem hdTest (a0 : Reg) (a1 : Reg) : Statement (.hdTest a0 a1) := of_word rfl (low_append _ _ (by decide))
theorem hdWithdraw (a0 : Reg) (a1 : Reg) (a2 : BitVec 2) : Statement (.hdWithdraw a0 a1 a2) := of_word rfl (low_append _ _ (by decide))
theorem hdWithdrawR (a0 : Reg) (a1 : Reg) (a2 : BitVec 2) : Statement (.hdWithdrawR a0 a1 a2) := of_word rfl (low_append _ _ (by decide))
theorem hdJoin (a0 : Reg) : Statement (.hdJoin a0) := of_word rfl (low_append _ _ (by decide))
theorem hdJoinR (a0 : Reg) : Statement (.hdJoinR a0) := of_word rfl (low_append _ _ (by decide))
theorem lapEnd (a0 : Reg) (a1 : BitVec 2) : Statement (.lapEnd a0 a1) := of_word rfl (low_append _ _ (by decide))
theorem domRd (a0 : Reg) (a1 : BitVec 2) : Statement (.domRd a0 a1) := of_word rfl (low_append _ _ (by decide))
theorem waitUntil (a0 : Reg) (a1 : Reg) : Statement (.waitUntil a0 a1) := of_word rfl (low_append _ _ (by decide))
theorem waitPromise (a0 : Reg) : Statement (.waitPromise a0) := of_word rfl (low_append _ _ (by decide))
theorem msgSend (a0 : Reg) (a1 : Reg) (a2 : Reg) : Statement (.msgSend a0 a1 a2) := of_word rfl (low_append _ _ (by decide))
theorem msgRecv (a0 : Reg) (a1 : Reg) (a2 : BitVec 3) : Statement (.msgRecv a0 a1 a2) := of_word rfl (low_append _ _ (by decide))
theorem msgPoll (a0 : Reg) (a1 : Reg) (a2 : BitVec 3) : Statement (.msgPoll a0 a1 a2) := of_word rfl (low_append _ _ (by decide))
theorem rctSet (a0 : Reg) (a1 : Reg) : Statement (.rctSet a0 a1) := of_word rfl (low_append _ _ (by decide))
theorem rctHold (a0 : Reg) : Statement (.rctHold a0) := of_word rfl (low_append _ _ (by decide))
theorem rctRelease (a0 : Reg) : Statement (.rctRelease a0) := of_word rfl (low_append _ _ (by decide))
theorem ldAq (a0 : Reg) (a1 : Reg) (a2 : BitVec 2) (a3 : BitVec 3) (a4 : BitVec 7) : Statement (.ldAq a0 a1 a2 a3 a4) := of_word rfl (low_append _ _ (by decide))
theorem stRl (a0 : Reg) (a1 : Reg) (a2 : BitVec 2) (a3 : BitVec 2) (a4 : BitVec 7) : Statement (.stRl a0 a1 a2 a3 a4) := of_word rfl (low_append _ _ (by decide))
theorem gangLead (a0 : Reg) (a1 : BitVec 3) : Statement (.gangLead a0 a1) := of_word rfl (low_append _ _ (by decide))
theorem gangJoin (a0 : Reg) (a1 : BitVec 3) : Statement (.gangJoin a0 a1) := of_word rfl (low_append _ _ (by decide))
theorem gangEnd : Statement .gangEnd := of_word rfl (low_append _ _ (by decide))
theorem rrbSet (a0 : Reg) (a1 : Reg) : Statement (.rrbSet a0 a1) := of_word rfl (low_append _ _ (by decide))
theorem loopRot (a0 : Reg) (a1 : BitVec 11) : Statement (.loopRot a0 a1) := of_word rfl (low_append _ _ (by decide))
theorem xuret : Statement .xuret := of_word rfl (low_append _ _ (by decide))
theorem ctxSave (a0 : Reg) (a1 : Reg) : Statement (.ctxSave a0 a1) := of_word rfl (low_append _ _ (by decide))
theorem ctxRestore (a0 : Reg) (a1 : Reg) : Statement (.ctxRestore a0 a1) := of_word rfl (low_append _ _ (by decide))
theorem stamClaim (a0 : Reg) (a1 : Reg) : Statement (.stamClaim a0 a1) := of_word rfl (low_append _ _ (by decide))
theorem stamRd (a0 : Reg) (a1 : BitVec 3) : Statement (.stamRd a0 a1) := of_word rfl (low_append _ _ (by decide))
theorem ivlPost (a0 : Reg) (a1 : Reg) : Statement (.ivlPost a0 a1) := of_word rfl (low_append _ _ (by decide))
theorem ivlSync (a0 : Reg) : Statement (.ivlSync a0) := of_word rfl (low_append _ _ (by decide))
theorem grLaunch (a0 : Reg) (a1 : Reg) : Statement (.grLaunch a0 a1) := of_word rfl (low_append _ _ (by decide))
theorem grWait (a0 : Reg) (a1 : Reg) : Statement (.grWait a0 a1) := of_word rfl (low_append _ _ (by decide))
theorem xfence (a0 : BitVec 2) : Statement (.xfence a0) := of_word rfl (low_append _ _ (by decide))
theorem vaddFloat (a0 : Reg) (a1 : Reg) (a2 : Reg) (a3 : BitVec 3) : Statement (.vaddFloat a0 a1 a2 a3) := of_word rfl (low_append _ _ (by decide))
theorem vsubFloat (a0 : Reg) (a1 : Reg) (a2 : Reg) (a3 : BitVec 3) : Statement (.vsubFloat a0 a1 a2 a3) := of_word rfl (low_append _ _ (by decide))
theorem vmulFloat (a0 : Reg) (a1 : Reg) (a2 : Reg) (a3 : BitVec 3) : Statement (.vmulFloat a0 a1 a2 a3) := of_word rfl (low_append _ _ (by decide))
theorem vminFloat (a0 : Reg) (a1 : Reg) (a2 : Reg) (a3 : BitVec 3) : Statement (.vminFloat a0 a1 a2 a3) := of_word rfl (low_append _ _ (by decide))
theorem vmaxFloat (a0 : Reg) (a1 : Reg) (a2 : Reg) (a3 : BitVec 3) : Statement (.vmaxFloat a0 a1 a2 a3) := of_word rfl (low_append _ _ (by decide))
theorem vabsFloat (a0 : Reg) (a1 : Reg) (a2 : BitVec 3) : Statement (.vabsFloat a0 a1 a2) := of_word rfl (low_append _ _ (by decide))
theorem vnegFloat (a0 : Reg) (a1 : Reg) (a2 : BitVec 3) : Statement (.vnegFloat a0 a1 a2) := of_word rfl (low_append _ _ (by decide))
theorem vdiv (a0 : Reg) (a1 : Reg) (a2 : Reg) (a3 : BitVec 3) : Statement (.vdiv a0 a1 a2 a3) := of_word rfl (low_append _ _ (by decide))
theorem vsqrt (a0 : Reg) (a1 : Reg) (a2 : BitVec 3) (a3 : BitVec 2) : Statement (.vsqrt a0 a1 a2 a3) := of_word rfl (low_append _ _ (by decide))
theorem vrsq (a0 : Reg) (a1 : Reg) (a2 : BitVec 3) (a3 : BitVec 2) : Statement (.vrsq a0 a1 a2 a3) := of_word rfl (low_append _ _ (by decide))
theorem vaddInt (a0 : Reg) (a1 : Reg) (a2 : Reg) (a3 : BitVec 3) : Statement (.vaddInt a0 a1 a2 a3) := of_word rfl (low_append _ _ (by decide))
theorem vsubInt (a0 : Reg) (a1 : Reg) (a2 : Reg) (a3 : BitVec 3) : Statement (.vsubInt a0 a1 a2 a3) := of_word rfl (low_append _ _ (by decide))
theorem vmulInt (a0 : Reg) (a1 : Reg) (a2 : Reg) (a3 : BitVec 3) : Statement (.vmulInt a0 a1 a2 a3) := of_word rfl (low_append _ _ (by decide))
theorem vminInt (a0 : Reg) (a1 : Reg) (a2 : Reg) (a3 : BitVec 3) : Statement (.vminInt a0 a1 a2 a3) := of_word rfl (low_append _ _ (by decide))
theorem vmaxInt (a0 : Reg) (a1 : Reg) (a2 : Reg) (a3 : BitVec 3) : Statement (.vmaxInt a0 a1 a2 a3) := of_word rfl (low_append _ _ (by decide))
theorem vabsInt (a0 : Reg) (a1 : Reg) (a2 : BitVec 3) : Statement (.vabsInt a0 a1 a2) := of_word rfl (low_append _ _ (by decide))
theorem vnegInt (a0 : Reg) (a1 : Reg) (a2 : BitVec 3) : Statement (.vnegInt a0 a1 a2) := of_word rfl (low_append _ _ (by decide))
theorem vand (a0 : Reg) (a1 : Reg) (a2 : Reg) (a3 : BitVec 3) : Statement (.vand a0 a1 a2 a3) := of_word rfl (low_append _ _ (by decide))
theorem vor (a0 : Reg) (a1 : Reg) (a2 : Reg) (a3 : BitVec 3) : Statement (.vor a0 a1 a2 a3) := of_word rfl (low_append _ _ (by decide))
theorem vxor (a0 : Reg) (a1 : Reg) (a2 : Reg) (a3 : BitVec 3) : Statement (.vxor a0 a1 a2 a3) := of_word rfl (low_append _ _ (by decide))
theorem vshl (a0 : Reg) (a1 : Reg) (a2 : Reg) (a3 : BitVec 3) : Statement (.vshl a0 a1 a2 a3) := of_word rfl (low_append _ _ (by decide))
theorem vshr (a0 : Reg) (a1 : Reg) (a2 : Reg) (a3 : BitVec 3) : Statement (.vshr a0 a1 a2 a3) := of_word rfl (low_append _ _ (by decide))
theorem vsra (a0 : Reg) (a1 : Reg) (a2 : Reg) (a3 : BitVec 3) : Statement (.vsra a0 a1 a2 a3) := of_word rfl (low_append _ _ (by decide))
theorem vcmp (a0 : Reg) (a1 : Reg) (a2 : Reg) (a3 : BitVec 3) (a4 : BitVec 3) : Statement (.vcmp a0 a1 a2 a3 a4) := of_word rfl (low_append _ _ (by decide))
theorem vsel (a0 : Reg) (a1 : Reg) (a2 : Reg) (a3 : BitVec 3) : Statement (.vsel a0 a1 a2 a3) := of_word rfl (low_append _ _ (by decide))
theorem vcvt (a0 : Reg) (a1 : Reg) (a2 : BitVec 3) (a3 : BitVec 2) (a4 : BitVec 3) : Statement (.vcvt a0 a1 a2 a3 a4) := of_word rfl (low_append _ _ (by decide))
theorem vqnt (a0 : Reg) (a1 : BitVec 4) (a2 : Bool) : Statement (.vqnt a0 a1 a2) := of_word rfl (low_append _ _ (by decide))
theorem vdqnt (a0 : BitVec 4) (a1 : Reg) (a2 : Bool) : Statement (.vdqnt a0 a1 a2) := of_word rfl (low_append _ _ (by decide))
theorem vredsum (a0 : Reg) (a1 : Reg) (a2 : BitVec 3) : Statement (.vredsum a0 a1 a2) := of_word rfl (low_append _ _ (by decide))
theorem vredmax (a0 : Reg) (a1 : Reg) (a2 : BitVec 3) : Statement (.vredmax a0 a1 a2) := of_word rfl (low_append _ _ (by decide))
theorem vperm (a0 : Reg) (a1 : Reg) (a2 : Reg) (a3 : BitVec 3) : Statement (.vperm a0 a1 a2 a3) := of_word rfl (low_append _ _ (by decide))
theorem vshuf (a0 : Reg) (a1 : Reg) (a2 : Reg) (a3 : BitVec 3) : Statement (.vshuf a0 a1 a2 a3) := of_word rfl (low_append _ _ (by decide))
theorem vslide (a0 : Reg) (a1 : Reg) (a2 : BitVec 3) (a3 : Reg) : Statement (.vslide a0 a1 a2 a3) := of_word rfl (low_append _ _ (by decide))
theorem vsplat (a0 : Reg) (a1 : Reg) (a2 : BitVec 3) : Statement (.vsplat a0 a1 a2) := of_word rfl (low_append _ _ (by decide))
theorem vins (a0 : Reg) (a1 : Reg) (a2 : Reg) (a3 : BitVec 3) : Statement (.vins a0 a1 a2 a3) := of_word rfl (low_append _ _ (by decide))
theorem vext (a0 : Reg) (a1 : Reg) (a2 : Reg) (a3 : BitVec 3) : Statement (.vext a0 a1 a2 a3) := of_word rfl (low_append _ _ (by decide))
theorem vld (a0 : Reg) (a1 : Reg) (a2 : BitVec 3) : Statement (.vld a0 a1 a2) := of_word rfl (low_append _ _ (by decide))
theorem vlds (a0 : Reg) (a1 : Reg) (a2 : Reg) (a3 : BitVec 3) : Statement (.vlds a0 a1 a2 a3) := of_word rfl (low_append _ _ (by decide))
theorem vldx (a0 : Reg) (a1 : Reg) (a2 : Reg) (a3 : BitVec 3) : Statement (.vldx a0 a1 a2 a3) := of_word rfl (low_append _ _ (by decide))
theorem vldb (a0 : Reg) (a1 : Reg) (a2 : BitVec 3) : Statement (.vldb a0 a1 a2) := of_word rfl (low_append _ _ (by decide))
theorem vldq (a0 : Reg) (a1 : Reg) (a2 : Reg) (a3 : BitVec 3) : Statement (.vldq a0 a1 a2 a3) := of_word rfl (low_append _ _ (by decide))
theorem vst (a0 : Reg) (a1 : Reg) (a2 : BitVec 3) : Statement (.vst a0 a1 a2) := of_word rfl (low_append _ _ (by decide))
theorem vsts (a0 : Reg) (a1 : Reg) (a2 : Reg) (a3 : BitVec 3) : Statement (.vsts a0 a1 a2 a3) := of_word rfl (low_append _ _ (by decide))
theorem vstx (a0 : Reg) (a1 : Reg) (a2 : Reg) (a3 : BitVec 3) : Statement (.vstx a0 a1 a2 a3) := of_word rfl (low_append _ _ (by decide))
theorem vfma (a0 : Reg) (a1 : Reg) (a2 : Reg) (a3 : Reg) : Statement (.vfma a0 a1 a2 a3) := of_word rfl (low_append _ _ (by decide))
theorem vfms (a0 : Reg) (a1 : Reg) (a2 : Reg) (a3 : Reg) : Statement (.vfms a0 a1 a2 a3) := of_word rfl (low_append _ _ (by decide))
theorem vfnma (a0 : Reg) (a1 : Reg) (a2 : Reg) (a3 : Reg) : Statement (.vfnma a0 a1 a2 a3) := of_word rfl (low_append _ _ (by decide))
theorem vfnms (a0 : Reg) (a1 : Reg) (a2 : Reg) (a3 : Reg) : Statement (.vfnms a0 a1 a2 a3) := of_word rfl (low_append _ _ (by decide))
theorem mmTile (a0 : BitVec 2) (a1 : BitVec 2) (a2 : Bool) : Statement (.mmTile a0 a1 a2) := of_word rfl (low_append _ _ (by decide))
theorem panelStep (a0 : Nat) : Statement (.panelStep a0) := of_none rfl
theorem mmZero (a0 : BitVec 2) (a1 : BitVec 2) : Statement (.mmZero a0 a1) := of_word rfl (low_append _ _ (by decide))
theorem mmWait : Statement .mmWait := of_word rfl (low_append _ _ (by decide))
theorem mmDrain (a0 : Reg) (a1 : Reg) (a2 : BitVec 2) (a3 : BitVec 2) (a4 : Bool) (a5 : BitVec 3) : Statement (.mmDrain a0 a1 a2 a3 a4 a5) := of_word rfl (low_append _ _ (by decide))
theorem mmLoad (a0 : Reg) (a1 : Reg) (a2 : BitVec 2) (a3 : BitVec 2) (a4 : BitVec 3) : Statement (.mmLoad a0 a1 a2 a3 a4) := of_word rfl (low_append _ _ (by decide))
theorem mmMset (a0 : Reg) (a1 : Reg) (a2 : BitVec 2) (a3 : Bool) : Statement (.mmMset a0 a1 a2 a3) := of_word rfl (low_append _ _ (by decide))
theorem mmTostrm (a0 : BitVec 2) (a1 : BitVec 2) (a2 : Bool) (a3 : BitVec 1) : Statement (.mmTostrm a0 a1 a2 a3) := of_word rfl (low_append _ _ (by decide))
theorem stBind (a0 : Reg) (a1 : BitVec 1) : Statement (.stBind a0 a1) := of_word rfl (low_append _ _ (by decide))
theorem stFill (a0 : Reg) (a1 : BitVec 3) (a2 : BitVec 1) : Statement (.stFill a0 a1 a2) := of_word rfl (low_append _ _ (by decide))
theorem stSkip (a0 : Reg) (a1 : Reg) (a2 : BitVec 1) : Statement (.stSkip a0 a1 a2) := of_word rfl (low_append _ _ (by decide))
theorem stStat (a0 : Reg) (a1 : BitVec 1) : Statement (.stStat a0 a1) := of_word rfl (low_append _ _ (by decide))
theorem stFlush (a0 : BitVec 1) : Statement (.stFlush a0) := of_word rfl (low_append _ _ (by decide))
theorem cpGet (a0 : Reg) (a1 : Reg) (a2 : Reg) : Statement (.cpGet a0 a1 a2) := of_word rfl (low_append _ _ (by decide))
theorem cpPut (a0 : Reg) (a1 : Reg) (a2 : Reg) : Statement (.cpPut a0 a1 a2) := of_word rfl (low_append _ _ (by decide))
theorem cpXfer (a0 : Reg) (a1 : Reg) (a2 : Reg) : Statement (.cpXfer a0 a1 a2) := of_word rfl (low_append _ _ (by decide))
theorem cpFeed (a0 : Reg) (a1 : Reg) (a2 : Reg) : Statement (.cpFeed a0 a1 a2) := of_word rfl (low_append _ _ (by decide))
theorem cpMcast (a0 : Reg) (a1 : Reg) : Statement (.cpMcast a0 a1) := of_word rfl (low_append _ _ (by decide))
theorem cpFill (a0 : Reg) (a1 : Reg) (a2 : Reg) : Statement (.cpFill a0 a1 a2) := of_word rfl (low_append _ _ (by decide))
theorem cpGath (a0 : Reg) (a1 : Reg) (a2 : Reg) : Statement (.cpGath a0 a1 a2) := of_word rfl (low_append _ _ (by decide))
theorem cpScat (a0 : Reg) (a1 : Reg) (a2 : Reg) : Statement (.cpScat a0 a1 a2) := of_word rfl (low_append _ _ (by decide))
theorem cpAtom (a0 : Reg) (a1 : Reg) (a2 : Reg) : Statement (.cpAtom a0 a1 a2) := of_word rfl (low_append _ _ (by decide))
theorem cpStat (a0 : Reg) (a1 : Reg) (a2 : Reg) : Statement (.cpStat a0 a1 a2) := of_word rfl (low_append _ _ (by decide))
theorem cpCancel (a0 : Reg) (a1 : Reg) : Statement (.cpCancel a0 a1) := of_word rfl (low_append _ _ (by decide))
theorem bufMap (a0 : Reg) (a1 : Reg) (a2 : Reg) : Statement (.bufMap a0 a1 a2) := of_word rfl (low_append _ _ (by decide))
theorem bufUnmap (a0 : Reg) (a1 : Reg) : Statement (.bufUnmap a0 a1) := of_word rfl (low_append _ _ (by decide))
theorem bufShadow (a0 : Reg) (a1 : Reg) (a2 : Reg) : Statement (.bufShadow a0 a1 a2) := of_word rfl (low_append _ _ (by decide))
theorem bufPub (a0 : Reg) (a1 : Reg) : Statement (.bufPub a0 a1) := of_word rfl (low_append _ _ (by decide))
theorem statInit (a0 : BitVec 3) : Statement (.statInit a0) := of_word rfl (low_append _ _ (by decide))
theorem statUpd (a0 : BitVec 3) (a1 : Reg) : Statement (.statUpd a0 a1) := of_word rfl (low_append _ _ (by decide))
theorem statUpdw (a0 : BitVec 3) (a1 : Reg) (a2 : Reg) : Statement (.statUpdw a0 a1 a2) := of_word rfl (low_append _ _ (by decide))
theorem statMerge (a0 : BitVec 3) (a1 : BitVec 3) (a2 : BitVec 3) : Statement (.statMerge a0 a1 a2) := of_word rfl (low_append _ _ (by decide))
theorem statLd (a0 : BitVec 3) (a1 : Reg) : Statement (.statLd a0 a1) := of_word rfl (low_append _ _ (by decide))
theorem statSt (a0 : Reg) (a1 : BitVec 3) : Statement (.statSt a0 a1) := of_word rfl (low_append _ _ (by decide))
theorem vstatUpd (a0 : BitVec 3) (a1 : Reg) (a2 : BitVec 2) : Statement (.vstatUpd a0 a1 a2) := of_word rfl (low_append _ _ (by decide))
theorem vstatUpdw (a0 : BitVec 3) (a1 : Reg) (a2 : Reg) (a3 : BitVec 2) : Statement (.vstatUpdw a0 a1 a2 a3) := of_word rfl (low_append _ _ (by decide))
theorem statDrain (a0 : Reg) (a1 : BitVec 3) (a2 : Reg) (a3 : BitVec 3) : Statement (.statDrain a0 a1 a2 a3) := of_word rfl (low_append _ _ (by decide))
theorem vstatNorm (a0 : Reg) (a1 : Reg) (a2 : BitVec 2) (a3 : BitVec 4) : Statement (.vstatNorm a0 a1 a2 a3) := of_word rfl (low_append _ _ (by decide))
theorem cycOpen (a0 : Reg) (a1 : Reg) : Statement (.cycOpen a0 a1) := of_word rfl (low_append _ _ (by decide))
theorem cycFreeze (a0 : Reg) (a1 : Reg) (a2 : Reg) : Statement (.cycFreeze a0 a1 a2) := of_word rfl (low_append _ _ (by decide))
theorem cycIter (a0 : Reg) (a1 : Reg) : Statement (.cycIter a0 a1) := of_word rfl (low_append _ _ (by decide))
theorem cycRes (a0 : Reg) (a1 : BitVec 3) : Statement (.cycRes a0 a1) := of_word rfl (low_append _ _ (by decide))
theorem cycPass (a0 : Reg) (a1 : Reg) : Statement (.cycPass a0 a1) := of_word rfl (low_append _ _ (by decide))
theorem cycTake (a0 : Reg) (a1 : Reg) : Statement (.cycTake a0 a1) := of_word rfl (low_append _ _ (by decide))
theorem cycNext (a0 : Reg) (a1 : Reg) : Statement (.cycNext a0 a1) := of_word rfl (low_append _ _ (by decide))
theorem cycBwd (a0 : Reg) (a1 : Reg) : Statement (.cycBwd a0 a1) := of_word rfl (low_append _ _ (by decide))
theorem cycStat (a0 : Reg) (a1 : Reg) (a2 : BitVec 2) : Statement (.cycStat a0 a1 a2) := of_word rfl (low_append _ _ (by decide))
theorem cycClose (a0 : Reg) : Statement (.cycClose a0) := of_word rfl (low_append _ _ (by decide))
theorem cycAbort (a0 : Reg) : Statement (.cycAbort a0) := of_word rfl (low_append _ _ (by decide))
theorem clLoad (a0 : Reg) (a1 : Reg) (a2 : Reg) : Statement (.clLoad a0 a1 a2) := of_word rfl (low_append _ _ (by decide))
theorem clRun (a0 : Reg) (a1 : Reg) (a2 : Reg) : Statement (.clRun a0 a1 a2) := of_word rfl (low_append _ _ (by decide))
theorem clWait (a0 : Reg) (a1 : Reg) : Statement (.clWait a0 a1) := of_word rfl (low_append _ _ (by decide))
theorem clCancel (a0 : Reg) : Statement (.clCancel a0) := of_word rfl (low_append _ _ (by decide))
theorem clGrp (a0 : Reg) (a1 : Reg) (a2 : Reg) : Statement (.clGrp a0 a1 a2) := of_word rfl (low_append _ _ (by decide))
theorem clJoin (a0 : Reg) (a1 : Reg) (a2 : Reg) : Statement (.clJoin a0 a1 a2) := of_word rfl (low_append _ _ (by decide))
theorem clLeave (a0 : Reg) (a1 : Reg) (a2 : Reg) : Statement (.clLeave a0 a1 a2) := of_word rfl (low_append _ _ (by decide))
theorem clPause (a0 : Reg) : Statement (.clPause a0) := of_word rfl (low_append _ _ (by decide))
theorem clResume (a0 : Reg) : Statement (.clResume a0) := of_word rfl (low_append _ _ (by decide))
theorem powerOnReset : Statement .powerOnReset := of_none rfl
theorem resetRequest : Statement .resetRequest := of_none rfl
theorem inputUndervoltage : Statement .inputUndervoltage := of_none rfl
theorem thermalReport (a0 : Nat) (a1 : Int) : Statement (.thermalReport a0 a1) := of_none rfl
theorem dieReset (a0 : Nat) : Statement (.dieReset a0) := of_none rfl
theorem dieReturn (a0 : Nat) : Statement (.dieReturn a0) := of_none rfl
theorem farModuleLoss (a0 : Nat) : Statement (.farModuleLoss a0) := of_none rfl
theorem relayDown (a0 : Nat) : Statement (.relayDown a0) := of_none rfl
theorem linkFlit (a0 : Nat) (a1 : Bool) (a2 : Option (BitVec 2)) (a3 : Option (BitVec 16)) : Statement (.linkFlit a0 a1 a2 a3) := of_none rfl
theorem linkRetrain (a0 : Nat) (a1 : Bool) : Statement (.linkRetrain a0 a1) := of_none rfl
theorem slotSyncMarker (a0 : Nat) (a1 : Nat) : Statement (.slotSyncMarker a0 a1) := of_none rfl
theorem slotSync (a0 : Nat) (a1 : Nat) (a2 : Bool) : Statement (.slotSync a0 a1 a2) := of_none rfl
theorem read (a0 : Nat) : Statement (.read a0) := of_none rfl
theorem write (a0 : Nat) : Statement (.write a0) := of_none rfl
theorem amo (a0 : Nat) : Statement (.amo a0) := of_none rfl
theorem readReply (a0 : Nat) : Statement (.readReply a0) := of_none rfl
theorem writeAck (a0 : Nat) : Statement (.writeAck a0) := of_none rfl
theorem faultReply (a0 : Nat) : Statement (.faultReply a0) := of_none rfl
theorem msg (a0 : Nat) : Statement (.msg a0) := of_none rfl
theorem msgAck (a0 : Nat) : Statement (.msgAck a0) := of_none rfl
theorem msgResend (a0 : Nat) : Statement (.msgResend a0) := of_none rfl
theorem msgMoved (a0 : Nat) : Statement (.msgMoved a0) := of_none rfl
theorem arrive (a0 : Nat) : Statement (.arrive a0) := of_none rfl
theorem copyData (a0 : Nat) : Statement (.copyData a0) := of_none rfl
theorem copyDone (a0 : Nat) : Statement (.copyDone a0) := of_none rfl
theorem mcastData (a0 : Nat) : Statement (.mcastData a0) := of_none rfl
theorem atomBatch (a0 : Nat) : Statement (.atomBatch a0) := of_none rfl
theorem chunk (a0 : Nat) : Statement (.chunk a0) := of_none rfl
theorem pause (a0 : Nat) : Statement (.pause a0) := of_none rfl
theorem resume (a0 : Nat) : Statement (.resume a0) := of_none rfl
theorem ivl (a0 : Nat) : Statement (.ivl a0) := of_none rfl
theorem rctUpd (a0 : Nat) : Statement (.rctUpd a0) := of_none rfl
theorem swcSync (a0 : Nat) : Statement (.swcSync a0) := of_none rfl
theorem swcSyncSend : Statement .swcSyncSend := of_none rfl
theorem swcSlew (a0 : Nat) : Statement (.swcSlew a0) := of_none rfl
theorem e2eAck (a0 : Nat) : Statement (.e2eAck a0) := of_none rfl
theorem e2eAckSend (a0 : Nat) : Statement (.e2eAckSend a0) := of_none rfl
theorem gatewayOutbound (a0 : Nat) : Statement (.gatewayOutbound a0) := of_none rfl
theorem gatewayInbound (a0 : Nat) : Statement (.gatewayInbound a0) := of_none rfl
theorem replayTimeout (a0 : Nat) (a1 : Nat) : Statement (.replayTimeout a0 a1) := of_none rfl
theorem planeIdleTimeout (a0 : Nat) (a1 : Nat) : Statement (.planeIdleTimeout a0 a1) := of_none rfl
theorem walkDone (a0 : Nat) (a1 : Nat) : Statement (.walkDone a0 a1) := of_none rfl
theorem faultAnswer (a0 : Nat) (a1 : Nat) (a2 : BitVec 8) : Statement (.faultAnswer a0 a1 a2) := of_none rfl
theorem faultRecordTimeout (a0 : Nat) (a1 : Nat) : Statement (.faultRecordTimeout a0 a1) := of_none rfl
theorem logApply (a0 : Nat) : Statement (.logApply a0) := of_none rfl
theorem appliedIndexReport (a0 : Nat) : Statement (.appliedIndexReport a0) := of_none rfl
theorem tierMove (a0 : Nat) (a1 : Nat) (a2 : Nat) (a3 : Nat) (a4 : Nat) : Statement (.tierMove a0 a1 a2 a3 a4) := of_none rfl
theorem homeMove (a0 : Nat) (a1 : Nat) (a2 : Nat) (a3 : Nat) (a4 : Nat) (a5 : Nat) : Statement (.homeMove a0 a1 a2 a3 a4 a5) := of_none rfl
theorem vaultCopyDone (a0 : Nat) (a1 : Nat) : Statement (.vaultCopyDone a0 a1) := of_none rfl
theorem trkload (a0 : Dword) : Statement (.trkload a0) := of_none rfl
theorem trkloadDone : Statement .trkloadDone := of_none rfl
theorem hostApertureAccess (a0 : Bool) (a1 : Nat) (a2 : Nat) (a3 : Nat) (a4 : Bool) : Statement (.hostApertureAccess a0 a1 a2 a3 a4) := of_none rfl
theorem intakeWrite (a0 : IntakeWrite) : Statement (.intakeWrite a0) := of_none rfl
theorem intakecommit (a0 : Nat) (a1 : Dword) : Statement (.intakecommit a0 a1) := of_none rfl
theorem grdef (a0 : Dword) : Statement (.grdef a0) := of_none rfl
theorem grdefCopyDone : Statement .grdefCopyDone := of_none rfl
theorem prectlPreempt (a0 : Dword) : Statement (.prectlPreempt a0) := of_none rfl
theorem prectlResume (a0 : Dword) : Statement (.prectlResume a0) := of_none rfl
theorem prestatDone : Statement .prestatDone := of_none rfl
theorem ckctlStart (a0 : Dword) : Statement (.ckctlStart a0) := of_none rfl
theorem ckctlQuiesce (a0 : Dword) : Statement (.ckctlQuiesce a0) := of_none rfl
theorem ckctlRestore (a0 : Dword) : Statement (.ckctlRestore a0) := of_none rfl
theorem quiesceDone : Statement .quiesceDone := of_none rfl
theorem checkpointCopyDone : Statement .checkpointCopyDone := of_none rfl
theorem restoreDone : Statement .restoreDone := of_none rfl
theorem tftpResend : Statement .tftpResend := of_none rfl
theorem fetchRestart : Statement .fetchRestart := of_none rfl
theorem imageVerify : Statement .imageVerify := of_none rfl
theorem bankGate (a0 : Nat) (a1 : Nat) (a2 : Nat) : Statement (.bankGate a0 a1 a2) := of_none rfl
theorem bankWake (a0 : Nat) (a1 : Nat) (a2 : Nat) : Statement (.bankWake a0 a1 a2) := of_none rfl
theorem bankWakeDone (a0 : Nat) (a1 : Nat) (a2 : Nat) : Statement (.bankWakeDone a0 a1 a2) := of_none rfl
theorem registerWrite (a0 : Nat) (a1 : Dword) : Statement (.registerWrite a0 a1) := of_none rfl
theorem resourceReport (a0 : Nat) : Statement (.resourceReport a0) := of_none rfl
theorem launchAdmit : Statement .launchAdmit := of_none rfl
theorem admissionDeadline (a0 : Nat) : Statement (.admissionDeadline a0) := of_none rfl
theorem launchPlace : Statement .launchPlace := of_none rfl
theorem placementTimeout (a0 : Nat) : Statement (.placementTimeout a0) := of_none rfl
theorem energyMeasure (a0 : Nat) (a1 : Nat) : Statement (.energyMeasure a0 a1) := of_none rfl
theorem batonDispatch (a0 : Nat) : Statement (.batonDispatch a0) := of_none rfl
theorem ageTick : Statement .ageTick := of_none rfl
theorem slotPromotion (a0 : Nat) : Statement (.slotPromotion a0) := of_none rfl
theorem pacerBind (a0 : Nat) : Statement (.pacerBind a0) := of_none rfl
theorem batonEvict (a0 : Nat) (a1 : Nat) : Statement (.batonEvict a0 a1) := of_none rfl
theorem waitDeadline (a0 : Nat) (a1 : Nat) : Statement (.waitDeadline a0 a1) := of_none rfl
theorem gangFormationTimeout (a0 : Nat) (a1 : Nat) : Statement (.gangFormationTimeout a0 a1) := of_none rfl
theorem deferredFaultDelivery (a0 : Nat) (a1 : Nat) : Statement (.deferredFaultDelivery a0 a1) := of_none rfl
theorem promiseMissed (a0 : Nat) (a1 : Nat) : Statement (.promiseMissed a0 a1) := of_none rfl
theorem copyComplete (a0 : Nat) (a1 : Nat) : Statement (.copyComplete a0 a1) := of_none rfl
theorem feedPanel (a0 : Nat) (a1 : Bool) : Statement (.feedPanel a0 a1) := of_none rfl
theorem handleEntryLapse (a0 : Nat) (a1 : Nat) : Statement (.handleEntryLapse a0 a1) := of_none rfl
theorem nodeStart (a0 : Nat) (a1 : Nat) (a2 : Nat) : Statement (.nodeStart a0 a1 a2) := of_none rfl
theorem nodeEnd (a0 : Nat) (a1 : Nat) (a2 : Nat) : Statement (.nodeEnd a0 a1 a2) := of_none rfl
theorem stallTimeout (a0 : Nat) (a1 : Nat) : Statement (.stallTimeout a0 a1) := of_none rfl
theorem pauseLimit (a0 : Nat) (a1 : Nat) : Statement (.pauseLimit a0 a1) := of_none rfl
theorem reservationRelease (a0 : Nat) (a1 : Nat) : Statement (.reservationRelease a0 a1) := of_none rfl
theorem functionReady (a0 : Nat) : Statement (.functionReady a0) := of_none rfl
theorem functionFailure (a0 : Nat) : Statement (.functionFailure a0) := of_none rfl
theorem dispatchEntryComplete (a0 : Nat) (a1 : Nat) : Statement (.dispatchEntryComplete a0 a1) := of_none rfl
theorem cycleControllerRequest : Statement .cycleControllerRequest := of_none rfl
theorem managementEthernetFrame (a0 : List (BitVec 8)) : Statement (.managementEthernetFrame a0) := of_none rfl

end Sys2Proof.Laws.EncodingLength
end

