-- ==== Sys2Proof/Laws/Decode.lean ====
section
/-! SUPPORT. What the decoder does with the bytes of a word or a halfword, and the fields of a word that is put together from them. -/
namespace Sys2Proof

theorem natLE_bytesLE2 (h : BitVec 16) : BitVec.ofNat 16 (natLE (bytesLE 2 h.toNat)) = h := by
  apply BitVec.eq_of_toNat_eq
  have := h.isLt
  simp [bytesLE, natLE, List.range_succ]
  omega
theorem natLE_bytesLE4 (w : Word32) : BitVec.ofNat 32 (natLE (bytesLE 4 w.toNat)) = w := by
  apply BitVec.eq_of_toNat_eq
  have := w.isLt
  simp [bytesLE, natLE, List.range_succ]
  omega
theorem low_two {n : Nat} (b : BitVec n) : (b.extractLsb' 0 2).toNat = b.toNat % 4 := by simp
theorem low_byte_ofNat (v : Nat) : (BitVec.ofNat 8 v).toNat % 4 = v % 4 := by simp

/-- A word is decoded as a word, and what follows it is left. -/
theorem decode_word (w : Word32) (rest : List Byte) (h : w.toNat % 4 = 3) :
    decode (bytesLE 4 w.toNat ++ rest) = (match decode32 w with | .ok i => .ok (i, rest) | .error e => .error e) := by
  have hb : ((BitVec.ofNat 8 w.toNat).extractLsb' 0 2 : BitVec 2) = 3#2 := by
    apply BitVec.eq_of_toNat_eq
    rw [low_two, low_byte_ofNat]; exact h
  have e := natLE_bytesLE4 w
  simp only [bytesLE, List.range_succ, List.range_zero, List.nil_append, List.cons_append, List.map_cons, List.map_nil,
    Nat.mul_zero, Nat.pow_zero, Nat.div_one] at e ⊢
  simp only [decode]
  rw [if_pos hb, e] <;> cases decode32 w <;> rfl
/-- A halfword is decoded as a halfword, and what follows it is left. -/
theorem decode_half (w : BitVec 16) (rest : List Byte) (h : w.toNat % 4 ≠ 3) :
    decode (bytesLE 2 w.toNat ++ rest) = (match decode16 w with | .ok i => .ok (i, rest) | .error e => .error e) := by
  have hb : ¬((BitVec.ofNat 8 w.toNat).extractLsb' 0 2 : BitVec 2) = 3#2 := by
    intro hh
    apply h
    rw [← low_byte_ofNat, ← low_two]; exact congrArg BitVec.toNat hh
  have e := natLE_bytesLE2 w
  simp only [bytesLE, List.range_succ, List.range_zero, List.nil_append, List.cons_append, List.map_cons, List.map_nil,
    Nat.mul_zero, Nat.pow_zero, Nat.div_one] at e ⊢
  simp only [decode]
  rw [if_neg hb, e] <;> cases decode16 w <;> rfl

/-- A field that lies in the lower part of a concatenation. -/
theorem extract_append_low {m n : Nat} (x : BitVec m) (y : BitVec n) (i k : Nat) (h : i + k ≤ n) :
    (x ++ y).extractLsb' i k = y.extractLsb' i k := by
  ext j hj
  simp [BitVec.getLsbD_append, show i + j < n by omega]
/-- A field that lies in the upper part of a concatenation. -/
theorem extract_append_high {m n : Nat} (x : BitVec m) (y : BitVec n) (i k : Nat) (h : n ≤ i) :
    (x ++ y).extractLsb' i k = x.extractLsb' (i - n) k := by
  ext j hj
  have : ¬ i + j < n := by omega
  simp [BitVec.getLsbD_append, this, show i + j - n = i - n + j by omega]
/-- The whole of a field. -/
theorem extract_whole {n : Nat} (x : BitVec n) : x.extractLsb' 0 n = x := by
  ext j hj; simp

/-! ## Major opcodes -/

theorem decode32_55 (w : Word32) (h : w.extractLsb' 0 7 = 55#7) : decode32 w = decodeLui w := by simp only [decode32, h]; rfl
theorem decode32_23 (w : Word32) (h : w.extractLsb' 0 7 = 23#7) : decode32 w = decodeAuipc w := by simp only [decode32, h]; rfl
theorem decode32_111 (w : Word32) (h : w.extractLsb' 0 7 = 111#7) : decode32 w = decodeJal w := by simp only [decode32, h]; rfl
theorem decode32_103 (w : Word32) (h : w.extractLsb' 0 7 = 103#7) : decode32 w = decodeJalr w := by simp only [decode32, h]; rfl
theorem decode32_99 (w : Word32) (h : w.extractLsb' 0 7 = 99#7) : decode32 w = decodeBranch w := by simp only [decode32, h]; rfl
theorem decode32_3 (w : Word32) (h : w.extractLsb' 0 7 = 3#7) : decode32 w = decodeLoad w := by simp only [decode32, h]; rfl
theorem decode32_35 (w : Word32) (h : w.extractLsb' 0 7 = 35#7) : decode32 w = decodeStore w := by simp only [decode32, h]; rfl
theorem decode32_19 (w : Word32) (h : w.extractLsb' 0 7 = 19#7) : decode32 w = decodeOpImm w := by simp only [decode32, h]; rfl
theorem decode32_27 (w : Word32) (h : w.extractLsb' 0 7 = 27#7) : decode32 w = decodeOpImm32 w := by simp only [decode32, h]; rfl
theorem decode32_51 (w : Word32) (h : w.extractLsb' 0 7 = 51#7) : decode32 w = decodeOp w := by simp only [decode32, h]; rfl
theorem decode32_59 (w : Word32) (h : w.extractLsb' 0 7 = 59#7) : decode32 w = decodeOp32 w := by simp only [decode32, h]; rfl
theorem decode32_15 (w : Word32) (h : w.extractLsb' 0 7 = 15#7) : decode32 w = decodeMiscMem w := by simp only [decode32, h]; rfl
theorem decode32_115 (w : Word32) (h : w.extractLsb' 0 7 = 115#7) : decode32 w = decodeSystem w := by simp only [decode32, h]; rfl
theorem decode32_47 (w : Word32) (h : w.extractLsb' 0 7 = 47#7) : decode32 w = decodeAmo w := by simp only [decode32, h]; rfl
theorem decode32_83 (w : Word32) (h : w.extractLsb' 0 7 = 83#7) : decode32 w = decodeOpFp w := by simp only [decode32, h]; rfl
theorem decode32_67 (w : Word32) (h : w.extractLsb' 0 7 = 67#7) : decode32 w = decodeFmadd w := by simp only [decode32, h]; rfl
theorem decode32_71 (w : Word32) (h : w.extractLsb' 0 7 = 71#7) : decode32 w = decodeFmsub w := by simp only [decode32, h]; rfl
theorem decode32_75 (w : Word32) (h : w.extractLsb' 0 7 = 75#7) : decode32 w = decodeFnmsub w := by simp only [decode32, h]; rfl
theorem decode32_79 (w : Word32) (h : w.extractLsb' 0 7 = 79#7) : decode32 w = decodeFnmadd w := by simp only [decode32, h]; rfl
theorem decode32_11 (w : Word32) (h : w.extractLsb' 0 7 = 11#7) : decode32 w = decodeCustom0 w := by simp only [decode32, h]; rfl
theorem decode32_43 (w : Word32) (h : w.extractLsb' 0 7 = 43#7) : decode32 w = decodeCustom1 w := by simp only [decode32, h]; rfl
theorem decode32_91 (w : Word32) (h : w.extractLsb' 0 7 = 91#7) : decode32 w = decodeCustom2 w := by simp only [decode32, h]; rfl
theorem decode32_123 (w : Word32) (h : w.extractLsb' 0 7 = 123#7) : decode32 w = decodeCustom3 w := by simp only [decode32, h]; rfl

end Sys2Proof
end

