-- ==== Sys2Proof/Laws/Mem.lean ====
section
/-! SUPPORT. The laws of memory: a read after a write, that a write leaves every other byte alone, and that every write keeps the
canonical form. -/
namespace Sys2Proof.Machine

@[simp] theorem readByte_writeByte_same (m : Memory) (a : Nat) (b : Byte) : readByte (writeByte m a b) a = b := by
  unfold readByte writeByte
  split
  · next h => rw [kget_kdel_same, h]
  · simp

theorem readByte_writeByte_other (m : Memory) (a c : Nat) (b : Byte) (h : c ≠ a) :
    readByte (writeByte m a b) c = readByte m c := by
  unfold readByte writeByte
  split
  · exact kget_kdel_other _ _ _ _ h
  · exact kget_kset_other _ _ _ _ _ h

theorem readByte_writeBytes_out (m : Memory) (a c : Nat) (l : List Byte) (h : c < a ∨ a + l.length ≤ c) :
    readByte (writeBytes m a l) c = readByte m c := by
  induction l generalizing m a with
  | nil => rfl
  | cons b r ih =>
    simp only [writeBytes, List.length_cons] at *
    rw [ih _ _ (by omega), readByte_writeByte_other _ _ _ _ (by omega)]

theorem readBytes_length (m : Memory) (a n : Nat) : (readBytes m a n).length = n := by
  induction n generalizing a with
  | zero => rfl
  | succ n ih => simp [readBytes, ih]

@[simp] theorem readBytes_writeBytes_same (m : Memory) (a : Nat) (l : List Byte) :
    readBytes (writeBytes m a l) a l.length = l := by
  induction l generalizing m a with
  | nil => rfl
  | cons b r ih =>
    simp only [writeBytes, List.length_cons, readBytes]
    rw [readByte_writeBytes_out _ _ _ _ (by omega), readByte_writeByte_same, ih]

theorem kwf_cons_iff {α : Type} (k : Nat) (v : α) (r : KMap α) :
    kwf ((k, v) :: r) = true ↔ (∀ p ∈ r, k < p.1) ∧ kwf r = true := by
  induction r generalizing k v with
  | nil => simp [kwf]
  | cons p r ih =>
    obtain ⟨k', v'⟩ := p
    constructor
    · intro h
      simp only [kwf, Bool.and_eq_true, decide_eq_true_eq] at h
      refine ⟨?_, h.2⟩
      intro q hq
      rcases List.mem_cons.1 hq with h1 | h1
      · subst h1; exact h.1
      · exact Nat.lt_trans h.1 (((ih k' v').1 h.2).1 q h1)
    · intro h
      simp only [kwf, Bool.and_eq_true, decide_eq_true_eq]
      exact ⟨h.1 (k', v') (List.mem_cons_self ..), h.2⟩

theorem mem_kset {α : Type} (j : Nat) (x : α) (m : KMap α) (p : Nat × α) (h : p ∈ kset j x m) : p = (j, x) ∨ p ∈ m := by
  induction m with
  | nil => simpa [kset] using h
  | cons q r ih =>
    obtain ⟨k, v⟩ := q
    simp only [kset] at h
    split at h
    · simpa using h
    · split at h
      · rcases List.mem_cons.1 h with h1 | h1
        · exact .inl h1
        · exact .inr (List.mem_cons_of_mem _ h1)
      · rcases List.mem_cons.1 h with h1 | h1
        · exact .inr (h1 ▸ List.mem_cons_self ..)
        · rcases ih h1 with h2 | h2
          · exact .inl h2
          · exact .inr (List.mem_cons_of_mem _ h2)

theorem kwf_kset {α : Type} (j : Nat) (x : α) (m : KMap α) (h : kwf m = true) : kwf (kset j x m) = true := by
  induction m with
  | nil => rfl
  | cons q r ih =>
    obtain ⟨k, v⟩ := q
    have h' := (kwf_cons_iff k v r).1 h
    simp only [kset]
    split
    · next hjk =>
      refine (kwf_cons_iff _ _ _).2 ⟨?_, h⟩
      intro p hp
      rcases List.mem_cons.1 hp with h1 | h1
      · subst h1; exact hjk
      · exact Nat.lt_trans hjk (h'.1 p h1)
    · split
      · next h1 h2 => subst h2; exact (kwf_cons_iff _ _ _).2 h'
      · next h1 h2 =>
        refine (kwf_cons_iff _ _ _).2 ⟨?_, ih h'.2⟩
        intro p hp
        rcases mem_kset j x r p hp with h3 | h3
        · subst h3; simp only; omega
        · exact h'.1 p h3

theorem kwf_kdel {α : Type} (j : Nat) (m : KMap α) (h : kwf m = true) : kwf (kdel j m) = true := by
  induction m with
  | nil => rfl
  | cons q r ih =>
    obtain ⟨k, v⟩ := q
    have h' := (kwf_cons_iff k v r).1 h
    unfold kdel at *
    simp only [List.filter_cons]
    split
    · exact (kwf_cons_iff _ _ _).2 ⟨fun p hp => h'.1 p (List.mem_of_mem_filter hp), ih h'.2⟩
    · exact ih h'.2

/-- Writing a byte keeps the canonical form. -/
theorem writeByte_wf (m : Memory) (a : Nat) (b : Byte) (h : m.wf) : (writeByte m a b).wf := by
  obtain ⟨h1, h2⟩ := h
  unfold writeByte
  split
  · exact ⟨kwf_kdel a m h1, fun p hp => h2 p (List.mem_of_mem_filter hp)⟩
  · next hb =>
    refine ⟨kwf_kset a b m h1, fun p hp => ?_⟩
    rcases mem_kset a b m p hp with h3 | h3
    · subst h3; exact hb
    · exact h2 p h3

/-- Writing bytes keeps the canonical form. -/
theorem writeBytes_wf (m : Memory) (a : Nat) (l : List Byte) (h : m.wf) : (writeBytes m a l).wf := by
  induction l generalizing m a with
  | nil => exact h
  | cons b r ih => exact ih _ _ (writeByte_wf m a b h)

/-- Writing a value keeps the canonical form. -/
theorem writeLE_wf (m : Memory) (a n v : Nat) (h : m.wf) : (writeLE m a n v).wf := writeBytes_wf _ _ _ h

end Sys2Proof.Machine
end

