-- ==== Sys2Proof/Laws/Issue.lean ====
section
/-! SUPPORT. What the accesses of scalar loads and stores do (Machine/Issue.lean), for a baton that runs alone. -/
namespace Sys2Proof.Machine

/-! ## Values in memory -/

theorem readLE_eq_memNat (m : Memory) (c n : Nat) : readLE m c n = memNat m c n := by
  induction n generalizing c with
  | zero => rfl
  | succ n ih => simp only [readLE, readBytes, natLE, memNat]; rw [← ih]; rfl
theorem memNat_lt (m : Memory) (c n : Nat) : memNat m c n < 2 ^ (8 * n) := by
  induction n generalizing c with
  | zero => simp [memNat]
  | succ n ih =>
    have := ih (c + 1)
    have h2 := (readByte m c).isLt
    simp only [memNat, Nat.mul_add, Nat.pow_add]
    omega
theorem signExtend_ofNat (w v : Nat) : (BitVec.ofNat w v).signExtend 64 = wrap64 ((v : Int).bmod (2 ^ w)) := by
  have h : (BitVec.ofNat w v).toInt = (v : Int).bmod (2 ^ w) := by
    rw [BitVec.toInt_eq_toNat_bmod, BitVec.toNat_ofNat, Int.natCast_mod, Int.emod_bmod]
  rw [BitVec.signExtend, h, wrap64]
theorem zeroExtend_ofNat (w v : Nat) (hv : v < 2 ^ w) : (BitVec.ofNat w v).zeroExtend 64 = wrap64 (v : Int) := by
  apply BitVec.eq_of_toNat_eq
  simp [wrap64, Nat.mod_eq_of_lt hv]
/-- The value that a load leaves, signed and unsigned. -/
theorem loadValue_memNat (m : Memory) (c n : Nat) (sgn : Bool) (h : n = 1 ∨ n = 2 ∨ n = 4 ∨ n = 8) :
    loadValue n sgn (memNat m c n) = wrap64 (if sgn then memInt m c n else memNat m c n) := by
  have hl := memNat_lt m c n
  rcases h with rfl | rfl | rfl | rfl <;> cases sgn
  · exact zeroExtend_ofNat 8 _ hl
  · rw [if_pos rfl, memInt]; exact signExtend_ofNat 8 (memNat m c 1)
  · exact zeroExtend_ofNat 16 _ hl
  · rw [if_pos rfl, memInt]; exact signExtend_ofNat 16 (memNat m c 2)
  · exact zeroExtend_ofNat 32 _ hl
  · rw [if_pos rfl, memInt]; exact signExtend_ofNat 32 (memNat m c 4)
  · rw [if_neg (by decide), ← zeroExtend_ofNat 64 _ hl]; simp [loadValue]
  · rw [if_pos rfl, memInt, ← signExtend_ofNat 64 _]; simp [loadValue]
theorem bytesLE_eq_lowBytes (v : Dword) (n : Nat) : bytesLE n v.toNat = lowBytes v n := by
  unfold bytesLE lowBytes
  apply List.map_congr_left
  intro i _
  rw [Nat.pow_mul]
theorem lowBytes_length (v : Dword) (n : Nat) : (lowBytes v n).length = n := by simp [lowBytes]

/-! ## Local addresses -/

theorem isLocal_of_localCell (s : State) (cid a c : Nat) (h : s.localCell cid a = some c) : isLocal a = true := by
  unfold State.localCell at h
  unfold isLocal
  revert h
  cases addrClass a <;> simp
theorem kget_kmap {α : Type} (d : α) (f : Nat → α → α) (m : KMap α) (j : Nat) (hd : f j d = d) :
    kget d (kmap f m) j = f j (kget d m j) := by
  induction m with
  | nil => simp [kmap, kget, hd]
  | cons p r ih =>
    obtain ⟨k, v⟩ := p
    by_cases h : j = k
    · subst h; simp [kmap, kget]
    · have : kget d (kmap f ((k, v) :: r)) j = kget d (kmap f r) j := by simp [kmap, kget, h]
      rw [this, ih]; simp [kget, h]
/-- A store of the focus slot leaves its own slot alone: only other parties lose reservations (R193). -/
theorem me_store (s : State) (a : Nat) (l : List Byte) : (s.store (some s.focus) a l).me = s.me := by
  show kget Slot.empty (clearRes s.slots (some s.focus) a l.length) s.focus = kget Slot.empty s.slots s.focus
  unfold clearRes
  split
  · rw [kget_kmap] <;> simp
  · rfl
theorem alone_congr (s t : State) (hf : t.focus = s.focus) (hm : t.me = s.me) (hg : t.gangs = s.gangs) (h : s.alone) : t.alone := by
  unfold State.alone State.ganged State.myGang at *
  rw [gangOf_congr s t _ hg, hf, hm]
  exact h
theorem store_alone (s : State) (a : Nat) (l : List Byte) (h : s.alone) : (s.store (some s.focus) a l).alone :=
  alone_congr s (s.store (some s.focus) a l) rfl (me_store s a l) rfl h

/-! ## The accesses -/

/-- A cell that ATAPER admits is that of the address (R50, R58). -/
theorem localCell_of_ownCell (s : State) (op : MemOp) (a c : Nat) (h : s.ownCell op a = some c) : s.localCell s.myCid a = some c := by
  unfold State.ownCell State.coreCell at h
  cases e : s.localCell (keyCid s.focus) a with
  | none => simp [e] at h
  | some x => simp only [e, Option.ite_none_right_eq_some] at h; exact e.trans h.2
/-- A load from a local address that ATAPER admits: on powered banks for which no earlier access waits rd takes the value; otherwise the slot
stalls. -/
theorem loadX_local (s u : State) (rd : Reg) (a n : Nat) (sgn : Bool) (acq : Option Nat) (c len : Nat)
    (hn : n = 1 ∨ n = 2 ∨ n = 4 ∨ n = 8) (hu : u = s.acquired acq.isSome (acq.getD 0)) (h : u.alone) (ha : a % n = 0)
    (hc : u.ownCell .read a = some c) :
    s.loadX rd a n sgn false acq len =
      if u.granted u.focus [c]
      then (u.result rd (wrap64 (if sgn then memInt u.mem c n else memNat u.mem c n)) len).unstall u.focus
      else u.stallOn u.focus [c] := by
  unfold State.loadX
  simp only [← hu, ha, isLocal_of_localCell _ _ _ _ (localCell_of_ownCell _ _ _ _ hc), hc, State.onCells, ne_eq, not_true_eq_false, if_false,
    if_true, State.loadLE, readLE_eq_memNat, loadValue_memNat _ _ _ _ hn, Bool.false_eq_true]
  rw [finX_alone _ _ _ _ h]
/-- A store to a local address that ATAPER admits, on a powered bank for which no earlier access waits. -/
theorem storeX_local (s : State) (a n : Nat) (v : Dword) (rel : Option Nat) (c len : Nat) (h : s.alone) (ha : a % n = 0)
    (hc : s.ownCell .write a = some c) (hb : s.granted s.focus [c] = true) (hr : ∀ r, rel = some r → s.released r = true) :
    s.storeX a n v rel len = (s.storedTo c (lowBytes v n) len).unstall s.focus := by
  have e : (s.store (some s.focus) c (bytesLE n v.toNat)).fin len = s.storedTo c (lowBytes v n) len := by
    rw [fin_alone _ _ (store_alone s c _ h), bytesLE_eq_lowBytes]
    unfold State.passed State.movedTo State.ended State.storedTo
    rw [me_store]
    rfl
  have hl := isLocal_of_localCell _ _ _ _ (localCell_of_ownCell _ _ _ _ hc)
  unfold State.storeX
  cases rel with
  | none => simp only [ha, hl, hc, State.onCells, hb, ne_eq, not_true_eq_false, if_false, if_true, e]
  | some r => simp only [ha, hl, hc, State.onCells, hb, ne_eq, not_true_eq_false, if_false, if_true, e, State.whenReleased, hr r rfl]
/-- A misaligned load traps, cause 5. -/
theorem loadX_misaligned (s : State) (rd : Reg) (a n : Nat) (sgn lr : Bool) (acq : Option Nat) (len : Nat) (ha : a % n ≠ 0) :
    s.loadX rd a n sgn lr acq len = s.trap 5 (BitVec.ofNat 64 a) := by
  unfold State.loadX; simp only [ha, ne_eq, not_false_eq_true, if_true]
/-- A misaligned store traps, cause 7. -/
theorem storeX_misaligned (s : State) (a n : Nat) (v : Dword) (rel : Option Nat) (len : Nat) (ha : a % n ≠ 0) :
    s.storeX a n v rel len = s.trap 7 (BitVec.ofNat 64 a) := by
  unfold State.storeX; simp only [ha, ne_eq, not_false_eq_true, if_true]
/-- A misaligned AMO or SC traps, cause 7. -/
theorem amoX_misaligned (s : State) (op : AmoOp) (rd : Reg) (a n : Nat) (src : Dword) (aq rl : Bool) (len : Nat) (ha : a % n ≠ 0) :
    s.amoX op rd a n src aq rl len = s.trap 7 (BitVec.ofNat 64 a) := by
  unfold State.amoX; simp only [ha, ne_eq, not_false_eq_true, if_true]

/-! ## Requests -/

theorem mem_kset_self {α : Type} (j : Nat) (x : α) (m : KMap α) : (j, x) ∈ kset j x m := by
  induction m with
  | nil => simp [kset]
  | cons p r ih =>
    obtain ⟨k, v⟩ := p
    unfold kset
    split
    · simp
    · split
      · simp
      · exact List.mem_cons_of_mem _ ih
/-- An accepted packet is in flight on its link. -/
theorem accept_inFlight (s : State) (a b : Nat) (p : Pkt) (d : Pkt → Prop) (h : d { p.sealed with hopSrc := a, hopDst := b }) :
    (s.accept a b p).inFlight d := ⟨_, mem_kset_self _ _ _, h⟩
/-- Sending within the package over a link that is up. -/
theorem send_accepts (s : State) (d : Nat) (p : Pkt) (h0 : p.dstPkg = 0) (he : isEp p.dst = true) (hd : s.dieUp (epDie p.dst) = true)
    (hl : s.linkUp d (epDie p.dst) = true) : s.sendFrom d p = s.accept d (epDie p.dst) p := by
  unfold State.sendFrom State.foreign
  simp [h0, he, hd, hl]

end Sys2Proof.Machine
end

