-- ==== Sys2Proof/Tests/Slice0.lean ====
section
/-!
SUPPORT. Tests: ill-formed terms, the decoding of one word of every instruction, a state for the hypotheses of every statement, and a few steps. The
expected values are the spec's words and tables, and hand calculation from its rules.
-/
namespace Sys2Proof.Tests
set_option Elab.async false
open Sys2Proof Sys2Proof.Machine

/-! ## States -/

/-- A slot with a baton that runs, a trap vector, and these x registers. -/
def runner (xs : List (Nat × Nat)) : Slot :=
  { probeSlot with csr := SlotCsrs.first 0x10000200100 0, x := Vector.ofFn fun i => BitVec.ofNat 64 (kget 0 xs i.val) }
/-- C-die 0's and the B-die's NI under tracks 0 and 5: the track entries, a translation, and access entries of HBM and of cluster 0 that admit
everything. -/
def openNi : Ni :=
  { probeNi Ni.init with
    trk := kset 0 (BitVec.ofNat 128 (2 ^ 111 + 10 * 2 ^ 104 + 2 ^ 92)) (probeNi Ni.init).trk
    acc := [(0, 0x80000005FFFFFFFF#64), (1, 0x80000000FFFFFFFF#64), (8192, 0x80000005FFFFFFFF#64), (8193, 0x80000000FFFFFFFF#64)] }
/-- Every function of the package ready, and a baton with these x registers in slot 0 of core 0, in focus. -/
def unit (xs : List (Nat × Nat)) : State :=
  { State.reset with pkg := { Pkg.init with ready := BitVec.allOnes 64 }, slots := [(0, runner xs)], nis := [(0, openNi), (28, openNi)] }
/-- The same with the baton's slot changed. -/
def unitWith (xs : List (Nat × Nat)) (f : Slot → Slot) : State := { unit xs with slots := [(0, f (runner xs))] }
/-- A posted store that is not acknowledged. -/
def onePosted : Posted := { tag := 9, pkg := 0, die := 0, store := true, rmw := false }

/-! ## Ill-formed terms: one for each check of `Instr.wellFormed`, and more where a check has several limits -/

theorem test_illFormed1 :
    ∀ i ∈ ([
      .faddS 1 0 0 5, .faddS 1 0 0 6, .fsubS 1 0 0 5, .fsubS 1 0 0 6, .fmulS 1 0 0 5, .fmulS 1 0 0 6, .fdivS 1 0 0 5, .fdivS 1 0 0 6, .fsqrtS 1 0 5,
      .fsqrtS 1 0 6, .fcvtWS 1 0 5, .fcvtWS 1 0 6, .fcvtWuS 1 0 5, .fcvtWuS 1 0 6, .fcvtLS 1 0 5, .fcvtLS 1 0 6, .fcvtLuS 1 0 5, .fcvtLuS 1 0 6,
      .fcvtSW 1 0 5, .fcvtSW 1 0 6, .fcvtSWu 1 0 5, .fcvtSWu 1 0 6, .fcvtSL 1 0 5, .fcvtSL 1 0 6, .fcvtSLu 1 0 5, .fcvtSLu 1 0 6, .fmaddS 1 0 0 0 5,
      .fmaddS 1 0 0 0 6, .fmsubS 1 0 0 0 5, .fmsubS 1 0 0 0 6, .fnmsubS 1 0 0 0 5, .fnmsubS 1 0 0 0 6, .fnmaddS 1 0 0 0 5, .fnmaddS 1 0 0 0 6,
      .cAddi4spn 1 0, .cAddi 0 1] : List Instr), i.wellFormed = false := by decide +kernel
theorem test_illFormed2 :
    ∀ i ∈ ([
      .cAddiw 0 1, .cAddi16sp 0, .cLui 2 1, .cLui 1 0, .cLwsp 0 1, .cLdsp 0 1, .cJr 0, .cMv 1 0, .cJalr 0, .cAdd 1 0, .batSelf 1 4, .ldAq 1 0 0 7 0,
      .gangLead 1 0, .gangLead 1 4, .gangJoin 1 0, .gangJoin 1 4, .loopRot 0 0, .stamRd 1 4, .vaddFloat 0 0 0 3, .vsubFloat 0 0 0 3,
      .vmulFloat 0 0 0 3, .vminFloat 0 0 0 3, .vmaxFloat 0 0 0 3, .vabsFloat 0 0 3, .vnegFloat 0 0 3, .vdiv 0 0 0 3, .vsqrt 0 0 3 0, .vrsq 0 0 3 0,
      .vaddInt 0 0 0 2, .vsubInt 0 0 0 2, .vmulInt 0 0 0 2, .vminInt 0 0 0 2, .vmaxInt 0 0 0 2, .vabsInt 0 0 2, .vabsInt 0 0 4, .vabsInt 0 0 7] : List Instr), i.wellFormed = false := by decide +kernel
theorem test_illFormed3 :
    ∀ i ∈ ([
      .vnegInt 0 0 2, .vnegInt 0 0 4, .vnegInt 0 0 7, .vand 0 0 0 2, .vor 0 0 0 2, .vxor 0 0 0 2, .vshl 0 0 0 2, .vshr 0 0 0 2, .vsra 0 0 0 2,
      .vsra 0 0 0 4, .vsra 0 0 0 7, .vcmp 0 0 0 0 6, .vldq 0 0 0 3, .mmDrain 0 0 0 0 false 6, .mmLoad 0 0 0 0 6, .cpGet 1 4 0, .cpGet 1 10 0,
      .cpPut 1 4 0, .cpPut 1 10 0, .cpXfer 1 4 0, .cpXfer 1 10 0, .cpFeed 1 4 0, .cpFeed 1 10 0, .cpMcast 1 4, .cpMcast 1 10, .cpFill 1 4 0,
      .cpFill 1 10 0, .cpGath 1 4 0, .cpGath 1 10 0, .cpScat 1 4 0, .cpScat 1 10 0, .cpAtom 1 4 0, .cpAtom 1 10 0, .cpStat 1 4 0, .cpStat 1 10 0,
      .cpCancel 1 4] : List Instr), i.wellFormed = false := by decide +kernel
theorem test_illFormed4 :
    ∀ i ∈ ([
      .cpCancel 1 10, .vstatUpd 0 0 3, .vstatUpdw 0 0 0 3, .statDrain 1 0 0 6, .statDrain 0 0 0 0, .statDrain 3 0 0 5, .vstatNorm 0 0 3 1,
      .vstatNorm 0 0 0 0] : List Instr), i.wellFormed = false := by decide +kernel
/-! ## Decoding: words printed in the spec, and words laid out by the formats of R191 to R193 -/

/-- Words of 11_isa_control.md. -/
theorem test_decode_Control1 :
    ∀ p ∈ ([
      (0x0005850B, .batSpawn 10 11), (0x10C5850B, .batSend 10 11 12), (0x12C5850B, .batSendR 10 11 12), (0x2000000B, .batExit),
      (0x3005800B, .batYield 11), (0x40C5850B, .batPark 10 11 12), (0x5005800B, .batWake 11), (0x6005850B, .batRole 10 11),
      (0x7200050B, .batSelf 10 1), (0x0AC5950B, .hdInit 10 11 12 5), (0x1407100B, .hdArrive 14 0 2), (0x1E07100B, .hdArriveR 14 0 3),
      (0x2007178B, .hdWait 15 14 0), (0x3007150B, .hdArrwait 10 14 0 0), (0x4007150B, .hdTest 10 14), (0x5207100B, .hdWithdraw 14 0 1),
      (0x6007100B, .hdJoin 14), (0x7200150B, .lapEnd 10 1), (0x8600150B, .domRd 10 3), (0x0005A50B, .waitUntil 10 11), (0x1005200B, .waitPromise 10),
      (0x00C5B50B, .msgSend 10 11 12), (0x1605B50B, .msgRecv 10 11 3), (0x2605B50B, .msgPoll 10 11 3), (0x30C5B00B, .rctSet 11 12),
      (0x4005B00B, .rctHold 11), (0x5005B00B, .rctRelease 11), (0x1806450B, .ldAq 10 12 0 3 0)] : List (Nat × Instr)), decodeTableWord 32 p.1 = some p.2 := by decide +kernel
/-- Words of 11_isa_control.md. -/
theorem test_decode_Control2 :
    ∀ p ∈ ([
      (0x97C6450B, .ldAq 10 12 2 2 124), (0x1806530B, .stRl 12 6 0 3 0), (0x0200650B, .gangLead 10 1), (0x1200650B, .gangJoin 10 1),
      (0x2000600B, .gangEnd), (0x3005E50B, .rrbSet 10 11), (0xFF80628B, .loopRot 5 2040), (0x0000700B, .xuret), (0x10C5F00B, .ctxSave 11 12),
      (0x20C5F00B, .ctxRestore 11 12), (0x3005F50B, .stamClaim 10 11), (0x4600750B, .stamRd 10 3), (0x5005F50B, .ivlPost 10 11),
      (0x6005700B, .ivlSync 10), (0x7005F50B, .grLaunch 10 11), (0x8005F50B, .grWait 10 11), (0x9400700B, .xfence 2)] : List (Nat × Instr)), decodeTableWord 32 p.1 = some p.2 := by decide +kernel
/-- Words of 12_isa_vector.md. -/
theorem test_decode_Vector1 :
    ∀ p ∈ ([
      (0x0005D12B, .vld 2 11 0), (0x2255D12B, .vlds 2 11 5 1), (0x0445D12B, .vldx 2 11 4 0), (0x0605D12B, .vldb 2 11 0),
      (0x08C5D12B, .vldq 2 11 12 0), (0x0005E12B, .vst 2 11 0), (0x0255E12B, .vsts 2 11 5 0), (0x0445E12B, .vstx 2 11 4 0),
      (0x002081AB, .vaddFloat 3 1 2 0), (0x022081AB, .vsubFloat 3 1 2 0), (0x042081AB, .vmulFloat 3 1 2 0), (0x062081AB, .vminFloat 3 1 2 0),
      (0x082081AB, .vmaxFloat 3 1 2 0), (0x0A0081AB, .vabsFloat 3 1 0), (0x0C0081AB, .vnegFloat 3 1 0), (0x0E2081AB, .vdiv 3 1 2 0),
      (0x103081AB, .vsqrt 3 1 0 3), (0x120081AB, .vrsq 3 1 0 0), (0x1820F22B, .vfma 4 1 2 3), (0x1A20F22B, .vfms 4 1 2 3),
      (0x1C20F22B, .vfnma 4 1 2 3), (0x1E20F22B, .vfnms 4 1 2 3), (0x602091AB, .vaddInt 3 1 2 3), (0x622091AB, .vsubInt 3 1 2 3),
      (0x642091AB, .vmulInt 3 1 2 3), (0x662091AB, .vminInt 3 1 2 3), (0x882091AB, .vmaxInt 3 1 2 4), (0x6A0091AB, .vabsInt 3 1 3)] : List (Nat × Instr)), decodeTableWord 32 p.1 = some p.2 := by decide +kernel
/-- Words of 12_isa_vector.md. -/
theorem test_decode_Vector2 :
    ∀ p ∈ ([
      (0xCC0091AB, .vnegInt 3 1 6), (0x902091AB, .vand 3 1 2 4), (0x922091AB, .vor 3 1 2 4), (0x942091AB, .vxor 3 1 2 4), (0xB62091AB, .vshl 3 1 2 5),
      (0xF82091AB, .vshr 3 1 2 7), (0x7A2091AB, .vsra 3 1 2 3), (0x6020A1AB, .vcmp 3 1 2 3 0), (0x0420A1AB, .vcmp 3 1 2 0 2),
      (0x1020A1AB, .vsel 3 1 2 0), (0x0010B1AB, .vcvt 3 1 0 0 1), (0x00E0B1AB, .vcvt 3 1 0 1 6), (0x020131AB, .vqnt 3 1 false),
      (0x021131AB, .vqnt 3 1 true), (0x0401B12B, .vdqnt 1 3 false), (0x0000C1AB, .vredsum 3 1 0), (0x0200C1AB, .vredmax 3 1 0),
      (0x6420C1AB, .vperm 3 1 2 3), (0x0620C1AB, .vshuf 3 1 2 0), (0x0820C1AB, .vslide 3 1 0 2), (0x0930C1AB, .vslide 3 1 0 19),
      (0x0A05C1AB, .vsplat 3 11 0), (0x6CC5C1AB, .vins 3 11 12 3), (0x6E25C52B, .vext 10 11 2 3)] : List (Nat × Instr)), decodeTableWord 32 p.1 = some p.2 := by decide +kernel
/-- Words of 13_isa_matrix_copy.md. -/
theorem test_decode_MatrixAndCopy1 :
    ∀ p ∈ ([
      (0x0400005B, .mmTile 1 0 false), (0x0410005B, .mmTile 1 0 true), (0x1900005B, .mmZero 2 1), (0x2000005B, .mmWait),
      (0x2105965B, .mmMset 11 12 1 false), (0x2115965B, .mmMset 11 12 1 true), (0x0415965B, .mmDrain 11 12 1 0 false 1),
      (0x0485905B, .mmDrain 11 0 1 0 true 0), (0x1805905B, .mmLoad 11 0 2 0 0), (0x3000105B, .mmTostrm 0 0 false 0),
      (0x3030105B, .mmTostrm 0 0 true 1), (0x0015A05B, .stBind 11 1), (0x1065A05B, .stFill 11 3 0), (0x2005A55B, .stSkip 10 11 0),
      (0x3010255B, .stStat 10 1), (0x4000205B, .stFlush 0), (0x00E6355B, .cpGet 10 12 14), (0x10E4355B, .cpPut 10 8 14),
      (0x2008355B, .cpXfer 10 16 0), (0x30EA355B, .cpFeed 10 20 14), (0x400C355B, .cpMcast 10 24), (0x50E4355B, .cpFill 10 8 14),
      (0x60E6355B, .cpGath 10 12 14), (0x7006355B, .cpScat 10 12 0), (0x800E355B, .cpAtom 10 28 0), (0x90B6355B, .cpStat 10 12 11),
      (0xA008355B, .cpCancel 10 16), (0x00C5C55B, .bufMap 10 11 12)] : List (Nat × Instr)), decodeTableWord 32 p.1 = some p.2 := by decide +kernel
/-- Words of 13_isa_matrix_copy.md. -/
theorem test_decode_MatrixAndCopy2 :
    ∀ p ∈ ([
      (0x1005C55B, .bufUnmap 10 11), (0x20C5C55B, .bufShadow 10 11 12), (0x3005C55B, .bufPub 10 11)] : List (Nat × Instr)), decodeTableWord 32 p.1 = some p.2 := by decide +kernel
/-- Words of 14_isa_stat_cycle.md. -/
theorem test_decode_StatCycleCollective1 :
    ∀ p ∈ ([
      (0x000000FB, .statInit 1), (0x100580FB, .statUpd 1 11), (0x20C580FB, .statUpdw 1 11 12), (0x303100FB, .statMerge 1 2 3),
      (0x4005817B, .statLd 2 11), (0x5025807B, .statSt 11 2), (0x000110FB, .vstatUpd 1 2 0), (0x020110FB, .vstatUpd 1 2 1),
      (0x103110FB, .vstatUpdw 1 2 3 0), (0x28C0957B, .statDrain 10 1 12 4), (0x2A00957B, .statDrain 10 1 0 5), (0x30A111FB, .vstatNorm 3 2 0 5),
      (0x0005A57B, .cycOpen 10 11), (0x10C5A57B, .cycFreeze 10 11 12), (0x2005A57B, .cycIter 10 11), (0x3025A07B, .cycRes 11 2),
      (0x40C5A07B, .cycPass 11 12), (0x5005A57B, .cycTake 10 11), (0x6005A57B, .cycNext 10 11), (0x70C5A07B, .cycBwd 11 12),
      (0x8205A57B, .cycStat 10 11 1), (0x9005A07B, .cycClose 11), (0xA005A07B, .cycAbort 11), (0x00C5B57B, .clLoad 10 11 12),
      (0x10C5B57B, .clRun 10 11 12), (0x2005B57B, .clWait 10 11), (0x3005B07B, .clCancel 11), (0x40C5B57B, .clGrp 10 11 12)] : List (Nat × Instr)), decodeTableWord 32 p.1 = some p.2 := by decide +kernel
/-- Words of 14_isa_stat_cycle.md. -/
theorem test_decode_StatCycleCollective2 :
    ∀ p ∈ ([
      (0x50C5B57B, .clJoin 10 11 12), (0x60C5B57B, .clLeave 10 11 12), (0x7005B07B, .clPause 11), (0x8005B07B, .clResume 11)] : List (Nat × Instr)), decodeTableWord 32 p.1 = some p.2 := by decide +kernel
/-- RISC-V words: R, I, S, B, U and J formats (R191). -/
theorem test_decode_RiscV1 :
    ∀ p ∈ ([
      (0x800013B7, .lui 7 524289), (0x12345397, .auipc 7 74565), (0x95DD50EF, .jal 1 961710), (0x801480E7, .jalr 1 9 2049),
      (0x809A8063, .beq 21 9 2048), (0x7E9A9FE3, .bne 21 9 2047), (0xFE9ACFE3, .blt 21 9 4095), (0x009AD0E3, .bge 21 9 1024),
      (0xFE9AEF63, .bltu 21 9 3071), (0x549AFB63, .bgeu 21 9 683), (0xAB098303, .lb 6 19 2736), (0xAB199303, .lh 6 19 2737),
      (0xAB29A303, .lw 6 19 2738), (0xAB39B303, .ld 6 19 2739), (0xAB49C303, .lbu 6 19 2740), (0xAB59D303, .lhu 6 19 2741),
      (0xAB69E303, .lwu 6 19 2742), (0x8C6982A3, .sb 19 6 2245), (0x8C699323, .sh 19 6 2246), (0x8C69A3A3, .sw 19 6 2247),
      (0x8C69B423, .sd 19 6 2248), (0x7F198313, .addi 6 19 2033), (0x7F39A313, .slti 6 19 2035), (0x7F49B313, .sltiu 6 19 2036),
      (0x7F59C313, .xori 6 19 2037), (0x7F79E313, .ori 6 19 2039), (0x7F89F313, .andi 6 19 2040), (0x02599313, .slli 6 19 37),
      (0x0259D313, .srli 6 19 37), (0x4259D313, .srai 6 19 37)] : List (Nat × Instr)), decodeTableWord 32 p.1 = some p.2 := by decide +kernel
/-- RISC-V words: R, I, S, B, U and J formats (R191). -/
theorem test_decode_RiscV2 :
    ∀ p ∈ ([
      (0x80F9831B, .addiw 6 19 2063), (0x0159931B, .slliw 6 19 21), (0x0159D31B, .srliw 6 19 21), (0x4159D31B, .sraiw 6 19 21),
      (0x01598333, .add 6 19 21), (0x01599333, .sll 6 19 21), (0x0159A333, .slt 6 19 21), (0x0159B333, .sltu 6 19 21), (0x0159C333, .xor 6 19 21),
      (0x0159D333, .srl 6 19 21), (0x0159E333, .or 6 19 21), (0x0159F333, .and 6 19 21), (0x41598333, .sub 6 19 21), (0x4159D333, .sra 6 19 21),
      (0x03598333, .mul 6 19 21), (0x03599333, .mulh 6 19 21), (0x0359A333, .mulhsu 6 19 21), (0x0359B333, .mulhu 6 19 21),
      (0x0359C333, .div 6 19 21), (0x0359D333, .divu 6 19 21), (0x0359E333, .rem 6 19 21), (0x0359F333, .remu 6 19 21), (0x0159833B, .addw 6 19 21),
      (0x0159933B, .sllw 6 19 21), (0x0159D33B, .srlw 6 19 21), (0x4159833B, .subw 6 19 21), (0x4159D33B, .sraw 6 19 21), (0x0359833B, .mulw 6 19 21),
      (0x0359C33B, .divw 6 19 21), (0x0359D33B, .divuw 6 19 21)] : List (Nat × Instr)), decodeTableWord 32 p.1 = some p.2 := by decide +kernel
/-- RISC-V words: R, I, S, B, U and J formats (R191). -/
theorem test_decode_RiscV3 :
    ∀ p ∈ ([
      (0x0359E33B, .remw 6 19 21), (0x0359F33B, .remuw 6 19 21), (0x0960000F, .fence 0 0 9 6), (0x8330000F, .fenceTso 0 0 3 3),
      (0x0000100F, .fenceI 0 0 0), (0x00000073, .ecall), (0x00100073, .ebreak), (0x10500073, .wfi), (0x80199373, .csrrw 6 19 2049),
      (0x8029A373, .csrrs 6 19 2050), (0x8039B373, .csrrc 6 19 2051), (0xCC58D373, .csrrwi 6 3269 17), (0xCC68E373, .csrrsi 6 3270 17),
      (0xCC78F373, .csrrci 6 3271 17), (0x1009B32F, .lr 6 19 false false true), (0x1D59B32F, .sc 6 19 21 true false true),
      (0x0B59B32F, .amoswap 6 19 21 false true true), (0x0759B32F, .amoadd 6 19 21 true true true), (0x2159A32F, .amoxor 6 19 21 false false false),
      (0x6559A32F, .amoand 6 19 21 true false false), (0x4359A32F, .amoor 6 19 21 false true false), (0x8759A32F, .amomin 6 19 21 true true false),
      (0xA159B32F, .amomax 6 19 21 false false true), (0xC559B32F, .amominu 6 19 21 true false true), (0xE359B32F, .amomaxu 6 19 21 false true true),
      (0x01598353, .faddS 6 19 21 0), (0x09599353, .fsubS 6 19 21 1), (0x1159A353, .fmulS 6 19 21 2), (0x1959F353, .fdivS 6 19 21 7),
      (0x5809B353, .fsqrtS 6 19 3)] : List (Nat × Instr)), decodeTableWord 32 p.1 = some p.2 := by decide +kernel
/-- RISC-V words: R, I, S, B, U and J formats (R191, R193, R225 for the last two). -/
theorem test_decode_RiscV4 :
    ∀ p ∈ ([
      (0x21598353, .fsgnjS 6 19 21), (0x21599353, .fsgnjnS 6 19 21), (0x2159A353, .fsgnjxS 6 19 21), (0x29598353, .fminS 6 19 21),
      (0x29599353, .fmaxS 6 19 21), (0xA1598353, .fleS 6 19 21), (0xA1599353, .fltS 6 19 21), (0xA159A353, .feqS 6 19 21),
      (0xC0098353, .fcvtWS 6 19 0), (0xC0199353, .fcvtWuS 6 19 1), (0xC029A353, .fcvtLS 6 19 2), (0xC039B353, .fcvtLuS 6 19 3),
      (0xD009C353, .fcvtSW 6 19 4), (0xD019F353, .fcvtSWu 6 19 7), (0xD0298353, .fcvtSL 6 19 0), (0xD0399353, .fcvtSLu 6 19 1),
      (0xE0099353, .fclassS 6 19), (0xD9598343, .fmaddS 6 19 21 27 0), (0xD9599347, .fmsubS 6 19 21 27 1), (0xD959A34B, .fnmsubS 6 19 21 27 2),
      (0xD959B34F, .fnmaddS 6 19 21 27 3), (0x5A07100B, .hdWithdrawR 14 0 1), (0x6807100B, .hdJoinR 14)] : List (Nat × Instr)), decodeTableWord 32 p.1 = some p.2 := by decide +kernel
/-- Zca halfwords (R191). -/
theorem test_decode_Compressed1 :
    ∀ p ∈ ([
      (0x134C, .cAddi4spn 3 105), (0x4AEC, .cLw 3 5 21), (0x76CC, .cLd 3 5 21), (0xD6CC, .cSw 5 3 11), (0xEAAC, .cSd 5 3 10), (0x1AB5, .cAddi 21 45),
      (0x004D, .cNop 19), (0x3AB5, .cAddiw 21 45), (0x4AE9, .cLi 21 26), (0x7169, .cAddi16sp 45), (0x7AC5, .cLui 21 49), (0x92B5, .cSrli 5 45),
      (0x86B5, .cSrai 5 13), (0x9AC9, .cAndi 5 50), (0x8E8D, .cSub 5 3), (0x8EAD, .cXor 5 3), (0x8ECD, .cOr 5 3)] : List (Nat × Instr)), decodeTableWord 16 p.1 = some p.2 := by decide +kernel
/-- Zca halfwords (R191). -/
theorem test_decode_Compressed2 :
    ∀ p ∈ ([
      (0x8EED, .cAnd 5 3), (0x9E8D, .cSubw 5 3), (0x9EAD, .cAddw 5 3), (0xB9A9, .cJ 1581), (0xDEA9, .cBeqz 5 173), (0xEEA9, .cBnez 5 45),
      (0x1AB6, .cSlli 21 45), (0x5AB6, .cLwsp 21 27), (0x6AF6, .cLdsp 21 43), (0x8A82, .cJr 21), (0x8AA6, .cMv 21 9), (0x9002, .cEbreak),
      (0x9A82, .cJalr 21), (0x9AA6, .cAdd 21 9), (0xCB26, .cSwsp 9 37), (0xEEA6, .cSdsp 9 43)] : List (Nat × Instr)), decodeTableWord 16 p.1 = some p.2 := by decide +kernel
/-! ## States that meet the hypotheses of the statements: integer instructions, memory and floating point -/

theorem test_witness_IntegerResults : (unit [(1, 2 ^ 63)]).alone := by decide +kernel
theorem test_witness_MultiplyAndDivideResults : (unit [(1, 2 ^ 63), (2, 2 ^ 64 - 1)]).alone := by decide +kernel
theorem test_witness_JumpsAndBranches : (unit []).alone := by decide +kernel
/-- The last aligned doubleword of the TCM, with its bank powered and gated, with and without a posted store. -/
theorem test_witness_LocalLoadsAndStores :
    let s := unit [(1, 0x3FFF8)]
    let gated := s.gateNow 0 2 0
    s.alone ∧ (s.applyLog s.myDie).alone ∧ (s.x 1 + sext64 (0#12)).toNat % 8 = 0 ∧ s.ownCell .read 0x3FFF8 = some 0xF00003FFF8 ∧
      s.ownCell .write 0x3FFF8 = some 0xF00003FFF8 ∧ s.granted s.focus [0xF00003FFF8] = true ∧ gated.alone ∧
      gated.ownCell .read 0x3FFF8 = some 0xF00003FFF8 ∧ gated.granted gated.focus [0xF00003FFF8] = false ∧ s.released 3 = true ∧
      (unitWith [(1, 0x3FFF8)] fun t => { t with posted := [onePosted] }).alone ∧
      (unitWith [(1, 0x3FFF8)] fun t => { t with posted := [onePosted] }).released 1 = false := by decide +kernel
theorem test_witness_GlobalAccessesAskTheHome :
    let s := unit [(1, 0x10000200008)]
    s.alone ∧ addrClass (s.x 1 + sext64 (0#12)).toNat = .global ∧ (s.x 1 + sext64 (0#12)).toNat % 8 = 0 ∧
      s.reaches (s.x 1 + sext64 (0#12)).toNat := by
  simp only [State.reaches]; decide +kernel
theorem test_witness_MisalignedAccessesTrap :
    let s := unit [(1, 0x10000200001)]
    s.canTrap ∧ s.released s.mscope = true ∧ (s.x 1 + sext64 (0#12)).toNat % 2 ≠ 0 ∧ (s.x 1).toNat % 4 ≠ 0 := by decide +kernel
theorem test_witness_AtomicResults :
    let s := unitWith [(1, 0x3FFF8), (2, 2 ^ 63)] fun t => { t with reserved := some 0xF00003FFF8, csr := { t.csr with xmscope := 1 } }
    s.alone ∧ (s.x 1).toNat % 8 = 0 ∧ s.ownCell .read (s.x 1).toNat = some 0xF00003FFF8 ∧ s.ownCell .amo (s.x 1).toNat = some 0xF00003FFF8 ∧
      s.granted s.focus [0xF00003FFF8] = true ∧ s.mscope < 2 ∧ s.released s.mscope = true ∧ s.noBankWait ∧ s.me.reserved = some (0xF00003FFF8 / 8 * 8) := by
  simp only [State.noBankWait]; decide +kernel
theorem test_witness_CompressedInstructions :
    let s := unit [(2, 0x3FF00), (8, 0x3FF00)]
    s.alone ∧ s.ownCell .read (((s.x 8).toNat + 8 * 31) % 2 ^ 64) = some 0xF00003FFF8 ∧ s.granted s.focus [0xF00003FFF8] = true ∧
      s.ownCell .write (((s.x 8).toNat + 8 * 31) % 2 ^ 64) = some 0xF00003FFF8 ∧ (((s.x 8).toNat + 8 * 31) % 2 ^ 64) % 8 = 0 ∧
      s.ownCell .read (((s.x 2).toNat + 4 * 63) % 2 ^ 64) = some 0xF00003FFFC ∧ s.ownCell .write (((s.x 2).toNat + 4 * 63) % 2 ^ 64) = some 0xF00003FFFC ∧
      s.granted s.focus [0xF00003FFFC] = true ∧
      (((s.x 2).toNat + 4 * 63) % 2 ^ 64) % 4 = 0 := by decide +kernel
theorem test_witness_FloatArithmeticResults :
    let s := unit [(1, 0x3F800000)]
    s.alone ∧ s.canTrap ∧ roundingMode 4 s.me.csr.frm = some .rmm ∧ roundingMode 7 s.me.csr.frm = some .rne ∧
      roundingMode 5 s.me.csr.frm = none ∧ encode (.faddS 1 1 1 5) = .word 0x0010D0D3 := by decide +kernel
theorem test_witness_FloatNaNsSignsAndComparisons :
    let s := unit [(1, 0x7F800001), (2, 0x7FC00000), (3, 0x3F800000), (4, 0x00000001)]
    s.alone ∧ roundingMode 0 s.me.csr.frm = some .rne ∧ isNan (s.operand 1) = true ∧ isSnan (s.operand 1) = true ∧
      isNan (s.operand 2) = true ∧ isSnan (s.operand 2) = false := by decide +kernel
theorem test_witness_FloatNumbers :
    let s := unit [(3, 0x3F800000), (4, 0xC0000000)]
    s.alone ∧ s.operand 3 = .fin false (2 ^ 23) (-23) ∧ s.operand 4 = .fin true (2 ^ 23) (-22) ∧
      roundingMode 1 s.me.csr.frm = some .rtz ∧ (s.x 3).toInt.natAbs ≠ 0 := by decide +kernel
theorem test_witness_FloatConversions :
    let s := unit [(3, 2 ^ 24)]
    s.alone ∧ roundingMode 0 s.me.csr.frm = some .rne ∧ (s.x 3).toInt.natAbs ≤ 2 ^ 24 ∧ (lowInt (s.x 3)).natAbs ≤ 2 ^ 24 := by decide +kernel
/-! ## CSRs, the environment, gangs, batons, hurdles, messages -/

theorem test_witness_CsrReadsAndWrites :
    let s := unit [(1, 2 ^ 64 - 1)]
    s.alone ∧ (0xCC4#12, 0#64) ∈ s.csrTable ∧ (0x815#12, 32#64) ∈ s.csrTable ∧ (s.core s.myCid).owner ≠ some (keySlot s.focus) ∧
      (s.core s.myCid).stalledPort (keySlot s.focus) = none := by decide +kernel
theorem test_witness_CsrWritesStalled :
    let e := { DqEntry.new 0 (.matrix 0x5B 0 0 { mfmt := 3, msca := 0, mscb := 0, mklen := 64, mgrp := 32 }) with stalled := some false }
    let s := { unit [] with cores := [(0, { Core.init with owner := some 0, tile := some 0, dq := [e] })] }
    s.alone ∧ (1 : Reg) ≠ 0 ∧ ((s.core s.myCid).stalledPort (keySlot s.focus)).isSome := by decide +kernel
theorem test_witness_CsrRefusals :
    (unit []).canTrap ∧ 0x816#12 ∉ csrAddresses ∧ 0x300#12 ∉ csrAddresses ∧ 0xCC8#12 ∈ csrReadOnlyAddresses ∧
      encode (.csrrw 1 1 0x816) = .word 0x816090F3 := by decide +kernel
theorem test_witness_FencesAndHints :
    let s := unitWith [] fun t => { t with posted := [onePosted] }
    (unit []).alone ∧ (unit []).released 3 = true ∧ ((unit []).applyLog 0).alone ∧ s.alone ∧ s.released 1 = false ∧
      (unitWith [] fun t => { t with token := true }).me.token = true ∧ (unit []).me.token = false := by decide +kernel
theorem test_witness_EnvironmentCallsAndExits :
    let busy := { unit [(17, 0)] with cores := [(0, { Core.init with dq := [DqEntry.new 0 (.vector 1 4 [] 0)] })] }
    (unit [(17, 0)]).alone ∧ (unit [(17, 0)]).storesDone = true ∧ (unit [(17, 0)]).queueIdle = true ∧ (unit [(17, 0)]).x 17 = 0 ∧
      busy.alone ∧ busy.queueIdle = false ∧ (unitWith [] fun t => { t with posted := [onePosted] }).storesDone = false ∧
      (unit [(17, 1)]).x 17 = 1 ∧ (unit [(17, 2)]).x 17 ≠ 0 ∧ (unit [(17, 2)]).x 17 ≠ 1 := by decide +kernel
theorem test_witness_TrapsAndReturn :
    (unit []).alone ∧ (unit []).me.busy = false ∧ (unit []).me.csr.xutvec ≠ 0 ∧ (unit []).me.pc.getLsbD 0 = false := by decide +kernel
/-- A gang of cores 0 and 1 of C-die 0. -/
def aGang (members : List (Option Nat)) (leader : Nat) (active : Bool) (issued : List (Nat × MemberDone)) : Gang :=
  { log2 := 1, track := 5, members := members, cids := [0, 1], leader := leader, active := active, deadline := 65536, code := if issued.isEmpty then [] else [0, 0, 0, 0], issued := issued, nextPc := 0x10000200008, ending := false, wide := 0 }
/-- An active gang of the batons in slot 0 of cores 0 and 1. -/
def pair (issued : List (Nat × MemberDone)) : State :=
  { unit [] with slots := [(0, runner [(1, 5)]), (4, { runner [(1, 1)] with xbaton := 0x400040 })], gangs := [(0xF800000000, aGang [some 0xF800000000, some 0xF800000040] 0 true issued)] }
theorem test_witness_Gangs :
    let s := unit []
    let forming := { unit [] with gangs := [(0xF800000040, aGang [none, some 0xF800000040] 1 false [])] }
    let core := { unit [] with gangs := [(0xF800000080, aGang [some 0xF800000080, none] 0 false [])] }
    s.alone ∧ s.gangAt s.myCid = none ∧ s.overlaps (gangSet s.myCid 3) = false ∧ s.overlaps (gangSet s.myCid 1) = false ∧ s.waiting = [] ∧
      s.joinable s.myCid 1 s.me.track = none ∧ core.alone ∧ (core.gangAt core.myCid).isSome = true ∧
      forming.alone ∧ forming.canTrap ∧ forming.gangAt forming.myCid = none ∧ forming.overlaps (gangSet 0 1) = true := by decide +kernel
theorem test_witness_GangRounds :
    (pair []).myGang = some (0xF800000000, aGang [some 0xF800000000, some 0xF800000040] 0 true [], 0) ∧
      (pair [(1, .completed)]).myGang = some (0xF800000000, aGang [some 0xF800000000, some 0xF800000040] 0 true [(1, .completed)], 0) ∧
      encode (.gangLead 1 1) = .word 0x0200608B := by decide +kernel
theorem test_witness_RotatingRegisters : (unit [(5, 1)]).alone ∧ (unit [(5, 1)]).x 5 - 1 = 0 := by decide +kernel
theorem test_witness_ContextImages :
    let s := unit [(1, 0x3FA00), (2, 0x3FA01), (3, 2)]
    s.alone ∧ (s.core s.myCid).owner ≠ some (keySlot s.focus) ∧ (s.x 2).toNat % 64 ≠ 0 ∧ s.canTrap ∧ s.noBankWait ∧ s.queueIdle = true ∧
      ([MemOp.read, .write].all fun op => match s.imageAt op (s.x 1).toNat 1536 with
       | .cells cs => decide (cs = (List.range 1536).map (0xF00003FA00 + ·)) && s.granted s.focus cs && !(dwordAt (s.cellBytes cs) 0x5F8).getLsbD 0
       | _ => false) = true ∧ ((List.range 1536).map (0xF00003FA00 + ·)).Nodup := by
  refine ⟨by decide +kernel, by decide +kernel, by decide +kernel, by decide +kernel, by simp only [State.noBankWait]; decide +kernel,
    by decide +kernel, by decide +kernel, ?_⟩
  exact List.nodup_range.map fun a b h => by omega
/-- A launch that runs, with a remainder and a measured energy. -/
def aLaunch : Launch :=
  { record := 0, state := .running, remainder := 4, measured := 3, placed := some 0, ended := none, preempted := false, node := none }
theorem test_witness_StaminaLogAndLaunchInstructions :
    let s := { unitWith [(1, 10), (2, 0x100), (3, 0)] (fun t => { t with track := 0 }) with starter := { Starter.init with launches := [(0, aLaunch)], reservoir := 10 ^ 15 } }
    let g := s.store none 0xF000000100 (bytesLE 64 (0x10000200000 + 5 * 2 ^ 208))
    let cells := fun (u : State) (a n : Nat) => (u.localRange .read a n).getD []
    let rec5 := BitVec.ofNat 512 (0x10000200000 + 5 * 2 ^ 208)
    let x : IntakeRec := { record := rec5, after := [], baton := some 0xF800000040, forbidden := false, slot := none }
    let w := { unit [] with
      slots := [(0, runner []), (4, { runner [] with xbaton := 0x400040, mode := .parked, wait := .intake 7, waitLen := 4 })]
      starter := { Starter.init with intake := [x] } }
    s.alone ∧ s.launchOf s.me.launch = some aLaunch ∧ (s.x 1).toNat < 2 ^ 32 ∧ ((s.x 1).toNat : Int) ≤ s.available ∧ s.me.track = 0 ∧
      s.ivlSynced (min (s.x 3).toNat s.pkg.ivlIndex) = true ∧ s.launchOf (s.x 1).toNat = none ∧ (unit []).launchOf (unit []).me.launch = none ∧
      (s.x 2).toNat % 64 = 0 ∧ (cells s (s.x 2).toNat 32).length = 32 ∧ s.granted s.focus (cells s (s.x 2).toNat 32) = true ∧ s.noBankWait ∧
      s.ivlFull (BitVec.ofNat 256 0) = false ∧ ivlOk (BitVec.ofNat 256 0) = true ∧ 3 ≤ ivlKind (BitVec.ofNat 256 (3 * 2 ^ 64)) ∧
      s.starterUp = true ∧ s.released 3 = true ∧ (cells g (g.x 2).toNat 64).length = 64 ∧ g.granted g.focus (cells g (g.x 2).toNat 64) = true ∧
      ({ s with slots := [(0, { s.me with posted := [onePosted] })] } : State).released 3 = false ∧
      w.starterUp = true ∧ w.parkedAlone 4 0xF800000040 (.intake 7) ∧ w.recordBad rec5 = false ∧ recClaim rec5 ≤ w.stamCap ∧
      ({ w with slots := [(0, { runner [] with mode := .parked, wait := .reply 7 9 })] } : State).parkedAlone 0 0xF800000000 (.reply 7 9) := by
  simp only [State.noBankWait]; decide +kernel
theorem test_witness_BatonsAndYield :
    let s := unit [(1, 0x400040), (2, 0x400080), (3, 0x400001), (4, 1), (6, 3 * 2 ^ 52 + 0x40)]
    let r := s.store none 0xF800000058 (bytesLE 8 (5 * 2 ^ 16))
    let two := { s with slots := [(0, runner [(1, 0x400040)]), (4, { runner [] with xbaton := 0x400040 })] }
    let later := { s with swc := 1 }
    s.alone ∧ r.alone ∧ ownRecord (r.x 1).toNat = true ∧ r.spadAdmits .read = true ∧ r.spadAdmits .write = true ∧ r.released 3 = true ∧
      s.granted s.focus [s.myRecord] = true ∧ s.noBankWait ∧ r.granted r.focus [0xF800000040] = true ∧
      (r.recRead 0xF800000040 0x18).extractLsb' 16 16 = r.me.track ∧ s.sendDst (s.x 2) = .cell 0xF800000080 ∧ sendDstR (s.x 6) = .rank 3 0x40 ∧
      s.rankFull s.myDie 3 = false ∧ s.released 3 = true ∧ s.queueIdle = true ∧ (s.x 1).toNat % 64 = 0 ∧
      r.ownCell .read (r.x 1).toNat = some 0xF800000040 ∧ r.sendRecord 0xF800000040 = .ok (freshRecord 0 (5 * 2 ^ 16) 0 0 0 0) ∧
      addrClass (two.x 1).toNat = .spad ∧ two.alone ∧ two.released 3 = true ∧ two.findSlot 0xF800000040 = some 4 ∧ (two.slotAt 4).mode = .running ∧
      (s.x 3).toNat % 64 ≠ 0 ∧ s.canTrap ∧ (unitWith [] fun t => { t with token := true }).me.token = true ∧ s.me.token = false ∧
      (later.x 4).toNat ≤ later.swcAt later.myDie ∧ later.me.token = false ∧ s.swcAt s.myDie < (s.x 4).toNat := by
  simp only [State.noBankWait]; decide +kernel
theorem test_witness_Yield :
    let s := unit []
    let u := (s.retire s.myCid).setMe { s.me with live := BitVec.allOnes 64, pc := s.me.pc + 4 }
    let cut := s.setCarve 0 0 { Carve.none with base := 0x420000, low := 0x420000, fin := 0x430000, high := 0x430000 }
    let v := (cut.retire cut.myCid).setMe { cut.me with live := BitVec.allOnes 64, pc := cut.me.pc + 4 }
    s.alone ∧ (s.core s.myCid).owner ≠ some (keySlot s.focus) ∧ s.me.wait = .none ∧ s.canSave s.focus = true ∧ (u.saveFrame u.focus 0).isNone = true ∧ s.granted s.focus [spadCell s.myPcl 0] = true ∧
      cut.granted cut.focus [spadCell cut.myPcl 0] = true ∧ s.noBankWait ∧ cut.noBankWait ∧ kfind (s.cluster (recPcl s.myRecord)).asks s.myRecord = none ∧
      s.allocFrame s.myPcl s.me.launch s.me.track false = none ∧
      (unitWith [] fun t => { t with posted := [onePosted] }).canSave 0 = false ∧
      cut.alone ∧ cut.canSave cut.focus = true ∧ (v.saveFrame v.focus 0).isSome = true ∧
      (match cut.allocFrame cut.myPcl cut.me.launch cut.me.track false with
       | some (a, _) => (cut.frameBar (recPcl cut.myRecord) cut.me.track .write a (frameBytes false)).isNone
       | none => false) = true := by
  simp only [State.noBankWait]; decide +kernel
/-- A hurdle for two arrivals of which one has come, with a member map. -/
def half : Hurdle := { exp := 2, arr := 1, gen := 7, err := 0, mask := 1, wake := 0, mode := 2 }
theorem test_witness_HurdleRules :
    (half.bmap = true ∧ 0 < 64 ∧ half.mask.getLsbD 0 = true) ∧ ¬(half.mask.getLsbD 63 = true) ∧ half.arr.toNat < half.exp.toNat ∧ half.exp ≠ 0 ∧
      ({ half with arr := 2 } : Hurdle).exp.toNat ≤ ({ half with arr := 2 } : Hurdle).arr.toNat ∧ ({ half with exp := 0 } : Hurdle).exp = 0 ∧
      ({ half with exp := BitVec.allOnes 32 } : Hurdle).exp.toNat = 2 ^ 32 - 1 := by decide +kernel
theorem test_witness_HurdleInstructions :
    let s := (unit [(1, 0x400100), (2, 5), (3, 0xF800400100), (4, 3 * 2 ^ 52 + 0x100), (6, 0x400101)]).setHurdle none 0xF800000100 { half with mode := 0 }
    let full := s.setHurdle none 0xF800000100 { half with exp := 1, mode := 0 }
    s.alone ∧ s.released 3 = true ∧ s.hdRef (s.x 1) = .near 0xF800000100 ∧ s.granted s.focus [0xF800000100] = true ∧ s.noBankWait ∧
      s.hurdleAdmits 0xF800000100 s.me.track 0 .amo = true ∧ s.hurdleAdmits 0xF800000100 s.me.track 0 .read = true ∧ lowNat (s.x 2) ≠ 0 ∧
      (((full.setHurdle none 0xF800000100 { half with exp := 3, mode := 0 }).hurdle 0xF800000100).arrive 5 0).2 = false ∧
      (({ half with exp := 3 } : Hurdle).withdraw 5).2 = false ∧ (s.hurdle 0xF800000100).arr ≠ (s.hurdle 0xF800000100).exp ∧
      (full.hurdle 0xF800000100).arr = (full.hurdle 0xF800000100).exp ∧ s.hdRef (s.x 3) = .far 0xF800400100 ∧
      s.dieUp (hurdlePcl 0xF800400100 / 24) = true ∧ s.linkUp s.myDie (hurdlePcl 0xF800400100 / 24) = true ∧
      isEp (niEp (hurdlePcl 0xF800400100 / 24)) = true ∧ hdRefR (s.x 4) = .rank 3 0x100 ∧ s.rankFull s.myDie 3 = false ∧ s.canTrap ∧
      s.hdRef (s.x 6) = .bad ∧ hdRefR (s.x 6) = .bad ∧ (full.seesCompletion full.myDie 0xF800000100).alone ∧
      (full.seesCompletion full.myDie 0xF800000100).noBankWait := by
  simp only [State.noBankWait]; decide +kernel
/-- A copy command of the focus baton that has not completed. -/
def aCopy (h : Dword) (promise : Nat) : CpEntry :=
  { handle := h, order := 0, kind := .get, cid := 0, baton := 0xF800000000, track := 5, launch := 0, g0 := 0x10000200000, g1 := 0x40, g2 := 64, ctl := 0, hurdle := none, gen := 0, remote := false, hurdlePkg := 0, units := 1, begun := [], flight := [], moved := 0, reads := [], status := 0, failAddr := 0, failed := false, branches := [], cancelled := false, gathering := false, arriving := false, complete := false, completeAt := 0, promise := promise, stray := false, told := false, missed := false, dropped := false }
theorem test_witness_LapsDomainsTimeAndPromises :
    let s := unitWith [(1, 0), (2, 9), (3, 64)] fun t => { t with group := 1024 }
    let ex := unitWith [] fun t => { t with phases := 1, lapCopies := [⟨1, 9, none⟩] }
    let cp := { unit [(3, 64)] with clusters := [(0, { Cluster.init with engine := [(0, aCopy 64 100)] })] }
    s.alone ∧ ¬(dmrValid (s.dmr s.myCid s.me.group 4) = true) ∧ s.canTrap ∧ dmrValid (s.dmr s.myCid s.me.group 1) = true ∧
      dmrValid (s.dmr s.myCid s.me.group 3) = true ∧ s.me.phases.getLsbD 0 = false ∧ s.findSlot s.myRecord = some s.focus ∧ ex.alone ∧
      ex.me.phases.getLsbD 0 = true ∧ ex.me.lapCopies.any (fun c => c.level == 1 && c.status.isNone) = true ∧
      (s.x 1).toNat ≤ s.swcAt s.myDie ∧ s.swcAt s.myDie < (s.x 2).toNat ∧ s.tracked s.myPcl (s.x 3) = none ∧ cp.alone ∧
      cp.tracked cp.myPcl (cp.x 3) = some (aCopy 64 100) ∧ cp.swcAt cp.myDie ≤ 100 := by decide +kernel
theorem test_witness_MessagesAndRanks :
    let s := unit [(1, 0x100), (2, 3 * 2 ^ 52 + 256), (3, 257), (4, 2 ^ 62)]
    let q := { s with clusters := [(0, { Cluster.init with msgs := Vector.replicate 8 [⟨1, 6, []⟩, ⟨2, 5, [1#8, 2#8]⟩] })] }
    let p := unitWith [(1, 4095), (2, 2 ^ 62)] fun t => { t with track := 0 }
    s.alone ∧ msgOk (s.x 3) = false ∧ msgOk (s.x 2) = true ∧ (s.x 1).toNat % 8 = 0 ∧ isLocal (s.x 1).toNat = true ∧
      (s.localRange .read (s.x 1).toNat (msgLen (s.x 2))).isSome = true ∧ s.granted s.focus ((s.localRange .read (s.x 1).toNat (msgLen (s.x 2))).getD []) = true ∧
      s.released 3 = true ∧ s.rankFull s.myDie (msgRank (s.x 2)) = false ∧ (∀ m ∈ (s.cluster s.myPcl).msgQueue 7, m.track ≠ s.me.track) ∧
      q.alone ∧ (q.cluster q.myPcl).msgQueue 7 = [⟨1, 6, []⟩] ++ ⟨2, 5, [1#8, 2#8]⟩ :: [] ∧ q.me.track = 5 ∧
      q.localRange .write (q.x 1).toNat 2 = some [0xF000000100, 0xF000000101] ∧ q.granted q.focus [0xF000000100, 0xF000000101] = true ∧ q.noBankWait ∧
      p.alone ∧ p.me.track = 0 ∧ (p.x 1).toNat < 4096 ∧ rctOk (p.x 2) = true ∧ s.canTrap ∧ s.me.track ≠ 0 := by
  simp only [State.noBankWait]; decide +kernel
/-! ## The vector and matrix units -/

/-- A core whose queue is full, and one whose matrix context another slot owns. -/
def fullCore : Core := { Core.init with dq := List.replicate 8 (DqEntry.new 0 (.vector 1 4 [] 0)) }
theorem test_witness_VectorIntegerResults :
    (unit []).alone ∧ (unit []).queueRoom ∧ ¬({ unit [] with cores := [(0, fullCore)] } : State).queueRoom ∧ 3 ≤ (3#3).toNat ∧ 3 ≤ (7#3).toNat := by
  decide +kernel
theorem test_witness_VectorFloatResults :
    let s := unitWith [] fun t => { t with v := (t.v.set 1 0x7FC000003F800000).set 2 0x40000000C0000000 }
    s.alone ∧ s.queueRoom ∧ fdecode .f32 (velem 32 (s.v 1) 0) = .fin false (2 ^ 23) (-23) ∧ fdecode .f32 (velem 32 (s.v 2) 0) = .fin true (2 ^ 23) (-22) ∧
      isNan (fdecode .f32 (velem 32 (s.v 1) 1)) = true := by decide +kernel
theorem test_witness_VectorComparesSelectsAndConverts :
    let s := unitWith [] fun t => { t with v := (t.v.set 1 0x7FC000003F800000).set 2 0x40000000C0000000 }
    s.alone ∧ s.queueRoom ∧ (5#3).toNat < 6 ∧ fdecode .f32 (velem 32 (s.v 1) 0) = .fin false (2 ^ 23) (-23) ∧
      isNan (fdecode .f32 (velem 32 (s.v 1) 1)) = true := by decide +kernel
theorem test_witness_VectorGangWideResults : (unit [(1, 2 ^ 64 - 1)]).alone ∧ (unit [(1, 2 ^ 64 - 1)]).queueRoom := by decide +kernel
/-- The last 32 bytes of the TCM, a stride of 4, indices 0 to 7, and a record of the last bytes but the codes. -/
theorem test_witness_VectorLoadsAndStores :
    let s := unitWith [(1, 0x3FFE0), (2, 4), (3, 0x3FF00)] fun t => { t with v := t.v.set 4 0x0000000700000006000000050000000400000003000000020000000100000000 }
    let cell := fun k => 0xF00003FFE0 + 4 * k
    s.alone ∧ s.noBankWait ∧
      (∀ k < 8, (s.x 1 + BitVec.ofNat 64 (k * 4)).toNat % 4 = 0 ∧ s.ownCell .read (s.x 1 + BitVec.ofNat 64 (k * 4)).toNat = some (cell k)) ∧
      (∀ k < 8, s.ownCell .write (s.x 1 + BitVec.ofNat 64 (k * 4)).toNat = some (cell k)) ∧
      (∀ k < 8, s.ownCell .write (s.x 1 + BitVec.ofNat 64 k * s.x 2).toNat = some (cell k)) ∧
      (∀ k < 8, s.ownCell .read (s.x 1 + wrap64 (signedOf 32 (velem 32 (s.v 4) k) * 4)).toNat = some (cell k)) ∧
      s.granted s.focus ((List.range 8).map cell) = true ∧ s.granted s.focus (0xF00003FF00 :: (List.range 8).map fun k => 0xF00003FFE0 + k) = true ∧ (s.x 3).toNat % 4 < 2 ∧
      (∀ k < 8, s.ownCell .read (s.x 1 + BitVec.ofNat 64 k).toNat = some (0xF00003FFE0 + k)) ∧
      s.ownCell .read ((s.x 3).toNat / 2 * 2) = some 0xF00003FF00 := by
  simp only [State.noBankWait]; decide +kernel
theorem test_witness_VectorAndMatrixOperandTraps :
    let s := unitWith [(1, 0x3FFE2), (2, 2), (3, 256), (4, 1), (6, 0x1000000)] fun t => { t with v := t.v.set 4 1 }
    s.canTrap ∧ s.spadAdmits .read = true ∧ s.spadAdmits .write = true ∧ (s.x 1 + BitVec.ofNat 64 (7 * 4)).toNat % 4 ≠ 0 ∧ (s.x 1 + BitVec.ofNat 64 0 * s.x 2).toNat % 4 ≠ 0 ∧
      (s.x 1 + wrap64 (signedOf 32 (velem 32 (s.v 4) 0) * 4)).toNat % 4 ≠ 0 ∧ (s.x 2).getLsbD 1 = true ∧ 256 ≤ (s.x 3).toNat ∧ (s.x 4).toNat % 64 ≠ 0 ∧
      ¬((s.x 6).toNat < 2 ^ 18 ∨ addrClass (s.x 6).toNat = .spad) ∧ encode (.stBind 3 0) = .word 0x0001A05B := by decide +kernel
theorem test_witness_MatrixQueueAndStatus :
    let s := unit [(1, 255), (2, 0), (3, 0x3C000)]
    let own := { s with cores := [(0, { Core.init with owner := some 0 })] }
    let other := { s with cores := [(0, { Core.init with owner := some 3 })] }
    let full := { s with cores := [(0, fullCore)] }
    s.alone ∧ s.queueRoom ∧ s.spadAdmits .read = true ∧ s.spadAdmits .write = true ∧ (s.core s.myCid).owner = none ∧ encode (.mmTile 0 0 false) = .word 0x0000005B ∧ own.alone ∧ own.queueRoom ∧
      (own.core own.myCid).owner = some (keySlot own.focus) ∧ other.queueRoom ∧ (other.core other.myCid).owner = some 3 ∧ 3 ≠ keySlot other.focus ∧
      ¬full.queueRoom ∧ (s.x 1).toNat < 256 ∧ (s.x 3).toNat % 64 = 0 ∧ (s.x 3).toNat + 4096 * (3 + 1) ≤ 2 ^ 18 := by decide +kernel
/-- A tile of FP32 elements at the start of the TCM lies wholly in it. -/
theorem test_witness_MatrixOperandFits : ∀ i : Nat, i < 64 → ∀ j : Nat, j < 64 →
    let x : Nat := (((0 : Int) + i * 256 + j * 4) % 2 ^ 64).toNat
    x % 4 = 0 ∧ x < 2 ^ 18 := by
  intro i hi j hj
  constructor <;> omega
/-- A dispatch-queue entry of slot 0 that has bound and is due. -/
def dueEntry (w : Word32) (a b : Dword) : DqEntry :=
  { DqEntry.new 0 (.matrix w a b (probeSlot.matCsr)) with bound := true, doneAt := 0 }
/-- Core 0 with a queue, its matrix context owned by slot 0. -/
def queueOf (dq : List DqEntry) : State := { unit [] with cores := [(0, { Core.init with owner := some 0, dq := dq })] }
theorem test_witness_MatrixWait :
    let own := queueOf []
    let busy := queueOf [dueEntry 0x5B 0 0]
    let stuck := queueOf [{ dueEntry 0x5B 0 0 with bound := false, stalled := some true }]
    own.alone ∧ (own.core own.myCid).owner = some (keySlot own.focus) ∧ (own.core 0).stalledPort 0 = none ∧ (own.core 0).dq = [] ∧
      busy.alone ∧ (busy.core 0).stalledPort 0 = none ∧ (busy.core 0).dq = [dueEntry 0x5B 0 0] ∧ (dueEntry 0x5B 0 0).slot = keySlot busy.focus ∧
      stuck.canTrap ∧ (stuck.core 0).stalledPort 0 = some true := by decide +kernel
theorem test_witness_MatrixEntriesComplete :
    let s := queueOf [dueEntry 0x1000005B 0x3C000 0]
    (s.core 0).dq = [dueEntry 0x1000005B 0x3C000 0] ∧ (dueEntry 0x1000005B 0x3C000 0).bound = true ∧ s.entryHeld 0 0 = false ∧ 0 ≤ s.swcAt (cidDie 0) ∧
      encode (.mmZero 0 0) = .word 0x1000005B ∧ encode (.mmMset 1 2 0 false) = .word 0x2000915B ∧
      encode (.stBind 1 0) = .word 0x0000A05B ∧ encode (.stSkip 3 1 0) = .word 0x2000A1DB ∧ encode (.mmDrain 1 0 0 0 false 0) = .word 0x0000905B ∧
      encode (.mmLoad 1 0 0 0 0) = .word 0x1000905B ∧ (255#64).toNat < 256 ∧ (0x3C000#64).toNat % 4 = 0 ∧ (0x3C000#64).toNat + 16384 ≤ 2 ^ 18 ∧
      probeSlot.matCsr.mfmt.toNat % 8 < 3 ∧ (queueOf [{ dueEntry 0 0 0 with kind := .vector 1 4 [] 0 }]).entryHeld 0 0 = false ∧
      (s.power 0).waiters = [] ∧ (s.cluster 0).away = [] ∧ s.wideOpen 0 = false := by decide +kernel
theorem test_witness_BanksReady (dq : List DqEntry) (x : Nat) : (queueOf dq).banksReady [x] = true := by
  unfold State.banksReady
  cases h : bankOf x <;> simp only [List.filterMap_cons, List.filterMap_nil, h] <;> rfl
/-- ATAPER of track 5 admits every access of cluster 0's cores to their TCM. -/
theorem test_witness_OwnTcm (op : MemOp) (x : Nat) (h : x < 2 ^ 18) : (queueOf []).coreCell 0 op x = some (tcmCell 0 x) := by
  have a : addrClass x = .tcm := by unfold addrClass; exact if_pos (by omega)
  have b : (queueOf []).localCell (keyCid 0) x = some (tcmCell 0 x) := by unfold State.localCell; simp only [a]; rfl
  have c : ownTarget (keyPcl 0) x = 2 := by unfold ownTarget; simp only [a]; rfl
  unfold State.coreCell
  simp only [b, c]
  cases op <;> exact if_pos (by decide +kernel)
/-- An entry of a gang-wide instruction that another member has not issued. -/
theorem test_witness_GangWideEntry :
    let e := { dueEntry 0 0 0 with kind := .vector 1 6 [] 1 }
    let s := { unit [] with cores := [(0, { Core.init with dq := [e] }), (1, { Core.init with dq := [{ e with bound := false }] })] }
    (s.core 0).dq = [e] ∧ e.bound = true ∧ s.wideOpen 1 = true := by decide +kernel
/-- A tile of 64 integer positions whose panels have come. -/
def tileState : State :=
  { unit [] with cores := [(0, { Core.init with owner := some 0, tile := some 0, sta := ⟨[1], false, 0⟩, stb := ⟨[2], false, 0⟩, dq := [{ DqEntry.new 0 (.matrix 0x5B 0 0 { mfmt := 3, msca := 0, mscb := 0, mklen := 64, mgrp := 32 }) with started := true }] })] }
theorem test_witness_PanelStepIntegerProducts :
    (unit []).core 0 = Core.init ∧ Core.init.matrixHead = none ∧ encode (.mmTile 0 0 false) = .word 0x5B ∧
      (match (tileState.core 0).matrixHead with
       | some (e, w, m) => decide (w = 0x5B) && e.started && !tileState.entryHeld 0 e.slot && decide ((m.mfmt.extractLsb' 0 3).toNat = 3) &&
           decide (0 < (matK m + 63) / 64)
       | none => false) = true ∧ (tileState.core 0).tile = some 0 ∧ (tileState.core 0).sta.panels = [1] ∧ (tileState.core 0).stb.panels = [2] ∧
      (tileState.quad 0).arrayBusy ≤ tileState.swcAt 0 ∧ (tileState.opportunity 0 (tileState.arrayHead 0) (tileState.quad 0).matrix).1 = some (cidCore 0) := by
  decide +kernel
theorem test_witness_CopyCommandsIssue :
    let s := unit [(8, 0x100), (9, 0x200), (10, 64), (11, 0), (1, 0x6FFFE0), (2, 0x6FFFE1)]
    let full := { s with clusters := [(0, { Cluster.init with engine := (List.range 64).map fun i => (i, aCopy (BitVec.ofNat 64 (65536 + i)) 1) })] }
    s.alone ∧ s.noBankWait ∧ s.granted s.focus [spadCell 0 (0x6FFFE0 - spadBase)] = true ∧ cpUnassigned .get (s.x 8) (s.x 9) (s.x 10) (s.x 11) = false ∧
      s.canTrap ∧ s.released 3 = true ∧ (s.cluster 0).freeSlot = some 0 ∧ cpOk .get 0 (s.x 8) (s.x 9) (s.x 10) (s.x 11) = true ∧ s.x 10 ≠ 0 ∧
      (s.x 1).toNat % 32 = 0 ∧ spadBase ≤ (s.x 1).toNat ∧ (s.x 1).toNat ≤ 0x6FFFE0 ∧ ctlDrank (s.x 11) = false ∧ addrClass (s.x 8).toNat = .tcm ∧
      ctlSrank (s.x 11) = false ∧ (s.x 9).toNat < 2 ^ 18 ∧ ¬((s.x 2).toNat % 32 = 0) ∧ full.released 3 = true ∧
      (full.cluster 0).freeSlot = none ∧ (unitWith [] fun t => { t with posted := [onePosted] }).released 3 = false := by
  simp only [State.noBankWait]; decide +kernel
theorem test_witness_BanksOn : ∀ b, (unit []).bankOff b = false := fun _ => rfl
/-- Operands of the other copy commands that keep their rows' limits. -/
theorem test_witness_CopyKinds :
    let s := (unit [(1, 0x100)]).store none 0xF000000100 (bytesLE 16 0x10000200000)
    cpOk .put 0 0x10000200000 0x100 64 0 = true ∧ cpOk .xfer 0 0x10000200000 0x10000300000 64 0 = true ∧ cpOk .fill 0 0x10000200000 5 64 0 = true ∧
      cpOk .feed 0 (64 * 2 ^ 32) 0x100 64 0 = true ∧ feedKlen (64 * 2 ^ 32) = 64 ∧ cpOk .gath 0 0x100 0x10000200000 0x200 (2 * 2 ^ 20 + 4) = true ∧
      gathCount (2 * 2 ^ 20 + 4) = 4 ∧ cpOk .scat 0 0x10000200000 0x100 0x200 (2 * 2 ^ 20 + 4) = true ∧
      cpOk .atom 0 0x10000200000 0x100 64 0 = true ∧ cpOk .mcast 0 0x100 0x200 64 1 = true ∧
      (let l := (s.mcastList s.focus s.me.track 0x100 1).2
       (s.mcastList s.focus s.me.track 0x100 1).1 = 0 ∧ l ≠ [] ∧ ∀ b ∈ l, b.ctl.extractLsb' 5 18 = 0) ∧
      cpUnassigned .mcast 0x100 0x200 64 1 = false ∧ s.granted s.focus (s.issueCells .mcast 0x100 1 .none) = true := by
  decide +kernel
theorem test_witness_CopyStatusCancelAndBufferMap :
    let s := unit [(3, 64), (28, 0), (8, 0), (12, 64), (1, 63), (2, 64), (4, 191), (6, 0x1BFBF), (7, 192), (9, 0)]
    let cp := { s with clusters := [(0, { Cluster.init with engine := [(0, aCopy 64 100)] })] }
    let done := { s with clusters := [(0, { Cluster.init with engine := [(0, { aCopy 64 100 with complete := true })] })] }
    s.alone ∧ 0 < (28#5).toNat ∧ s.tracked s.myPcl (s.x 3) = none ∧ done.tracked done.myPcl (done.x 3) = some { aCopy 64 100 with complete := true } ∧
      cp.x 12 ≠ 0 ∧ cp.x 13 = 0 ∧ cp.x 14 = 0 ∧ cp.x 15 = 0 ∧ cp.tracked cp.myPcl (cp.x 12) = some (aCopy 64 100) ∧ s.x 8 = 0 ∧
      (aCopy 64 100).track = cp.me.track ∧ piecesEnded (aCopy 64 100) = false ∧ (s.x 1).toNat < 64 ∧ s.window s.myPcl 63 = 0 ∧ (s.x 6).toNat < 2 ^ 17 ∧ (s.x 6).toNat % 256 ≤ 191 ∧
      (s.x 6).toNat / 256 % 256 ≤ 191 ∧ (s.x 4).toNat ≤ 191 ∧ 64 ≤ (s.x 2).toNat ∧ s.canTrap ∧ 191 < (s.x 7).toNat ∧
      encode (.bufPub 1 2) = .word 0x300140DB := by decide +kernel
/-! ## Statistics and cycles -/

theorem test_witness_StatisticsResults :
    let s := unitWith [(1, 0x3FFF0), (2, 0x3F800000), (3, 0x7F800000), (4, 0xBF800000)] fun t => { t with sr := t.sr.set 2 0x3F800000000000000000000000000000 }
    let m := unitWith [(1, 0x3FFF0)] fun t => { t with sr := t.sr.set 2 0x20 }
    let l := m.store none 0xF00003FFF0 (bytesLE 16 0x20)
    s.alone ∧ statMalformed (s.st 1) = false ∧ (statOf (s.st 1)).empty = true ∧ m.canTrap ∧ statMalformed (m.st 2) = true ∧
      encode (.statUpd 2 1) = .word 0x1000817B ∧ isNan (fdecode .f32 0x7FC00000) = true ∧ fdecode .f32 0x3F800000 = .fin false (2 ^ 23) (-23) ∧
      (s.x 1).toNat % 16 = 0 ∧ s.ownCell .read (s.x 1).toNat = some 0xF00003FFF0 ∧ s.ownCell .write (s.x 1).toNat = some 0xF00003FFF0 ∧
      s.granted s.focus [0xF00003FFF0] = true ∧ s.noBankWait ∧
      statMalformed (BitVec.ofNat 128 (memNat l.mem 0xF00003FFF0 16)) = true ∧ l.canTrap ∧
      statMalformed (BitVec.ofNat 128 (memNat (s.store none 0xF00003FFF0 [1]).mem 0xF00003FFF0 16)) = false := by
  simp only [State.noBankWait]; decide +kernel
theorem test_witness_StatisticsVectorsAndForm :
    let s := unitWith [(8, 0x3F800000), (9, 0x40000000)] fun t => { t with sr := (t.sr.set 2 0x20).set 3 0x3F800000000000000000000000000000 }
    let n := unitWith [] fun t => { t with sr := t.sr.set 3 3 }
    s.alone ∧ s.queueRoom ∧ s.canTrap ∧ statMalformed (s.st 1) = false ∧ statMalformed (s.st 2) = true ∧ statMalformed (s.st 3) = false ∧
      (statOf (s.st 1)).empty = true ∧ ¬((statOf (s.st 3)).empty = true) ∧
      n.alone ∧ (statOf (n.st 3)).nan = true ∧
      encode (.vstatUpd 2 1 0) = .word 0x0000917B ∧ encode (.statDrain 10 2 0 1) = .word 0x2201157B := by decide +kernel
/-- A one-block-pair descriptor at TCM 0x100 with limits 1 and 1, and a freeze range at 0x200. -/
def cycleState (recs : KMap CycRec) : State :=
  let s := { unit [(1, 0x100), (2, 0x200), (3, 2 ^ 32), (4, 1), (6, 0x240), (7, 2 ^ 32 + 0x100)] with cyc := { CycCtl.init with recs := recs } }
  (s.store none 0xF000000100 (bytesLE 16 (7 * 2 ^ 64 + 0x3F80000000010101))).store none 0xF000000200 (bytesLE 16 (0x10000300000 * 2 ^ 64 + 0x10000200000))
/-- A live cycle record of two blocks under track 5. -/
def aCycle (st : CycState) : CycRec :=
  { CycRec.init with state := st, track := 5, seq := 1, nbm1 := 1, limit := 1, blimit := 1, slots := [CycSlot.init, CycSlot.init] }
theorem test_witness_CycleOpenAndFreeze :
    let s := cycleState []
    let all := cycleState ((List.range 64).map fun n => (n, aCycle .opened))
    let one := cycleState [(0, aCycle .opened)]
    let eight := cycleState [(0, { aCycle .opened with ranges := List.replicate 8 (2 ^ 40, 2 ^ 41) })]
    let down := s.setReady 49 false
    s.alone ∧ s.cycUp = true ∧ s.noBankWait ∧ s.cyc.queue = [] ∧ (s.x 1).toNat % 64 = 0 ∧
      (match s.localRange .read (s.x 1).toNat 64 with | some cs => s.granted s.focus cs && descOk (s.cellBytes cs) && wordAt (s.cellBytes cs) 0 / 2 ^ 24 % 16 == 0 | none => false) = true ∧
      (match s.localRange .read (s.x 6).toNat 64 with | some cs => !descOk (s.cellBytes cs) | none => false) = true ∧ (s.x 6).toNat % 64 = 0 ∧
      s.freeCycle = some 0 ∧ all.freeCycle = none ∧ (∀ d ∈ s.freezeDies, (s.ni d).freeze.length < 512) ∧
      (match one.localRange .read (one.x 2).toNat 16 with
       | some cs => decide (2 ^ 40 ≤ wordAt (one.cellBytes cs) 0 ∧ wordAt (one.cellBytes cs) 0 < wordAt (one.cellBytes cs) 8 ∧ wordAt (one.cellBytes cs) 8 ≤ 2 ^ 56)
       | none => false) = true ∧ (one.x 2).toNat % 16 = 0 ∧ one.granted one.focus ((one.localRange .read (one.x 2).toNat 16).getD []) = true ∧ one.cycNamed (one.x 3) one.me.track = some (aCycle .opened) ∧
      eight.cycNamed (eight.x 3) eight.me.track = some { aCycle .opened with ranges := List.replicate 8 (2 ^ 40, 2 ^ 41) } ∧ down.canTrap ∧ down.cycUp = false := by
  simp only [State.noBankWait]; decide +kernel
theorem test_witness_CycleInstructionsAndIterations :
    let on := fun (r : CycRec) => cycleState [(0, r)]
    let s := on (aCycle .opened)
    let passed := { aCycle .iterating with slots := [{ CycSlot.init with passed := some 9 }, CycSlot.init] }
    s.alone ∧ s.canTrap ∧ s.cyc.queue = [] ∧ (s.applyLog s.myDie).alone ∧ s.cycNamed (s.x 4) s.me.track = none ∧ s.cycUp = true ∧ cycClean (s.x 3) = true ∧ s.released 2 = true ∧
      statMalformed (s.st 1) = false ∧ s.cycNamed (s.x 3) s.me.track = some (aCycle .opened) ∧ cycBlock (s.x 3) = 0 ∧ cycBlock (s.x 7) = 1 ∧
      (on passed).cycNamed ((on passed).x 7) 5 = some passed ∧ (passed.slots.getD 0 CycSlot.init).passed = some 9 ∧
      (on (aCycle .iterating)).cycNamed (s.x 7) 5 = some (aCycle .iterating) ∧ s.me.mode = .running ∧ s.waiting = [] ∧ 0 < (aCycle .opened).slots.length ∧
      ((aCycle .opened).slots.getD 1 CycSlot.init).next = false ∧ (on (aCycle .converged)).cycNamed (s.x 3) 5 = some (aCycle .converged) ∧
      (on (aCycle .inexact)).cycNamed (s.x 3) 5 = some (aCycle .inexact) ∧ (on (aCycle .closed)).cycNamed (s.x 3) 5 = some (aCycle .closed) ∧
      (aCycle .iterating).state.live = true ∧ (on (aCycle .diverged)).canTrap ∧ (on (aCycle .diverged)).cycNamed (s.x 3) 5 = some (aCycle .diverged) := by
  decide +kernel
/-- A record whose residual is 1 and whose tolerance is 4, one with no contribution, and one whose contribution is a NaN. -/
theorem test_witness_CycleCloses :
    let one := { aCycle .iterating with slots := [{ CycSlot.init with res := 0x3F8000000000000000000000000000003F800000 }, CycSlot.init], tol2 := 0x40800000 }
    fdecode .f32 0 = .fin false 0 (-149) ∧ fdecode .f32 0x40800000 = .fin false (2 ^ 23) (-21) ∧ one.nbm1 = 1 ∧
      (statOf (BitVec.ofNat 128 3)).nan = true := by decide +kernel
/-- The bytes that an instruction reads in two parts, where they lie in one local aperture with its banks powered. -/
def imageBytes (s : State) (op : DescOp) (a : Nat) : Option (List Byte) :=
  match s.localRange .read a (op.total []) with
  | some c0 =>
    match s.localRange .read a (op.total (s.cellBytes c0)) with
    | some c1 => if s.granted s.focus c0 && s.granted s.focus c1 && isLocal a then some (s.cellBytes c1) else none
    | none => none
  | none => none
/-- A plan of a standard kind for group 2, and the group: ranks 3 and 4095 under track 5; rank 3 is cluster 0. -/
def aPlan : Plan :=
  { pid := 9, hdr := planHdr (bytesLE 64 (4 * 2 ^ 64 + 0x21001)), nodes := [], succ := [], opened := 1, missed := [], statuses := [(7, 0)] }
def aRun : Run :=
  { slot := 0, number := 1, group := 2, gen := 1, track := 5, hdr := aPlan.hdr, members := [], nodes := [RunNode.make .nop 0 0 0 0 0 0 [] none], buf := [], loaded := [], timer := 0, runningSince := none, stall := 1, pauseLim := 1, rsvrel := 1, ended := none, partialMembers := false, reserved := false }
def collState (track : BitVec 16) (runs : KMap Run) : State :=
  let s := unitWith [(1, 0x100), (2, 0x200), (3, 2), (4, 9), (6, 2 ^ 32 + 9), (7, 7 * 2 ^ 32 + 9), (12, 4095), (13, 5), (14, 9 * 2 ^ 32 + 9), (15, 1)] fun t => { t with track := track }
  let s := { s with relay := { Relay.init with plans := [(0, aPlan)], groups := [(2, { gen := 1, track := 5, ranks := [3, 4095], defined := true })], runs := runs } }
  let s := s.setNi 0 { s.ni 0 with rct := [(3, 2 ^ 62)] }
  (s.store none 0xF000000100 (bytesLE 64 (4 * 2 ^ 64 + 0x11001))).store none 0xF000000200 (bytesLE 12 ((4095 * 2 ^ 16 + 3) * 2 ^ 64 + 5 * 2 ^ 16 + 2))
theorem test_witness_CollectiveInstructions :
    let s := collState 5 []
    let sup := collState 0 []
    let open' := collState 5 [(1, aRun)]
    let down := s.setReady 51 false
    s.alone ∧ down.alone ∧ down.relayUp = false ∧ down.noBankWait ∧ s.relayUp = true ∧ s.noBankWait ∧ s.released 3 = true ∧
      s.planNamed (s.x 13) = none ∧ s.planNamed (s.x 4) = some (0, aPlan) ∧ s.relay.runsOf 0 = [] ∧ open'.relay.runsOf 0 = [(1, aRun)] ∧
      (match imageBytes s (.clLoad 5) 0x100 with
       | some l => (match planOf l with
         | .ok (h, _, _) => !(s.group h.group).defined && (s.relay.findPlan h.group 5).isNone && s.relay.planRoom h
         | .error _ => false)
       | none => false) = true ∧ (s.x 1).toNat % 64 = 0 ∧ (s.x 13).toNat < 2 ^ 16 ∧ sup.me.track = 0 ∧
      (match imageBytes sup (.clGrp 2) 0x200 with
       | some l => defOk l && decide (defRanks l = [3, 4095])
       | none => false) = true ∧ sup.relay.groupBusy 2 = false ∧ open'.relay.groupBusy 2 = true ∧ sup.relay.entries 2 + 2 ≤ 65536 ∧
      (s.x 2).toNat % 8 = 0 ∧ (s.localRange .read (s.x 2).toNat 128).isSome = true ∧ s.granted s.focus ((s.localRange .read (s.x 2).toNat 128).getD []) = true ∧
      (s.group 2).track = s.me.track ∧ s.groupRank s.myPcl (s.group 2) = some 3 ∧ open'.ticketIs (open'.x 6) = .isOpen 1 ∧
      kfind open'.relay.runs 1 = some aRun ∧ open'.me.track = aRun.track ∧ aRun.over = false ∧ s.ticketIs (s.x 7) = .status 0 ∧ s.ticketIs (s.x 14) = .unknown ∧
      (s.x 3).toNat < 1024 ∧ (s.x 12).toNat < 4096 ∧ (s.group 1).defined = false ∧ (s.group 2).defined = true ∧ 4095 ∈ (s.group 2).ranks ∧
      5 ∉ (s.group 2).ranks ∧ s.dieUp xDie = true ∧ s.linkUp s.myDie xDie = true ∧
      s.farRelays (s.x 1).toNat = [] ∧ open'.farRelays 3 = [] := by
  simp only [State.noBankWait]; decide +kernel
/-! ## Packets -/

/-- A request of core 0 to its own die under track 5. -/
def ask (ty : PType) (va n : Nat) : Pkt :=
  { Pkt.blank with ty := ty, va := va, track := 5, dst := niEp 0, len := n, dflits := dataFlits n, elems := [(va, n)], tag := 7 }
/-- One packet in flight. -/
def sending (p : Pkt) (s : State) : State := { s with net := [(3, p)], nextPkt := 4 }
def page : Nat := 0x10000200000
theorem test_witness_RequestsAtTheirHome :
    (unit []).canDeliver 3 = none ∧
    (∀ p ∈ [{ ask .read page 8 with len := 0, dflits := 0 }, { ask .chunk page 8 with op := .read, len := 0, dflits := 0 }, { ask .amo page 4 with amo := .maxu, op := .amo, a := 0xFFFFFFFF }],
      let s := sending p (unit [])
      s.asked 3 p ∧ s.lineHeld p.hopDst p = false ∧ p.dst ≠ mgmtEp ∧ (∀ n ∈ [4, 8], p.elems = [(page, n)] → s.homeCheck p.hopDst p false = .ok [(hbmCell 0 0, n)]) ∧ s.poisoned (hbmCell 0 0) 8 = false) ∧
    (∀ p ∈ [{ ask .write page 8 with op := .write, data := bytesLE 8 5 }, { ask .copyData page 8 with op := .write, data := bytesLE 8 5 },
        { ask .mcastData page 8 with op := .write, data := bytesLE 8 5 }, { ask .chunk page 8 with op := .write, data := bytesLE 8 5 },
        { ask .atomBatch page 8 with op := .amo, data := bytesLE 8 5 }],
      let s := sending p (unit [])
      s.asked 3 p ∧ s.lineHeld p.hopDst p = false ∧ p.dst ≠ mgmtEp ∧ s.homeCheck p.hopDst p false = .ok [(hbmCell 0 0, 8)] ∧ p.data.length = 8 ∧ p.poison = false ∧ p.sub ≠ 1) ∧
    (∀ ty ∈ [PType.read, .write, .amo, .copyData, .mcastData, .atomBatch, .chunk],
      let p := { ask ty page 8 with track := 6 }
      (sending p (unit [])).asked 3 p ∧ (sending p (unit [])).lineHeld p.hopDst p = false ∧ p.dst ≠ mgmtEp ∧
        (∀ r ∈ p.elems, r.1 / 4096 = p.va / 4096) ∧ (sending p (unit [])).homeCheck p.hopDst p false = .refuse 1) := by decide +kernel
/-- Three expected at hurdle 0xF8002FFFE0, the last of cluster 0's lower scratchpad, and an arrival, a withdrawal or a join of member 1 there. -/
def lastHurdle : Nat := 0xF8002FFFE0
def hurdleState : State := (unit []).store none lastHurdle (bytesLE 32 ({ half with exp := 3 } : Hurdle).bits.toNat)
def arrival (b : Dword) (master : Nat) : Pkt := { ask .arrive lastHurdle 0 with master := master, a := 1, b := b, c := 7 * 2 ^ 32 + 5 }
theorem test_witness_ArrivePackets :
    let h := hurdleState.hurdle lastHurdle
    h.exp = 3 ∧ h.gen = 7 ∧ (h.arrive 1 5).2 = false ∧ (h.withdraw 1).2 = false ∧ isHurdleCell lastHurdle = true ∧
    ∀ e ∈ [(0, 0), (1, 0), (2, 0), (0, 2), (0, 3)],
      let p := arrival e.1 e.2
      let s := sending p hurdleState
      s.asked 3 p ∧ (s.trackEntry p.hopDst p.track).isSome = true ∧ hurdlePcl p.va / 24 = p.hopDst ∧
        s.hurdleAdmits p.va p.track (arriveClass p.hopDst p) .amo = true ∧ p.c.extractLsb' 32 32 = 7 := by decide +kernel
/-- An answer with tag 7 to core 0. -/
def reply (ty : PType) (a : Dword) : Pkt := { ask ty page 8 with a := a, len := 0, dflits := 0, data := [0xFF] }
/-- The baton of slot 0 parked on w, with an owner of tag 7, and a ranked message kept for rank 9 whose entry at C-die 0 is e. -/
def awaiting (w : Wait) (o : Owner) (e : Dword) (p : Pkt) : State :=
  let s := sending p (unitWith [] fun t => { t with mode := .parked, wait := w, waitLen := 4 })
  let s := s.setNi 0 { s.ni 0 with rct := [(9, e)], rankSent := [{ ask .msg 0xF800000000 64 with ranked := true, dstRank := 9, data := bytesLE 64 1 }] }
  { s with owners := [(7, o)], swc := 2000 }
theorem test_witness_AnswersAtTheirIssuer :
    let r := 0xF800000000
    let settled : Dword := 2 ^ 62
    let moving : Dword := 2 ^ 63
    (∀ e ∈ [(Wait.load 7 5 8 true false, PType.readReply, (0 : Dword)), (.load 7 5 1 true false, .faultReply, 1), (.amo 7 5 4, .readReply, 0), (.sc 7 5, .readReply, 0),
        (.store 7, .writeAck, 0), (.msgSend 7 5 none, .msgAck, 0), (.msgSend 7 5 none, .msgAck, 1)],
      let p := reply e.2.1 e.2.2
      let s := awaiting e.1 (.baton r) settled p
      s.arrived 3 p ∧ kfind s.owners p.tag = some (.baton r) ∧ s.parkedAlone 0 r e.1) ∧
    (∀ ty ∈ [PType.writeAck, .faultReply], let p := reply ty 0
      let s := awaiting .none (.posted r) settled p
      s.arrived 3 p ∧ kfind s.owners p.tag = some (.posted r) ∧ s.findSlot r = some 0) ∧
    (let p := reply .msgMoved 0
     let s := awaiting (.msgSend 7 5 none) (.baton r) moving p
     s.arrived 3 p ∧ (s.ni 0).rankSent.all (fun q => q.tag == p.tag && q.attempt == p.b.toNat && !q.forwarded && rctState (s.rct 0 q.dstRank) == 2) = true ∧
       (s.ni 0).rankSent.length = 1 ∧ kfind s.owners p.tag = some (.baton r) ∧ s.parkedAlone 0 r (.msgSend 7 5 none)) ∧
    (let s := awaiting (.msgSend 7 5 (some 2000)) (.baton r) settled (reply .msgAck 0)
     let late := awaiting (.msgSend 7 5 (some 2001)) (.baton r) settled (reply .msgAck 0)
     s.parkedAlone 0 r (.msgSend 7 5 (some 2000)) ∧ kfind s.owners 7 = some (.baton r) ∧ 2000 ≤ s.swcAt (recPcl r / 24) ∧ (s.ni 0).rankSent.all (fun q => q.tag == 7 && epDie q.src == 0) = true ∧
       (s.ni 0).rankSent.length = 1 ∧ rctState settled = 1 ∧ s.foreign (rctPkg settled) = false ∧ isEp (niEp (rctDie settled)) = true ∧
       s.dieUp (rctDie settled) = true ∧ s.linkUp 0 (rctDie settled) = true ∧ late.parkedAlone 0 r (.msgSend 7 5 (some 2001)) ∧
       late.swcAt 0 < 2001) := by decide +kernel
/-- A message for cluster 0, of which a queue holds n, and other control packets. -/
def fullQueue (n : Nat) : State := { unit [] with clusters := [(0, Cluster.init.setMsgs 0 (List.replicate n { rank := 1, track := 5, data := [] }))] }
def msgPkt : Pkt := { ask .msg 0xF800000000 64 with data := bytesLE 64 1 }
def donePkt : Pkt := { ask .copyDone lastHurdle 0 with a := 1 }
def pausePkt (ty : PType) : Pkt := { ask ty 0 0 with hopDst := xDie, dst := relayEp, a := 4095 }
def ivlPkt : Pkt := { ask .ivl 0x10000200000 0 with a := 3, b := 5, c := 1, elems := [(4095, 0)] }
def updPkt (n : Dword) : Pkt := { ask .rctUpd 0 0 with a := n, b := 2 ^ 62, c := 4095 }
theorem test_witness_MessagesAndControlPackets :
    (∀ n ∈ [15, 16], let s := sending msgPkt (fullQueue n)
      s.asked 3 msgPkt ∧ (s.trackEntry msgPkt.hopDst msgPkt.track).isSome = true ∧ s.waiting.isEmpty = true ∧
        ((s.cluster (hurdlePcl msgPkt.va)).msgQueue 0).length = n) ∧
    (sending donePkt (unit [])).asked 3 donePkt := by decide +kernel
theorem test_witness_PauseAndResume :
    ∀ ty ∈ [PType.pause, .resume], let s := sending (pausePkt ty) (unit [])
      s.arrived 3 (pausePkt ty) ∧ s.canAnswer (pausePkt ty) ∧ s.relayUp = true := by decide +kernel
theorem test_witness_IvlPacket :
    (sending ivlPkt (unit [])).arrived 3 ivlPkt ∧ isCDie ivlPkt.hopDst = true ∧ ivlNumber ivlPkt % 4096 = 4095 := by decide +kernel
theorem test_witness_RctUpdPacket :
    (∀ k ∈ [0, 1, 2], let n := BitVec.ofNat 64 k; let s := sending (updPkt n) (unit [])
      s.arrived 3 (updPkt n) ∧ (s.ni 0).rankHold = [] ∧ s.waiting.isEmpty = true ∧ kfind s.owners (updPkt n).tag = none) ∧
    (let u := awaiting (.rct 7 [0]) (.baton 0xF800000000) 0 (updPkt 0)
     u.arrived 3 (updPkt 0) ∧ kfind u.owners (updPkt 0).tag = some (.baton 0xF800000000) ∧ u.parkedAlone 0 0xF800000000 (.rct 7 [0]) ∧
     u.waiting = [(0xF800000000, .rct 7 [0])] ∧ (u.findSlot 0xF800000000).isSome = true ∧ u.gangOf 0xF800000000 = none) := by decide +kernel
/-- Link 1 to 2 with every slot in use and one flit too many returned on link 2 to 1's opposite, eight failed replays, and its synchronization under way. -/
def wornLink : State :=
  let v (n : Nat) : Vector (BitVec 16) 4 := Vector.replicate 4 (BitVec.ofNat 16 n)
  (unit []).setLink 1 2 { Link.init with sent := v 65, fails := 8, marker := Vector.replicate 4 (some 64), reply := Vector.replicate 4 (some (3, 1)) }
theorem test_witness_LinkEvents :
    let s := unit []
    let t := wornLink
    let down := s.setLink 1 2 { Link.init with up := false }
    let owes := s.setLink 1 2 { Link.init with up := false, owed := [{ updPkt 0 with src := niEp 1, dst := niEp 2 }] }
    isDie 1 = true ∧ isDie 2 = true ∧ s.linkUp 1 2 = true ∧ t.linkUp 1 2 = true ∧ (vcGet (s.link 2 1).sent 0 - 0#16).toNat ≤ 64 ∧
      64 < (vcGet (t.link 1 2).sent 3 - 0#16).toNat ∧ (s.link 1 2).fails < 8 ∧ 8 ≤ (t.link 1 2).fails ∧ vcGet (t.link 1 2).marker 3 = some 64 ∧
      (64#16 - vcGet (t.link 1 2).recvFreed 3).toNat ≤ 64 ∧ vcGet (t.link 1 2).reply 3 = some (3, 1) ∧ down.linkUp 1 2 = false ∧ down.dieUp 1 = true ∧
      down.dieUp 2 = true ∧ (down.link 1 2).owed = [] ∧ (down.link 2 1).owed = [] ∧ (s.link 1 2).nextVc = 0 ∧ owes.linkUp 1 2 = false ∧
      owes.dieUp 1 = true ∧ owes.dieUp 2 = true ∧ (owes.link 1 2).owed.length = 1 ∧ epDie (niEp 1) = 1 ∧ epDie (niEp 2) = 2 ∧ isEp (niEp 2) = true := by decide +kernel
/-- Every plane up, the package named 7 by its fabric, at SWC 70,000. -/
def fabricState (g : Gateway) (p : Pkt) : State :=
  let s := sending p (unit [])
  { s with pkg := { s.pkg with fabric := 7 }, gateway := g, swc := 70000 }
def outPkt : Pkt := { ask .write page 8 with data := bytesLE 8 1, dstPkg := 3, hopDst := xDie }
def outPkt1 : Pkt := { outPkt with seq := 1 }
def bigPkt : Pkt := { outPkt with dflits := 65535 }
def inPkt (n : Nat) : Pkt := { ask .write page 8 with data := bytesLE 8 1, srcPkg := 3, seq := n }
def fencePkt : Pkt := { inPkt 4 with cls := .fence }
def syncPkt : Pkt := { ask .swcSync 0 0 with a := 90 }
def ackPkt : Pkt := { ask .e2eAck 0 0 with a := 5, srcPkg := 3 }
def storing (p : Pkt) (at' : Nat) : State := fabricState { Gateway.init with out := [(3, { nextSeq := 2, replay := [(p, 2, at')] })] } outPkt
def coming (n k at' : Nat) (p : Pkt) : State :=
  fabricState { Gateway.init with arrivals := [(0, (7, p))], inn := [(3, { below := n, above := [], sinceAck := k, ackAt := at' })] } outPkt
theorem test_witness_GatewayOutbound :
    let s := fabricState Gateway.init outPkt
    isDie 17 = true ∧ s.dieUp 17 = true ∧ s.linkUp bDie 17 = true ∧ (sending syncPkt s).arrived 3 syncPkt ∧ (s.ni 4).swcAdjust = 0 ∧
      ((s.setNi 4 { s.ni 4 with swcAdjust := -1 }).ni 4).swcAdjust ≠ 0 ∧ 1 ≤ (s.swc : Int) + (s.ni 4).swcOffset ∧
      (∀ x ∈ s.nis, x.2.swcPending = 0) ∧ (s.ni 4).swcPending = 0 ∧ ({ s with swc := 71680 } : State).swc % 1024 = 0 ∧ s.canDeliver 3 = some outPkt ∧
      s.foreign outPkt.dstPkg = true ∧ outPkt.malformed = false ∧ s.planesUp ≠ [] ∧ s.readyBit 52 = true ∧ s.gateway.full = false ∧
      (storing bigPkt 0).gateway.full = true ∧ ((storing outPkt1 4464).gateway.outStream 3).replay = [(outPkt1, 2, 4464)] ∧ outPkt1.seq = 1 ∧
      4464 + 65536 ≤ s.swcAt xDie ∧ s.gateway.lastFlit.toList.getD 7 0 + 4096 ≤ s.swcAt xDie ∧
      ({ s with swc := 4095 } : State).swcAt xDie < s.gateway.lastFlit.toList.getD 7 0 + 4096 := by decide +kernel
theorem test_witness_GatewayInbound :
    let s := coming 3 0 70000 (inPkt 4)
    (inPkt 3).malformed = false ∧ (inPkt 3).ty.isRequest = true ∧ addrClass (inPkt 3).va = .global ∧ s.homeOf xDie (inPkt 3).track (inPkt 3).va = .die 0 ∧
      isEp (niEp 0) = true ∧ s.dieUp 0 = true ∧ s.linkUp xDie 0 = true ∧ kfind s.gateway.arrivals 0 = some (7, inPkt 4) ∧ s.gateway.reorder = [] ∧
      (s.gateway.inStream 3 70000).delivered 3 = true ∧ (s.gateway.inStream 3 70000).delivered 4 = false ∧
      (s.gateway.inStream 3 70000).ready (inPkt 4) = true ∧
      ((coming 0 0 70000 fencePkt).gateway.inStream 3 70000).ready fencePkt = false ∧ ackPkt.malformed = false ∧
      kfind (coming 4 64 70000 ackPkt).gateway.arrivals 0 = some (7, ackPkt) ∧
      kfind (coming 4 64 70000 ackPkt).gateway.inn 3 = some { below := 4, above := [], sinceAck := 64, ackAt := 70000 } ∧ 68976 + 1024 ≤ s.swcAt xDie ∧
      s.swcAt xDie < 68977 + 1024 := by decide +kernel
/-! ## Translations and their logs -/

/-- A page-table entry of the 2 MiB page at `page` under track 5, in a state, at 0x200000 of the HBM (R55). -/
def pageWord (state : Nat) : BitVec 256 := BitVec.ofNat 256 (5 * 2 ^ 196 + 2 * 2 ^ 194 + state * 2 ^ 192 + 0x200 * 2 ^ 148 + page / 4096 * 2 ^ 212 + 15 * 2 ^ 108)
def pageCell : Nat := hbmCell 0 (hashedBucket 5 page 2 10 * 128)
def pageHit : TcEntry := { track := 5, base := page, log2 := 21, far := false, fmod := 0, phys := 0x200000, ati := 0, perm := 15, dirty := true }
/-- C-dies 0 and 1 and F-die 17 with that entry in die 0's tables, nothing cached, and a move of the page. -/
def pagedState (state : Nat) (n : Ni → Ni) : State :=
  let s := (unit []).store none pageCell (bytesLE 32 (pageWord state).toNat)
  let s := s.setNi 0 (n { openNi with tcache := [] })
  (s.setNi 1 openNi).setNi 17 openNi
def aWalk : Walk := { id := 1, pkt := ask .read page 8, started := 0 }
def someEnt : BitVec 128 := 0x0005800000000000#64 ++ 0#64 ||| (BitVec.ofNat 128 (10 * 2 ^ 104))
theorem test_witness_WalkDone :
    let s := pagedState 1 fun n => { n with walks := [aWalk] }
    ((unit []).ni 0).walks = [] ∧ (s.ni 0).walks = [aWalk] ∧ s.trackEntry 0 5 = some someEnt ∧ addrClass page = .global ∧ s.walk 0 5 someEnt page false = .present pageHit ∧
      s.readyBit 12 = true ∧ s.canAnswer aWalk.pkt ∧ (s.ni 0).behind = [] ∧ s.homeCheck 0 aWalk.pkt true = .ok [(hbmCell 0 0x200000, 8)] ∧
      s.poisoned (hbmCell 0 0x200000) 8 = false := by decide +kernel
def heldRec : FaultRec := { FaultRec.free with held := some (ask .read page 8), time := 5 }
theorem test_witness_FaultRecords :
    let s := { pagedState 0 (fun n => { n with fq := [(255, heldRec)] }) with swc := 1048581 }
    kget FaultRec.free (s.ni 0).fq 255 = heldRec ∧ (s.ni 0).behind = [] ∧ heldRec.action = 0 ∧ (ask .read page 8).ranked = false ∧ s.canAnswer (ask .read page 8) ∧ (kget FaultRec.free (s.ni 0).fq 0).held = none ∧
      heldRec.time.toNat + 1048576 ≤ s.swcAt 0 ∧ ({ s with swc := 1048580 } : State).swcAt 0 < heldRec.time.toNat + 1048576 := by decide +kernel
theorem test_witness_LogEvents :
    let s := { pagedState 1 (fun n => { n with log := { n.log with appended := 4, consumed := 3, pending := [(9, 4)] } }) with swc := 65540 }
    let w := { unitWith [] (fun t => { t with mode := .parked, wait := .ivlSync 9 }) with swc := 65539 }
    (unit []).appendedIvl 0 = [] ∧ s.appendedIvl 0 = [(9, 4)] ∧ 4 + 65536 ≤ s.swcAt 0 ∧ w.swcAt 0 < 4 + 65536 ∧ w.waiting.length = 1 ∧
      (w.waiting.map Prod.fst) = [0xF800000000] ∧ w.parkedAlone 0 0xF800000000 (.ivlSync 9) ∧
      allDies.all (fun d => (w.ni d).log.covers 9) = true := by decide +kernel
def tier : Move :=
  { id := 6, home := false, vault := 16, oldDie := 0, newDie := 0, track := 5, va := page, log2 := 21, oldPlace := 0, oldPhys := 0x200000, newPlace := 16, newPhys := 0 }
def movingState : State := let s := pagedState 2 id; { s with pkg := { s.pkg with moves := [tier] } }
theorem test_witness_Moves :
    let s := pagedState 1 id
    s.pageEntry 0 5 page = some (.hashed pageCell (pageWord 1), .present pageHit) ∧ s.dieUp 0 = true ∧ pageHit.base + 2 ^ pageHit.log2 < 2 ^ 64 ∧
      farSize % 2 ^ 12 = 0 ∧ (0 % 2 ^ 21 = 0 ∧ 0 + 2 ^ 21 ≤ hbmSize) ∧ s.placeUp 0 0 = true ∧ s.placeUp 16 0 = true ∧ s.placeUp 0 1 = true ∧
      s.vaultAdmits 0 0 pageHit.ati 5 .read = true ∧ s.vaultAdmits 0 1 pageHit.ati 5 .write = true ∧ s.vaultAdmits 16 0 pageHit.ati 5 .write = true ∧
      s.readyBit 53 = true ∧ s.readyBit 54 = true ∧ s.dieUp 16 = true ∧ s.dieUp 17 = true ∧
      (s.newSlot 1 5 page (.hashed pageCell (pageWord 1))).isSome = true ∧
      (movingState.pkg.moves.find? fun x => x.id == 6 && x.oldDie == 0) = some tier ∧
      (movingState.pageEntry 0 5 page).map Prod.fst = some (.hashed pageCell (pageWord 2)) ∧ movingState.placeUp 0 0 = true ∧ movingState.placeUp 16 0 = true ∧
      (movingState.ni 0).migrating = [] ∧ (movingState.ni 0).behind = [] ∧ Memory.wf movingState.mem := by decide +kernel
theorem test_witness_Trkload :
    let s := unit []
    s.pkg.trkstat.getLsbD 0 = false ∧ ({ s.pkg with trkstat := 1 } : Pkg).trkstat.getLsbD 0 = true ∧ isDie 0 = true ∧ s.dieUp 0 = true := by decide +kernel
/-! ## Launches, checkpoints, boot and banks -/

/-- Launch 3 running, with a PRESTAT and a checkpoint state, and no slot in use. -/
def preState (busy : Bool) (ck result : Nat) (pre : Bool) : State :=
  let s := { unit [] with slots := [], starter := { Starter.init with launches := [(3, { aLaunch with preempted := pre })], prestat := if busy then 16 else 0, preResult := result } }
  s.setCk ck 0
theorem test_witness_PreemptionRequests :
    let free := preState false 0 0 false
    let busy := preState true 2 15 true
    free.starter.prestat.toNat / 16 % 16 ≠ 1 ∧ busy.starter.prestat.toNat / 16 % 16 = 1 ∧ free.ckState = 0 ∧ busy.ckState = 2 ∧ free.preTarget 9 = none ∧
      free.preTarget 3 = some { aLaunch with preempted := false } ∧ busy.preTarget 3 = some { aLaunch with preempted := true } ∧ free.slots = [] ∧
      free.gangs = [] ∧ free.aways = [] ∧ free.relay.runs = [] ∧ busy.starter.preResult ≠ 0 ∧ free.starter.preResume = false ∧ busy.starter.preResult < 16 ∧ free.starter.preResult = 0 ∧
      (2 ^ 62 + 3) / 2 ^ 62 = 1 ∧ (2 * 2 ^ 62 + 3) / 2 ^ 62 = 2 := by decide +kernel
theorem test_witness_CheckpointRequests :
    let s := preState false 0 0 false
    let high (n : Nat) : Dword := BitVec.ofNat 64 n
    let fits := fun (v : Dword) => ({ s with pkg := { s.pkg with ckctl := v.extractLsb' 30 34 ++ 0#27 ++ BitVec.ofBool (v.getLsbD 2) ++ 0#2 } } : State).ckFits
    fits (high 1) = true ∧ fits (high (2 ^ 64 - 1)) = false ∧ (high 1).getLsbD 0 = true ∧ (high 1).getLsbD 3 = false ∧ (high 2).getLsbD 1 = true ∧
      (high 8).getLsbD 3 = true ∧ s.pkg.sinceReset = true ∧ (preState false 1 0 false).ckState = 1 ∧ (preState false 2 0 false).ckState = 2 ∧
      (preState false 3 0 false).ckState = 3 ∧ (preState false 6 0 false).ckState = 6 ∧ s.copiesDone = true ∧ s.pkg.resetHeld = false ∧
      (preState false 6 0 false).restoreFails = some 4 := by decide +kernel
/-- Fetching the boot image from address 9 at SWC 16,000,000,000. -/
def booting (step : BootStep) (sentAt : Nat) (wait : Option Nat) (image : List Byte) : State :=
  { unit [] with swc := 16000000000, boot := { State.reset.boot with step := step, server := 9, sentAt := sentAt, waitUntil := wait, image := image, blocks := 0 } }
/-- A TFTP DATA frame from address 9: block 1 with n bytes. -/
def tftpFrame (n : Nat) : List Byte :=
  List.replicate 12 0 ++ [0x86, 0xDD, 0x60, 0, 0, 0, BitVec.ofNat 8 ((12 + n) / 256), BitVec.ofNat 8 (12 + n), 17, 0] ++ List.replicate 15 0 ++ [9] ++ List.replicate 24 0 ++
    [0, 3, 0, 1] ++ List.replicate n 0xAA
/-- The boot image stays in C-die 0's HBM. -/
theorem test_witness_BootBase (n : Nat) (h : n ≤ 2 ^ 33) : Config.bootBase.toNat + n + 1408 ≤ hbmSize := by
  have := Config.bootBase.isLt
  unfold hbmSize
  omega
theorem test_witness_BootFrames :
    (∀ n ∈ [0, 1407, 1408], (ipv6Payload (tftpFrame n) 17).isSome = true ∧ (match ipv6Payload (tftpFrame n) 17 with
      | some (src, udp) => src == 9 && netField (udp.drop 8) 0 2 == 3 && netField (udp.drop 8) 2 2 == 1 && (udp.drop 12).length == n
      | none => false) = true) ∧
    (booting .fetch 0 none []).boot.waitUntil = none ∧ (booting .fetch 0 none []).boot.server = 9 ∧
    14400000000 + 1600000000 ≤ (booting .fetch 14400000000 none []).swcAt bDie ∧ (booting .fetch 14400000001 none []).swcAt bDie < 14400000001 + 1600000000 ∧
    (booting .rejected 0 (some 16000000000) []).boot.waitUntil = some 16000000000 ∧ 16000000000 ≤ (booting .rejected 0 none []).swcAt bDie ∧
    (booting .rejected 0 none []).swcAt bDie < 16000000001 ∧ natLE (List.take 4 (booting .verify 0 none [1]).boot.image) ≠ 0x4D494A4E := by decide +kernel
def hostState (v : Dword) : State := { unit [] with pkg := { (unit []).pkg with lnctl := v } }
theorem test_witness_HostAccesses :
    let s := hostState (BitVec.ofNat 64 (5 * 2 ^ 48 + 16 * 2 ^ 28 + 1))
    let c := s.pkg.lnctl
    let va := c.toNat / 2 ^ 28 % 2 ^ 20 * 2 ^ 36 + 0x200038
    let dest := s.routeTo xDie (c.extractLsb' 48 16) va
    s.readyBit 55 = true ∧ State.reset.readyBit 55 = false ∧ s.dieUp xDie = true ∧ c.getLsbD 0 = true ∧ (hostState 0).pkg.lnctl.getLsbD 0 = false ∧
      addrClass va = .global ∧ va % 64 + 8 ≤ 64 ∧ dest.2 = 0 ∧ isEp dest.1 = true ∧ s.dieUp (epDie dest.1) = true ∧ s.linkUp xDie (epDie dest.1) = true := by decide +kernel
theorem test_witness_Banks :
    let s := unit []
    let off := s.setPower 11 { Power.init with off := [(7, 63)] }
    let waking := { s.setPower 11 { Power.init with waking := [(1, 23, 3200)] } with swc := 3200 }
    isBank 12 0 0 = false ∧ isBank 11 7 63 = true ∧ isBank 11 1 23 = true ∧ isBank 11 0 60 = false ∧ s.bankOff (11, 7, 63) = false ∧ off.bankOff (11, 7, 63) = true ∧
      off.bankWaking (11, 7, 63) = false ∧ (s.power 11).gateHeld = [] ∧ (waking.power 11).waking = [(1, 23, 3200)] ∧ (waking.power 11).gateHeld = [] ∧ (waking.power 11).late = [] ∧
      3200 ≤ waking.swcAt 11 ∧ ({ waking with swc := 3199 } : State).swcAt 11 < 3200 := by decide +kernel
/-- A correct record of a PROGRAM launch under track 5 with this claim, place and deadline. -/
def aRecord (claim place wtime : Nat) : BitVec 512 := BitVec.ofNat 512 (page + claim * 2 ^ 128 + 5 * 2 ^ 208 + place * 2 ^ 224 + wtime * 2 ^ 320)
def queued (claim place wtime : Nat) : Launch := { aLaunch with record := aRecord claim place wtime, state := .queued, remainder := 0, placed := none }
def placing (place since : Nat) : Launch := { queued 4 place 0 with state := .placing since }
/-- The Starter with launch 3 in a queue. -/
def startState (l : Launch) (adm pla : List Nat) (at' : Option Nat) : State :=
  { unit [] with swc := 1048576, starter := { Starter.init with launches := [(3, l)], admission := adm, placement := pla, placedAt := at', reservoir := 4 * 1600000, resources := [(287, (unit []).resourceWord 287)] } }
theorem test_witness_Intake :
    let s := startState (queued 4 0xFFFF 0) [3] [] none
    let host := { s with owners := [(9, .host false)] }
    let full := { host with starter := { s.starter with intake := List.replicate 256 { record := 0, after := [9], baton := none, forbidden := false, slot := none } } }
    s.readyBit 55 = true ∧ s.starterUp = true ∧ s.starter.intake = [] ∧ s.hostPosted = [] ∧ host.hostPosted = [9] ∧ full.starter.intake.length = 256 ∧
      [9].any full.hostPosted.contains = true ∧ State.reset.starterUp = false ∧ recordBroken (aRecord 0 288 0) = true ∧ recFrame (aRecord 0 288 0) = 0 ∧
      s.recordBad (aRecord 65537 287 0) = false ∧ s.stamCap < recClaim (aRecord 65537 287 0) ∧ s.recordBad (aRecord 65536 287 0) = false ∧
      recClaim (aRecord 65536 287 0) ≤ s.stamCap := by decide +kernel
theorem test_witness_Admission :
    let s := startState (queued 4 0xFFFF 1048576) [3] [] none
    let big := startState (queued 5 0xFFFF 1048575) [3] [] none
    s.starterUp = true ∧ s.starter.stopped = false ∧ s.starter.admission = [3] ∧ s.launchOf 3 = some (queued 4 0xFFFF 1048576) ∧
      recKind (aRecord 4 0xFFFF 1048576) = 0 ∧ recFrame (aRecord 5 0xFFFF 1048575) = 0 ∧ big.available < recClaim (aRecord 5 0xFFFF 1048575) ∧
      (recClaim (aRecord 4 0xFFFF 1048576) : Int) ≤ s.available ∧ s.swcAt bDie ≤ recWtime (aRecord 4 0xFFFF 1048576) ∧
      recWtime (aRecord 5 0xFFFF 1048575) ≠ 0 ∧ recWtime (aRecord 5 0xFFFF 1048575) < big.swcAt bDie := by decide +kernel
theorem test_witness_Placement :
    let s := startState (placing 287 0) [] [3] none
    let any := startState (placing 0xFFFF 0) [] [3] (some 1048561)
    s.starter.placement = [3] ∧ s.launchOf 3 = some (placing 287 0) ∧ s.pickCluster (placing 287 0) = some 287 ∧ (s.cluster 287).carves = [] ∧
      ((s.cluster 287).ready.toList.flatten).isEmpty = true ∧ recSpill (aRecord 4 287 0) ≤ 3071 ∧ s.starter.placedAt = none ∧ any.starter.placedAt = some 1048561 ∧
      any.swcAt bDie < 1048561 + 16 ∧ bankOf (spadCell 287 0) = some (11, 1, 23) ∧ s.bankUp (11, 1, 23) = true ∧ (s.power 11).waiters = [] ∧ (s.gateNow 11 1 23).bankUp (11, 1, 23) = false ∧
      (s.gateNow 11 1 23).pickCluster (placing 287 0) = some 287 ∧ recPlace (aRecord 4 0xFFFF 0) = 0xFFFF ∧ 0 + 1048576 ≤ any.swcAt bDie ∧ any.swcAt bDie < 1 + 1048576 := by decide +kernel
theorem test_witness_ReportsAndEnergy :
    let s := startState aLaunch [] [] none
    let two := { s with starter := { s.starter with launches := [(3, aLaunch), (4, aLaunch)], slotCycles := [(3 * 32 + 11, 5), (4 * 32 + 11, 7)] } }
    let report := { ask .write (0x2000 + 8 * 287) 8 with data := bytesLE 8 (2 ^ 48), dst := mgmtEp, hopDst := bDie, src := niEp 11, track := 0, master := 1 }
    s.dieUp (287 / 24) = true ∧ s.dieUp bDie = true ∧ s.linkUp 11 bDie = true ∧ s.starter.placement = [] ∧ (s.cluster 287).rseq = 0 ∧ State.reset.dieUp 11 = false ∧
      two.launchOf 3 = some aLaunch ∧ two.launchOf 4 = some aLaunch ∧ aLaunch.state = .running ∧ two.starter.slotCycles = [(3 * 32 + 11, 5), (4 * 32 + 11, 7)] ∧
      (sending report s).asked 3 report ∧ report.data.length = 8 ∧ s.ataperAdmits bDie 0 report.track (report.classAt bDie) .write = true ∧ (sending report s).dieUp (287 / 24) = true := by decide +kernel
/-- A graph image of one node that launches a program, and a definition of graph 9 that has its bytes. -/
def graphImage : List Byte := bytesLE 64 (1 + 5 * 2 ^ 16) ++ bytesLE 64 ((aRecord 4 0xFFFF 0).toNat) ++ bytesLE 32 0
def graphCopy (l : List Byte) (body : Bool) : GraphCopy :=
  { gnum := 9, addr := page, track := 5, parts := [], got := [(0, l.take 64), (64, l.drop 64)], failed := false, body := body }
def graphState (n : Nat) (g : GraphCopy) : State :=
  let s := startState aLaunch [] [] none
  let v : GraphVer := { gnum := 8, version := 1, current := false, single := false, track := 5, nodes := [], succ := [] }
  { s with starter := { s.starter with copying := some g, graphs := List.replicate n v } }
theorem test_witness_GraphDefinitions :
    let made := fun (g : GraphCopy) => graphOf 9 1 5 (BitVec.ofNat 512 (natLE (g.bytes.take 64))) ((g.bytes.drop 64).take 96)
    let s := graphState 127 (graphCopy graphImage true)
    (made (graphCopy graphImage true)).isSome = true ∧ (made (graphCopy [] true)).isNone = true ∧ s.starter.graphs.length < 128 ∧
      128 ≤ (graphState 128 (graphCopy graphImage true)).starter.graphs.length ∧ (s.starter.current 9).isNone = true ∧ ((1#64 <<< 4).getLsbD 4) = true ∧
      (unit []).grBusy = false ∧ ((BitVec.ofNat 512 (natLE ((graphCopy graphImage false).bytes.take 64))).extractLsb' 0 9).toNat = 1 ∧
      (∀ i < (96 * 1 + 63) / 64, addrClass (page + 64 + 64 * i) = .global) ∧ addrClass page = .global ∧ addrClass 0x40 ≠ .global ∧
      (let dest := (unit []).routeTo bDie 5 page
       dest.2 = 0 ∧ isEp dest.1 = true ∧ (unit []).dieUp (epDie dest.1) = true ∧ (unit []).linkUp bDie (epDie dest.1) = true) := by decide +kernel
/-! ## Schedulers, engines, and the Relay's events -/

def ready : Ready := { record := 0xF800000040, order := 1, launch := 0 }
def readyState (slots : KMap Slot) (rs : List Ready) : State :=
  let s := ({ unit [] with slots := slots, clusters := [(0, { Cluster.init with ready := Vector.ofFn fun i => if i.val = 1 then rs else [] })] }).setCarve 0 0 { Carve.none with base := 0x420000, low := 0x420000, fin := 0x430000, high := 0x430000 }
  s.store none 0xF800000058 (bytesLE 8 (0xFE * 2 ^ 56 + 5 * 2 ^ 16))
theorem test_witness_Dispatch :
    let s := readyState [] [ready]
    (unit []).nextReady 0 = none ∧ s.pickCore 0 = some 0 ∧ s.nextReady 0 = some (1, ready) ∧ (s.cluster 0).queue 1 = [ready] ∧ recPcl ready.record = 0 ∧
      s.dieUp 0 = true ∧ s.recRead ready.record 8 = 0 ∧ bankOf (spadCell 0 0) = some (0, 1, 0) ∧ s.bankUp (0, 1, 0) = true ∧ (s.power 0).waiters = [] ∧ kfind (s.cluster 0).asks ready.record = none ∧ ctrlReserved (s.recRead ready.record 0x18) = false ∧ s.swc / 1024 ≤ s.pkg.aged ∧
      ({ s with swc := 1024 } : State).pkg.aged < ({ s with swc := 1024 } : State).swc / 1024 ∧
      (s.clusters.flatMap fun c => c.2.ready.toList.flatten) = [ready] := by decide +kernel
/-- Every slot of cluster 0 holds a baton, of which the last of its last core waits for a time. -/
def lastCore : Nat := coreOf 0 15
def lastKey : Nat := slotKey lastCore 3
def crowded (w : Slot → Slot) : State :=
  readyState ((List.range 64).map fun i => let k := slotKey (coreOf 0 (i / 4)) (i % 4)
    (k, if k = lastKey then w { runner [] with xbaton := 0x400100 } else { runner [] with xbaton := 0x410000 })) [ready]
def sleeper (w : Wait) (at' : Dword) (t : Slot) : Slot := { t with mode := .parked, wait := w, wtime := at', waitLen := 4 }
theorem test_witness_Eviction :
    let s := crowded (sleeper (.time 5) 9999)
    s.pickCore 0 = none ∧ s.evictNeeded (cidPcl lastCore) = true ∧ (unit []).evictNeeded 0 = false ∧ s.victim (cidPcl lastCore) = some lastKey ∧ (unit []).victim 0 ≠ some 0 ∧
      (s.core (keyCid lastKey)).owner ≠ some (keySlot lastKey) ∧ s.canSave lastKey = true ∧ (s.saveFrame lastKey 0).isSome = true ∧
      bankOf (spadCell (keyPcl lastKey) 0) = some (0, 1, 0) ∧ s.bankUp (0, 1, 0) = true ∧ (s.power (keyDie lastKey)).waiters = [] ∧ kfind (s.cluster 0).asks 0xF800000100 = none ∧
      (match s.allocFrame (keyPcl lastKey) (s.slotAt lastKey).launch (s.slotAt lastKey).track false with
       | some (a, _) => (s.frameBar 0 (s.slotAt lastKey).track .write a (frameBytes false)).isNone
       | none => false) = true := by decide +kernel
theorem test_witness_ParkedForTime :
    let s := crowded (sleeper (.time 5) 9999)
    s.parkedAlone lastKey 0xF800000100 (.time 5) := by decide +kernel
theorem test_witness_Deadlines :
    (∀ w ∈ [Wait.wake 5 3, .time 5, .gang 5 2 0 false], ∀ k ∈ [0, 7, 8], let s := { unitWith [] (sleeper w (BitVec.ofNat 64 k)) with swc := 7 }
      s.parkedAlone 0 0xF800000000 w ∧ s.swcAt (recPcl 0xF800000000 / 24) = 7 ∧ s.swcAt (cidDie 0) = 7 ∧ s.anyGangOf 0xF800000000 = none) ∧
    (let s := unitWith [] fun t => { t with deferred := [⟨31, 5, 0, true, false, none⟩] }
     (s.slotAt 0).mode = .running ∧ s.gangOf (slotRecord 0 (s.slotAt 0)) = none ∧ (s.slotAt 0).disband = none ∧
       (s.slotAt 0).deferred = [⟨31, 5, 0, true, false, none⟩] ∧
       (s.slotAt 0).busy = false ∧ (s.slotAt 0).csr.xutvec ≠ 0 ∧ (s.slotAt 1).mode ≠ .running ∧ (s.slotAt 1).mode ≠ .parked) := by decide +kernel
theorem test_witness_FaultsWhileBusy :
    ∀ sync ∈ [false, true],
      let s := unitWith [] fun t => { t with deferred := [⟨28, 5, 1, false, sync, none⟩], csr := { t.csr with xucause := 2 ^ 62 } }
      (s.slotAt 0).mode = .running ∧ s.gangOf (slotRecord 0 (s.slotAt 0)) = none ∧ (s.slotAt 0).disband = none ∧
        (s.slotAt 0).deferred = [⟨28, 5, 1, false, sync, none⟩] ∧ (s.slotAt 0).busy = true := by decide +kernel
def promised (e : List CpEntry) : State :=
  { unitWith [] (sleeper (.promise 64) 0) with swc := 100, clusters := [(0, { Cluster.init with engine := e.map fun x => (0, x) })] }
theorem test_witness_Promises :
    (promised []).parkedAlone 0 0xF800000000 (.promise 64) ∧ (promised []).waiting.length = 1 ∧ recPcl 0xF800000000 = cidPcl 0 ∧
      (promised []).tracked (cidPcl 0) 64 = none ∧ (promised [aCopy 64 99]).tracked (cidPcl 0) 64 = some (aCopy 64 99) ∧ parkedPromise (aCopy 64 99) 100 = .missed ∧
      (promised [aCopy 64 100]).tracked (cidPcl 0) 64 = some (aCopy 64 100) ∧ parkedPromise (aCopy 64 100) 100 = .wait := by decide +kernel
def vectorHead : DqEntry := DqEntry.new 0 (.vector 1 4 [] 0)
theorem test_witness_Pacer :
    let s := { unit [] with cores := [(quadCid 3 3, { Core.init with dq := [vectorHead] })] }
    (s.quad 3).lanes.queue < 4 ∧ (s.quad 3).matrix.queue < 4 ∧ (List.range 3).all (fun j => (s.core (quadCid 3 j)).dq == []) = true ∧
      (s.core (quadCid 3 3)).dq = [vectorHead] ∧ vectorHead.kind = .vector 1 4 [] 0 ∧ (List.range 16).all (fun j => (s.slotAt (slotKey (quadCid 3 (j / 4)) (j % 4))).replay == []) = true ∧ vectorHead.bound = false ∧ vcGet (s.quad 3).laneBusy 3 ≤ s.swcAt (3 / 4 / 24) := by decide +kernel
def movedCopy : CpEntry := { aCopy 64 100 with begun := [0] }
def endedCopy : CpEntry := { aCopy 64 100 with complete := true, completeAt := 5 }
def copying (e : CpEntry) (swc : Nat) : State := { unit [] with swc := swc, clusters := [(0, { Cluster.init with engine := [(0, e)] })] }
theorem test_witness_CopyCompletes :
    movedCopy.complete = false ∧ movedCopy.arriving = false ∧ piecesEnded movedCopy = true ∧ movedCopy.kind ≠ .mcast ∧ movedCopy.hurdle = none ∧ movedCopy.dropped = false ∧
      (copying movedCopy 9).waiting.isEmpty = true ∧ (copying movedCopy 9).findSlot movedCopy.baton = some 0 ∧
      kfind ((copying endedCopy 65541).cluster 0).engine 0 = some endedCopy ∧ endedCopy.completeAt + 65536 ≤ (copying endedCopy 65541).swcAt 0 ∧
      (copying endedCopy 65540).swcAt 0 < endedCopy.completeAt + 65536 := by decide +kernel
def aFeed : CpEntry := { aCopy 64 100 with kind := .feed, g0 := 64 * 2 ^ 32, g1 := 0x100, g2 := 64 }
theorem test_witness_Feeds :
    let s := copying aFeed 9
    ((unit []).feedsTo (cidPcl 0) 0 true).isEmpty = true ∧ (s.feedsTo (cidPcl 0) 0 false).length = 1 ∧ feedOver aFeed = false ∧ aFeed.cancelled = false ∧
      ((s.core 0).port false).panels.length < 8 ∧ aFeed.arriving = false ∧ aFeed.gathering = false ∧ aFeed.flight = [] ∧ (s.power 0).waiters = [] ∧
      (match s.assemble (cidPcl 0) 0 aFeed (feedDelivered aFeed) with | .ok _ => true | _ => false) = true := by decide +kernel
def aRequest (h : Dword) : CycReq := { record := 0xF800000000, tag := 7, handle := h, track := 5, res := none, value := 9 }
theorem test_witness_CycleRequests :
    let s := { cycleState [(0, aCycle .opened)] with cyc := { CycCtl.init with recs := [(0, aCycle .opened)], queue := [aRequest (2 ^ 32)] } }
    (s.cycNamed (2 ^ 32) 5).isSome = true ∧ ((aCycle .opened).apply (aRequest (2 ^ 32))).isSome = true ∧ s.waiting.isEmpty = true ∧
      s.cycNamed (2 ^ 33) 5 = none ∧ s.findSlot (aRequest 0).record = some 0 ∧
      kfind ({ s with owners := [(7, .posted 0xF800000000)] } : State).owners (aRequest 0).tag = some (.posted 0xF800000000) := by decide +kernel
/-- A run of one member, rank 3, with one node. -/
def aMember : RunMember := { rank := 3, launch := 0, joined := true, bases := [BitVec.ofNat 64 (page + 0xFC0)], gens := [], withdrawn := false }
def nopNode (phase : NodePhase) : RunNode := { RunNode.make .nop 0 0 0 0 0 0 [] none with phase := phase }
def loadNode : RunNode := RunNode.make .load 0 0 0 0 128 0 [] none
def runOf (n : RunNode) : Run :=
  { slot := 0, number := 1, group := 2, gen := 1, track := 5, hdr := { planHdr [] with kind := 0 }, members := [aMember], nodes := [n, nopNode .idle], buf := [], loaded := [], timer := 0, runningSince := some 0, stall := 9, pauseLim := 9, rsvrel := 1, ended := none, partialMembers := false, reserved := true }
def relayed (n : RunNode) (swc : Nat) : State :=
  let s := { unit [] with swc := swc, relay := { Relay.init with runs := [(1, runOf n)], pauses := [⟨3, 0, 9⟩] } }
  s.setNi xDie { openNi with rct := [(3, 2 ^ 62)] }
theorem test_witness_RelayNodes :
    let s := relayed (nopNode .idle) 9
    let e := relayed (nopNode .idle) 8
    let going := { s with relay := { s.relay with pauses := [] } }
    let away := s.setNi xDie { openNi with rct := [(3, 2 ^ 62 + 9 * 2 ^ 33)] }
    let r := runOf (nopNode .idle)
    s.relayUp = true ∧ s.relay.runs = [(1, r)] ∧ r.nodes[0]? = some (nopNode .idle) ∧ r.members[(nopNode .idle).member]? = some aMember ∧ aMember.withdrawn = false ∧
      r.members[({ nopNode .idle with member := 1 } : RunNode).member]? = none ∧ (r.endNode 0 3).over = false ∧ (nopNode .begun).tag = 0 ∧ (nopNode .begun).phase ≠ .idle ∧ 0 < ({ loadNode with counter := 1 } : RunNode).counter ∧
      (r.endNode 0 0).over = false ∧ ((runOf (nopNode .begun)).endNode 0 0).over = false ∧ (nopNode .begun).bytes ≤ (nopNode .begun).pos ∧ r.over = false ∧
      s.sequencedHere r (nopNode .idle) = true ∧ s.sequencedHere r { nopNode .idle with member := 1 } = true ∧ away.sequencedHere r (nopNode .idle) = false ∧
      going.relayUp = true ∧ going.relay.runs = [(1, r)] ∧ going.runPaused r = false ∧ s.runPaused r = true ∧ r.stall ≤ r.elapsed going.relayNow ∧ r.elapsed e.relayNow < r.stall ∧ s.relay.pauses[0]? = some ⟨3, 0, 9⟩ ∧ 0 + 9 ≤ s.relayNow ∧ e.relayNow < 0 + 9 ∧
      (unit []).relay.runs = [] ∧ (unit []).relayUp = true ∧ (unit []).waiting.isEmpty = true := by decide +kernel
theorem test_witness_RelayLoad :
    let s := relayed loadNode 9
    let r := runOf loadNode
    let dest := s.routeTo xDie r.track (page + 0xFC0)
    r.nodes[0]? = some loadNode ∧ loadNode.phase = .idle ∧ 0 < loadNode.bytes ∧ loadNode.counter = 0 ∧ loadNode.status = 0 ∧ loadNode.raw = [] ∧ loadNode.tag = 0 ∧ r.members[0]? = some aMember ∧
      aMember.joined = true ∧ s.sequencedHere r loadNode = true ∧ r.baseOk loadNode = true ∧ rctState (s.rct xDie aMember.rank) = 1 ∧
      (match r.placeOf loadNode 0 with | .global a => a == page + 0xFC0 | _ => false) = true ∧ dest.2 = 0 ∧ isEp dest.1 = true ∧ s.dieUp (epDie dest.1) = true ∧
      s.linkUp xDie (epDie dest.1) = true := by decide +kernel
theorem test_witness_ResetAndFunctionEvents :
    let s := unit []
    let ck (n : Nat) (auto : Bool) := ({ s with pkg := { s.pkg with ckctl := if auto then 4 else 0 } } : State).setCk n 0
    (ck 1 true).ckState = 1 ∧ (ck 3 true).ckState = 3 ∧ (ck 0 true).pkg.ckctl.getLsbD 2 = true ∧ (ck 0 true).readyBit 56 = true ∧ (ck 0 false).pkg.ckctl.getLsbD 2 = false ∧
      isDie 28 = true ∧ s.dieUp 28 = true ∧ s.pkg.resetHeld = false ∧ State.reset.dieUp 11 = false ∧ (∀ b ∈ [0, 12, 23, 39, 47, 48, 49, 55], s.readyBit b = true ∧ State.reset.readyBit b = false) ∧
      State.reset.cyc.recs = [] ∧ State.reset.waiting.isEmpty = true ∧ s.readyBit 52 = true := by decide +kernel
/-- A loop with step, decode and fetch: slot 0 of core 0 is next, at a page whose first word is ADDI x1, x2, -1 and whose second does not decode. -/
def stepping (w : Nat) : State := (unit []).withFetchWord 32 w
theorem test_witness_StepRunsDecodedInstruction :
    let s := stepping 0xFFF10093
    let u := { s with agenda := [] }
    State.reset.agenda.isEmpty = true ∧ s.agenda = [.slot 0] ∧ u.resting 0 = false ∧ u.faultDue 0 = false ∧ u.fetchSlot 0 = 0 ∧
      u.roundCode 0 = none ∧ u.fetch 0 = .code (bytesLE 4 0xFFF10093) ∧ decode (bytesLE 4 0xFFF10093) = .ok (.addi 1 2 0xFFF, []) ∧
      u.interlocked 0 (.addi 1 2 0xFFF) = false ∧ s.homeUnit 0 5 (probePc / 4) = .bytes (bytesLE 4 0xFFF10093) ∧ s.staleUnit 0 (probePc / 4) [] = none ∧ decode (bytesLE 4 0xFFFFFFFF) = .error .longEncoding ∧
      ({ stepping 0xFFFFFFFF with agenda := [] } : State).fetch 0 = .code (bytesLE 4 0xFFFFFFFF) := by decide +kernel
theorem test_witness_LengthsRoundTripAndMemory :
    (Instr.addi 31 0 0x800).wellFormed = true ∧ encode (.addi 31 0 0x800) ≠ .none ∧ decode [0x33, 0x85, 0xC5, 0x00] = .ok (.add 10 11 12, []) ∧
      decode [0xA2, 0x45] = .ok (.cLwsp 11 2, []) ∧ (stepping 0xFFF10093).codeAt 0 probePc = .bytes [0x93, 0x00] ∧
      (stepping 0xFFF10093).codeAt 0 (probePc + 2) = .bytes [0xF1, 0xFF] ∧ Memory.wf State.reset.mem ∧ Memory.wf (stepping 0xFFF10093).mem ∧
      (0 < (State.reset.mgmtRead 0x3008).toNat ∧ 0 < (State.reset.mgmtRead 0x3000).toNat % 2 ^ 32 ∧ 0 < (State.reset.mgmtRead 0x3000).toNat / 2 ^ 32) := by decide +kernel
/-! ## Steps -/

/-- The slot of core 0 after a step on a word at the next fetch, with these x registers before; its values by hand from the named rules. -/
noncomputable def stepped (xs : List (Nat × Nat)) (nbits w : Nat) : Option Slot :=
  let s := (unit xs).withFetchWord nbits w
  match step { s with slots := kset 0 { runner xs with track := probeTrack, pc := BitVec.ofNat 64 probePc } s.slots } with
  | .next t => some (t.slotAt 0)
  | _ => none
/-- ADDI x1, x2, -1 on 0 wraps (R191). -/
theorem test_step_addi : (stepped [] 32 0xFFF10093).map (fun t => (t.getX 1, t.pc)) = some (0xFFFFFFFFFFFFFFFF#64, 0x10000200004#64) := by decide +kernel
/-- C.LI x11, -1 is two bytes long (R191, R195). -/
theorem test_step_compressed : (stepped [] 16 0x55FD).map (fun t => (t.getX 11, t.pc)) = some (0xFFFFFFFFFFFFFFFF#64, 0x10000200002#64) := by decide +kernel
/-- DIV of the most negative number by -1 gives the dividend (R191). -/
theorem test_step_div : (stepped [(2, 2 ^ 63), (3, 2 ^ 64 - 1)] 32 0x023140B3).map (fun t => t.getX 1) = some 0x8000000000000000#64 := by decide +kernel
/-- FADD.S of 1.5 and -4.0, its result sign-extended (R132, R191). -/
theorem test_step_fadd : (stepped [(2, 0x3FC00000), (3, 0xC0800000)] 32 0x003100D3).map (fun t => t.getX 1) = some 0xFFFFFFFFC0200000#64 := by decide +kernel
/-- A word of all ones traps with cause 2, BUSY set, and the word in XUTVAL (R137, R195). -/
theorem test_step_illegal : (stepped [] 32 0xFFFFFFFF).map (fun t => (t.csr.xucause, t.csr.xutval, t.csr.xuepc, t.pc)) =
    some (0x4000000000000002#64, 0xFFFFFFFF#64, 0x10000200000#64, 0x10000200100#64) := by decide +kernel
/-- BEQ x0, x0, -4 (R191). -/
theorem test_step_branch : (stepped [] 32 0xFE000EE3).map (fun t => t.pc) = some 0x100001FFFFC#64 := by decide +kernel
end Sys2Proof.Tests
end

section
/-!
PROOF of O59. The memory stays canonical. Its parts are in the order of the model: for each function that makes a state, a lemma `mem_f` (it leaves
the memory as it is) or `canonical_f` (it keeps a canonical memory canonical), which the lemmas of the functions that call it use; then the
instructions and events, and the step.
-/
namespace Sys2Proof.Machine

/-- The canonical form of a memory. -/
def Canonical (m : Memory) : Prop := m.wf

theorem canonical_writeBytes {m : Memory} {a : Nat} {l : List Byte} (hm : Canonical m) :
    Canonical (writeBytes m a l) :=
  writeBytes_wf m a l hm

theorem canonical_filter {m : Memory} {p : Host.Cell → Bool} (hm : Canonical m) : Canonical (m.filter p) := by
  obtain ⟨hk, hv⟩ := hm
  refine ⟨?_, fun q hq => hv q (List.mem_of_mem_filter hq)⟩
  clear hv
  induction m with
  | nil => rfl
  | cons q r ih =>
    obtain ⟨k, v⟩ := q
    obtain ⟨hlt, hr⟩ := (kwf_cons_iff k v r).1 hk
    rw [List.filter_cons]
    split
    · exact (kwf_cons_iff _ _ _).2 ⟨fun q hq => hlt q (List.mem_of_mem_filter hq), ih hr⟩
    · exact ih hr

theorem canonical_clearRange {m : Memory} {a n : Nat} (hm : Canonical m) : Canonical (clearRange m a n) :=
  canonical_filter hm

theorem canonical_clearBank {m : Memory} {d w b : Nat} (hm : Canonical m) : Canonical (clearBank m d w b) :=
  List.foldlRecOn _ _ hm fun _ h _ _ => canonical_clearRange h

theorem canonical_clearSram {m : Memory} {d : Nat} (hm : Canonical m) : Canonical (clearSram m d) :=
  canonical_clearRange (canonical_clearRange (canonical_clearRange hm))

theorem canonical_of_mem_eq {s t : State} (h : t.mem = s.mem) (hs : Canonical s.mem) : Canonical t.mem := h ▸ hs

theorem canonical_ite {c : Prop} {_ : Decidable c} {s t : State} (hs : Canonical s.mem) (ht : Canonical t.mem) :
    Canonical (if c then s else t).mem := by
  split <;> assumption

/-! ### The setters of the state -/
section
variable {s : State} {k a b : Nat}

theorem canonical_setSlotAt {t : Slot} (hs : Canonical s.mem) : Canonical (s.setSlotAt k t).mem := hs

theorem canonical_setMe {t : Slot} (hs : Canonical s.mem) : Canonical (s.setMe t).mem := hs

theorem canonical_setCore {c : Core} (hs : Canonical s.mem) : Canonical (s.setCore k c).mem := hs

theorem canonical_setQuad {q : Quad} (hs : Canonical s.mem) : Canonical (s.setQuad k q).mem := hs

theorem canonical_setCluster {c : Cluster} (hs : Canonical s.mem) : Canonical (s.setCluster k c).mem := hs

theorem canonical_setNi {n : Ni} (hs : Canonical s.mem) : Canonical (s.setNi k n).mem := hs

theorem canonical_setPower {p : Power} (hs : Canonical s.mem) : Canonical (s.setPower k p).mem := hs

theorem canonical_setReady {on : Bool} (hs : Canonical s.mem) : Canonical (s.setReady k on).mem := hs

theorem canonical_setGang {g : Gang} (hs : Canonical s.mem) : Canonical (s.setGang k g).mem := hs

theorem canonical_retire (hs : Canonical s.mem) : Canonical (s.retire k).mem := hs

/-- An update of the management block alone. -/
theorem mem_withPkg {p : Pkg} : ({ s with pkg := p } : State).mem = s.mem := rfl
end

/-! ### Folds over states, and over pairs of which the state is the second part -/

@[simp] theorem mem_foldl {α : Type} {f : State → α → State} (hf : ∀ t x, (f t x).mem = t.mem) {l : List α}
    {s : State} : (l.foldl f s).mem = s.mem :=
  List.foldlRecOn (motive := fun t => t.mem = s.mem) _ _ rfl fun t ht x _ => (hf t x).trans ht

@[simp] theorem mem_foldl_snd {α β : Type} {f : β × State → α → β × State}
    (hf : ∀ t x, (f t x).2.mem = t.2.mem) {l : List α} {r : β × State} : (l.foldl f r).2.mem = r.2.mem :=
  List.foldlRecOn (motive := fun t => t.2.mem = r.2.mem) _ _ rfl fun t ht x _ => (hf t x).trans ht

theorem canonical_foldl {α : Type} {f : State → α → State} (hf : ∀ t x, Canonical t.mem → Canonical (f t x).mem)
    {l : List α} {s : State} (hs : Canonical s.mem) : Canonical (l.foldl f s).mem :=
  List.foldlRecOn (motive := fun t => Canonical t.mem) _ _ hs fun t ht x _ => hf t x ht

theorem canonical_foldl_snd {α β : Type} {f : β × State → α → β × State}
    (hf : ∀ t x, Canonical t.2.mem → Canonical (f t x).2.mem) {l : List α} {r : β × State}
    (hr : Canonical r.2.mem) : Canonical (l.foldl f r).2.mem :=
  List.foldlRecOn (motive := fun t => Canonical t.2.mem) _ _ hr fun t ht x _ => hf t x ht

/-! ### States that an operation may answer -/

/-- The state that an operation answers, where it answers one, has a canonical memory. -/
def CanonicalSome (o : Option State) : Prop := ∀ t, o = some t → Canonical t.mem

theorem canonicalSome_none : CanonicalSome none := fun _ e => nomatch e

theorem canonicalSome_some {s : State} (hs : Canonical s.mem) : CanonicalSome (some s) :=
  fun _ e => Option.some.inj e ▸ hs

theorem canonicalSome_map {α : Type} {f : α → State} {o : Option α} (hf : ∀ x, o = some x → Canonical (f x).mem) :
    CanonicalSome (o.map f) := by
  intro t e
  obtain ⟨x, hx, rfl⟩ := Option.map_eq_some_iff.1 e
  exact hf x hx

theorem canonical_getD {o : Option State} {s : State} (ho : CanonicalSome o) (hs : Canonical s.mem) :
    Canonical (o.getD s).mem := by
  cases o with
  | none => exact hs
  | some t => exact ho t rfl


/-! ### Access -/
section
variable {s : State} {d a key b k cid q p pid die word bit : Nat} {cells : List Nat} {t : Slot} {r : Reg}
  {who : Option Nat} {l : List Byte} {c : Core} {x : Quad} {n : Ni} {v stamp : Dword} {on : Bool} {g : Nat × Nat}

@[simp] theorem mem_setX : (s.setX r v).mem = s.mem := rfl

@[simp] theorem mem_startWake {b : Nat × Nat × Nat} : (s.startWake b).mem = s.mem := (startWake_frame s b).1

@[simp] theorem mem_stallKey : (s.stallKey key stamp cells).mem = s.mem := (stallKey_frame s key stamp cells).1

@[simp] theorem mem_stallOn : (s.stallOn key cells).mem = s.mem := by
  simp [State.stallOn]

@[simp] theorem mem_stallPkt : (s.stallPkt pid cells).mem = s.mem := by
  simp [State.stallPkt]

theorem canonical_gateNow (hs : Canonical s.mem) : Canonical (s.gateNow die word bit).mem := by
  unfold State.gateNow
  dsimp only
  exact canonical_clearBank hs

theorem canonical_gateHeldNow (hs : Canonical s.mem) : Canonical (s.gateHeldNow d g).mem := by
  unfold State.gateHeldNow
  exact canonical_ite hs (canonical_gateNow hs)

theorem canonical_unstallAt (hs : Canonical s.mem) : Canonical (s.unstallAt d key).mem := by
  unfold State.unstallAt
  dsimp only
  refine canonical_ite ?_ hs
  refine canonical_foldl (fun _ _ ht => ?_) hs
  exact canonical_gateHeldNow ht

theorem canonical_unstall (hs : Canonical s.mem) : Canonical (s.unstall key).mem := by
  unfold State.unstall
  exact canonical_unstallAt hs

theorem canonical_store (hs : Canonical s.mem) : Canonical (s.store who a l).mem := canonical_writeBytes hs

theorem canonical_storeLE {n v : Nat} (hs : Canonical s.mem) :
    Canonical (s.storeLE who a n v).mem := canonical_store hs

theorem canonical_hwStore (hs : Canonical s.mem) : Canonical (s.hwStore a l).mem := by
  unfold State.hwStore
  split
  · exact canonical_store hs
  · dsimp only
    refine canonical_store ?_
    exact canonical_ite (canonical_setPower (canonical_of_mem_eq mem_startWake hs))
      (canonical_of_mem_eq mem_startWake hs)
end

/-! ### Net -/
section
variable {s : State} {p : Pkt} {d status a b t va pid : Nat} {o : Owner} {ty : PType} {c : Dword} {data : List Byte}

@[simp] theorem mem_accept : (s.accept a b p).mem = s.mem := rfl

@[simp] theorem mem_owe : (s.owe p).mem = s.mem := by
  unfold State.owe
  dsimp only
  split <;> simp

@[simp] theorem mem_failPkt : (s.failPkt p status).mem = s.mem := by
  unfold State.failPkt
  (repeat' split) <;> simp

@[simp] theorem mem_sendFrom : (s.sendFrom d p).mem = s.mem := by
  unfold State.sendFrom
  (repeat' split) <;> simp

@[simp] theorem mem_send : (s.send p).mem = s.mem := by
  simp [State.send]

@[simp] theorem mem_newTag : (s.newTag o).2.mem = s.mem := rfl

@[simp] theorem mem_dropTag : (s.dropTag t).mem = s.mem := rfl

@[simp] theorem mem_answer {a : Dword} {b : Dword} : (s.answer d p ty a b c data).mem = s.mem := by
  simp [State.answer]

@[simp] theorem mem_refuse : (s.refuse d p status va).mem = s.mem := by
  simp [State.refuse]

@[simp] theorem mem_takePkt : (s.takePkt pid p).mem = s.mem := by
  unfold State.takePkt
  split <;> simp

@[simp] theorem mem_malformedPkt : (s.malformedPkt p).mem = s.mem := by
  unfold State.malformedPkt
  split <;> simp
end

/-! ### Xlate -/
section
variable {s : State} {who : Option Nat} {x2 rs : Ranges} {x3 : List Byte}

theorem canonical_writeRanges {rs : Ranges} {l : List Byte} (hs : Canonical s.mem) :
    Canonical (s.writeRanges who rs l).mem := by
  induction rs generalizing s l with
  | nil => exact hs
  | cons r rs ih => exact ih (canonical_store hs)

@[simp] theorem mem_poisonRanges : (s.poisonRanges rs).mem = s.mem := by
  simp [State.poisonRanges]
end

/-! ### Logs -/
section
variable {s : State} {d i index scope : Nat} {r : BitVec 256} {p : Pkt}

@[simp] theorem mem_loadTrack : (s.loadTrack i d).mem = s.mem := rfl

@[simp] theorem mem_loadPmap : (s.loadPmap i d).mem = s.mem := rfl

@[simp] theorem mem_applyRecord : (s.applyRecord d r).mem = s.mem := by
  unfold State.applyRecord
  split <;> simp

@[simp] theorem mem_applyOne : (s.applyOne d index).mem = s.mem := by
  unfold State.applyOne
  dsimp only
  split <;> simp

@[simp] theorem mem_applyLog : (s.applyLog d).mem = s.mem := by
  simp [State.applyLog]

@[simp] theorem mem_ivlPost : (s.ivlPost r).2.mem = s.mem := by
  simp [State.ivlPost]

theorem canonical_ivlAppend (hs : Canonical s.mem) : Canonical (s.ivlAppend d p).mem := by
  unfold State.ivlAppend
  dsimp only
  split
  · exact canonical_store hs
  · exact canonical_setNi (canonical_of_mem_eq mem_applyRecord hs)

@[simp] theorem mem_acquireLog : (s.acquireLog d scope).mem = s.mem := by
  unfold State.acquireLog
  split <;> simp
end


/-! ### Launch -/
section
variable {s : State} {seq status inst tag rec : Nat} {l : Launch} {o : Owner} {frame : Dword} {tk : BitVec 16}
  {bytes : List Byte} {v : GraphVer} {js : List Nat}

@[simp] theorem mem_setLaunch : (s.setLaunch seq l).mem = s.mem := rfl

@[simp] theorem mem_writeCompletion : (s.writeCompletion o frame tk bytes).2.mem = s.mem := by
  unfold State.writeCompletion
  split
  · rfl
  · split
    · dsimp only
      split <;> rfl
    · simp [State.newTag]

@[simp] theorem mem_fireMsi : (s.fireMsi).mem = s.mem := by
  unfold State.fireMsi
  split <;> simp

@[simp] theorem mem_unfreeze : (s.unfreeze rec).mem = s.mem := rfl

@[simp] theorem mem_abortCycle : (s.abortCycle rec).mem = s.mem := by
  unfold State.abortCycle
  dsimp only
  split <;> simp

@[simp] theorem mem_abortCyclesOf : (s.abortCyclesOf seq).mem = s.mem := by
  simp [State.abortCyclesOf]

@[simp] theorem mem_freeVersions : (s.freeVersions).mem = s.mem := rfl

@[simp] theorem mem_endLaunch : (s.endLaunch seq status).mem = s.mem := by
  unfold State.endLaunch
  (repeat' split) <;> simp

@[simp] theorem mem_finishOne : (s.finishOne seq status).mem = s.mem := by
  unfold State.finishOne
  dsimp only
  (repeat' split) <;> simp

@[simp] theorem mem_nodeRecords : (s.nodeRecords inst v js).2.mem = s.mem := by simp [State.nodeRecords]

@[simp] theorem mem_graphProgress : (s.graphProgress inst).mem = s.mem := by
  unfold State.graphProgress
  dsimp only
  (repeat' split) <;> simp

@[simp] theorem mem_nodeEnded : (s.nodeEnded l status).mem = s.mem := by
  unfold State.nodeEnded
  (repeat' split) <;> simp

@[simp] theorem mem_finishLaunch : (s.finishLaunch seq status).mem = s.mem := by
  unfold State.finishLaunch
  dsimp only
  (repeat' split) <;> simp

@[simp] theorem mem_completionAnswer : (s.completionAnswer seq tag).mem = s.mem := by
  unfold State.completionAnswer
  dsimp only
  (repeat' split) <;> simp

@[simp] theorem mem_nodeRecordAnswer : (s.nodeRecordAnswer inst tag).mem = s.mem := by
  unfold State.nodeRecordAnswer
  split <;> simp

@[simp] theorem mem_rejectionAnswer : (s.rejectionAnswer tag).mem = s.mem := by
  unfold State.rejectionAnswer
  dsimp only
  (repeat' split) <;> simp

@[simp] theorem mem_markAborted : (s.markAborted seq).mem = s.mem := by
  unfold State.markAborted
  (repeat' split) <;> simp

@[simp] theorem mem_batonDone : (s.batonDone seq).mem = s.mem := by
  unfold State.batonDone
  (repeat' split) <;> simp
end

/-! ### Ops -/
section
variable {s : State} {rec launch pcl a k rec' off n die key status : Nat} {tk : BitVec 16} {f : State → State}
  {v stamp pcAt : Dword} {large aborted posted : Bool} {x1 : Ranges} {x2 l : List Byte} {x : Option (Option Nat)}
  {op : MemOp} {cells : List Nat} {c : Carve}

theorem canonical_recWrite (hs : Canonical s.mem) : Canonical (s.recWrite rec off v).mem := by
  unfold State.recWrite
  exact canonical_hwStore hs

@[simp] theorem mem_setAway {a : Away} : (s.setAway rec a).mem = s.mem := rfl

@[simp] theorem mem_dropAway : (s.dropAway rec).mem = s.mem := rfl

theorem canonical_enqueue (hs : Canonical s.mem) : Canonical (s.enqueue rec launch).mem := by
  unfold State.enqueue
  dsimp only
  refine canonical_setCluster ?_
  refine canonical_recWrite ?_
  refine canonical_recWrite ?_
  split
  · exact canonical_recWrite hs
  · exact hs

theorem canonical_hwRanges {rs : Ranges} {l : List Byte} (hs : Canonical s.mem) :
    Canonical (s.hwRanges rs l).mem := by
  induction rs generalizing s l with
  | nil => exact hs
  | cons r rs ih => exact ih (canonical_hwStore hs)

theorem canonical_frameWrite (hs : Canonical s.mem) : CanonicalSome (s.frameWrite pcl tk a l) :=
  canonicalSome_map fun _ _ => canonical_hwRanges hs

@[simp] theorem mem_setAsk : (s.setAsk rec' x).mem = s.mem := rfl

theorem canonical_withFrame (hf : ∀ x, Canonical x.mem → Canonical (f x).mem) (hs : Canonical s.mem) :
    Canonical (s.withFrame rec' tk op a n f).mem := by
  unfold State.withFrame
  dsimp only
  split
  · exact hf _ hs
  · exact hf _ hs
  · exact hf _ hs
  · exact hs
  · exact canonical_ite hs (canonical_of_mem_eq mem_send (canonical_of_mem_eq mem_newTag hs))

theorem canonical_inTurn (hf : ∀ x, Canonical x.mem → Canonical (f x).mem) (hs : Canonical s.mem) :
    Canonical (s.inTurn die key stamp cells f).mem := by
  unfold State.inTurn
  exact canonical_ite (canonical_unstallAt (hf _ hs)) (canonical_of_mem_eq mem_stallKey hs)

theorem canonical_onSpad (hf : ∀ x, Canonical x.mem → Canonical (f x).mem) (hs : Canonical s.mem) :
    Canonical (s.onSpad k f).mem := by
  unfold State.onSpad
  exact canonical_inTurn hf hs

@[simp] theorem mem_setCarve : (s.setCarve pcl launch c).mem = s.mem := rfl

@[simp] theorem mem_allocFrame : ∀ p, s.allocFrame pcl launch tk large = some p → p.2.mem = s.mem := by
  unfold State.allocFrame
  dsimp only
  (repeat' split) <;> simp

theorem canonical_freeFrame (hs : Canonical s.mem) : Canonical (s.freeFrame pcl launch tk a large).mem := by
  unfold State.freeFrame
  refine canonical_ite hs ?_
  dsimp only
  split
  · exact hs
  · exact canonical_of_mem_eq mem_setCarve (canonical_frameWrite hs _ ‹_›)

theorem canonical_endBaton (hs : Canonical s.mem) : Canonical (s.endBaton k aborted).mem := by
  unfold State.endBaton
  dsimp only
  refine canonical_of_mem_eq mem_batonDone ?_
  refine canonical_ite ?_ ?_
  · refine canonical_of_mem_eq mem_markAborted ?_
    dsimp only
    refine canonical_setSlotAt ?_
    refine canonical_setCluster ?_
    refine canonical_setCore ?_
    refine canonical_freeFrame ?_
    refine canonical_foldl (fun _ _ ht => ?_) (canonical_recWrite hs)
    exact ht
  · dsimp only
    refine canonical_setSlotAt ?_
    refine canonical_setCluster ?_
    refine canonical_setCore ?_
    refine canonical_freeFrame ?_
    refine canonical_foldl (fun _ _ ht => ?_) (canonical_recWrite hs)
    exact ht

theorem canonical_deliver {c : Nat} (hs : Canonical s.mem) : Canonical (s.deliver k c v status pcAt posted).mem := by
  unfold State.deliver
  dsimp only
  exact canonical_ite (canonical_endBaton hs) (canonical_ite (canonical_endBaton hs) hs)
end

/-! ### Baton -/
section
variable {s : State} {rec key k status c reason rec' r i cid len pcl frame va tag : Nat} {g : Gang}
  {v next wkey wtime : Dword} {e : Effect} {w : Wait} {d : MemberDone} {tk : BitVec 16} {f : Dword → Dword}
  {cells : State → List Nat} {sync : Bool}

theorem canonical_disbandGang (hs : Canonical s.mem) : Canonical (s.disbandGang key g).mem := by
  unfold State.disbandGang
  dsimp only
  refine canonical_foldl (fun _ _ ht => ?_) ?_
  · exact canonical_recWrite ht
  · refine canonical_foldl (fun _ _ ht => ?_) hs
    exact ht

theorem canonical_disbandAway (hs : Canonical s.mem) : Canonical (s.disbandAway r v).mem := by
  unfold State.disbandAway
  split
  · exact hs
  · dsimp only
    refine canonical_of_mem_eq mem_setAway ?_
    split
    · exact canonical_getD (canonical_frameWrite hs) hs
    · exact hs

theorem canonical_gangRound (hs : Canonical s.mem) : Canonical (s.gangRound key g).mem := by
  unfold State.gangRound
  refine canonical_ite hs ?_
  split
  · dsimp only
    refine canonical_ite ?_ ?_
    · refine canonical_disbandGang ?_
      refine canonical_foldl (fun _ _ ht => ?_) hs
      exact ht
    · refine canonical_setGang ?_
      refine canonical_foldl (fun _ _ ht => ?_) hs
      exact ht
  · dsimp only
    refine canonical_foldl (fun _ _ ht => ?_) (canonical_disbandGang hs)
    split <;> exact canonical_deliver ht

theorem canonical_memberDone (hs : Canonical s.mem) : Canonical (s.memberDone key g i d next).mem := by
  unfold State.memberDone
  exact canonical_gangRound hs

theorem canonical_complete (hs : Canonical s.mem) : Canonical (s.complete k next).mem := by
  unfold State.complete
  dsimp only
  split
  · exact canonical_memberDone hs
  · exact hs

theorem canonical_trapSlot (hs : Canonical s.mem) : Canonical (s.trapSlot k c v status).mem := by
  unfold State.trapSlot
  dsimp only
  split
  · exact canonical_memberDone hs
  · exact canonical_deliver hs

@[simp] theorem mem_parkSlot : (s.parkSlot k w reason wkey wtime len).mem = s.mem := rfl

theorem canonical_Effect_onFrame {e : Effect} {pcl frame : Nat} (hs : Canonical s.mem) :
    Canonical (e.onFrame s pcl tk frame).mem := by
  cases e with
  | none => exact hs
  | x r v =>
    unfold Effect.onFrame
    dsimp only
    split
    · exact hs
    · exact canonical_getD (canonical_frameWrite hs) hs
  | vec p val => exact canonical_getD (canonical_frameWrite hs) hs
  | st i val => exact canonical_getD (canonical_frameWrite hs) hs

theorem canonical_resumeSlot (hs : Canonical s.mem) : Canonical (s.resumeSlot k e).mem := by
  unfold State.resumeSlot
  dsimp only
  exact canonical_complete hs

theorem canonical_finishWait (hs : Canonical s.mem) : Canonical (s.finishWait rec e).mem := by
  unfold State.finishWait
  split
  · exact canonical_ite (canonical_resumeSlot hs) hs
  · split
    · refine canonical_ite hs ?_
      dsimp only
      refine canonical_ite (canonical_of_mem_eq mem_setAway (canonical_recWrite (canonical_Effect_onFrame hs))) ?_
      exact canonical_enqueue (canonical_of_mem_eq mem_setAway (canonical_recWrite (canonical_Effect_onFrame hs)))
    · exact hs

theorem canonical_reissue (hs : Canonical s.mem) : Canonical (s.reissue rec).mem := by
  unfold State.reissue
  split
  · exact canonical_ite hs hs
  · split
    · refine canonical_ite hs ?_
      dsimp only
      exact canonical_ite hs (canonical_enqueue hs)
    · exact hs

theorem canonical_editFlags (hs : Canonical s.mem) : Canonical (s.editFlags rec' f).mem := by
  unfold State.editFlags
  dsimp only
  split
  · exact canonical_getD (canonical_frameWrite hs) hs
  · exact hs

theorem canonical_setOrig (hs : Canonical s.mem) : Canonical (s.setOrig rec' reason).mem := by
  unfold State.setOrig
  exact canonical_editFlags hs

theorem canonical_rouse (hs : Canonical s.mem) : Canonical (s.rouse rec).mem := by
  unfold State.rouse
  split
  · refine canonical_ite hs ?_
    dsimp only
    exact canonical_ite hs (canonical_enqueue hs)
  · exact hs

theorem canonical_goOn {cells : State → List Nat} {f : State → State} (hf : ∀ t, Canonical t.mem → Canonical (f t).mem)
    (hs : Canonical s.mem) : Canonical (s.goOn rec cells f).mem := by
  unfold State.goOn
  split
  · exact canonical_rouse hs
  · dsimp only
    split
    · exact hs
    · split
      · simpa using hs
      · exact hf _ hs

@[simp] theorem mem_addDeferred {d : Deferred} : (s.addDeferred rec d).mem = s.mem := by
  unfold State.addDeferred
  (repeat' split) <;> simp

theorem canonical_failWaitAs (hs : Canonical s.mem) : Canonical (s.failWaitAs sync rec c v status).mem := by
  unfold State.failWaitAs
  dsimp only
  split
  · refine canonical_ite ?_ hs
    split
    · exact canonical_trapSlot hs
    · exact canonical_of_mem_eq mem_addDeferred hs
  · exact canonical_reissue (canonical_of_mem_eq mem_addDeferred hs)

theorem canonical_remoteFault (hs : Canonical s.mem) : Canonical (s.remoteFault rec va status).mem := by
  unfold State.remoteFault
  dsimp only
  split
  · refine canonical_ite hs ?_
    split
    · exact canonical_ite (canonical_memberDone (canonical_of_mem_eq mem_addDeferred hs)) (canonical_trapSlot hs)
    · exact canonical_of_mem_eq mem_addDeferred hs
  · split
    · exact canonical_recWrite (canonical_reissue (canonical_of_mem_eq mem_addDeferred hs))
    · exact hs

theorem canonical_failWait (hs : Canonical s.mem) : Canonical (s.failWait rec c v status).mem := by
  unfold State.failWait
  exact canonical_failWaitAs hs

@[simp] theorem mem_setWait : (s.setWait rec w).mem = s.mem := by
  unfold State.setWait
  (repeat' split) <;> simp

theorem canonical_setWhy (hs : Canonical s.mem) : Canonical (s.setWhy rec reason wkey).mem := by
  unfold State.setWhy
  split
  · exact hs
  · split
    · exact hs
    · dsimp only
      exact canonical_ite (canonical_setOrig (canonical_recWrite hs)) (canonical_recWrite (canonical_recWrite hs))

@[simp] theorem mem_dropPosted : (s.dropPosted rec tag).mem = s.mem := by
  unfold State.dropPosted
  (repeat' split) <;> simp
end


/-! ### Hurdle -/
section
variable {s : State} {h scope m pcl w rec level d source : Nat} {who : Option Nat} {x : Hurdle}
  {st gen exp mode wake g0 : BitVec 32} {exchange : Bool} {v : Nat × Nat} {word : Dword} {r : Hurdle × Bool}

@[simp] theorem mem_publish : (s.publish pcl w).mem = s.mem := rfl

theorem canonical_setHurdle (hs : Canonical s.mem) : Canonical (s.setHurdle who h x).mem := by
  unfold State.setHurdle
  exact canonical_storeLE hs

theorem canonical_setPhase (hs : Canonical s.mem) : Canonical (s.setPhase rec level exchange).mem := by
  unfold State.setPhase
  dsimp only
  split
  · exact hs
  · split
    · exact hs
    · split
      · exact canonical_getD (canonical_frameWrite hs) hs
      · exact hs

@[simp] theorem mem_setHdScopes : (s.setHdScopes h v).mem = s.mem := rfl

@[simp] theorem mem_seesCompletion : (s.seesCompletion d h).mem = s.mem := by
  simp [State.seesCompletion]

theorem canonical_wakeHurdle {w : Nat × Wait} (hs : Canonical s.mem) : Canonical (s.wakeHurdle h gen word w).mem := by
  unfold State.wakeHurdle
  split
  · exact canonical_ite (canonical_finishWait (canonical_of_mem_eq mem_seesCompletion hs)) hs
  · exact canonical_ite (canonical_finishWait (canonical_setPhase (canonical_of_mem_eq mem_seesCompletion hs))) hs
  · exact hs

@[simp] theorem mem_releaseLaps : (s.releaseLaps h x).mem = s.mem := by
  simp [State.releaseLaps]

theorem canonical_completeHurdle (hs : Canonical s.mem) : Canonical (s.completeHurdle who h x).mem := by
  unfold State.completeHurdle
  dsimp only
  refine canonical_foldl (fun _ _ ht => ?_) ?_
  · exact canonical_wakeHurdle ht
  · refine canonical_of_mem_eq mem_releaseLaps ?_
    refine canonical_ite ?_ (canonical_of_mem_eq mem_setHdScopes (canonical_setHurdle hs))
    exact canonical_of_mem_eq mem_publish (canonical_of_mem_eq mem_setHdScopes (canonical_setHurdle hs))

theorem canonical_applyHurdle (hs : Canonical s.mem) : Canonical (s.applyHurdle who h r).mem := by
  unfold State.applyHurdle
  exact canonical_ite (canonical_completeHurdle hs) (canonical_setHurdle hs)

theorem canonical_hurdleArrive (hs : Canonical s.mem) : Canonical (s.hurdleArrive who scope h m st).mem := by
  unfold State.hurdleArrive
  dsimp only
  exact canonical_applyHurdle (canonical_ite hs hs)

theorem canonical_hurdleWithdraw (hs : Canonical s.mem) : Canonical (s.hurdleWithdraw who scope h m).mem := by
  unfold State.hurdleWithdraw
  dsimp only
  exact canonical_applyHurdle (canonical_ite hs hs)

theorem canonical_hurdleJoin (hs : Canonical s.mem) : Canonical (s.hurdleJoin who h).mem := by
  unfold State.hurdleJoin
  exact canonical_setHurdle hs

theorem canonical_hurdleInit (hs : Canonical s.mem) : Canonical (s.hurdleInit who h exp mode wake).mem := by
  unfold State.hurdleInit
  exact canonical_applyHurdle hs

theorem canonical_engineArrive (hs : Canonical s.mem) : Canonical (s.engineArrive h g0 m st source).1.mem := by
  unfold State.engineArrive
  split
  · dsimp only
    exact canonical_hurdleArrive hs
  · dsimp only
    exact hs
end

/-! ### Rank -/
section
variable {s : State} {d rank tag kind rec' attempt : Nat} {p : Pkt} {v e : Dword} {held : Bool}

theorem canonical_rankWhy (hs : Canonical s.mem) : Canonical (s.rankWhy p held).mem := by
  unfold State.rankWhy
  dsimp only
  split
  · split
    · exact canonical_ite (canonical_setWhy hs) (canonical_setWhy hs)
    · exact canonical_ite (canonical_setWhy hs) (canonical_setWhy hs)
    · exact hs
  · exact hs

theorem canonical_sendTo (hs : Canonical s.mem) : Canonical (s.sendTo p e).mem := by
  unfold State.sendTo
  dsimp only
  exact canonical_of_mem_eq mem_sendFrom (canonical_setNi (canonical_rankWhy hs))

theorem canonical_sendRanked (hs : Canonical s.mem) : Canonical (s.sendRanked p).mem := by
  unfold State.sendRanked
  dsimp only
  refine canonical_ite (canonical_sendTo hs) ?_
  exact canonical_ite (canonical_setNi (canonical_rankWhy hs)) (canonical_of_mem_eq mem_failPkt hs)

@[simp] theorem mem_rankDone : (s.rankDone d tag).mem = s.mem := by
  unfold State.rankDone
  dsimp only
  split <;> simp

theorem canonical_flushRank (hs : Canonical s.mem) : Canonical (s.flushRank d rank).mem := by
  unfold State.flushRank
  dsimp only
  refine canonical_ite hs ?_
  refine canonical_foldl (fun _ _ ht => ?_) hs
  exact canonical_ite (canonical_sendTo ht) (canonical_of_mem_eq mem_failPkt ht)

theorem canonical_sendHeld (hs : Canonical s.mem) : Canonical (s.sendHeld rec').mem := by
  unfold State.sendHeld
  split
  · exact canonical_sendRanked (canonical_of_mem_eq mem_setWait hs)
  · exact hs

theorem canonical_wakeRankWaiters (hs : Canonical s.mem) : Canonical (s.wakeRankWaiters d).mem := by
  unfold State.wakeRankWaiters
  refine canonical_foldl (fun _ _ ht => ?_) hs
  split
  · split
    · exact canonical_sendHeld ht
    · exact ht
  · exact ht

theorem canonical_applyRct (hs : Canonical s.mem) : Canonical (s.applyRct d rank kind v).mem := by
  unfold State.applyRct
  dsimp only
  exact canonical_wakeRankWaiters (canonical_flushRank hs)

theorem canonical_rankMoved (hs : Canonical s.mem) : Canonical (s.rankMoved d tag attempt).mem := by
  unfold State.rankMoved
  dsimp only
  split
  · exact hs
  · refine canonical_flushRank ?_
    refine canonical_foldl (fun _ _ ht => ?_) hs
    exact canonical_rankWhy ht
end

/-! ### Home -/
section
variable {s : State} {d cell bytes src k party h i off launch pid : Nat} {p : Pkt} {op : AmoOp} {who : Option Nat}
  {merge walked : Bool} {data : List Byte} {rs : Ranges} {w : Walk} {action : BitVec 8} {v : Dword} {tys : List PType}
  {f : State → Pkt → State}

theorem canonical_amoCell (hs : Canonical s.mem) : Canonical (s.amoCell who op cell bytes src).2.mem := by
  unfold State.amoCell
  dsimp only
  split
  · dsimp only
    split <;> exact hs
  · split
    · split
      · dsimp only
        exact canonical_storeLE hs
      · dsimp only
        exact hs
    · exact hs
  · dsimp only
    exact canonical_storeLE hs

theorem canonical_farAmoCell (hs : Canonical s.mem) : Canonical (s.farAmoCell party op cell bytes src).2.mem := by
  unfold State.farAmoCell
  split
  · exact hs
  · dsimp only
    split
    · dsimp only
      exact canonical_storeLE hs
    · exact hs
  · exact canonical_amoCell hs

theorem canonical_atomBatch (hs : Canonical s.mem) : Canonical (s.atomBatch merge cell data).2.mem := by
  refine canonical_foldl_snd (fun r i hr => ?_) hs
  dsimp only
  split
  · exact canonical_storeLE hr
  · exact hr

theorem canonical_perform (hs : Canonical s.mem) : Canonical (s.perform d p rs).mem := by
  unfold State.perform
  dsimp only
  split
  · exact canonical_ite (canonical_of_mem_eq mem_refuse hs) (canonical_of_mem_eq mem_answer hs)
  · split
    · refine canonical_ite (canonical_of_mem_eq mem_refuse hs) ?_
      refine canonical_of_mem_eq mem_answer ?_
      split
      · exact canonical_amoCell hs
      · exact canonical_farAmoCell hs
    · exact canonical_of_mem_eq mem_refuse hs
  · split
    · refine canonical_ite (canonical_of_mem_eq mem_refuse hs) ?_
      split
      · exact canonical_of_mem_eq mem_refuse (canonical_atomBatch hs)
      · exact canonical_of_mem_eq mem_answer (canonical_atomBatch hs)
    · exact canonical_of_mem_eq mem_refuse hs
  · exact canonical_of_mem_eq mem_answer (canonical_writeRanges hs)
  · refine canonical_of_mem_eq mem_answer ?_
    exact canonical_ite (canonical_of_mem_eq mem_poisonRanges (canonical_writeRanges hs)) (canonical_writeRanges hs)

theorem canonical_faultAppend (hs : Canonical s.mem) : Canonical (s.faultAppend d p).mem := by
  unfold State.faultAppend
  dsimp only
  split
  · exact canonical_of_mem_eq mem_refuse hs
  · exact canonical_hurdleArrive hs

@[simp] theorem mem_forwardPkt : (s.forwardPkt d p h).mem = s.mem := by
  simp [State.forwardPkt]

@[simp] theorem mem_settleRecord : (s.settleRecord d p).mem = s.mem := by
  unfold State.settleRecord
  dsimp only
  split <;> simp

theorem canonical_homeRun (hs : Canonical s.mem) : Canonical (s.homeRun d p walked).mem := by
  unfold State.homeRun
  split
  · exact canonical_of_mem_eq mem_settleRecord (canonical_perform hs)
  · exact hs
  · exact canonical_ite hs (canonical_of_mem_eq mem_settleRecord (canonical_of_mem_eq mem_refuse hs))
  · exact canonical_of_mem_eq mem_settleRecord (canonical_of_mem_eq mem_forwardPkt hs)
  · exact canonical_of_mem_eq mem_settleRecord (canonical_faultAppend hs)
  · exact canonical_of_mem_eq mem_settleRecord (canonical_of_mem_eq mem_refuse hs)

theorem canonical_homeEnter (hs : Canonical s.mem) : Canonical (s.homeEnter d p).mem := by
  unfold State.homeEnter
  refine canonical_ite ?_ (canonical_homeRun hs)
  dsimp only
  exact hs

theorem canonical_releaseBehind (hs : Canonical s.mem) : Canonical (s.releaseBehind d).mem := by
  unfold State.releaseBehind
  dsimp only
  refine canonical_foldl (fun _ _ ht => ?_) hs
  exact canonical_homeEnter ht

theorem canonical_walkDone (hs : Canonical s.mem) : Canonical (s.walkDone d w).mem := by
  unfold State.walkDone
  dsimp only
  refine canonical_releaseBehind ?_
  refine canonical_homeRun ?_
  split
  · exact hs
  · split <;> exact hs

theorem canonical_faultAnswer (hs : Canonical s.mem) : Canonical (s.faultAnswer d i action).mem := by
  unfold State.faultAnswer
  dsimp only
  split
  · exact hs
  · refine canonical_ite hs ?_
    refine canonical_ite hs ?_
    refine canonical_ite (canonical_releaseBehind (canonical_homeRun hs)) ?_
    exact canonical_releaseBehind (canonical_of_mem_eq mem_refuse hs)

theorem canonical_niWrite (hs : Canonical s.mem) : Canonical (s.niWrite d off v).mem := by
  unfold State.niWrite
  dsimp only
  exact canonical_ite (canonical_ite hs (canonical_ite hs (canonical_ite hs (canonical_faultAnswer hs))))
    (canonical_ite hs hs)

theorem canonical_niAccess (hs : Canonical s.mem) : Canonical (s.niAccess d p).mem := by
  unfold State.niAccess
  dsimp only
  refine canonical_ite (canonical_of_mem_eq mem_refuse hs) ?_
  exact canonical_ite (canonical_of_mem_eq mem_answer hs) (canonical_of_mem_eq mem_answer (canonical_niWrite hs))

@[simp] theorem mem_movedPkt : (s.movedPkt d p).mem = s.mem := by
  simp [State.movedPkt]

theorem canonical_arrivePkt (hs : Canonical s.mem) : Canonical (s.arrivePkt d p).mem := by
  unfold State.arrivePkt
  dsimp only
  refine canonical_ite (canonical_of_mem_eq mem_movedPkt hs) ?_
  refine canonical_ite (canonical_of_mem_eq mem_refuse hs) ?_
  refine canonical_ite (canonical_of_mem_eq mem_refuse hs) ?_
  refine canonical_ite (canonical_of_mem_eq mem_refuse hs) ?_
  refine canonical_ite (canonical_of_mem_eq mem_answer (canonical_engineArrive hs)) ?_
  refine canonical_ite (canonical_of_mem_eq mem_answer (canonical_hurdleWithdraw hs)) ?_
  refine canonical_ite (canonical_of_mem_eq mem_answer (canonical_hurdleJoin hs)) ?_
  refine canonical_ite ?_ (canonical_of_mem_eq mem_answer (canonical_hurdleArrive hs))
  exact canonical_ite (canonical_of_mem_eq mem_answer (canonical_hurdleArrive hs)) (canonical_hurdleArrive hs)

theorem canonical_enqueuePkt (hs : Canonical s.mem) : Canonical (s.enqueuePkt d p launch).mem := by
  unfold State.enqueuePkt
  refine canonical_ite (canonical_of_mem_eq mem_refuse hs) ?_
  dsimp only
  exact canonical_of_mem_eq mem_answer (canonical_enqueue (canonical_hwStore hs))

theorem canonical_homePkt (hs : Canonical s.mem) : Canonical (s.homePkt d p).mem := by
  unfold State.homePkt
  refine canonical_ite (canonical_of_mem_eq mem_movedPkt hs) ?_
  split
  · exact canonical_enqueuePkt hs
  · exact canonical_ite (canonical_niAccess hs) (canonical_homeEnter hs)

theorem canonical_deliverPkt (hf : ∀ x y, Canonical x.mem → Canonical (f x y).mem) (hs : Canonical s.mem) :
    Canonical (s.deliverPkt pid tys f).mem := by
  unfold State.deliverPkt
  split
  · exact hs
  · refine canonical_ite hs ?_
    refine canonical_ite (canonical_of_mem_eq mem_malformedPkt (canonical_of_mem_eq mem_takePkt hs)) ?_
    dsimp only
    exact canonical_ite (canonical_of_mem_eq mem_stallPkt hs) (canonical_unstallAt (hf _ _
      (canonical_of_mem_eq mem_takePkt hs)))
end


/-! ### Engine -/
section
variable {s : State} {pcl i n status pkg va j h m rec handle ep op idx src tag cid d : Nat} {e : CpEntry} {p : Piece}
  {data : List Byte} {fault rank : Option Nat} {g : BitVec 32} {done : State → Bool → Option Nat → State}
  {stray b near : Bool} {ty : PType} {cells : List Nat} {o : Owner}

@[simp] theorem mem_setEntry : (s.setEntry pcl i e).mem = s.mem := rfl

@[simp] theorem mem_freeEntry : (s.freeEntry pcl i).mem = s.mem := rfl

theorem canonical_wakePromise {h : Dword} (hs : Canonical s.mem) : Canonical (s.wakePromise pcl h).mem := by
  unfold State.wakePromise
  refine canonical_foldl (fun _ _ ht => ?_) hs
  refine canonical_ite ?_ ht
  split
  · exact canonical_finishWait (canonical_of_mem_eq mem_acquireLog ht)
  · split
    · exact ht
    · exact canonical_failWait ht
    · exact canonical_failWait ht
    · exact canonical_finishWait (canonical_of_mem_eq mem_acquireLog ht)
    · exact canonical_failWait ht

@[simp] theorem mem_noteLapCopy : (s.noteLapCopy rec handle status).mem = s.mem := by
  unfold State.noteLapCopy
  (repeat' split) <;> simp

theorem canonical_completeEntry (hs : Canonical s.mem) : Canonical (s.completeEntry pcl i e).mem := by
  unfold State.completeEntry
  dsimp only
  exact canonical_wakePromise (canonical_of_mem_eq mem_noteLapCopy (canonical_ite hs hs))

@[simp] theorem mem_pieceRequest : (s.pieceRequest pcl i e p ty ep pkg va n data rank op).mem = s.mem := by
  simp [State.pieceRequest]

@[simp] theorem mem_stallPiece : (s.stallPiece pcl i e idx cells).mem = s.mem := by
  simp [State.stallPiece]

theorem canonical_writePiece (hs : Canonical s.mem) : Canonical (s.writePiece pcl i e p data).mem := by
  unfold State.writePiece
  dsimp only
  split
  · exact hs
  · exact hs
  · exact canonical_of_mem_eq mem_pieceRequest hs
  · refine canonical_ite hs ?_
    refine canonical_ite (canonical_of_mem_eq mem_setEntry (canonical_of_mem_eq mem_stallPiece hs)) ?_
    refine canonical_ite ?_ (canonical_of_mem_eq mem_setEntry (canonical_writeRanges (canonical_unstallAt hs)))
    split
    · split <;> exact canonical_of_mem_eq mem_setEntry (canonical_atomBatch (canonical_unstallAt hs))
    · exact canonical_of_mem_eq mem_setEntry (canonical_unstallAt hs)

theorem canonical_readPiece (hs : Canonical s.mem) : Canonical (s.readPiece pcl i e p src).mem := by
  unfold State.readPiece
  refine canonical_ite (canonical_writePiece hs) ?_
  dsimp only
  split
  · exact hs
  · exact hs
  · exact canonical_of_mem_eq mem_pieceRequest hs
  · split
    · exact canonical_of_mem_eq mem_setEntry (canonical_of_mem_eq mem_stallPiece hs)
    · refine canonical_ite ?_ (canonical_writePiece (canonical_unstallAt hs))
      exact canonical_of_mem_eq mem_setEntry (canonical_unstallAt hs)
    · exact hs
    · exact hs

theorem canonical_readIndex (hs : Canonical s.mem) : Canonical (s.readIndex pcl i e n j).mem := by
  unfold State.readIndex
  dsimp only
  split
  · exact canonical_of_mem_eq mem_setEntry (canonical_unstallAt hs)
  · exact hs
  · exact canonical_of_mem_eq mem_stallPiece hs
  · exact hs

theorem canonical_pieceStep (hs : Canonical s.mem) : Canonical (s.pieceStep pcl i n).mem := by
  unfold State.pieceStep
  split
  · exact hs
  · split
    · refine canonical_ite hs ?_
      split
      · exact canonical_writePiece hs
      · exact hs
    · refine canonical_ite hs ?_
      split
      · exact canonical_readIndex hs
      · dsimp only
        refine canonical_ite hs ?_
        split
        · exact hs
        · exact canonical_readPiece hs

theorem canonical_pieceAnswer (hs : Canonical s.mem) : Canonical (s.pieceAnswer pcl i n tag data fault va).mem := by
  unfold State.pieceAnswer
  split
  · exact hs
  · split
    · exact hs
    · refine canonical_ite hs ?_
      split
      · exact hs
      · exact canonical_ite hs (canonical_writePiece hs)

@[simp] theorem mem_pieceMoved : (s.pieceMoved pcl i n).mem = s.mem := by
  unfold State.pieceMoved
  (repeat' split) <;> simp

theorem canonical_feedPanel (hs : Canonical s.mem) : Canonical (s.feedPanel cid b).mem := by
  unfold State.feedPanel
  dsimp only
  split
  · exact hs
  · refine canonical_ite hs ?_
    split
    · exact canonical_unstallAt hs
    · exact hs
    · exact canonical_of_mem_eq mem_stallPiece hs
    · exact canonical_of_mem_eq mem_pieceRequest hs

theorem canonical_arriveLocal (hdone : ∀ x y z, Canonical x.mem → Canonical (done x y z).mem) (hs : Canonical s.mem) :
    Canonical (s.arriveLocal pcl i e h g m status done).mem := by
  unfold State.arriveLocal
  dsimp only
  refine canonical_ite (hdone _ _ _ hs) ?_
  exact canonical_ite (canonical_of_mem_eq mem_stallKey hs) (hdone _ _ _ (canonical_unstallAt
    (canonical_engineArrive hs)))

theorem canonical_arriveBy (hdone : ∀ x y z, Canonical x.mem → Canonical (done x y z).mem) (hs : Canonical s.mem) :
    Canonical (s.arriveBy pcl i e rank h pkg near g m status o done).mem := by
  unfold State.arriveBy
  dsimp only
  split
  · refine canonical_ite (canonical_arriveLocal hdone hs) ?_
    exact canonical_ite hs (canonical_sendRanked (canonical_of_mem_eq mem_setEntry (canonical_of_mem_eq mem_newTag hs)))
  · refine canonical_ite (canonical_arriveLocal hdone hs) ?_
    exact canonical_of_mem_eq mem_send (canonical_of_mem_eq mem_setEntry (canonical_of_mem_eq mem_newTag hs))

theorem canonical_copyComplete (hs : Canonical s.mem) : Canonical (s.copyComplete pcl i).mem := by
  unfold State.copyComplete
  split
  · exact hs
  · refine canonical_ite hs ?_
    dsimp only
    refine canonical_ite ?_ ?_
    · split
      · exact canonical_completeEntry hs
      · split
        · exact hs
        · refine canonical_arriveBy (fun _ _ _ ht => ?_) hs
          split <;> exact ht
    · split
      · exact canonical_completeEntry hs
      · refine canonical_arriveBy (fun _ _ _ ht => ?_) hs
        split
        · exact ht
        · exact canonical_completeEntry ht

theorem canonical_arriveAnswer (hs : Canonical s.mem) : Canonical (s.arriveAnswer pcl i stray fault).mem := by
  unfold State.arriveAnswer
  split
  · exact hs
  · refine canonical_ite hs ?_
    dsimp only
    exact canonical_completeEntry hs

@[simp] theorem mem_branchAnswer : (s.branchAnswer pcl i j stray fault).mem = s.mem := by
  unfold State.branchAnswer
  (repeat' split) <;> simp

@[simp] theorem mem_lapseEntry : (s.lapseEntry pcl i).mem = s.mem := by
  unfold State.lapseEntry
  (repeat' split) <;> simp
end

/-! ### Matrix -/
section
variable {s : State} {cid q slot i c k doneAt id g x3 x7 x8 : Nat} {e : DqEntry} {w : Word32} {m : MatCsr}
  {rs1 rdv v : Dword} {f : Dword → Dword} {b : Bool} {cells : List (Nat × Nat × Option Nat)}

theorem canonical_wakeAwayMatrix (hs : Canonical s.mem) : Canonical (s.wakeAwayMatrix cid).mem := by
  unfold State.wakeAwayMatrix
  refine canonical_ite hs ?_
  refine canonical_foldl (fun _ _ ht => ?_) hs
  exact canonical_ite (canonical_reissue ht) ht

theorem canonical_wakeMatrix (hs : Canonical s.mem) : Canonical (s.wakeMatrix cid).mem := by
  unfold State.wakeMatrix
  refine canonical_wakeAwayMatrix ?_
  refine canonical_foldl (fun _ _ ht => ?_) hs
  dsimp only
  exact canonical_ite ht ht

theorem canonical_queueTrap (hs : Canonical s.mem) : Canonical (s.queueTrap cid slot c v).mem := by
  unfold State.queueTrap
  dsimp only
  exact canonical_ite (canonical_failWaitAs hs) (canonical_of_mem_eq mem_addDeferred hs)

@[simp] theorem mem_setMmprog : (s.setMmprog k f).mem = s.mem := rfl

@[simp] theorem mem_endTile : (s.endTile cid e doneAt).mem = s.mem := rfl

theorem canonical_underrun (hs : Canonical s.mem) : Canonical (s.underrun cid e w b).mem := by
  unfold State.underrun
  dsimp only
  refine canonical_ite hs ?_
  refine canonical_ite hs ?_
  refine canonical_ite (canonical_ite (canonical_failWait hs) hs) ?_
  exact canonical_of_mem_eq mem_addDeferred (canonical_ite (canonical_failWait hs) hs)

@[simp] theorem mem_stepTile : (s.stepTile cid e w m).mem = s.mem := by
  unfold State.stepTile
  dsimp only
  (repeat' split) <;> simp

@[simp] theorem mem_mapWide {f : DqEntry → Option DqEntry} : (s.mapWide id f).mem = s.mem := rfl

@[simp] theorem mem_bindLane : (s.bindLane q g).mem = s.mem := by
  unfold State.bindLane
  dsimp only
  (repeat' split) <;> simp

@[simp] theorem mem_bindArray : (s.bindArray q).mem = s.mem := by
  unfold State.bindArray
  dsimp only
  (repeat' split) <;> simp

@[simp] theorem mem_beginFree : (s.beginFree cid).mem = s.mem := by
  unfold State.beginFree
  dsimp only
  (repeat' split) <;> simp

@[simp] theorem mem_pullReplay {x : Nat} : (s.pullReplay cid slot x).mem = s.mem := by
  induction x generalizing s with
  | zero => rfl
  | succ n ih =>
    unfold State.pullReplay
    dsimp only
    split
    · rfl
    · split
      · rfl
      · exact ih

@[simp] theorem mem_pullReplays : (s.pullReplays cid).mem = s.mem := by
  simp [State.pullReplays]

@[simp] theorem mem_pacerBind : (s.pacerBind q).mem = s.mem := by
  simp [State.pacerBind]

theorem canonical_panelStep (hs : Canonical s.mem) : Canonical (s.panelStep cid).mem := by
  unfold State.panelStep
  dsimp only
  split
  · exact hs
  · refine canonical_ite hs ?_
    refine canonical_ite (canonical_of_mem_eq mem_endTile (canonical_ite hs hs)) ?_
    split
    · exact canonical_underrun (canonical_ite hs hs)
    · refine canonical_ite (canonical_of_mem_eq mem_stallKey (canonical_ite hs hs)) ?_
      refine canonical_ite (canonical_ite hs hs) ?_
      split
      · exact canonical_ite (canonical_setQuad (canonical_of_mem_eq mem_stepTile (canonical_ite hs hs)))
          (canonical_ite hs hs)
      · exact canonical_ite hs hs

theorem canonical_moveRow (hs : Canonical s.mem) : Canonical (s.moveRow cid e w m i cells).mem := by
  unfold State.moveRow
  dsimp only
  refine canonical_foldl (fun _ _ ht => ?_) hs
  split
  · exact ht
  · exact canonical_ite (canonical_ite (canonical_setCore (canonical_storeLE ht)) (canonical_storeLE ht)) ht

theorem canonical_moveRows {x i : Nat} (hs : Canonical s.mem) : Canonical (s.moveRows cid e w rs1 rdv m x i).mem := by
  induction x generalizing s i with
  | zero => exact hs
  | succ n ih =>
    unfold State.moveRows
    dsimp only
    split
    · exact canonical_queueTrap hs
    · exact ih (canonical_moveRow hs)

theorem canonical_matEffect (hs : Canonical s.mem) : Canonical (s.matEffect cid e w rs1 rdv m).mem := by
  unfold State.matEffect
  dsimp only
  split
  · exact hs
  · exact hs
  · exact canonical_moveRows hs
  · exact canonical_moveRows hs
  · exact canonical_ite hs hs
  · exact hs
  · exact canonical_ite hs (canonical_ite (canonical_queueTrap hs) hs)
  · exact hs
  · exact hs

theorem canonical_dispatchDone (hs : Canonical s.mem) : Canonical (s.dispatchDone cid i).mem := by
  unfold State.dispatchDone
  dsimp only
  split
  · exact hs
  · refine canonical_ite hs ?_
    split
    · exact canonical_ite hs (canonical_wakeMatrix hs)
    · refine canonical_ite (canonical_wakeMatrix hs) ?_
      refine canonical_ite (canonical_wakeMatrix (canonical_queueTrap hs)) ?_
      refine canonical_ite (canonical_of_mem_eq mem_stallKey hs) ?_
      exact canonical_unstallAt (canonical_wakeMatrix (canonical_matEffect hs))
end


/-! ### Save -/
section
variable {s : State} {k pcl rec' cid orig launch base x3 frame slot : Nat} {b preempted large owned : Bool} {t : Slot}
  {r : Ready} {tk : BitVec 16} {x4 : List (Nat × List Byte)} {f : State → State} {scales : KMap (BitVec 32)}
  {l : List Byte} {role : BitVec 2} {live next : Dword}

theorem canonical_writeSegs {base : Nat} {x : List (Nat × List Byte)} (hs : Canonical s.mem) :
    CanonicalSome (s.writeSegs pcl tk base x) := by
  induction x generalizing s with
  | nil => exact canonicalSome_some hs
  | cons p r ih =>
    unfold State.writeSegs
    split
    · exact ih hs
    · split
      · exact ih (canonical_frameWrite hs _ ‹_›)
      · exact canonicalSome_none

theorem canonical_settlePort {x : Nat} (hs : Canonical s.mem) : Canonical (s.settlePort cid b x).mem := by
  induction x generalizing s with
  | zero => exact hs
  | succ n ih =>
    unfold State.settlePort
    dsimp only
    split
    · exact canonical_feedPanel hs
    · exact ih (canonical_feedPanel hs)

@[simp] theorem mem_stopFeeds : (s.stopFeeds cid b).mem = s.mem := by
  unfold State.stopFeeds
  dsimp only
  split
  · rfl
  · refine mem_foldl fun t p => ?_
    split <;> rfl

theorem canonical_settle (hs : Canonical s.mem) : Canonical (s.settle k).mem := by
  unfold State.settle
  dsimp only
  refine canonical_ite ?_ hs
  refine canonical_foldl (fun _ _ ht => ?_) hs
  exact canonical_of_mem_eq mem_stopFeeds (canonical_settlePort ht)

@[simp] theorem mem_stopTile : (s.stopTile k).mem = s.mem := by
  unfold State.stopTile
  dsimp only
  (repeat' split) <;> simp

theorem canonical_saveFrame (hs : Canonical s.mem) : CanonicalSome (s.saveFrame k orig) := by
  unfold State.saveFrame
  dsimp only
  split
  · exact canonicalSome_some (canonical_setSlotAt (canonical_ite hs (canonical_setOrig hs)))
  · split
    · exact canonicalSome_none
    · split
      · exact canonicalSome_none
      · refine canonicalSome_some ?_
        refine canonical_wakeMatrix ?_
        refine canonical_setSlotAt ?_
        refine canonical_setCore ?_
        refine canonical_recWrite ?_
        refine canonical_recWrite ?_
        refine canonical_recWrite ?_
        exact canonical_writeSegs (canonical_of_mem_eq (mem_allocFrame _ ‹_›)
          (canonical_of_mem_eq mem_stopTile hs)) _ ‹_›

theorem canonical_saving (hf : ∀ x, Canonical x.mem → Canonical (f x).mem) (hs : Canonical s.mem) :
    Canonical (s.saving k f).mem := by
  unfold State.saving
  refine canonical_onSpad (fun _ ht => ?_) hs
  dsimp only
  split
  · exact hf _ ht
  · exact hf _ ht
  · exact canonical_withFrame hf ht

@[simp] theorem mem_keepToken : (s.keepToken rec').mem = s.mem := by
  unfold State.keepToken
  dsimp only
  split <;> simp

theorem canonical_putAway (hs : Canonical s.mem) : Canonical (s.putAway k t owned preempted scales).mem := by
  unfold State.putAway
  dsimp only
  refine canonical_ite ?_ ?_
  · refine canonical_enqueue ?_
    split
    · refine canonical_ite ?_ (canonical_of_mem_eq mem_setAway (canonical_recWrite (canonical_recWrite
        (canonical_recWrite hs))))
      refine canonical_of_mem_eq mem_keepToken ?_
      exact canonical_of_mem_eq mem_setAway (canonical_recWrite (canonical_recWrite (canonical_recWrite hs)))
    · exact canonical_of_mem_eq mem_setAway (canonical_recWrite (canonical_recWrite (canonical_recWrite hs)))
  · split
    · refine canonical_ite ?_ (canonical_of_mem_eq mem_setAway (canonical_recWrite (canonical_recWrite
        (canonical_recWrite hs))))
      refine canonical_of_mem_eq mem_keepToken ?_
      exact canonical_of_mem_eq mem_setAway (canonical_recWrite (canonical_recWrite (canonical_recWrite hs)))
    · exact canonical_of_mem_eq mem_setAway (canonical_recWrite (canonical_recWrite (canonical_recWrite hs)))

theorem canonical_saveOut (hs : Canonical s.mem) : CanonicalSome (s.saveOut k orig preempted) := by
  unfold State.saveOut
  dsimp only
  exact canonicalSome_map (fun _ ht => canonical_of_mem_eq mem_applyLog (canonical_putAway
    (canonical_saveFrame hs _ ht)))

@[simp] theorem mem_putContext : (s.putContext k l).mem = s.mem := by
  simp [State.putContext]

theorem canonical_abortReady (hs : Canonical s.mem) : Canonical (s.abortReady rec' launch large).mem := by
  unfold State.abortReady
  dsimp only
  refine canonical_of_mem_eq mem_batonDone ?_
  refine canonical_setCluster ?_
  refine canonical_of_mem_eq mem_markAborted ?_
  exact canonical_of_mem_eq mem_dropAway (canonical_ite (canonical_recWrite hs) (canonical_freeFrame
    (canonical_recWrite hs)))

theorem canonical_restoreFrame (hs : Canonical s.mem) : CanonicalSome (s.restoreFrame k rec' t frame large) := by
  unfold State.restoreFrame
  dsimp only
  split
  · exact canonicalSome_none
  · split
    · exact canonicalSome_none
    · split
      · exact canonicalSome_some hs
      · exact canonicalSome_some (canonical_recWrite (canonical_freeFrame (canonical_ite
          (canonical_of_mem_eq mem_putContext hs) hs)))

theorem canonical_restoreWaiting (hs : Canonical s.mem) : Canonical (s.restoreWaiting k).mem := by
  unfold State.restoreWaiting
  dsimp only
  split
  · refine canonical_ite ?_ hs
    refine canonical_onSpad (fun _ ht => ?_) hs
    refine canonical_withFrame (fun _ hu => ?_) ht
    split
    · exact canonical_restoreFrame hu _ ‹_›
    · exact canonical_abortReady hu
  · exact hs

theorem canonical_dequeue (hs : Canonical s.mem) : Canonical (s.dequeue pcl role r).mem := by
  unfold State.dequeue
  dsimp only
  refine canonical_setCluster ?_
  split
  · split
    · exact canonical_recWrite hs
    · exact hs
  · exact hs

theorem canonical_pickUp (hs : Canonical s.mem) : Canonical (s.pickUp pcl k r).mem := by
  have hstart : CanonicalSome (if s.recRead r.record 0x08 = 0 then some (s.firstStart k r.record r.launch)
      else s.restoreFrame k r.record (s.slotFor r.record r.launch) (s.recRead r.record 0x08).toNat
        (s.frameLarge r.record)) := by
    split
    · exact canonicalSome_some hs
    · exact canonical_restoreFrame hs
  unfold State.pickUp
  dsimp only
  refine canonical_of_mem_eq mem_applyLog (canonical_setCluster ?_)
  split
  · exact canonical_abortReady hs
  · next u e =>
    refine canonical_recWrite ?_
    exact hstart u e

theorem canonical_dispatch (hs : Canonical s.mem) : Canonical (s.dispatch pcl).mem := by
  unfold State.dispatch
  split
  · refine canonical_ite hs ?_
    refine canonical_inTurn (fun _ ht => ?_) hs
    dsimp only
    refine canonical_ite (canonical_abortReady (canonical_dequeue ht)) ?_
    exact canonical_withFrame (fun _ hu => canonical_pickUp (canonical_dequeue hu)) ht
  · exact hs

theorem canonical_evict (hs : Canonical s.mem) : Canonical (s.evict cid slot).mem := by
  unfold State.evict
  dsimp only
  refine canonical_ite ?_ hs
  refine canonical_ite ?_ (canonical_settle hs)
  exact canonical_saving (fun _ ht => canonical_getD (canonical_saveOut ht) ht) (canonical_settle hs)

theorem canonical_yieldOut (hs : Canonical s.mem) : CanonicalSome (s.yieldOut k live next) := by
  unfold State.yieldOut
  dsimp only
  exact canonical_saveOut hs
end

/-! ### Gang -/
section
variable {s : State} {key r k i n cid slot : Nat} {g : Gang} {v by' : Dword} {rd : Reg} {x1 : List Nat}
  {x2 : State → State}

theorem canonical_formGang (hs : Canonical s.mem) : Canonical (s.formGang key g).mem := by
  unfold State.formGang
  dsimp only
  refine canonical_setGang ?_
  refine canonical_foldl (fun _ _ ht => ?_) ?_
  · split
    · exact ht
    · split
      · exact ht
      · exact canonical_recWrite ht
  · refine canonical_foldl (fun _ _ ht => ?_) hs
    split
    · exact ht
    · refine canonical_finishWait ?_
      split
      · exact ht
      · exact canonical_recWrite ht

theorem canonical_setWkey (hs : Canonical s.mem) : Canonical (s.setWkey r v).mem := by
  unfold State.setWkey
  split
  · exact hs
  · split
    · exact canonical_recWrite hs
    · exact hs

theorem canonical_joinGang (hs : Canonical s.mem) : Canonical (s.joinGang key g i r).mem := by
  unfold State.joinGang
  dsimp only
  exact canonical_ite (canonical_formGang (canonical_setWkey hs)) (canonical_setGang (canonical_setWkey hs))

theorem canonical_absorbJoiners (hs : Canonical s.mem) : Canonical (s.absorbJoiners key).mem := by
  unfold State.absorbJoiners
  refine canonical_foldl (fun _ _ ht => ?_) hs
  split
  · refine canonical_ite ?_ ht
    split
    · exact canonical_ite (canonical_joinGang ht) ht
    · exact ht
  · exact ht

theorem canonical_leadGang (hs : Canonical s.mem) : Canonical (s.leadGang k rd n by').mem := by
  unfold State.leadGang
  dsimp only
  exact canonical_ite hs (canonical_ite (canonical_deliver hs) (canonical_absorbJoiners hs))

theorem canonical_wakeLeads (hs : Canonical s.mem) : Canonical (s.wakeLeads).mem := by
  unfold State.wakeLeads
  refine canonical_foldl (fun _ _ ht => ?_) hs
  split
  · exact canonical_ite (canonical_goOn (fun _ hu => canonical_leadGang hu) ht) ht
  · exact ht

theorem canonical_failFormation (hs : Canonical s.mem) : Canonical (s.failFormation r).mem := by
  unfold State.failFormation
  split
  · dsimp only
    exact hs
  · split
    · exact hs
    · dsimp only
      refine canonical_ite (canonical_of_mem_eq mem_setAway (canonical_recWrite (canonical_disbandAway hs))) ?_
      exact canonical_enqueue (canonical_of_mem_eq mem_setAway (canonical_recWrite (canonical_disbandAway hs)))

theorem canonical_formationPoll (hs : Canonical s.mem) : Canonical (s.formationPoll r).mem := by
  unfold State.formationPoll
  split
  · refine canonical_ite ?_ hs
    split
    · refine canonical_ite hs ?_
      dsimp only
      refine canonical_wakeLeads ?_
      refine canonical_foldl (fun _ _ ht => ?_) hs
      exact canonical_failFormation ht
    · exact canonical_failFormation hs
  · exact hs

theorem canonical_formationTimeout (hs : Canonical s.mem) : Canonical (s.formationTimeout cid slot).mem := by
  unfold State.formationTimeout
  dsimp only
  exact canonical_ite (canonical_formationPoll hs) hs

theorem canonical_withFvec {ks : List Nat} {f : State → State} (hf : ∀ t, Canonical t.mem → Canonical (f t).mem)
    (hs : Canonical s.mem) : Canonical (s.withFvec ks f).mem := by
  induction ks generalizing s with
  | nil => exact hf _ hs
  | cons k ks ih =>
    unfold State.withFvec
    split
    · exact canonical_onSpad (fun _ ht => ih ht) hs
    · exact ih hs

theorem canonical_gangFaults (hs : Canonical s.mem) : Canonical (s.gangFaults key g).mem := by
  unfold State.gangFaults
  refine canonical_ite hs ?_
  dsimp only
  split
  · exact hs
  · refine canonical_withFvec (fun _ ht => ?_) hs
    refine canonical_wakeLeads ?_
    refine canonical_foldl (fun _ _ hu => ?_) ?_
    · refine canonical_ite ?_ (canonical_deliver hu)
      split
      · exact canonical_deliver hu
      · exact hu
    · refine canonical_foldl (fun _ _ hu => ?_) (canonical_disbandGang ht)
      exact canonical_disbandAway hu

theorem canonical_deliverDeferred (hs : Canonical s.mem) : Canonical (s.deliverDeferred k).mem := by
  unfold State.deliverDeferred
  dsimp only
  refine canonical_ite hs ?_
  split
  · exact canonical_gangFaults hs
  · split
    · exact canonical_deliver hs
    · split
      · exact canonical_withFvec (fun _ ht => canonical_deliver ht) hs
      · exact hs

theorem canonical_breakGang (hs : Canonical s.mem) : Canonical (s.breakGang key g).mem := by
  unfold State.breakGang
  dsimp only
  refine canonical_wakeLeads ?_
  refine canonical_foldl (fun _ _ ht => ?_) ?_
  · exact canonical_disbandAway ht
  · refine canonical_foldl (fun _ _ ht => ?_) (canonical_ite (canonical_disbandGang hs)
      (canonical_of_mem_eq mem_mapWide (canonical_disbandGang hs)))
    exact ht
end

/-! ### Flags -/
section
variable {s : State} {f : FFlags}
end


/-! ### Issue -/
section
variable {s : State} {len a bytes scope c reason : Nat} {rd : Reg} {v target wkey wtime src : Dword}
  {f : State → State} {w : Word32} {pkt : State → Nat → Pkt} {acq store sgn lr aq rl : Bool} {wait : Nat → Wait}
  {cells : List Nat} {rel : Option Nat} {op : AmoOp}

theorem canonical_fin (hs : Canonical s.mem) : Canonical (s.fin len).mem := by
  unfold State.fin
  exact canonical_complete hs

theorem canonical_finX (hs : Canonical s.mem) : Canonical (s.finX rd v len).mem := by
  unfold State.finX
  exact canonical_fin hs

theorem canonical_jump (hs : Canonical s.mem) : Canonical (s.jump target).mem := by
  unfold State.jump
  exact canonical_complete hs

theorem canonical_trap (hs : Canonical s.mem) : Canonical (s.trap c v).mem := by
  unfold State.trap
  exact canonical_trapSlot hs

theorem canonical_illegal (hs : Canonical s.mem) : Canonical (s.illegal w).mem := by
  unfold State.illegal
  exact canonical_trap hs

theorem canonical_unlessGanged (hf : ∀ x, Canonical x.mem → Canonical (f x).mem) (hs : Canonical s.mem) :
    Canonical (s.unlessGanged w f).mem := by
  unfold State.unlessGanged
  exact canonical_ite (canonical_illegal hs) (hf _ hs)

@[simp] theorem mem_park {w : Wait} : (s.park w reason wkey wtime len).mem = s.mem := rfl

@[simp] theorem mem_acquired : (s.acquired acq scope).mem = s.mem := by
  unfold State.acquired
  split <;> simp

theorem canonical_whenReleased (hf : ∀ x, Canonical x.mem → Canonical (f x).mem) (hs : Canonical s.mem) :
    Canonical (s.whenReleased scope f).mem := by
  unfold State.whenReleased
  exact canonical_ite (hf _ hs) hs

@[simp] theorem mem_parkOn : (s.parkOn wait len pkt).mem = s.mem := by
  simp [State.parkOn]

@[simp] theorem mem_parkReq {w : Wait} : (s.parkReq w len).mem = s.mem := by
  simp [State.parkReq]

@[simp] theorem mem_finReply : (s.finReply rd v len).mem = s.mem := by
  simp [State.finReply]

@[simp] theorem mem_post : (s.post store pkt).mem = s.mem := by
  simp [State.post]

theorem canonical_onCells (hf : ∀ x, Canonical x.mem → Canonical (f x).mem) (hs : Canonical s.mem) :
    Canonical (s.onCells cells f).mem := by
  unfold State.onCells
  exact canonical_ite (canonical_unstall (hf _ hs)) (canonical_of_mem_eq mem_stallOn hs)

theorem canonical_loadX {acq : Option Nat} (hs : Canonical s.mem) :
    Canonical (s.loadX rd a bytes sgn lr acq len).mem := by
  unfold State.loadX
  dsimp only
  refine canonical_ite (canonical_trap hs) ?_
  refine canonical_ite ?_ ?_
  · split
    · exact canonical_trap hs
    · exact canonical_onCells (fun _ ht => canonical_finX (canonical_ite ht ht)) (canonical_of_mem_eq mem_acquired hs)
  · refine canonical_ite (canonical_of_mem_eq mem_parkOn (canonical_of_mem_eq mem_acquired hs)) ?_
    exact canonical_ite (canonical_of_mem_eq mem_parkOn (canonical_of_mem_eq mem_acquired hs)) (canonical_trap hs)

theorem canonical_storeX (hs : Canonical s.mem) : Canonical (s.storeX a bytes v rel len).mem := by
  unfold State.storeX
  dsimp only
  refine canonical_ite (canonical_trap hs) ?_
  split
  · refine canonical_ite ?_ ?_
    · split
      · exact canonical_trap hs
      · exact canonical_onCells (fun _ ht => canonical_fin (canonical_store ht)) hs
    · refine canonical_ite ?_ (canonical_ite (canonical_of_mem_eq mem_parkOn hs) (canonical_trap hs))
      split
      · exact canonical_fin (canonical_of_mem_eq mem_post hs)
      · exact canonical_of_mem_eq mem_parkOn hs
  · refine canonical_whenReleased (fun _ ht => ?_) hs
    refine canonical_ite ?_ ?_
    · split
      · exact canonical_trap hs
      · exact canonical_onCells (fun _ hu => canonical_fin (canonical_store hu)) ht
    · refine canonical_ite ?_ (canonical_ite (canonical_of_mem_eq mem_parkOn ht) (canonical_trap hs))
      split
      · exact canonical_fin (canonical_of_mem_eq mem_post ht)
      · exact canonical_of_mem_eq mem_parkOn ht

theorem canonical_amoX (hs : Canonical s.mem) : Canonical (s.amoX op rd a bytes src aq rl len).mem := by
  unfold State.amoX
  dsimp only
  refine canonical_ite (canonical_trap hs) ?_
  refine canonical_ite ?_ ?_
  · refine canonical_whenReleased (fun _ ht => ?_) hs
    refine canonical_ite ?_ ?_
    · split
      · exact canonical_trap hs
      · exact canonical_onCells (fun _ hu => canonical_finX (canonical_amoCell hu))
          (canonical_of_mem_eq mem_acquired ht)
    · refine canonical_ite ?_ (canonical_trap hs)
      refine canonical_ite ?_ (canonical_of_mem_eq mem_parkOn (canonical_of_mem_eq mem_acquired ht))
      exact canonical_finX (canonical_setMe (canonical_of_mem_eq mem_acquired ht))
  · refine canonical_ite ?_ ?_
    · split
      · exact canonical_trap hs
      · exact canonical_onCells (fun _ ht => canonical_finX (canonical_amoCell ht))
          (canonical_of_mem_eq mem_acquired hs)
    · refine canonical_ite ?_ (canonical_trap hs)
      refine canonical_ite ?_ (canonical_of_mem_eq mem_parkOn (canonical_of_mem_eq mem_acquired hs))
      exact canonical_finX (canonical_setMe (canonical_of_mem_eq mem_acquired hs))
end

/-! ### Rv64 -/
section
variable {s : State} {len scope : Nat} {rd rs1 rs2 : Reg} {f : Dword → Dword → Dword} {target i : Dword} {c : Bool}
  {pred succ : BitVec 4}

theorem canonical_opRR (hs : Canonical s.mem) : Canonical (s.opRR rd rs1 rs2 f len).mem := by
  unfold State.opRR
  exact canonical_finX hs

theorem canonical_opRI (hs : Canonical s.mem) : Canonical (s.opRI rd rs1 i f len).mem := by
  unfold State.opRI
  exact canonical_finX hs

theorem canonical_branchIf (hs : Canonical s.mem) : Canonical (s.branchIf c target len).mem := by
  unfold State.branchIf
  exact canonical_ite (canonical_jump hs) (canonical_fin hs)

theorem canonical_jumpLink (hs : Canonical s.mem) : Canonical (s.jumpLink rd target len).mem := by
  unfold State.jumpLink
  dsimp only
  exact canonical_jump hs

theorem canonical_breakpoint (hs : Canonical s.mem) : Canonical (s.breakpoint).mem := by
  unfold State.breakpoint
  exact canonical_trap hs

theorem canonical_fullFence (hs : Canonical s.mem) : Canonical (s.fullFence scope).mem := by
  unfold State.fullFence
  exact canonical_whenReleased (fun _ ht => canonical_fin (canonical_of_mem_eq mem_acquired ht)) hs

theorem canonical_stdFence (hs : Canonical s.mem) : Canonical (s.stdFence pred succ).mem := by
  unfold State.stdFence
  exact canonical_ite (canonical_fin hs) (canonical_fullFence hs)

theorem canonical_exitBaton (hs : Canonical s.mem) : Canonical (s.exitBaton).mem := by
  unfold State.exitBaton
  exact canonical_ite (canonical_endBaton hs) hs
end

/-! ### Bat -/
section
variable {s : State} {rd rs1 rs2 : Reg} {dst : SendDst} {self : Bool} {bits : BitVec 512} {opt r : Nat}

theorem canonical_sendBaton (hs : Canonical s.mem) : Canonical (s.sendBaton rd self bits dst).mem := by
  unfold State.sendBaton
  dsimp only
  split
  · exact canonical_finX hs
  · exact canonical_of_mem_eq mem_parkOn hs
  · refine canonical_ite (canonical_of_mem_eq mem_park (canonical_of_mem_eq mem_newTag hs)) ?_
    exact canonical_sendRanked (canonical_of_mem_eq mem_park (canonical_of_mem_eq mem_newTag hs))

theorem canonical_batSend (hs : Canonical s.mem) : Canonical (s.batSend opt rd rs1 rs2 dst).mem := by
  unfold State.batSend
  dsimp only
  refine canonical_ite (canonical_illegal hs) ?_
  refine canonical_ite hs ?_
  refine canonical_ite (canonical_onCells (fun _ ht => canonical_sendBaton ht) hs) ?_
  split
  · exact canonical_trap hs
  · refine canonical_onCells (fun _ ht => ?_) hs
    split
    · exact canonical_finX ht
    · exact canonical_sendBaton ht

theorem canonical_wakeRecord (hs : Canonical s.mem) : Canonical (s.wakeRecord r).mem := by
  unfold State.wakeRecord
  split
  · exact canonical_finishWait (canonical_of_mem_eq mem_acquireLog hs)
  · split
    · exact hs
    · refine canonical_ite ?_ hs
      dsimp only
      exact hs
end

/-! ### Hd -/
section
variable {s : State} {rs1 rd : Reg} {scope m op rec' r off level : Nat} {changes : Bool} {f : State → Nat → State}
  {ref : HdRef}

theorem canonical_onHurdle (hf : ∀ x y, Canonical x.mem → Canonical (f x y).mem) (hs : Canonical s.mem) :
    Canonical (s.onHurdle rs1 changes f).mem := by
  unfold State.onHurdle
  split
  · exact canonical_onCells (fun _ ht => canonical_ite (hf _ _ ht) (canonical_trap ht)) hs
  · exact canonical_trap hs

theorem canonical_postRank (hs : Canonical s.mem) : Canonical (s.postRank scope r off m op).mem := by
  unfold State.postRank
  refine canonical_ite hs ?_
  dsimp only [State.newTag]
  exact canonical_fin (canonical_sendRanked hs)

theorem canonical_rankGo (hs : Canonical s.mem) : Canonical (s.rankGo rec').mem := by
  unfold State.rankGo
  split
  · exact canonical_ite hs (canonical_goOn (fun _ ht => canonical_postRank ht) hs)
  · exact hs

theorem canonical_hurdleOp (hs : Canonical s.mem) : Canonical (s.hurdleOp rs1 ref scope op m).mem := by
  unfold State.hurdleOp
  split
  · exact canonical_trap hs
  · exact canonical_fin (canonical_of_mem_eq mem_post hs)
  · exact canonical_postRank hs
  · refine canonical_onHurdle (fun _ _ ht => ?_) hs
    dsimp only
    refine canonical_fin ?_
    exact canonical_ite (canonical_hurdleArrive ht) (canonical_ite (canonical_hurdleWithdraw ht)
      (canonical_hurdleJoin ht))

theorem canonical_lapArrive (hs : Canonical s.mem) : Canonical (s.lapArrive rd level).mem := by
  unfold State.lapArrive
  dsimp only
  split
  · refine canonical_onCells (fun _ ht => ?_) hs
    refine canonical_ite (canonical_trap ht) ?_
    refine canonical_ite ?_ (canonical_hurdleArrive ht)
    exact canonical_finX (canonical_setPhase (canonical_of_mem_eq mem_seesCompletion (canonical_hurdleArrive ht)))
  · exact canonical_of_mem_eq mem_send (canonical_of_mem_eq mem_park (canonical_of_mem_eq mem_newTag hs))
  · exact canonical_ite hs (canonical_sendRanked (canonical_of_mem_eq mem_park (canonical_of_mem_eq mem_newTag hs)))
  · exact hs

theorem canonical_lapGo (hs : Canonical s.mem) : Canonical (s.lapGo rec').mem := by
  unfold State.lapGo
  split
  · dsimp only
    exact canonical_ite hs (canonical_goOn (fun _ ht => canonical_lapArrive ht) hs)
  · exact hs
end

/-! ### Msg -/
section
variable {s : State} {who : Option Nat} {x2 : List Nat} {x3 : List Byte} {rd rs1 : Reg} {buf v : Dword}
  {queue : BitVec 3} {wait : State → State} {rec' kind : Nat} {w : Word32} {ok : Bool}

theorem canonical_putCells {cs : List Nat} {l : List Byte} (hs : Canonical s.mem) :
    Canonical (s.putCells who cs l).mem := by
  induction cs generalizing s l with
  | nil => exact hs
  | cons c cs ih =>
    cases l with
    | nil => exact hs
    | cons b bs => exact ih (canonical_store hs)

theorem canonical_takeMsg (hwait : ∀ x, Canonical x.mem → Canonical (wait x).mem) (hs : Canonical s.mem) :
    Canonical (s.takeMsg rd buf queue wait).mem := by
  unfold State.takeMsg
  dsimp only
  refine canonical_ite (canonical_trap hs) ?_
  split
  · exact hwait _ hs
  · split
    · exact canonical_trap hs
    · exact canonical_onCells (fun _ ht => canonical_finX (canonical_putCells
        (canonical_of_mem_eq mem_acquireLog ht))) hs

theorem canonical_recvGo (hs : Canonical s.mem) : Canonical (s.recvGo rec').mem := by
  unfold State.recvGo
  split
  · split
    · exact hs
    · exact canonical_goOn (fun _ ht => canonical_takeMsg (fun _ hu => hu) ht) hs
  · exact hs

theorem canonical_rctChange (hs : Canonical s.mem) : Canonical (s.rctChange w rs1 kind v ok).mem := by
  unfold State.rctChange
  dsimp only
  refine canonical_ite (canonical_illegal hs) ?_
  refine canonical_foldl (fun _ _ ht => ?_) (canonical_of_mem_eq mem_park (canonical_of_mem_eq mem_newTag hs))
  exact canonical_of_mem_eq mem_send ht
end


/-! ### Starter -/
section
variable {s x1 : State} {n pcl d status x0 off tag code energy : Nat} {r : BitVec 512} {forbidden : Bool}
  {v word : Dword} {x : Starter} {baton slot core version : Option Nat} {w : IntakeWrite} {p : Pkt} {g : GraphCopy}
  {data : Option (List Byte)}

@[simp] theorem mem_setStarter : (s.setStarter x).mem = s.mem := rfl

@[simp] theorem mem_rejectRecord : (s.rejectRecord r status).mem = s.mem := by
  unfold State.rejectRecord
  dsimp only
  (repeat' split) <;> simp

@[simp] theorem mem_takeRecord : (s.takeRecord r forbidden).2.mem = s.mem := by
  unfold State.takeRecord
  (repeat' split) <;> simp

@[simp] theorem mem_dropIntake : (s.dropIntake).mem = s.mem := rfl

@[simp] theorem mem_intakeJoin : (s.intakeJoin r baton slot forbidden).mem = s.mem := by
  unfold State.intakeJoin
  split <;> simp

theorem canonical_drainIntake {x : Nat} (hs : Canonical s.mem) : Canonical (State.drainIntake x s).mem := by
  induction x generalizing s with
  | zero => exact hs
  | succ n ih =>
    unfold State.drainIntake
    split
    · exact hs
    · refine canonical_ite hs (ih ?_)
      split
      · split
        · exact canonical_finishWait (canonical_of_mem_eq mem_takeRecord hs)
        · exact canonical_of_mem_eq mem_takeRecord hs
      · exact canonical_of_mem_eq mem_takeRecord hs

theorem canonical_takeIntake (hs : Canonical s.mem) : Canonical (s.takeIntake).mem := by
  unfold State.takeIntake
  exact canonical_drainIntake hs

theorem canonical_intakeWrite (hs : Canonical s.mem) : Canonical (s.intakeWrite w).mem := by
  unfold State.intakeWrite
  exact canonical_ite hs (canonical_ite hs (canonical_takeIntake (canonical_of_mem_eq mem_intakeJoin hs)))

theorem canonical_intakeCommit (hs : Canonical s.mem) : Canonical (s.intakeCommit core v).mem := by
  unfold State.intakeCommit
  split
  · exact canonical_ite hs (canonical_takeIntake (canonical_of_mem_eq mem_intakeJoin hs))
  · exact hs

@[simp] theorem mem_launchAdmit : (s.launchAdmit).mem = s.mem := by
  unfold State.launchAdmit
  dsimp only
  (repeat' split) <;> simp

@[simp] theorem mem_admissionDeadline : (s.admissionDeadline n).mem = s.mem := by
  unfold State.admissionDeadline
  (repeat' split) <;> simp

@[simp] theorem mem_reported {word : Dword} : (s.reported pcl word).mem = s.mem := by
  refine mem_foldl fun t n => ?_
  split
  · rfl
  · split <;> simp

@[simp] theorem mem_mgmtPkt : (s.mgmtPkt p).mem = s.mem := by
  unfold State.mgmtPkt
  dsimp only
  (repeat' split) <;> simp

@[simp] theorem mem_resourceReport : (s.resourceReport pcl).mem = s.mem := by
  unfold State.resourceReport
  dsimp only
  (repeat' split) <;> simp

theorem canonical_launchPlace (hs : Canonical s.mem) : Canonical (s.launchPlace).mem := by
  unfold State.launchPlace
  dsimp only
  refine canonical_ite hs ?_
  split
  · exact hs
  · refine canonical_inTurn (fun _ ht => ?_) hs
    split
    · exact ht
    · exact canonical_enqueue (canonical_storeLE ht)

@[simp] theorem mem_placementTimeout : (s.placementTimeout n).mem = s.mem := by
  unfold State.placementTimeout
  (repeat' split) <;> simp

@[simp] theorem mem_grdefAsk {g : GraphCopy} {n : Nat} : (s.grdefAsk g off n).2.mem = s.mem := by
  refine mem_foldl_snd fun r i => ?_
  dsimp only
  split
  · rfl
  · exact mem_send

@[simp] theorem mem_setCopying {r : GraphCopy × State} : (s.setCopying r).mem = r.2.mem := rfl

@[simp] theorem mem_grdefWrite : (s.grdefWrite v).mem = s.mem := by
  unfold State.grdefWrite
  split <;> simp

@[simp] theorem mem_grdefPiece : (s.grdefPiece tag data).mem = s.mem := by
  unfold State.grdefPiece
  (repeat' split) <;> simp

@[simp] theorem mem_grResult : (s.grResult version code).mem = s.mem := rfl

@[simp] theorem mem_grdefDone : (s.grdefDone).mem = s.mem := by
  unfold State.grdefDone
  dsimp only
  (repeat' split) <;> simp only [mem_grResult, mem_setCopying, mem_grdefAsk, mem_freeVersions, mem_setStarter]

@[simp] theorem mem_refill : (s.refill n).mem = s.mem := rfl

@[simp] theorem mem_countSlots : (s.countSlots n).mem = s.mem := rfl

@[simp] theorem mem_energyMeasure {energy : Nat} : (s.energyMeasure d energy).mem = s.mem := by
  unfold State.energyMeasure
  dsimp only
  split
  · rfl
  · refine mem_foldl fun t p => ?_
    split
    · split <;> rfl
    · rfl

@[simp] theorem mem_endDie : (s.endDie d).mem = s.mem := by
  simp [State.endDie]
end

/-! ### Sys -/
section
variable {s : State} {k a rec' cid : Nat} {rs1 rs2 : Reg} {l : List Byte} {live : Dword} {x2 : List (Nat × List Byte)}
  {x3 x4 : List Nat} {x5 : List (Nat × Nat)}

theorem canonical_releaseContext (hs : Canonical s.mem) : Canonical (s.releaseContext k).mem := by
  unfold State.releaseContext
  exact canonical_wakeMatrix hs

@[simp] theorem mem_sendImage {x : List (Nat × List Byte)} {ts : List Nat} : (s.sendImage a x ts).2.mem = s.mem := by
  induction x generalizing s ts with
  | nil => rfl
  | cons p r ih => exact ih.trans mem_send

theorem canonical_ctxSave (hs : Canonical s.mem) : Canonical (s.ctxSave rs1 rs2).mem := by
  unfold State.ctxSave
  dsimp only
  split
  · exact canonical_trap hs
  · refine canonical_ite (canonical_ite (canonical_settle hs) hs) ?_
    split
    · refine canonical_onCells (fun _ ht => ?_) ?_
      · refine canonical_fin ?_
        refine canonical_ite ?_ ?_
        · refine canonical_releaseContext ?_
          refine canonical_foldl (fun _ _ hu => ?_) ht
          exact canonical_putCells hu
        · refine canonical_foldl (fun _ _ hu => ?_) ht
          exact canonical_putCells hu
      · refine canonical_ite ?_ (canonical_ite (canonical_settle hs) hs)
        exact canonical_of_mem_eq mem_stopTile (canonical_ite (canonical_settle hs) hs)
    · refine canonical_setMe ?_
      refine canonical_of_mem_eq mem_sendImage ?_
      refine canonical_of_mem_eq mem_park ?_
      refine canonical_ite ?_ (canonical_ite (canonical_settle hs) hs)
      exact canonical_of_mem_eq mem_stopTile (canonical_ite (canonical_settle hs) hs)

@[simp] theorem mem_takeImage : (s.takeImage k l live).mem = s.mem := by
  unfold State.takeImage
  split <;> simp

@[simp] theorem mem_readImage {x : List Nat} {ts : List (Nat × Nat)} :
    (s.readImage rec' cid a x ts).2.mem = s.mem := by
  induction x generalizing s ts with
  | nil => rfl
  | cons o r ih => exact ih.trans mem_send

theorem canonical_takeWaiting (hs : Canonical s.mem) : Canonical (s.takeWaiting rec').mem := by
  unfold State.takeWaiting
  split
  · split
    · exact canonical_ite hs (canonical_finishWait (canonical_of_mem_eq mem_takeImage hs))
    · exact hs
  · exact hs

theorem canonical_ctxRestore (hs : Canonical s.mem) : Canonical (s.ctxRestore rs1 rs2).mem := by
  unfold State.ctxRestore
  dsimp only
  split
  · exact canonical_trap hs
  · refine canonical_ite hs ?_
    refine canonical_onCells (fun _ ht => ?_) hs
    refine canonical_ite (canonical_fin (canonical_of_mem_eq mem_takeImage ht)) ?_
    split
    · exact canonical_onCells (fun _ hu => canonical_ite hu (canonical_fin (canonical_of_mem_eq mem_takeImage hu))) ht
    · exact canonical_trap ht
  · exact canonical_ite hs (canonical_setMe (canonical_of_mem_eq mem_readImage hs))
end

/-! ### Vector -/
section
variable {s : State} {vd vs1 vs2 vs3 rs1 rs2 : Reg} {occ lat width rec' wide id len code : Nat} {ty : BitVec 3}
  {outs addrs vals : List Nat} {op : VOp2} {acc : VAccess} {wait : VAccess → Wait} {f : State → State} {v : Vreg}
  {g : Nat → Nat} {na nc spread isStore : Bool} {groups : List (List Nat)} {pkt : State → Nat → List Nat → Pkt}
  {deq : Option Nat} {m : Dword} {eff : Effect} {t : VTy}

theorem canonical_enterVec (hf : ∀ x, Canonical x.mem → Canonical (f x).mem) (hs : Canonical s.mem) :
    Canonical (s.enterVec occ lat outs wide f).mem := by
  unfold State.enterVec
  dsimp only
  exact canonical_ite hs (hf _ hs)

theorem canonical_vecOp (hs : Canonical s.mem) : Canonical (s.vecOp vd occ lat v).mem := by
  unfold State.vecOp
  exact canonical_enterVec (fun _ ht => canonical_fin ht) hs

@[simp] theorem mem_openWide : (s.openWide id).mem = s.mem := by
  unfold State.openWide
  split <;> simp

theorem canonical_gangWide {f : List Slot → Slot → List Slot} (hs : Canonical s.mem) :
    Canonical (s.gangWide occ lat outs f).mem := by
  unfold State.gangWide
  dsimp only
  refine canonical_enterVec (fun _ ht => ?_) hs
  refine canonical_ite ?_ (canonical_fin (canonical_of_mem_eq mem_openWide ht))
  refine canonical_fin ?_
  refine canonical_foldl (fun _ _ hu => ?_) (canonical_of_mem_eq mem_openWide ht)
  exact hu

theorem canonical_vFloat2 (hs : Canonical s.mem) : Canonical (s.vFloat2 op vd vs1 vs2 ty occ lat).mem := by
  unfold State.vFloat2
  exact canonical_vecOp hs

theorem canonical_vInt2 (hs : Canonical s.mem) : Canonical (s.vInt2 op vd vs1 vs2 ty).mem := by
  unfold State.vInt2
  exact canonical_vecOp hs

theorem canonical_vMap (hs : Canonical s.mem) : Canonical (s.vMap vd vs1 ty occ lat g).mem := by
  unfold State.vMap
  exact canonical_vecOp hs

theorem canonical_vFma (hs : Canonical s.mem) : Canonical (s.vFma na nc vd vs1 vs2 vs3).mem := by
  unfold State.vFma
  dsimp only
  exact canonical_vecOp hs

@[simp] theorem mem_parkParts {groups : List (List Nat)} {acc : VAccess} {wait : VAccess → Wait}
    {pkt : State → Nat → List Nat → Pkt} :
    (s.parkParts groups acc wait pkt len).mem = s.mem := by
  refine (mem_foldl fun _ _ => mem_send).trans ?_
  exact List.foldlRecOn (motive := fun r : State × List VPart => r.1.mem = s.mem) _ _ rfl fun _ hr _ _ => hr

theorem canonical_vload (hs : Canonical s.mem) : Canonical (s.vload vd width spread deq addrs).mem := by
  unfold State.vload
  dsimp only
  refine canonical_ite (canonical_trap hs) ?_
  exact canonical_onCells (fun _ ht => canonical_ite (canonical_fin ht) (canonical_of_mem_eq mem_parkParts ht)) hs

theorem canonical_vstore (hs : Canonical s.mem) : Canonical (s.vstore width addrs vals).mem := by
  unfold State.vstore
  dsimp only
  refine canonical_ite (canonical_trap hs) ?_
  refine canonical_onCells (fun _ ht => ?_) hs
  refine canonical_ite ?_ ?_
  · refine canonical_fin ?_
    refine canonical_foldl (fun _ _ hu => ?_) ht
    split
    · exact canonical_storeLE hu
    · exact hu
  · refine canonical_of_mem_eq mem_parkParts ?_
    refine canonical_foldl (fun _ _ hu => ?_) ht
    split
    · exact canonical_storeLE hu
    · exact hu

theorem canonical_setXufmask (hs : Canonical s.mem) : Canonical (s.setXufmask rec' m).mem := by
  unfold State.setXufmask
  split
  · dsimp only
    exact hs
  · exact canonical_getD (canonical_frameWrite hs) hs

theorem canonical_vSettle (hs : Canonical s.mem) : Canonical (s.vSettle rec' acc wait eff isStore).mem := by
  unfold State.vSettle
  refine canonical_ite (canonical_of_mem_eq mem_setWait hs) ?_
  split
  · exact canonical_finishWait hs
  · exact canonical_remoteFault (canonical_ite (canonical_setXufmask hs) hs)

theorem canonical_vloadq (hs : Canonical s.mem) : Canonical (s.vloadq vd rs1 rs2 t code).mem := by
  unfold State.vloadq
  dsimp only
  exact canonical_ite (canonical_trap hs) (canonical_vload hs)
end

/-! ### Mm -/
section
variable {s : State} {w : Word32} {f : State → State} {rs1 rdv : Dword} {rs2 : Reg} {cause cid : Nat} {op : MemOp}
  {b : Bool}

theorem canonical_withContext (hf : ∀ x, Canonical x.mem → Canonical (f x).mem) (hs : Canonical s.mem) :
    Canonical (s.withContext f).mem := by
  unfold State.withContext
  dsimp only
  split
  · exact hf _ hs
  · exact canonical_ite (hf _ hs) hs

theorem canonical_xm (hs : Canonical s.mem) : Canonical (s.xm w rs1 rdv).mem := by
  unfold State.xm
  refine canonical_ite hs ?_
  refine canonical_withContext (fun _ ht => ?_) hs
  dsimp only
  exact canonical_fin ht

theorem canonical_drainLoad {rs1 : Reg} (hs : Canonical s.mem) : Canonical (s.drainLoad w rs1 rs2 cause op).mem := by
  unfold State.drainLoad
  dsimp only
  exact canonical_ite (canonical_trap hs) (canonical_xm hs)

@[simp] theorem mem_flushPort : (s.flushPort cid b).mem = s.mem := by
  unfold State.flushPort
  (repeat' split) <;> simp
end

/-! ### Cp -/
section
variable {s : State} {rd xg rs2 : Reg} {rec' pcl i t x5 va pkg gen : Nat} {kind : CpKind}
  {h handle g0 g1 g2 ctl w : Dword} {done : State → Dword → State} {e : CpEntry} {x : CpHurdle}
  {wait : State → Nat → Nat → State} {branch fault : Option Nat} {bare : Bool} {word : Word32} {f : Dword → Dword}

@[simp] theorem mem_addLapCopies : (s.addLapCopies rec' handle).mem = s.mem := by
  unfold State.addLapCopies
  split <;> simp

theorem canonical_cpIssued (hdone : ∀ x y, Canonical x.mem → Canonical (done x y).mem) (hs : Canonical s.mem) :
    Canonical (s.cpIssued pcl i done).mem := by
  unfold State.cpIssued
  split
  · exact hs
  · dsimp only
    refine canonical_ite ?_ (hdone _ _ (canonical_of_mem_eq mem_addLapCopies hs))
    exact canonical_copyComplete (hdone _ _ (canonical_of_mem_eq mem_addLapCopies hs))

theorem canonical_genRead (hs : Canonical s.mem) : Canonical (s.genRead pcl e x t).mem := by
  unfold State.genRead
  dsimp only
  split
  · exact canonical_of_mem_eq mem_send hs
  · exact canonical_sendRanked hs
  · exact hs

theorem canonical_gatherGens {wait : State → Nat → Nat → State} {done : State → State} {x : Nat}
    (hwait : ∀ t j n, Canonical t.mem → Canonical (wait t j n).mem) (hdone : ∀ t, Canonical t.mem → Canonical
      (done t).mem)
    (hs : Canonical s.mem) : Canonical (s.gatherGens pcl i wait done x).mem := by
  induction x generalizing s with
  | zero => exact hdone _ hs
  | succ n ih =>
    unfold State.gatherGens
    split
    · exact hs
    · split
      · exact hdone _ hs
      · split
        · exact ih hs
        · exact ih hs
        · exact canonical_genRead (hwait _ _ _ hs)

theorem canonical_genAnswer (hs : Canonical s.mem) :
    Canonical (s.genAnswer rec' rd i branch fault va pkg gen).mem := by
  unfold State.genAnswer
  dsimp only
  split
  · exact hs
  · split
    · exact canonical_cpIssued (fun _ _ ht => canonical_finishWait ht) hs
    · exact canonical_gatherGens (fun _ _ _ ht => canonical_of_mem_eq mem_setWait ht) (fun _ ht => canonical_cpIssued
        (fun _ _ hu => canonical_finishWait hu) ht) hs

theorem canonical_cpStart (hs : Canonical s.mem) : Canonical (s.cpStart kind rd g0 g1 g2 ctl h bare).mem := by
  unfold State.cpStart
  dsimp only
  refine canonical_onCells (fun _ ht => ?_) hs
  split
  · exact ht
  · exact ht
  · refine canonical_ite ?_ ?_
    · refine canonical_gatherGens (fun _ _ _ hu => ?_) (fun _ hu => canonical_cpIssued
        (fun _ _ hv => canonical_finX hv) hu) ht
      exact hu
    · split
      · exact canonical_cpIssued (fun _ _ hu => canonical_finX hu) ht
      · exact canonical_cpIssued (fun _ _ hu => canonical_finX hu) ht
      · exact canonical_cpIssued (fun _ _ hu => canonical_finX hu) ht
      · exact canonical_genRead (canonical_of_mem_eq mem_park (canonical_of_mem_eq mem_newTag ht))

theorem canonical_cpGo (hs : Canonical s.mem) : Canonical (s.cpGo rec').mem := by
  unfold State.cpGo
  split
  · dsimp only
    exact canonical_ite hs (canonical_goOn (fun _ ht => canonical_cpStart ht) hs)
  · exact hs

theorem canonical_cpIssue (hs : Canonical s.mem) : Canonical (s.cpIssue kind rd xg rs2).mem := by
  unfold State.cpIssue
  refine canonical_whenReleased (fun _ ht => ?_) hs
  dsimp only
  exact canonical_ite (canonical_trap ht) (canonical_cpStart ht)

@[simp] theorem mem_takeFree : (s.takeFree).2.mem = s.mem := rfl

@[simp] theorem mem_cancelOne : (s.cancelOne h).2.mem = s.mem := by
  unfold State.cancelOne
  (repeat' split) <;> simp

theorem canonical_bufSet (hs : Canonical s.mem) : Canonical (s.bufSet rd w word f).mem := by
  unfold State.bufSet
  refine canonical_ite (canonical_illegal hs) ?_
  dsimp only
  exact canonical_ite (canonical_illegal hs) (canonical_finX hs)
end


/-! ### Stat -/
section
variable {s : State} {w : Word32} {std : BitVec 3} {regs : List (BitVec 3)} {f : State → State} {a : Stat} {t : VTy}
  {xs ws : List Nat}

theorem canonical_statChecked (hf : ∀ x, Canonical x.mem → Canonical (f x).mem) (hs : Canonical s.mem) :
    Canonical (s.statChecked regs w f).mem := by
  unfold State.statChecked
  exact canonical_ite (canonical_trap hs) (hf _ hs)

theorem canonical_finSt (hs : Canonical s.mem) : Canonical (s.finSt std a).mem := by
  unfold State.finSt
  exact canonical_fin hs

theorem canonical_vstat (hs : Canonical s.mem) : Canonical (s.vstat std t xs ws w).mem := by
  unfold State.vstat
  exact canonical_statChecked (fun _ ht => canonical_enterVec (fun _ hu => canonical_finSt hu) ht) hs
end

/-! ### Cycle -/
section
variable {s : State} {n rec' launch : Nat} {tk : BitVec 16} {w : Word32} {h value : Dword} {r : CycRec} {q : CycReq}
  {rs : List (Nat × Nat)} {l : List Byte} {legal : CycRec → Bool} {f : State → Nat → CycRec → State}
  {res : Option Streg}

@[simp] theorem mem_setCyc : (s.setCyc n r).mem = s.mem := rfl

theorem canonical_pollCycle (hs : Canonical s.mem) : Canonical (s.pollCycle rec').mem := by
  unfold State.pollCycle
  split
  · dsimp only
    refine canonical_ite (canonical_failWait hs) ?_
    split
    · exact hs
    · exact canonical_finishWait (canonical_of_mem_eq mem_acquireLog hs)
    · exact canonical_failWait hs
  · dsimp only
    exact canonical_ite (canonical_failWait hs) hs
  · exact hs

theorem canonical_wakeCycle (hs : Canonical s.mem) : Canonical (s.wakeCycle n).mem := by
  unfold State.wakeCycle
  refine canonical_foldl (fun _ _ ht => ?_) hs
  split
  · exact canonical_ite (canonical_pollCycle ht) ht
  · exact canonical_ite (canonical_pollCycle ht) ht
  · exact ht

theorem canonical_closeIteration (hs : Canonical s.mem) : Canonical (s.closeIteration n).mem := by
  unfold State.closeIteration
  dsimp only
  refine canonical_ite ?_ hs
  refine canonical_foldl (fun _ _ ht => ?_) hs
  split
  · exact canonical_ite (canonical_finishWait (canonical_of_mem_eq mem_acquireLog ht)) ht
  · exact ht

theorem canonical_cycTakeReq (hs : Canonical s.mem) : Canonical (s.cycTakeReq q).mem := by
  unfold State.cycTakeReq
  dsimp only
  split
  · exact canonical_wakeCycle (canonical_of_mem_eq mem_setCyc (canonical_of_mem_eq mem_dropPosted hs))
  · refine canonical_ite ?_ (canonical_of_mem_eq mem_dropPosted hs)
    exact canonical_of_mem_eq mem_addDeferred (canonical_of_mem_eq mem_dropPosted hs)

theorem canonical_cycRequest (hs : Canonical s.mem) : Canonical (s.cycRequest).mem := by
  unfold State.cycRequest
  split
  · exact hs
  · exact canonical_cycTakeReq hs

theorem canonical_cycDrain (hs : Canonical s.mem) : Canonical (s.cycDrain rec').mem := by
  unfold State.cycDrain
  dsimp only
  refine canonical_foldl (fun _ _ ht => ?_) hs
  exact canonical_cycTakeReq ht

@[simp] theorem mem_freezeAll {rs : List (Nat × Nat)} : (s.freezeAll n tk rs).mem = s.mem := by
  unfold State.freezeAll
  refine mem_foldl fun _ _ => ?_
  rfl

@[simp] theorem mem_cycOpen : (s.cycOpen tk launch l).2.mem = s.mem := by
  unfold State.cycOpen
  dsimp only
  (repeat' split) <;> simp

theorem canonical_onCycle (hf : ∀ x y z, Canonical x.mem → Canonical (f x y z).mem) (hs : Canonical s.mem) :
    Canonical (s.onCycle w h legal f).mem := by
  unfold State.onCycle
  refine canonical_unlessGanged (fun _ ht => ?_) hs
  dsimp only
  split
  · exact canonical_ite (hf _ _ _ (canonical_cycDrain ht)) (canonical_trap (canonical_cycDrain ht))
  · exact canonical_trap (canonical_cycDrain ht)

theorem canonical_cycPost (hs : Canonical s.mem) : Canonical (s.cycPost w h res value).mem := by
  unfold State.cycPost
  refine canonical_unlessGanged (fun _ ht => ?_) hs
  refine canonical_ite (canonical_trap ht) ?_
  refine canonical_ite (canonical_trap ht) ?_
  refine canonical_whenReleased (fun _ hu => ?_) ht
  dsimp only [State.newTag]
  exact canonical_fin hu
end

/-! ### Relay -/
section
variable {s : State} {k i rank slot status g tag x2 off launch pid : Nat} {p : Plan} {tk : BitVec 16} {r : Run}
  {l data : List Byte} {ticket h gv rv : Dword} {fault : Option Nat} {n : RunNode} {m : RunMember} {ty : PType}
  {bases : List Dword} {x : Group} {join : Bool}

@[simp] theorem mem_setRelay {r : Relay} : (s.setRelay r).mem = s.mem := rfl

@[simp] theorem mem_setRun : (s.setRun k r).mem = s.mem := rfl

@[simp] theorem mem_setPlan : (s.setPlan slot p).mem = s.mem := rfl

@[simp] theorem mem_retime : (s.retime).mem = s.mem := rfl

theorem canonical_wakeColl (hs : Canonical s.mem) : Canonical (s.wakeColl ticket status).mem := by
  unfold State.wakeColl
  refine canonical_foldl (fun _ _ ht => ?_) hs
  split
  · exact canonical_ite (canonical_finishWait ht) ht
  · exact ht

theorem canonical_completeRuns {x : Nat} (hs : Canonical s.mem) : Canonical (s.completeRuns slot x).mem := by
  induction x generalizing s with
  | zero => exact hs
  | succ n ih =>
    unfold State.completeRuns
    split
    · exact canonical_ite hs (ih (canonical_wakeColl hs))
    · exact hs

theorem canonical_endNode (hs : Canonical s.mem) : Canonical (s.endNode k i status).mem := by
  unfold State.endNode
  split
  · exact hs
  · exact canonical_completeRuns hs

@[simp] theorem mem_nodePiece : (s.nodePiece k i).mem = s.mem := by
  unfold State.nodePiece
  dsimp only
  (repeat' split) <;> simp

@[simp] theorem mem_nodeAnswer : (s.nodeAnswer k i tag data fault).mem = s.mem := by
  unfold State.nodeAnswer
  (repeat' split) <;> simp

@[simp] theorem mem_nodeMoved : (s.nodeMoved k i tag).mem = s.mem := by
  unfold State.nodeMoved
  (repeat' split) <;> simp

theorem canonical_sendArrive (hs : Canonical s.mem) : Canonical (s.sendArrive k i r n m off).mem := by
  unfold State.sendArrive
  dsimp only [State.newTag]
  exact canonical_sendRanked hs

@[simp] theorem mem_pauseFar : (s.pauseFar ty rank).mem = s.mem := by
  simp [State.pauseFar]

theorem canonical_nodeStart (hs : Canonical s.mem) : Canonical (s.nodeStart k i).mem := by
  have hdone := fun r => canonical_completeRuns (slot := Run.slot r) (x := 64) (s := s.setRun k (s.restart r)) hs
  unfold State.nodeStart
  split
  · exact hs
  · split
    · exact hs
    · next r _ _ n _ =>
      refine canonical_ite hs (canonical_ite (canonical_ite (hdone _) hs) ?_)
      split
      · exact hdone _
      · refine canonical_ite (hdone _) (canonical_ite (hdone _) (canonical_ite (hdone _) (canonical_ite (canonical_ite
          (hdone _) hs) ?_)))
        refine canonical_ite hs (canonical_ite ?_ ?_)
        · split
          · exact hdone _
          · exact canonical_ite (hdone _) (canonical_sendArrive hs)
        · exact canonical_ite (hdone _) (canonical_ite (hdone _) (canonical_of_mem_eq mem_nodePiece hs))

theorem canonical_nodeEnd (hs : Canonical s.mem) : Canonical (s.nodeEnd k i).mem := by
  unfold State.nodeEnd
  split
  · exact hs
  · split
    · exact hs
    · exact canonical_ite (canonical_endNode hs) (canonical_of_mem_eq mem_nodePiece hs)

@[simp] theorem mem_endRun : (s.endRun k status).mem = s.mem := by
  unfold State.endRun
  (repeat' split) <;> simp

@[simp] theorem mem_stallTimeout : (s.stallTimeout k).mem = s.mem := by
  unfold State.stallTimeout
  (repeat' split) <;> simp

theorem canonical_relayDown (hs : Canonical s.mem) : Canonical (s.relayDown).mem := by
  unfold State.relayDown
  dsimp only
  refine canonical_foldl (fun _ _ ht => ?_) ?_
  · split
    · exact canonical_finishWait ht
    · exact ht
  · refine canonical_setReady ?_
    refine canonical_of_mem_eq mem_setRelay ?_
    refine canonical_ite ?_ hs
    refine canonical_foldl (fun _ _ ht => ?_) hs
    refine canonical_foldl (fun _ _ hu => ?_) ht
    split
    · exact canonical_ite (canonical_sendRanked hu) hu
    · exact hu

@[simp] theorem mem_openRun : (s.openRun slot p).2.mem = s.mem := rfl

@[simp] theorem mem_runFor : (s.runFor slot p rank).2.mem = s.mem := by
  unfold State.runFor
  split <;> simp

@[simp] theorem mem_joinRun : (s.joinRun slot p rank launch bases).2.mem = s.mem := by
  unfold State.joinRun
  dsimp only
  (repeat' split) <;> simp

@[simp] theorem mem_setGroup : (s.setGroup g x).mem = s.mem := rfl

@[simp] theorem mem_unpause : (s.unpause rank).mem = s.mem := by
  simp [State.unpause]

@[simp] theorem mem_pause : (s.pause rank).mem = s.mem := by
  unfold State.pause
  split <;> simp

@[simp] theorem mem_withdraw : (s.withdraw g rank).mem = s.mem := by
  unfold State.withdraw
  dsimp only
  split <;> simp

@[simp] theorem mem_pauseLimit : (s.pauseLimit i).mem = s.mem := by
  unfold State.pauseLimit
  (repeat' split) <;> simp

@[simp] theorem mem_reservationRelease : (s.reservationRelease i).mem = s.mem := by
  unfold State.reservationRelease
  split <;> simp

@[simp] theorem mem_loadPlan : (s.loadPlan tk pid l).2.mem = s.mem := by
  unfold State.loadPlan
  dsimp only
  (repeat' split) <;> simp

@[simp] theorem mem_unloadPlan : (s.unloadPlan h).2.mem = s.mem := by
  unfold State.unloadPlan
  (repeat' split) <;> simp

@[simp] theorem mem_defineGroup : (s.defineGroup tk g l).2.mem = s.mem := by
  unfold State.defineGroup
  dsimp only
  (repeat' split) <;> simp

@[simp] theorem mem_changeMember : (s.changeMember tk gv rv join).2.mem = s.mem := by
  unfold State.changeMember
  dsimp only
  (repeat' split) <;> simp
end

/-! ### Coll -/
section
variable {s : State} {op : DescOp} {rec' a launch src tag : Nat} {rd rs1 rs2 : Reg} {tk : BitVec 16} {l : List Byte}
  {v : Dword} {w : Word32} {x5 x6 : List (Nat × Nat)} {data : Option (List Byte)} {join : Bool} {ty : PType}

@[simp] theorem mem_descRun : (s.descRun op tk launch l).2.mem = s.mem := by
  unfold State.descRun
  (repeat' split) <;> simp

@[simp] theorem mem_descReads {x ts : List (Nat × Nat)} : (s.descReads rec' tk src a x ts).2.mem = s.mem := by
  induction x generalizing s ts with
  | nil => rfl
  | cons p r ih => exact ih.trans mem_send

theorem canonical_descEnd (hs : Canonical s.mem) : Canonical (s.descEnd rec' rd op a v).mem := by
  unfold State.descEnd
  exact canonical_ite (canonical_failWait hs) (canonical_finishWait hs)

theorem canonical_descRound (hs : Canonical s.mem) : Canonical (s.descRound rec' src tk launch rd op a l).mem := by
  unfold State.descRound
  dsimp only
  refine canonical_ite (canonical_descEnd (canonical_of_mem_eq mem_descRun hs)) ?_
  exact canonical_ite (canonical_descEnd hs) (canonical_of_mem_eq mem_setWait (canonical_of_mem_eq mem_descReads hs))

theorem canonical_descAnswer (hs : Canonical s.mem) : Canonical (s.descAnswer rec' tag data).mem := by
  unfold State.descAnswer
  split
  · split
    · exact hs
    · dsimp only
      exact canonical_ite (canonical_of_mem_eq mem_setWait hs) (canonical_ite (canonical_descEnd hs)
        (canonical_descRound hs))
  · exact hs

theorem canonical_descIssue (hs : Canonical s.mem) : Canonical (s.descIssue rd op a).mem := by
  unfold State.descIssue
  dsimp only
  refine canonical_ite (canonical_trap hs) ?_
  refine canonical_ite ?_ (canonical_ite (canonical_descRound hs) (canonical_trap hs))
  split
  · exact canonical_of_mem_eq mem_finReply hs
  · refine canonical_onCells (fun _ ht => ?_) hs
    split
    · exact canonical_of_mem_eq mem_finReply ht
    · exact canonical_onCells (fun _ hu => canonical_of_mem_eq mem_finReply (canonical_of_mem_eq mem_descRun hu)) ht

theorem canonical_memberChange (hs : Canonical s.mem) : Canonical (s.memberChange w rd rs1 rs2 join).mem := by
  unfold State.memberChange
  refine canonical_unlessGanged (fun _ ht => ?_) hs
  refine canonical_ite (canonical_of_mem_eq mem_finReply ht) ?_
  dsimp only
  exact canonical_of_mem_eq mem_finReply (canonical_of_mem_eq mem_changeMember ht)

theorem canonical_pauseRank (hs : Canonical s.mem) : Canonical (s.pauseRank w ty v).mem := by
  unfold State.pauseRank
  refine canonical_unlessGanged (fun _ ht => ?_) hs
  refine canonical_ite (canonical_illegal ht) ?_
  refine canonical_ite (canonical_of_mem_eq mem_finReply ht) ?_
  dsimp only
  split
  · exact canonical_of_mem_eq mem_parkOn ht
  · refine canonical_foldl (fun _ _ hu => ?_) ht
    exact canonical_of_mem_eq mem_send (canonical_of_mem_eq mem_newTag hu)
end


/-! ### Fetch -/
section
variable {s : State} {k a rec' va f n : Nat} {l : List Byte} {data : Option (List Byte)}

@[simp] theorem mem_cached : (s.cached f n).mem = s.mem := rfl

theorem canonical_fetchTrap (hs : Canonical s.mem) : Canonical (s.fetchTrap k a).mem := by
  unfold State.fetchTrap
  dsimp only
  split
  · exact canonical_deliver hs
  · refine canonical_wakeLeads ?_
    refine canonical_foldl (fun _ _ ht => ?_) ?_
    · exact canonical_ite (canonical_deliver ht) (canonical_deliver ht)
    · refine canonical_foldl (fun _ _ ht => ?_) (canonical_disbandGang hs)
      exact canonical_disbandAway ht

@[simp] theorem mem_fetchAsk : (s.fetchAsk k a).mem = s.mem := by
  simp [State.fetchAsk]

theorem canonical_fetchAnswer (hs : Canonical s.mem) : Canonical (s.fetchAnswer rec' va data).mem := by
  unfold State.fetchAnswer
  split
  · exact canonical_reissue hs
  · exact canonical_fetchTrap hs
  · exact canonical_failWait hs
end

/-! ### Arrivals -/
section
variable {s : State} {rec' tag pcl d : Nat} {p : Pkt} {data : Option (List Byte)} {rd : Reg} {self read poison : Bool}
  {fault : Nat × Nat} {r st : Option Nat} {o : Owner} {q : BitVec 3}

theorem canonical_endAway (hs : Canonical s.mem) : Canonical (s.endAway rec').mem := by
  unfold State.endAway
  split
  · exact hs
  · dsimp only
    refine canonical_of_mem_eq mem_batonDone ?_
    refine canonical_setCluster ?_
    refine canonical_foldl (fun _ _ ht => ?_) (canonical_of_mem_eq mem_dropAway (canonical_recWrite
      (canonical_freeFrame hs)))
    exact ht

theorem canonical_sendDone (hs : Canonical s.mem) : Canonical (s.sendDone rec' rd self).mem := by
  unfold State.sendDone
  refine canonical_ite ?_ (canonical_finishWait hs)
  split
  · exact canonical_endBaton hs
  · exact canonical_endAway hs

theorem canonical_imageRead (hs : Canonical s.mem) : Canonical (s.imageRead rec' tag data fault).mem := by
  unfold State.imageRead
  split
  · split
    · exact hs
    · dsimp only
      refine canonical_ite (canonical_of_mem_eq mem_setWait hs) ?_
      split
      · exact canonical_remoteFault hs
      · refine canonical_ite ?_ ?_
        · exact canonical_ite (canonical_failWait hs) (canonical_of_mem_eq mem_setWait
            (canonical_of_mem_eq mem_readImage hs))
        · split
          · exact canonical_ite hs (canonical_finishWait (canonical_of_mem_eq mem_takeImage hs))
          · split
            · exact canonical_reissue hs
            · exact hs
  · exact hs

theorem canonical_imageWritten {fault : Option (Nat × Nat)} (hs : Canonical s.mem) :
    Canonical (s.imageWritten rec' tag fault).mem := by
  unfold State.imageWritten
  split
  · refine canonical_ite hs ?_
    dsimp only
    refine canonical_ite (canonical_of_mem_eq mem_setWait hs) ?_
    split
    · exact canonical_remoteFault hs
    · exact canonical_finishWait (canonical_ite (canonical_releaseContext hs) hs)
    · exact canonical_finishWait (canonical_ite (canonical_editFlags hs) hs)
  · exact hs

@[simp] theorem mem_reserveFar : (s.reserveFar rec' r).mem = s.mem := by
  unfold State.reserveFar
  split <;> simp

theorem canonical_dataReply (hs : Canonical s.mem) : Canonical (s.dataReply rec' p).mem := by
  unfold State.dataReply
  dsimp only
  split
  · exact canonical_ite (canonical_finishWait (canonical_ite (canonical_of_mem_eq mem_reserveFar hs) hs)) hs
  · exact canonical_ite (canonical_finishWait hs) hs
  · exact canonical_ite (canonical_finishWait (canonical_ite (canonical_of_mem_eq mem_reserveFar hs) hs)) hs
  · exact canonical_ite (canonical_fetchAnswer hs) hs
  · exact canonical_vSettle hs
  · refine canonical_ite hs ?_
    split
    · exact canonical_finishWait hs
    · exact canonical_failWait hs
  · exact canonical_ite (canonical_genAnswer hs) hs
  · exact canonical_descAnswer hs
  · exact canonical_imageRead hs
  · exact hs

@[simp] theorem mem_hostAnswer : (s.hostAnswer read data poison).mem = s.mem := rfl

@[simp] theorem mem_starterAnswer : (s.starterAnswer o tag data st).mem = s.mem := by
  unfold State.starterAnswer
  split <;> simp

theorem canonical_readReplied (hs : Canonical s.mem) : Canonical (s.readReplied p).mem := by
  unfold State.readReplied
  dsimp only
  split
  · exact canonical_dataReply (canonical_of_mem_eq mem_dropTag (canonical_of_mem_eq mem_rankDone hs))
  · exact canonical_of_mem_eq mem_dropPosted (canonical_of_mem_eq mem_dropTag (canonical_of_mem_eq mem_rankDone hs))
  · exact canonical_pieceAnswer (canonical_of_mem_eq mem_dropTag (canonical_of_mem_eq mem_rankDone hs))
  · exact canonical_of_mem_eq mem_nodeAnswer (canonical_of_mem_eq mem_dropTag (canonical_of_mem_eq mem_rankDone hs))
  · exact canonical_of_mem_eq mem_hostAnswer (canonical_of_mem_eq mem_dropTag (canonical_of_mem_eq mem_rankDone hs))
  · exact canonical_of_mem_eq mem_starterAnswer (canonical_of_mem_eq mem_dropTag (canonical_of_mem_eq mem_rankDone hs))
  · exact canonical_of_mem_eq mem_rankDone hs

theorem canonical_ackReply (hs : Canonical s.mem) : Canonical (s.ackReply rec' p).mem := by
  unfold State.ackReply
  split
  · exact canonical_ite (canonical_finishWait hs) hs
  · dsimp only
    exact canonical_ite (canonical_finishWait hs) (canonical_of_mem_eq mem_setWait hs)
  · exact canonical_ite (canonical_sendDone hs) hs
  · exact canonical_ite (canonical_finishWait (canonical_setPhase (canonical_of_mem_eq mem_acquireLog hs))) hs
  · exact canonical_vSettle hs
  · exact canonical_imageWritten hs
  · exact hs

theorem canonical_writeAcked (hs : Canonical s.mem) : Canonical (s.writeAcked p).mem := by
  unfold State.writeAcked
  dsimp only
  split
  · exact canonical_ackReply (canonical_of_mem_eq mem_dropTag (canonical_of_mem_eq mem_rankDone hs))
  · exact canonical_of_mem_eq mem_dropPosted (canonical_of_mem_eq mem_dropTag (canonical_of_mem_eq mem_rankDone hs))
  · exact canonical_pieceAnswer (canonical_of_mem_eq mem_dropTag (canonical_of_mem_eq mem_rankDone hs))
  · exact canonical_arriveAnswer (canonical_of_mem_eq mem_dropTag (canonical_of_mem_eq mem_rankDone hs))
  · exact canonical_of_mem_eq mem_branchAnswer (canonical_of_mem_eq mem_dropTag (canonical_of_mem_eq mem_rankDone hs))
  · exact canonical_of_mem_eq mem_nodeAnswer (canonical_of_mem_eq mem_dropTag (canonical_of_mem_eq mem_rankDone hs))
  · exact canonical_of_mem_eq mem_nodeAnswer (canonical_of_mem_eq mem_dropTag (canonical_of_mem_eq mem_rankDone hs))
  · refine canonical_takeIntake ?_
    exact canonical_of_mem_eq mem_hostAnswer (canonical_of_mem_eq mem_dropTag (canonical_of_mem_eq mem_rankDone hs))
  · exact canonical_of_mem_eq mem_starterAnswer (canonical_of_mem_eq mem_dropTag (canonical_of_mem_eq mem_rankDone hs))
  · exact canonical_of_mem_eq mem_rankDone hs

theorem canonical_faultReply (hs : Canonical s.mem) : Canonical (s.faultReply rec' p).mem := by
  unfold State.faultReply
  dsimp only
  split
  · exact canonical_ite (canonical_remoteFault hs) hs
  · exact canonical_ite (canonical_remoteFault hs) hs
  · exact canonical_ite (canonical_remoteFault hs) hs
  · exact canonical_ite (canonical_remoteFault hs) hs
  · exact canonical_ite (canonical_remoteFault hs) hs
  · exact canonical_ite (canonical_remoteFault hs) hs
  · exact canonical_ite (canonical_fetchAnswer hs) hs
  · exact canonical_vSettle hs
  · exact canonical_vSettle hs
  · exact canonical_vSettle hs
  · exact canonical_ite (canonical_finishWait hs) hs
  · exact canonical_ite (canonical_finishWait hs) hs
  · exact canonical_ite (canonical_genAnswer hs) hs
  · exact canonical_descAnswer hs
  · exact canonical_imageWritten hs
  · exact canonical_imageRead hs
  · exact hs

theorem canonical_faulted (hs : Canonical s.mem) : Canonical (s.faulted p).mem := by
  unfold State.faulted
  dsimp only
  split
  · exact canonical_faultReply (canonical_of_mem_eq mem_dropTag (canonical_of_mem_eq mem_rankDone hs))
  · refine canonical_of_mem_eq mem_addDeferred ?_
    exact canonical_of_mem_eq mem_dropPosted (canonical_of_mem_eq mem_dropTag (canonical_of_mem_eq mem_rankDone hs))
  · exact canonical_pieceAnswer (canonical_of_mem_eq mem_dropTag (canonical_of_mem_eq mem_rankDone hs))
  · exact canonical_arriveAnswer (canonical_of_mem_eq mem_dropTag (canonical_of_mem_eq mem_rankDone hs))
  · exact canonical_of_mem_eq mem_branchAnswer (canonical_of_mem_eq mem_dropTag (canonical_of_mem_eq mem_rankDone hs))
  · exact canonical_of_mem_eq mem_nodeAnswer (canonical_of_mem_eq mem_dropTag (canonical_of_mem_eq mem_rankDone hs))
  · exact canonical_of_mem_eq mem_nodeAnswer (canonical_of_mem_eq mem_dropTag (canonical_of_mem_eq mem_rankDone hs))
  · refine canonical_takeIntake ?_
    exact canonical_of_mem_eq mem_hostAnswer (canonical_of_mem_eq mem_dropTag (canonical_of_mem_eq mem_rankDone hs))
  · exact canonical_of_mem_eq mem_starterAnswer (canonical_of_mem_eq mem_dropTag (canonical_of_mem_eq mem_rankDone hs))
  · exact canonical_of_mem_eq mem_rankDone hs

theorem canonical_wakeReceivers (hs : Canonical s.mem) : Canonical (s.wakeReceivers pcl q).mem := by
  unfold State.wakeReceivers
  refine canonical_foldl (fun _ _ ht => ?_) hs
  split
  · split
    · exact canonical_recvGo ht
    · exact ht
  · exact ht

theorem canonical_msgArrives (hs : Canonical s.mem) : Canonical (s.msgArrives p).mem := by
  unfold State.msgArrives
  dsimp only
  refine canonical_ite (canonical_of_mem_eq mem_movedPkt hs) ?_
  refine canonical_ite (canonical_of_mem_eq mem_refuse hs) ?_
  exact canonical_ite (canonical_of_mem_eq mem_answer hs) (canonical_wakeReceivers (canonical_of_mem_eq mem_answer hs))

theorem canonical_msgAcked (hs : Canonical s.mem) : Canonical (s.msgAcked p).mem := by
  unfold State.msgAcked
  dsimp only
  split
  · split
    · refine canonical_ite hs ?_
      refine canonical_ite ?_ (canonical_of_mem_eq mem_setWait hs)
      exact canonical_finishWait (canonical_of_mem_eq mem_dropTag (canonical_of_mem_eq mem_rankDone hs))
    · exact hs
  · exact hs

theorem canonical_msgResend (hs : Canonical s.mem) : Canonical (s.msgResend rec').mem := by
  unfold State.msgResend
  split
  · dsimp only
    split
    · exact hs
    · exact canonical_ite hs (canonical_sendRanked (canonical_of_mem_eq mem_setWait hs))
  · exact hs

theorem canonical_msgMoved (hs : Canonical s.mem) : Canonical (s.msgMoved p).mem := by
  unfold State.msgMoved
  split
  · exact canonical_of_mem_eq mem_pieceMoved hs
  · exact canonical_of_mem_eq mem_nodeMoved hs
  · exact canonical_rankMoved hs

theorem canonical_rctApplied (hs : Canonical s.mem) : Canonical (s.rctApplied tag d).mem := by
  unfold State.rctApplied
  split
  · split
    · refine canonical_ite hs ?_
      dsimp only
      exact canonical_ite (canonical_finishWait hs) (canonical_of_mem_eq mem_setWait hs)
    · exact hs
  · exact hs
end

/-! ### Timers -/
section
variable {s : State} {die rec' word bit : Nat} {f : State → State}

theorem canonical_ageRecord (hs : Canonical s.mem) : Canonical (s.ageRecord rec').mem := by
  unfold State.ageRecord
  dsimp only
  exact canonical_ite (canonical_recWrite hs) hs

theorem canonical_deadline (hs : Canonical s.mem) : Canonical (s.deadline rec').mem := by
  unfold State.deadline
  dsimp only
  split
  · exact canonical_ite (canonical_finishWait hs) hs
  · exact canonical_ite (canonical_finishWait hs) hs
  · exact hs

theorem canonical_onRelay (hf : ∀ x, Canonical x.mem → Canonical (f x).mem) (hs : Canonical s.mem) :
    Canonical (s.onRelay die f).mem := by
  unfold State.onRelay
  exact canonical_ite (hf _ hs) hs

theorem canonical_bankGate (hs : Canonical s.mem) : Canonical (s.bankGate die word bit).mem := by
  unfold State.bankGate
  dsimp only
  exact canonical_ite hs (canonical_ite hs (canonical_ite hs (canonical_gateNow hs)))

@[simp] theorem mem_bankWake : (s.bankWake die word bit).mem = s.mem := by
  unfold State.bankWake
  split <;> simp
end

/-! ### Preempt -/
section
variable {s : State} {p : Nat → Bool} {rec' reason : Nat} {ks : List Nat} {on : Bool} {v : Dword}

theorem canonical_setReason (hs : Canonical s.mem) : Canonical (s.setReason rec' reason).mem := by
  unfold State.setReason
  dsimp only
  exact canonical_recWrite hs

theorem canonical_holdWaiting (hs : Canonical s.mem) : Canonical (s.holdWaiting p).mem := by
  unfold State.holdWaiting
  refine canonical_foldl (fun _ _ ht => ?_) hs
  exact canonical_ite (canonical_setReason (canonical_setOrig ht)) ht

theorem canonical_holdGangs (hs : Canonical s.mem) : Canonical (s.holdGangs p).mem := by
  unfold State.holdGangs
  refine canonical_foldl (fun _ _ ht => ?_) hs
  dsimp only
  exact canonical_ite (canonical_breakGang ht) ht

theorem canonical_holdSlots (hs : Canonical s.mem) : Canonical (s.holdSlots p).mem := by
  unfold State.holdSlots
  refine canonical_foldl (fun _ _ ht => ?_) hs
  dsimp only
  refine canonical_ite ht ?_
  refine canonical_ite ?_ (canonical_settle ht)
  exact canonical_saving (fun _ hu => canonical_getD (canonical_saveOut hu) (canonical_endBaton hu))
    (canonical_settle ht)

theorem canonical_holdStep (hs : Canonical s.mem) : Canonical (s.holdStep p).mem := by
  unfold State.holdStep
  exact canonical_holdSlots (canonical_holdGangs (canonical_holdWaiting hs))

theorem canonical_release (hs : Canonical s.mem) : Canonical (s.release p).mem := by
  unfold State.release
  refine canonical_foldl (fun _ _ ht => ?_) hs
  refine canonical_ite ?_ ht
  dsimp only
  exact canonical_ite (canonical_enqueue (canonical_setOrig ht)) (canonical_setReason (canonical_setOrig ht))

@[simp] theorem mem_markHeld {on : Bool} : (s.markHeld ks on).mem = s.mem := by
  refine mem_foldl fun t k => ?_
  split <;> rfl

theorem canonical_prectlWrite (hs : Canonical s.mem) : Canonical (s.prectlWrite v).mem := by
  unfold State.prectlWrite
  dsimp only
  refine canonical_ite hs ?_
  refine canonical_ite hs ?_
  refine canonical_ite ?_ ?_
  · refine canonical_foldl (fun _ _ ht => ?_) (canonical_holdStep (canonical_of_mem_eq mem_markHeld hs))
    exact canonical_of_mem_eq mem_pause (canonical_of_mem_eq mem_pauseFar ht)
  · refine canonical_foldl (fun _ _ ht => ?_) (canonical_release (canonical_of_mem_eq mem_markHeld hs))
    exact canonical_of_mem_eq mem_unpause (canonical_of_mem_eq mem_pauseFar ht)
end


/-! ### Checkpoint -/
section
variable {s src : State} {state status to' i base v : Nat} {thenCopy : Bool} {mods : List Nat} {x : Saved}

@[simp] theorem mem_setCk : (s.setCk state status).mem = s.mem := rfl

theorem canonical_quiesce (hs : Canonical s.mem) : Canonical (s.quiesce thenCopy).mem := by
  unfold State.quiesce
  dsimp only
  refine canonical_of_mem_eq mem_setCk ?_
  refine canonical_holdStep ?_
  dsimp only
  refine canonical_foldl (fun _ _ ht => ?_) (canonical_of_mem_eq mem_markHeld hs)
  exact canonical_of_mem_eq mem_pause (canonical_of_mem_eq mem_pauseFar ht)

theorem canonical_beginCopy (hs : Canonical s.mem) : Canonical (s.beginCopy).mem := by
  unfold State.beginCopy
  dsimp only
  refine canonical_of_mem_eq mem_setCk ?_
  dsimp only
  split
  · exact canonical_store hs
  · exact hs

theorem canonical_ckStart (hs : Canonical s.mem) : Canonical (s.ckStart).mem := by
  unfold State.ckStart
  exact canonical_ite hs (canonical_ite hs (canonical_ite (canonical_beginCopy hs) (canonical_quiesce hs)))

theorem canonical_ckQuiesce (hs : Canonical s.mem) : Canonical (s.ckQuiesce).mem := by
  unfold State.ckQuiesce
  exact canonical_ite hs (canonical_quiesce hs)

@[simp] theorem mem_poisonBlock {src : State} : (s.poisonBlock src to' i).mem = s.mem := by
  refine mem_foldl fun t j => ?_
  split
  · split <;> rfl
  · rfl

theorem canonical_copyOut (hs : Canonical s.mem) : Canonical (s.copyOut).mem := by
  unfold State.copyOut
  dsimp only
  refine canonical_foldl (fun _ _ ht => ?_) ?_
  · exact canonical_store ht
  · refine canonical_store ?_
    refine canonical_foldl (fun _ _ ht => ?_) hs
    exact canonical_of_mem_eq mem_poisonBlock (canonical_store ht)

theorem canonical_copyDone (hs : Canonical s.mem) : Canonical (s.copyDone).mem := by
  unfold State.copyDone
  dsimp only
  exact canonical_copyOut hs

theorem canonical_copyIn (hs : Canonical s.mem) : Canonical (s.copyIn base mods).mem := by
  unfold State.copyIn
  refine canonical_foldl (fun _ _ ht => ?_) hs
  refine canonical_foldl (fun _ _ hu => ?_) ht
  split
  · dsimp only
    refine canonical_ite ?_ (canonical_store hu)
    dsimp only
    exact canonical_store hu
  · exact hu

@[simp] theorem mem_loadSaved {x : Saved} : (s.loadSaved x).mem = s.mem := by
  unfold State.loadSaved
  refine mem_foldl fun _ _ => ?_
  rfl

@[simp] theorem mem_setSwc {v : Nat} : (s.setSwc v).mem = s.mem := by
  unfold State.setSwc
  refine mem_foldl fun _ _ => ?_
  rfl

theorem canonical_resumeStarter (hs : Canonical s.mem) : Canonical (s.resumeStarter).mem := by
  unfold State.resumeStarter
  dsimp only
  refine canonical_takeIntake ?_
  split
  · refine canonical_of_mem_eq mem_setCopying ?_
    refine canonical_of_mem_eq mem_grdefAsk ?_
    refine canonical_foldl (fun _ _ ht => ?_) ?_
    · exact canonical_ite ht (canonical_of_mem_eq mem_graphProgress ht)
    · refine canonical_foldl (fun _ _ ht => ?_) ?_
      · split
        · exact canonical_of_mem_eq mem_finishLaunch ht
        · exact ht
      · refine canonical_foldl (fun _ _ ht => ?_) hs
        exact canonical_of_mem_eq mem_fireMsi ht
  · refine canonical_foldl (fun _ _ ht => ?_) ?_
    · exact canonical_ite ht (canonical_of_mem_eq mem_graphProgress ht)
    · refine canonical_foldl (fun _ _ ht => ?_) ?_
      · split
        · exact canonical_of_mem_eq mem_finishLaunch ht
        · exact ht
      · refine canonical_foldl (fun _ _ ht => ?_) hs
        exact canonical_of_mem_eq mem_fireMsi ht

theorem canonical_resumeAll (hs : Canonical s.mem) : Canonical (s.resumeAll).mem := by
  unfold State.resumeAll
  dsimp only
  refine canonical_resumeStarter ?_
  refine canonical_of_mem_eq mem_retime ?_
  refine canonical_of_mem_eq mem_setStarter ?_
  refine canonical_of_mem_eq mem_setRelay ?_
  refine canonical_foldl (fun _ _ ht => ?_) (canonical_release (canonical_of_mem_eq mem_markHeld hs))
  exact canonical_of_mem_eq mem_pauseFar ht

@[simp] theorem mem_ckRestore : (s.ckRestore).mem = s.mem := by
  unfold State.ckRestore
  split <;> simp

theorem canonical_ckctlWrite {v : Dword} (hs : Canonical s.mem) : Canonical (s.ckctlWrite v).mem := by
  unfold State.ckctlWrite
  dsimp only
  refine canonical_ite (canonical_of_mem_eq mem_ckRestore hs) ?_
  exact canonical_ite (canonical_ckStart hs) (canonical_ite (canonical_ckQuiesce hs) hs)
end

/-! ### Resets -/
section
variable {s : State} {a b bit d n m p : Nat}

@[simp] theorem mem_failLink : (s.failLink a b).mem = s.mem := by
  simp [State.failLink]

@[simp] theorem mem_linkDown : (s.linkDown a b).mem = s.mem := by
  simp [State.linkDown]

@[simp] theorem mem_sendOwed : (s.sendOwed a b).mem = s.mem := by
  simp [State.sendOwed]

@[simp] theorem mem_syncBit : (s.syncBit).mem = s.mem := rfl

@[simp] theorem mem_swcStep : (s.swcStep n).mem = s.mem := by
  unfold State.swcStep
  dsimp only
  split
  · rfl
  · refine mem_syncBit.trans (mem_foldl fun _ _ => ?_)
    rfl

theorem canonical_packageReset (hs : Canonical s.mem) : Canonical (s.packageReset).mem := by
  unfold State.packageReset
  dsimp only
  exact canonical_clearRange hs

theorem canonical_heldReset (hs : Canonical s.mem) : Canonical (s.heldReset).mem := by
  unfold State.heldReset
  exact canonical_ite (canonical_packageReset hs) hs

theorem canonical_loseModule (hs : Canonical s.mem) : Canonical (s.loseModule m).mem := by
  unfold State.loseModule
  dsimp only
  exact canonical_ite (canonical_heldReset hs) hs

@[simp] theorem mem_failFabric : (s.failFabric).mem = s.mem := by
  simp [State.failFabric]

@[simp] theorem mem_planeDown : (s.planeDown p).mem = s.mem := by
  unfold State.planeDown
  dsimp only
  split <;> simp

theorem canonical_cycReturn (hs : Canonical s.mem) : Canonical (s.cycReturn).mem := by
  unfold State.cycReturn
  dsimp only
  refine canonical_foldl (fun _ _ ht => ?_) ?_
  · exact canonical_wakeCycle ht
  · refine canonical_setReady ?_
    refine canonical_foldl (fun _ _ ht => ?_) hs
    exact canonical_ite (canonical_of_mem_eq mem_abortCycle ht) ht

theorem canonical_functionReady (hs : Canonical s.mem) : Canonical (s.functionReady bit).mem := by
  rw [State.functionReady]
  refine canonical_ite hs ?_
  refine canonical_ite ?_ ?_
  · dsimp only
    refine canonical_ite ?_ ?_
    · dsimp only
      refine canonical_setReady ?_
      dsimp only
      exact canonical_clearRange hs
    · refine canonical_setReady ?_
      dsimp only
      exact canonical_clearRange hs
  · refine canonical_ite hs ?_
    refine canonical_ite ?_ ?_
    · dsimp only
      exact hs
    · refine canonical_ite (canonical_cycReturn hs) ?_
      exact canonical_ite (canonical_takeIntake hs) (canonical_ite hs (canonical_ite hs hs))

theorem canonical_functionFailure (hs : Canonical s.mem) : Canonical (s.functionFailure bit).mem := by
  unfold State.functionFailure
  refine canonical_ite hs ?_
  refine canonical_ite (canonical_loseModule hs) ?_
  refine canonical_ite (canonical_of_mem_eq mem_planeDown hs) ?_
  exact canonical_ite (canonical_relayDown hs) (canonical_ite (canonical_of_mem_eq mem_failFabric hs)
    (canonical_ite hs hs))

theorem canonical_dropHost (hs : Canonical s.mem) : Canonical (s.dropHost).mem := by
  unfold State.dropHost
  dsimp only
  exact canonical_takeIntake hs

theorem canonical_dieReset (hs : Canonical s.mem) : Canonical (s.dieReset d).mem := by
  have hanswered : ∀ (l : List Pkt) (t : State),
      (l.foldl (fun s p => if epDie p.src = d && p.ty.isRequest then s else s.failPkt p 5) t).mem = t.mem :=
    fun l t => mem_foldl fun u p => by split <;> simp
  rw [State.dieReset]
  refine canonical_ite hs ?_
  refine canonical_of_mem_eq mem_syncBit (canonical_foldl (fun _ w ht => ?_) (canonical_clearSram ?_))
  · split
    · exact canonical_ite (canonical_finishWait ht) ht
    · exact canonical_rctApplied ht
    · exact ht
  · refine canonical_ite (canonical_dropHost ?lost) ?lost
    refine canonical_of_mem_eq (hanswered _ _) (canonical_foldl (fun _ _ ht => canonical_functionFailure ht)
      (canonical_ite ?_ ?_))
    · exact canonical_of_mem_eq mem_endDie hs
    · exact hs

@[simp] theorem mem_dieReturn : (s.dieReturn d).mem = s.mem := by
  have htables : ∀ t : State, ((List.range 1024).foldl (fun s i => (s.loadTrack i d).loadPmap i d) t).mem = t.mem :=
    fun _ => mem_foldl fun _ _ => mem_loadPmap.trans mem_loadTrack
  rw [State.dieReturn]
  split
  · rfl
  · refine mem_syncBit.trans ?_
    rw [apply_ite State.mem, mem_foldl (fun _ _ => mem_sendOwed), ite_self]
    split
    · rw [mem_setReady, htables, mem_setNi]
    · rw [mem_withPkg, htables, mem_setNi]
end

/-! ### Gateway -/
section
variable {s x1 : State} {p : Pkt} {x0 pid plane : Nat}

@[simp] theorem mem_spray : (s.spray p).2.mem = s.mem := rfl

@[simp] theorem mem_outbound : (s.outbound p).mem = s.mem := by
  simp [State.outbound]

@[simp] theorem mem_admitPkt : (s.admitPkt p).mem = s.mem := by
  unfold State.admitPkt
  dsimp only
  (repeat' split) <;> simp

@[simp] theorem mem_inDeliver : (s.inDeliver p).mem = s.mem := by
  simp [State.inDeliver]

@[simp] theorem mem_drainReorder {x : Nat} : (State.drainReorder x s).mem = s.mem := by
  induction x generalizing s with
  | zero => rfl
  | succ n ih =>
    unfold State.drainReorder
    split
    · rfl
    · exact ih.trans mem_inDeliver

@[simp] theorem mem_inbound : (s.inbound p).mem = s.mem := by
  rw [State.inbound]
  dsimp only
  split
  · rfl
  · split
    · exact mem_drainReorder.trans mem_inDeliver
    · split <;> rfl

@[simp] theorem mem_takeArrival : (s.takeArrival pid plane).mem = s.mem := by simp [State.takeArrival]
end

/-! ### Vault -/
section
variable {s : State} {tk : BitVec 16} {n d new va far phys src dst a : Nat} {m : Move} {e : PageEntry}
  {home write poison : Bool} {v : Dword} {data : List Byte}

theorem canonical_putEntry (hs : Canonical s.mem) : Canonical (s.putEntry e).mem := by
  unfold State.putEntry
  split <;> exact canonical_store hs

theorem canonical_moveStart (hs : Canonical s.mem) : Canonical (s.moveStart home d new tk va far phys).mem := by
  unfold State.moveStart
  split
  · dsimp only
    refine canonical_ite hs ?_
    refine canonical_ite hs ?_
    dsimp only
    exact canonical_of_mem_eq mem_applyRecord (canonical_putEntry hs)
  · exact hs

theorem canonical_moveData {n : Nat} (hs : Canonical s.mem) : Canonical (s.moveData src dst n).mem :=
  List.foldlRecOn (motive := Canonical) _ _ (canonical_clearRange hs) fun _ hm _ _ => writeByte_wf _ _ _ hm

theorem canonical_releaseHeld (hs : Canonical s.mem) : Canonical (s.releaseHeld m).mem := by
  unfold State.releaseHeld
  dsimp only
  refine canonical_releaseBehind ?_
  refine canonical_foldl (fun _ _ ht => ?_) hs
  exact canonical_homeRun ht

theorem canonical_raiseNrec (hs : Canonical s.mem) : Canonical (s.raiseNrec tk n).mem := by
  unfold State.raiseNrec
  dsimp only
  refine canonical_foldl (fun _ _ ht => ?_) (canonical_store hs)
  split <;> exact ht

theorem canonical_remap (hs : Canonical s.mem) : Canonical (s.remap d m).mem := by
  unfold State.remap
  split
  · exact hs
  · dsimp only
    exact canonical_raiseNrec (canonical_store (canonical_store hs))

theorem canonical_moveDone (hs : Canonical s.mem) : Canonical (s.moveDone m).mem := by
  unfold State.moveDone
  split
  · exact hs
  · refine canonical_ite hs ?_
    dsimp only
    refine canonical_ite ?_ ?_
    · refine canonical_releaseHeld ?_
      refine canonical_putEntry ?_
      dsimp only
      exact canonical_moveData hs
    · split
      · exact hs
      · refine canonical_ite hs ?_
        refine canonical_of_mem_eq mem_ivlPost ?_
        refine canonical_remap ?_
        refine canonical_releaseHeld ?_
        refine canonical_putEntry ?_
        refine canonical_putEntry ?_
        dsimp only
        exact canonical_moveData hs

@[simp] theorem mem_trkload : (s.trkload v).mem = s.mem := by
  unfold State.trkload
  split <;> simp

@[simp] theorem mem_hostPiece : (s.hostPiece write tk a n data poison).mem = s.mem := by
  simp [State.hostPiece]
end

/-! ### Regs -/
section
variable {s : State} {v : Dword} {o d w : Nat}

@[simp] theorem mem_stage : (s.stage o v).mem = s.mem := by
  unfold State.stage
  dsimp only
  split <;> simp

theorem canonical_powerWrite (hs : Canonical s.mem) : Canonical (s.powerWrite d w v).mem := by
  unfold State.powerWrite
  refine canonical_foldl (fun _ _ ht => ?_) hs
  exact canonical_ite (canonical_of_mem_eq mem_bankWake ht) (canonical_bankGate ht)

theorem canonical_mgmtWrite (hs : Canonical s.mem) : Canonical (s.mgmtWrite o v).mem := by
  unfold State.mgmtWrite
  dsimp only
  refine canonical_ite hs ?_
  refine canonical_ite (canonical_ckctlWrite hs) ?_
  refine canonical_ite hs ?_
  refine canonical_ite (canonical_prectlWrite hs) ?_
  refine canonical_ite (canonical_of_mem_eq mem_grdefWrite hs) ?_
  refine canonical_ite hs ?_
  refine canonical_ite hs ?_
  refine canonical_ite hs ?_
  refine canonical_ite hs ?_
  refine canonical_ite hs ?_
  refine canonical_ite (canonical_of_mem_eq mem_trkload hs) ?_
  refine canonical_ite (canonical_intakeCommit hs) ?_
  refine canonical_ite hs ?_
  exact canonical_ite hs (canonical_ite (canonical_of_mem_eq mem_stage hs) (canonical_ite (canonical_powerWrite hs) hs))
end

/-! ### Boot -/
section
variable {s : State} {old : Boot}

theorem canonical_loadImage (hs : Canonical s.mem) : Canonical (s.loadImage old).mem := by
  unfold State.loadImage
  dsimp only
  exact canonical_ite (canonical_store hs) hs

@[simp] theorem mem_certify : (s.certify).mem = s.mem := by
  unfold State.certify
  dsimp only
  split <;> simp
end

/-! ### Csr -/
section
variable {s : State} {a : Nat} {v : Dword} {e : Encoding} {rd : Reg} {csr : BitVec 12} {writes : Bool}
  {f : Dword → Dword}

@[simp] theorem mem_csrWrite : (s.csrWrite a v).mem = s.mem := by
  unfold State.csrWrite
  (repeat' split) <;> simp

theorem canonical_csrOp (hs : Canonical s.mem) : Canonical (s.csrOp e rd csr writes f).mem := by
  unfold State.csrOp
  dsimp only
  exact canonical_ite (canonical_illegal hs) (canonical_finX (canonical_ite (canonical_of_mem_eq mem_csrWrite hs) hs))
end

/-! ### Fp -/
section
variable {s : State} {rd rs1 rs2 : Reg} {r : FRes} {rm : BitVec 3} {e : Encoding} {f : RMode → State}
  {v nv sgn : Bool} {mode : RMode} {w : Nat}

theorem canonical_finF (hs : Canonical s.mem) : Canonical (s.finF rd r).mem := by
  unfold State.finF
  exact canonical_finX hs

theorem canonical_withMode (hf : ∀ x, Canonical (f x).mem) (hs : Canonical s.mem) :
    Canonical (s.withMode rm e f).mem := by
  unfold State.withMode
  split
  · exact hf _
  · exact canonical_illegal hs

theorem canonical_finCmp (hs : Canonical s.mem) : Canonical (s.finCmp rd v nv).mem := by
  unfold State.finCmp
  exact canonical_finX hs

theorem canonical_finInt (hs : Canonical s.mem) : Canonical (s.finInt rd rs1 mode sgn w).mem := by
  unfold State.finInt
  dsimp only
  exact canonical_finX hs

theorem canonical_finSign {f : Bool → Bool → Bool} (hs : Canonical s.mem) :
    Canonical (s.finSign rd rs1 rs2 f).mem := by
  unfold State.finSign
  dsimp only
  exact canonical_finX hs
end

/-! ### Turns -/
section
variable {s : State} {k n r : Nat} {l : List Byte}

@[simp] theorem mem_chosen : (s.chosen k l).mem = s.mem := by
  unfold State.chosen
  dsimp only
  (repeat' split) <;> simp

@[simp] theorem mem_tick : (s.tick n).mem = s.mem := by
  simp [State.tick]

theorem canonical_poll (hs : Canonical s.mem) : Canonical (s.poll r).mem := by
  unfold State.poll
  dsimp only
  split
  · split
    · exact canonical_restoreWaiting hs
    · exact canonical_wakeAwayMatrix hs
  · split
    · exact canonical_takeWaiting hs
    · exact canonical_wakeAwayMatrix hs
  · exact canonical_wakeMatrix hs
  · split
    · exact canonical_wakeMatrix hs
    · exact hs
  · exact canonical_wakePromise hs
  · exact canonical_ite (canonical_finishWait hs) hs
  · exact canonical_ite hs (canonical_finishWait (canonical_of_mem_eq mem_ivlPost hs))
  · exact canonical_ite hs (canonical_finishWait (canonical_of_mem_eq mem_acquireLog hs))
  · exact canonical_pollCycle hs
  · exact canonical_pollCycle hs
  · exact canonical_deadline hs
  · exact canonical_deadline hs
  · exact canonical_msgResend hs
  · exact canonical_recvGo hs
  · exact canonical_rankGo hs
  · exact canonical_lapGo hs
  · exact canonical_cpGo hs
  · exact canonical_ite hs (canonical_sendHeld hs)
  · exact canonical_wakeLeads (canonical_formationPoll hs)
  · exact canonical_finishWait hs
  · exact canonical_ite (canonical_takeIntake hs) (canonical_finishWait (canonical_takeIntake hs))
  · exact hs
end

/-! ## Instructions and events -/

/-- The next state of an outcome, where there is one, has a canonical memory. -/
def CanonicalNext (r : Res) : Prop := ∀ t, r = .next t → Canonical t.mem

theorem canonicalNext_next {t : State} (ht : Canonical t.mem) : CanonicalNext (.next t) := by
  intro u e
  cases e
  exact ht

theorem canonicalNext_ite {c : Prop} {_ : Decidable c} {s t : State} (hs : CanonicalNext (.next s))
    (ht : CanonicalNext (.next t)) : CanonicalNext (.next (if c then s else t)) := by
  split <;> assumption

theorem canonicalNext_whenReleased {s : State} {scope : Nat} {f : State → State}
    (hf : ∀ t, Canonical t.mem → CanonicalNext (.next (f t))) (hs : Canonical s.mem) :
    CanonicalNext (.next (s.whenReleased scope f)) :=
  canonicalNext_next (canonical_whenReleased (fun t ht => hf t ht _ rfl) hs)

theorem canonicalNext_onCells {s : State} {cells : List Nat} {f : State → State}
    (hf : ∀ t, Canonical t.mem → CanonicalNext (.next (f t))) (hs : Canonical s.mem) :
    CanonicalNext (.next (s.onCells cells f)) :=
  canonicalNext_next (canonical_onCells (fun t ht => hf t ht _ rfl) hs)

theorem canonicalNext_execEcall {s : State} (hs : Canonical s.mem) : CanonicalNext (execEcall s) := by
  refine canonicalNext_next ?_
  dsimp only
  refine canonical_ite (canonical_unlessGanged (fun _ ht => canonical_exitBaton ht) hs) ?_
  exact canonical_ite hs (canonical_ite (canonical_finX hs) (canonical_finX hs))

theorem canonicalNext_execBatSpawn {rd rs1 : Reg} {s : State} (hs : Canonical s.mem) :
    CanonicalNext (execBatSpawn rd rs1 s) := by
  refine canonicalNext_ite (canonicalNext_next (canonical_trap hs)) ?_
  refine canonicalNext_whenReleased (fun _ ht => ?_) hs
  refine canonicalNext_onCells (fun _ hu => ?_) ht
  refine canonicalNext_ite (canonicalNext_next (canonical_of_mem_eq mem_finReply hu)) ?_
  exact canonicalNext_next (canonical_of_mem_eq mem_finReply (canonical_enqueue (canonical_store hu)))

theorem canonicalNext_execBatYield {rs1 : Reg} {s : State} (hs : Canonical s.mem) :
    CanonicalNext (execBatYield rs1 s) := by
  refine canonicalNext_next ?_
  refine canonical_unlessGanged (fun _ ht => ?_) hs
  dsimp only
  refine canonical_ite (canonical_settle ht) ?_
  refine canonical_saving (fun _ hu => ?_) (canonical_settle ht)
  split
  next u e => exact canonical_yieldOut (canonical_retire hu) u e
  next => exact canonical_fin hu

theorem canonicalNext_execBatPark {rd rs1 rs2 : Reg} {s : State} (hs : Canonical s.mem) :
    CanonicalNext (execBatPark rd rs1 rs2 s) := by
  refine canonicalNext_next ?_
  refine canonical_unlessGanged (fun _ ht => ?_) hs
  refine canonical_ite (canonical_finX (canonical_setMe (canonical_of_mem_eq mem_acquireLog ht))) ?_
  refine canonical_ite (canonical_finX ht) ?_
  exact canonical_of_mem_eq mem_park (canonical_setMe ht)

theorem canonicalNext_execBatWake {rs1 : Reg} {s : State} (hs : Canonical s.mem) :
    CanonicalNext (execBatWake rs1 s) := by
  refine canonicalNext_next ?_
  dsimp only
  exact canonical_ite (canonical_trap hs) (canonical_whenReleased (fun _ ht => canonical_fin
    (canonical_wakeRecord ht)) hs)

theorem canonicalNext_execBatSelf {rd : Reg} {sel : BitVec 3} {s : State} (hs : Canonical s.mem) :
    CanonicalNext (execBatSelf rd sel s) := by
  refine canonicalNext_next ?_
  split
  · exact canonical_finX hs
  · exact canonical_finX hs
  · exact canonical_onCells (fun _ ht => canonical_finX ht) hs
  · exact canonical_onCells (fun _ ht => canonical_finX ht) hs

theorem canonicalNext_execHdInit {rd rs1 rs2 : Reg} {flags : BitVec 3} {s : State} (hs : Canonical s.mem) :
    CanonicalNext (execHdInit rd rs1 rs2 flags s) := by
  refine canonicalNext_next ?_
  refine canonical_onHurdle (fun _ _ ht => ?_) hs
  dsimp only
  exact canonical_finX (canonical_hurdleInit ht)

theorem canonicalNext_execHdWait {rd rs1 rs2 : Reg} {s : State} (hs : Canonical s.mem) :
    CanonicalNext (execHdWait rd rs1 rs2 s) := by
  refine canonicalNext_next ?_
  refine canonical_onHurdle (fun _ _ ht => ?_) hs
  dsimp only
  exact canonical_ite (canonical_finX (canonical_of_mem_eq mem_seesCompletion ht)) ht

theorem canonicalNext_execHdArrwait {rd rs1 rs2 : Reg} {scope : BitVec 2} {s : State} (hs : Canonical s.mem) :
    CanonicalNext (execHdArrwait rd rs1 rs2 scope s) := by
  refine canonicalNext_next ?_
  refine canonical_whenReleased (fun _ ht => ?_) hs
  refine canonical_onHurdle (fun _ _ hu => ?_) ht
  dsimp only
  exact canonical_hurdleArrive hu

theorem canonicalNext_execHdTest {rd rs1 : Reg} {s : State} (hs : Canonical s.mem) :
    CanonicalNext (execHdTest rd rs1 s) := by
  refine canonicalNext_next ?_
  refine canonical_onHurdle (fun _ _ ht => ?_) hs
  dsimp only
  exact canonical_finX (canonical_ite (canonical_of_mem_eq mem_seesCompletion ht) ht)

theorem canonicalNext_execLapEnd {rd : Reg} {level : BitVec 2} {s : State} (hs : Canonical s.mem) :
    CanonicalNext (execLapEnd rd level s) := by
  refine canonicalNext_next ?_
  dsimp only
  refine canonical_ite (canonical_trap hs) ?_
  refine canonical_ite (canonical_finX (canonical_setPhase hs)) ?_
  exact canonical_ite hs (canonical_whenReleased (fun _ ht => canonical_lapArrive ht) hs)

theorem canonicalNext_execWaitPromise {rs1 : Reg} {s : State} (hs : Canonical s.mem) :
    CanonicalNext (execWaitPromise rs1 s) := by
  refine canonicalNext_next ?_
  dsimp only
  split
  · exact canonical_fin (canonical_of_mem_eq mem_acquireLog hs)
  · split
    · exact hs
    · exact canonical_trap hs
    · exact canonical_trapSlot hs
    · exact canonical_fin (canonical_of_mem_eq mem_acquireLog hs)
    · exact canonical_trap hs

theorem canonicalNext_execMsgSend {rd rs1 rs2 : Reg} {s : State} (hs : Canonical s.mem) :
    CanonicalNext (execMsgSend rd rs1 rs2 s) := by
  refine canonicalNext_next ?_
  dsimp only
  refine canonical_ite (canonical_finX hs) ?_
  split
  · refine canonical_whenReleased (fun _ ht => ?_) hs
    refine canonical_onCells (fun _ hu => ?_) ht
    refine canonical_ite (canonical_of_mem_eq mem_park (canonical_of_mem_eq mem_newTag hu)) ?_
    exact canonical_sendRanked (canonical_of_mem_eq mem_park (canonical_of_mem_eq mem_newTag hu))
  · exact canonical_trap hs

theorem canonicalNext_execMsgRecv {rd rs1 : Reg} {queue : BitVec 3} {s : State} (hs : Canonical s.mem) :
    CanonicalNext (execMsgRecv rd rs1 queue s) := by
  refine canonicalNext_next ?_
  refine canonical_takeMsg (fun _ ht => ?_) hs
  exact ht

theorem canonicalNext_execGangJoin {rd : Reg} {log2 : BitVec 3} {s : State} (hs : Canonical s.mem) :
    CanonicalNext (execGangJoin rd log2 s) := by
  refine canonicalNext_next ?_
  refine canonical_unlessGanged (fun _ ht => ?_) hs
  dsimp only
  split
  · exact canonical_joinGang ht
  · exact ht

theorem canonicalNext_execGangEnd {s : State} (hs : Canonical s.mem) : CanonicalNext (execGangEnd s) := by
  refine canonicalNext_next ?_
  split
  · exact canonical_wakeLeads (canonical_fin hs)
  · exact canonical_fin hs

theorem canonicalNext_execXuret {s : State} (hs : Canonical s.mem) : CanonicalNext (execXuret s) := by
  refine canonicalNext_next ?_
  refine canonical_unlessGanged (fun _ ht => ?_) hs
  dsimp only
  exact canonical_complete ht

theorem canonicalNext_execStamClaim {rd rs1 : Reg} {s : State} (hs : Canonical s.mem) :
    CanonicalNext (execStamClaim rd rs1 s) := by
  refine canonicalNext_next ?_
  dsimp only
  split
  · exact canonical_ite (canonical_of_mem_eq mem_finReply hs) (canonical_of_mem_eq mem_finReply hs)
  · exact canonical_of_mem_eq mem_finReply hs

theorem canonicalNext_execIvlPost {rd rs1 : Reg} {s : State} (hs : Canonical s.mem) :
    CanonicalNext (execIvlPost rd rs1 s) := by
  refine canonicalNext_next ?_
  dsimp only
  refine canonical_ite (canonical_illegal hs) ?_
  split
  · exact canonical_trap hs
  · refine canonical_onCells (fun _ ht => ?_) hs
    refine canonical_ite (canonical_of_mem_eq mem_finReply ht) ?_
    refine canonical_ite (canonical_of_mem_eq mem_parkReq ht) ?_
    exact canonical_of_mem_eq mem_finReply (canonical_of_mem_eq mem_ivlPost ht)

theorem canonicalNext_execIvlSync {rs1 : Reg} {s : State} (hs : Canonical s.mem) :
    CanonicalNext (execIvlSync rs1 s) := by
  refine canonicalNext_next ?_
  dsimp only
  exact canonical_ite (canonical_illegal hs) (canonical_ite (canonical_fin hs) (canonical_of_mem_eq mem_parkReq hs))

theorem canonicalNext_execGrLaunch {rd rs1 : Reg} {s : State} (hs : Canonical s.mem) :
    CanonicalNext (execGrLaunch rd rs1 s) := by
  refine canonicalNext_next ?_
  dsimp only
  split
  · exact canonical_trap hs
  · exact canonical_whenReleased (fun _ ht => canonical_onCells (fun _ hu => canonical_of_mem_eq mem_intakeJoin
      (canonical_of_mem_eq mem_parkReq hu)) ht) hs

theorem canonicalNext_execMmWait {s : State} (hs : Canonical s.mem) : CanonicalNext (execMmWait s) := by
  refine canonicalNext_next ?_
  refine canonical_withContext (fun _ ht => ?_) hs
  dsimp only
  split
  · exact canonical_trap ht
  · exact canonical_ite ht (canonical_fin ht)

theorem canonicalNext_execCpStat {rd xg rs2 : Reg} {s : State} (hs : Canonical s.mem) :
    CanonicalNext (execCpStat rd xg rs2 s) := by
  refine canonicalNext_next ?_
  dsimp only
  split
  · exact canonical_finX hs
  · refine canonical_finX ?_
    refine canonical_of_mem_eq mem_setX ?_
    refine canonical_of_mem_eq mem_setX ?_
    refine canonical_of_mem_eq mem_setX ?_
    refine canonical_of_mem_eq mem_setX ?_
    split
    · exact hs
    · exact canonical_of_mem_eq mem_takeFree hs

theorem canonicalNext_execCpCancel {rd xg : Reg} {s : State} (hs : Canonical s.mem) :
    CanonicalNext (execCpCancel rd xg s) := by
  refine canonicalNext_next ?_
  dsimp only
  refine canonical_finX ?_
  refine canonical_foldl_snd (fun _ _ ht => ?_) hs
  dsimp only
  exact canonical_of_mem_eq mem_cancelOne ht

theorem canonicalNext_execStatLd {std : BitVec 3} {rs1 : Reg} {s : State} (hs : Canonical s.mem) :
    CanonicalNext (execStatLd std rs1 s) := by
  refine canonicalNext_next ?_
  dsimp only
  refine canonical_ite (canonical_trap hs) ?_
  split
  · refine canonical_onCells (fun _ ht => ?_) hs
    split
    · exact canonical_fin ht
    · exact canonical_trap ht
  · exact canonical_of_mem_eq mem_parkParts hs

theorem canonicalNext_execStatSt {rs1 : Reg} {st2 : BitVec 3} {s : State} (hs : Canonical s.mem) :
    CanonicalNext (execStatSt rs1 st2 s) := by
  refine canonicalNext_next ?_
  dsimp only
  refine canonical_ite (canonical_trap hs) ?_
  split
  · exact canonical_onCells (fun _ ht => canonical_fin (canonical_store ht)) hs
  · exact canonical_fin (canonical_of_mem_eq mem_post hs)

theorem canonicalNext_execStatDrain {rd : Reg} {st1 : BitVec 3} {rs2 : Reg} {drain : BitVec 3} {s : State}
    (hs : Canonical s.mem) :
    CanonicalNext (execStatDrain rd st1 rs2 drain s) := by
  refine canonicalNext_next ?_
  refine canonical_statChecked (fun _ ht => ?_) hs
  dsimp only
  exact canonical_ite (canonical_finX ht) (canonical_ite (canonical_finX ht) (canonical_finX ht))

theorem canonicalNext_execCycFreeze {rd rs1 rs2 : Reg} {s : State} (hs : Canonical s.mem) :
    CanonicalNext (execCycFreeze rd rs1 rs2 s) := by
  refine canonicalNext_next ?_
  dsimp only
  refine canonical_unlessGanged (fun _ ht => ?_) hs
  split
  · exact canonical_trap ht
  · refine canonical_onCells (fun _ hu => ?_) ht
    refine canonical_onCycle (fun _ _ _ hv => ?_) hu
    refine canonical_ite (canonical_of_mem_eq mem_finReply hv) ?_
    exact canonical_of_mem_eq mem_finReply (canonical_of_mem_eq mem_setCyc (canonical_of_mem_eq mem_freezeAll hv))

theorem canonicalNext_execCycTake {rd rs1 : Reg} {s : State} (hs : Canonical s.mem) :
    CanonicalNext (execCycTake rd rs1 s) := by
  refine canonicalNext_next ?_
  refine canonical_onCycle (fun _ _ _ ht => ?_) hs
  dsimp only
  split
  · exact canonical_finX (canonical_of_mem_eq mem_acquireLog ht)
  · exact canonical_trap ht
  · exact ht

theorem canonicalNext_execCycNext {rd rs1 : Reg} {s : State} (hs : Canonical s.mem) :
    CanonicalNext (execCycNext rd rs1 s) := by
  refine canonicalNext_next ?_
  refine canonical_onCycle (fun _ _ _ ht => ?_) hs
  dsimp only
  exact canonical_closeIteration (canonical_wakeCycle ht)

theorem canonicalNext_execCycAbort {rs1 : Reg} {s : State} (hs : Canonical s.mem) :
    CanonicalNext (execCycAbort rs1 s) := by
  refine canonicalNext_next ?_
  exact canonical_onCycle (fun _ _ _ ht => canonical_of_mem_eq mem_finReply (canonical_wakeCycle
    (canonical_of_mem_eq mem_abortCycle ht))) hs

theorem canonicalNext_execClLoad {rd rs1 rs2 : Reg} {s : State} (hs : Canonical s.mem) :
    CanonicalNext (execClLoad rd rs1 rs2 s) := by
  refine canonicalNext_next ?_
  refine canonical_unlessGanged (fun _ ht => ?_) hs
  dsimp only
  refine canonical_ite ?_ ?_
  · refine canonical_ite (canonical_of_mem_eq mem_finReply ht) ?_
    exact canonical_of_mem_eq mem_finReply (canonical_of_mem_eq mem_unloadPlan ht)
  · refine canonical_ite (canonical_trap ht) ?_
    refine canonical_ite (canonical_of_mem_eq mem_finReply ht) ?_
    exact canonical_ite (canonical_of_mem_eq mem_finReply ht) (canonical_descIssue ht)

theorem canonicalNext_execClRun {rd rs1 rs2 : Reg} {s : State} (hs : Canonical s.mem) :
    CanonicalNext (execClRun rd rs1 rs2 s) := by
  refine canonicalNext_next ?_
  refine canonical_unlessGanged (fun _ ht => ?_) hs
  dsimp only
  split
  · exact canonical_trap ht
  · refine canonical_whenReleased (fun _ hu => ?_) ht
    refine canonical_onCells (fun _ hv => ?_) hu
    split
    · exact canonical_finX hv
    · split
      · exact canonical_finX hv
      · exact canonical_finX (canonical_of_mem_eq mem_joinRun hv)

theorem canonicalNext_execClWait {rd rs1 : Reg} {s : State} (hs : Canonical s.mem) :
    CanonicalNext (execClWait rd rs1 s) := by
  refine canonicalNext_next ?_
  refine canonical_unlessGanged (fun _ ht => ?_) hs
  dsimp only
  refine canonical_ite (canonical_finX ht) ?_
  split
  · exact ht
  · exact canonical_finX ht
  · exact canonical_finX ht

theorem canonicalNext_execClCancel {rs1 : Reg} {s : State} (hs : Canonical s.mem) :
    CanonicalNext (execClCancel rs1 s) := by
  refine canonicalNext_next ?_
  refine canonical_unlessGanged (fun _ ht => ?_) hs
  split
  · split
    · exact canonical_fin (canonical_ite (canonical_of_mem_eq mem_endRun ht) ht)
    · exact canonical_fin ht
  · exact canonical_fin ht

theorem canonicalNext_execClGrp {rd rs1 rs2 : Reg} {s : State} (hs : Canonical s.mem) :
    CanonicalNext (execClGrp rd rs1 rs2 s) := by
  refine canonicalNext_next ?_
  refine canonical_unlessGanged (fun _ ht => ?_) hs
  dsimp only
  refine canonical_ite (canonical_trap ht) ?_
  refine canonical_ite (canonical_of_mem_eq mem_finReply ht) ?_
  exact canonical_ite (canonical_of_mem_eq mem_finReply ht) (canonical_descIssue ht)

theorem canonicalNext_execResetRequest {s : State} (hs : Canonical s.mem) : CanonicalNext (execResetRequest s) := by
  refine canonicalNext_next ?_
  dsimp only
  exact canonical_ite hs (canonical_ite (canonical_heldReset (canonical_ckStart hs)) (canonical_packageReset hs))

theorem canonicalNext_execLinkFlit {link : Nat} {crcOk : Bool} {field : Option (BitVec 2)}
    {ret : Option (BitVec 16)} {s : State} (hs : Canonical s.mem) :
    CanonicalNext (execLinkFlit link crcOk field ret s) := by
  refine canonicalNext_next ?_
  dsimp only
  exact canonical_ite hs (canonical_ite hs (canonical_ite (canonical_of_mem_eq mem_linkDown hs) hs))

theorem canonicalNext_execSlotSync {link vc : Nat} {reply : Bool} {s : State} (hs : Canonical s.mem) :
    CanonicalNext (execSlotSync link vc reply s) := by
  refine canonicalNext_next ?_
  dsimp only
  refine canonical_ite hs ?_
  refine canonical_ite ?_ ?_
  · split <;> exact hs
  · split <;> exact hs

theorem canonicalNext_execWrite {pid : Nat} {s : State} (hs : Canonical s.mem) : CanonicalNext (execWrite pid s) := by
  refine canonicalNext_next ?_
  exact canonical_deliverPkt (fun _ _ ht => canonical_ite (canonical_of_mem_eq mem_mgmtPkt ht)
    (canonical_homePkt ht)) hs

theorem canonicalNext_execCopyDone {pid : Nat} {s : State} (hs : Canonical s.mem) :
    CanonicalNext (execCopyDone pid s) := by
  refine canonicalNext_next ?_
  refine canonical_deliverPkt (fun _ _ ht => ?_) hs
  exact ht

theorem canonicalNext_execPause {pid : Nat} {s : State} (hs : Canonical s.mem) : CanonicalNext (execPause pid s) := by
  refine canonicalNext_next ?_
  exact canonical_deliverPkt (fun _ _ ht => canonical_of_mem_eq mem_answer (canonical_ite
    (canonical_of_mem_eq mem_pause ht) ht)) hs

theorem canonicalNext_execResume {pid : Nat} {s : State} (hs : Canonical s.mem) :
    CanonicalNext (execResume pid s) := by
  refine canonicalNext_next ?_
  exact canonical_deliverPkt (fun _ _ ht => canonical_of_mem_eq mem_answer (canonical_ite
    (canonical_of_mem_eq mem_unpause ht) ht)) hs

theorem canonicalNext_execSwcSync {pid : Nat} {s : State} (hs : Canonical s.mem) :
    CanonicalNext (execSwcSync pid s) := by
  refine canonicalNext_next ?_
  refine canonical_deliverPkt (fun _ _ ht => ?_) hs
  dsimp only
  exact ht

theorem canonicalNext_execSwcSyncSend {s : State} (hs : Canonical s.mem) : CanonicalNext (execSwcSyncSend s) := by
  refine canonicalNext_next ?_
  refine canonical_foldl (fun _ _ ht => ?_) hs
  exact canonical_of_mem_eq mem_send ht

theorem canonicalNext_execE2eAck {pid : Nat} {s : State} (hs : Canonical s.mem) :
    CanonicalNext (execE2eAck pid s) := by
  refine canonicalNext_next ?_
  split
  · exact hs
  · refine canonical_ite hs ?_
    dsimp only
    refine canonical_ite (canonical_of_mem_eq mem_malformedPkt (canonical_of_mem_eq mem_takeArrival hs)) ?_
    dsimp only
    exact canonical_of_mem_eq mem_takeArrival hs

theorem canonicalNext_execE2eAckSend {stream : Nat} {s : State} (hs : Canonical s.mem) :
    CanonicalNext (execE2eAckSend stream s) := by
  refine canonicalNext_next ?_
  dsimp only
  split
  · exact hs
  · refine canonical_ite hs ?_
    dsimp only
    exact canonical_of_mem_eq mem_spray hs

theorem canonicalNext_execGatewayOutbound {pid : Nat} {s : State} (hs : Canonical s.mem) :
    CanonicalNext (execGatewayOutbound pid s) := by
  refine canonicalNext_next ?_
  split
  · exact hs
  · refine canonical_ite hs ?_
    refine canonical_ite (canonical_of_mem_eq mem_malformedPkt (canonical_of_mem_eq mem_takePkt hs)) ?_
    refine canonical_ite (canonical_of_mem_eq mem_failPkt (canonical_of_mem_eq mem_takePkt hs)) ?_
    exact canonical_ite hs (canonical_of_mem_eq mem_outbound (canonical_of_mem_eq mem_takePkt hs))

theorem canonicalNext_execGatewayInbound {pid : Nat} {s : State} (hs : Canonical s.mem) :
    CanonicalNext (execGatewayInbound pid s) := by
  refine canonicalNext_next ?_
  split
  · exact hs
  · refine canonical_ite hs ?_
    dsimp only
    refine canonical_ite (canonical_of_mem_eq mem_malformedPkt (canonical_of_mem_eq mem_takeArrival hs)) ?_
    refine canonical_ite (canonical_of_mem_eq mem_takeArrival hs) ?_
    exact canonical_of_mem_eq mem_inbound (canonical_of_mem_eq mem_takeArrival hs)

theorem canonicalNext_execReplayTimeout {stream seq : Nat} {s : State} (hs : Canonical s.mem) :
    CanonicalNext (execReplayTimeout stream seq s) := by
  refine canonicalNext_next ?_
  dsimp only
  split
  · exact hs
  · refine canonical_ite hs ?_
    dsimp only
    exact canonical_of_mem_eq mem_spray hs

theorem canonicalNext_execWalkDone {die walk : Nat} {s : State} (hs : Canonical s.mem) :
    CanonicalNext (execWalkDone die walk s) := by
  refine canonicalNext_next ?_
  split
  · exact canonical_walkDone hs
  · exact hs

theorem canonicalNext_execFaultRecordTimeout {die index : Nat} {s : State} (hs : Canonical s.mem) :
    CanonicalNext (execFaultRecordTimeout die index s) := by
  refine canonicalNext_next ?_
  dsimp only
  split
  · exact hs
  · exact canonical_ite (canonical_releaseBehind (canonical_of_mem_eq mem_refuse hs)) hs

theorem canonicalNext_execLogApply {die : Nat} {s : State} (hs : Canonical s.mem) :
    CanonicalNext (execLogApply die s) := by
  refine canonicalNext_next ?_
  split
  · exact canonical_ite (canonical_of_mem_eq mem_applyLog hs) hs
  · exact hs

theorem canonicalNext_execAppliedIndexReport {die : Nat} {s : State} (hs : Canonical s.mem) :
    CanonicalNext (execAppliedIndexReport die s) := by
  refine canonicalNext_next ?_
  dsimp only
  refine canonical_foldl (fun _ _ ht => ?_) hs
  split
  · exact canonical_ite (canonical_finishWait ht) ht
  · exact ht

theorem canonicalNext_execVaultCopyDone {die move : Nat} {s : State} (hs : Canonical s.mem) :
    CanonicalNext (execVaultCopyDone die move s) := by
  refine canonicalNext_next ?_
  split
  · exact canonical_moveDone hs
  · exact hs

theorem canonicalNext_execTrkloadDone {s : State} (hs : Canonical s.mem) : CanonicalNext (execTrkloadDone s) := by
  refine canonicalNext_next ?_
  refine canonical_ite hs ?_
  dsimp only
  refine canonical_foldl (fun _ _ ht => ?_) hs
  exact ht

theorem canonicalNext_execHostApertureAccess {write : Bool} {addr len data : Nat} {poison : Bool} {s : State}
    (hs : Canonical s.mem) :
    CanonicalNext (execHostApertureAccess write addr len data poison s) := by
  refine canonicalNext_next ?_
  dsimp only
  refine canonical_ite hs ?_
  refine canonical_ite hs ?_
  refine canonical_foldl (fun _ _ ht => ?_) hs
  exact canonical_of_mem_eq mem_hostPiece ht

theorem canonicalNext_execPrestatDone {s : State} (hs : Canonical s.mem) : CanonicalNext (execPrestatDone s) := by
  refine canonicalNext_next ?_
  refine canonical_ite hs ?_
  dsimp only
  exact canonical_ite hs (canonical_ite (canonical_of_mem_eq mem_setStarter (canonical_holdStep hs))
    (canonical_holdStep hs))

theorem canonicalNext_execQuiesceDone {s : State} (hs : Canonical s.mem) : CanonicalNext (execQuiesceDone s) := by
  refine canonicalNext_next ?_
  refine canonical_ite hs ?_
  dsimp only
  refine canonical_ite (canonical_holdStep hs) ?_
  exact canonical_ite (canonical_beginCopy (canonical_holdStep hs)) (canonical_of_mem_eq mem_setCk
    (canonical_holdStep hs))

theorem canonicalNext_execRestoreDone {s : State} (hs : Canonical s.mem) : CanonicalNext (execRestoreDone s) := by
  refine canonicalNext_next ?_
  refine canonical_ite hs ?_
  refine canonical_ite hs ?_
  split
  · exact hs
  · dsimp only
    split
    · exact hs
    · dsimp only
      refine canonical_of_mem_eq mem_setCk ?_
      refine canonical_resumeAll ?_
      exact canonical_setReady (canonical_of_mem_eq mem_setSwc (canonical_of_mem_eq mem_loadSaved
        (canonical_copyIn hs)))

theorem canonicalNext_execFetchRestart {s : State} (hs : Canonical s.mem) : CanonicalNext (execFetchRestart s) := by
  refine canonicalNext_next ?_
  dsimp only
  split
  · exact hs
  · exact canonical_ite hs hs

theorem canonicalNext_execBankWakeDone {die word bit : Nat} {s : State} (hs : Canonical s.mem) :
    CanonicalNext (execBankWakeDone die word bit s) := by
  refine canonicalNext_next ?_
  dsimp only
  split
  · exact canonical_ite (canonical_gateHeldNow hs) hs
  · refine canonical_ite hs ?_
    have hlate {p : Power} {mine : Nat × List Byte → Bool} : Canonical ((p.late.filter mine).foldl
        (fun m x => writeBytes m x.1 x.2) (clearBank s.mem die word bit)) :=
      List.foldlRecOn (motive := Canonical) _ _ (canonical_clearBank hs) fun _ hm _ _ => canonical_writeBytes hm
    exact canonical_ite (canonical_gateHeldNow hlate) hlate

theorem canonicalNext_execAgeTick {s : State} (hs : Canonical s.mem) : CanonicalNext (execAgeTick s) := by
  refine canonicalNext_next ?_
  refine canonical_ite ?_ hs
  dsimp only
  refine canonical_foldl (fun _ _ ht => ?_) hs
  refine canonical_foldl (fun _ _ hu => ?_) ht
  exact canonical_ageRecord hu

theorem canonicalNext_execSlotPromotion {cid : Nat} {s : State} (hs : Canonical s.mem) :
    CanonicalNext (execSlotPromotion cid s) := by
  refine canonicalNext_next ?_
  refine canonical_foldl (fun _ _ ht => ?_) hs
  dsimp only
  exact canonical_ite ht ht

theorem canonicalNext_execPromiseMissed {cid slot : Nat} {s : State} (hs : Canonical s.mem) :
    CanonicalNext (execPromiseMissed cid slot s) := by
  refine canonicalNext_next ?_
  dsimp only
  split
  · exact canonical_ite hs (canonical_wakePromise hs)
  · exact hs


/-- Every instruction and every event keeps the memory canonical. -/
theorem canonicalNext_exec {i : Instr} {s : State} (hs : Canonical s.mem) : CanonicalNext (exec i s) := by
  cases i with
  | lui | auipc | fclassS | cLi | cLui | cMv | batRole | rrbSet => exact canonicalNext_next (canonical_finX hs)
  | jal | jalr | cJalr => exact canonicalNext_next (canonical_jumpLink hs)
  | beq | bne | blt | bge | bltu | bgeu | cBeqz | cBnez | loopRot => exact canonicalNext_next (canonical_branchIf hs)
  | lb | lh | lw | ld | lbu | lhu | lwu | cLw | cLd | cLwsp | cLdsp | ldAq =>
    exact canonicalNext_next (canonical_loadX hs)
  | sb | sh | sw | sd | cSw | cSd | cSwsp | cSdsp | stRl => exact canonicalNext_next (canonical_storeX hs)
  | addi | slti | sltiu | xori | ori | andi | slli | srli | srai | addiw | slliw | srliw | sraiw | cAddi4spn | cAddi |
  cAddiw | cAddi16sp | cSrli | cSrai | cAndi | cSlli =>
    exact canonicalNext_next (canonical_opRI hs)
  | add | sll | slt | sltu | xor | srl | or | and | sub | sra | mul | mulh | mulhsu | mulhu | div | divu | rem | remu
  | addw | sllw | srlw | subw | sraw | mulw | divw | divuw | remw | remuw | cSub | cXor | cOr | cAnd | cSubw | cAddw |
  cAdd =>
    exact canonicalNext_next (canonical_opRR hs)
  | fence => exact canonicalNext_next (canonical_stdFence hs)
  | fenceTso | xfence => exact canonicalNext_next (canonical_fullFence hs)
  | fenceI | cNop | statInit => exact canonicalNext_next (canonical_fin hs)
  | ecall => exact canonicalNext_execEcall hs
  | ebreak | cEbreak => exact canonicalNext_next (canonical_breakpoint hs)
  | wfi =>
    exact canonicalNext_next (canonical_ite (canonical_fin (canonical_setMe
      (canonical_of_mem_eq mem_acquireLog hs))) hs)
  | csrrw | csrrs | csrrc | csrrwi | csrrsi | csrrci => exact canonicalNext_next (canonical_csrOp hs)
  | lr =>
    exact canonicalNext_next (canonical_ite (canonical_whenReleased (fun _ ht => canonical_loadX ht) hs)
      (canonical_loadX hs))
  | sc | amoswap | amoadd | amoxor | amoand | amoor | amomin | amomax | amominu | amomaxu =>
    exact canonicalNext_next (canonical_amoX hs)
  | faddS | fsubS | fmulS | fdivS | fsqrtS | fcvtSW | fcvtSWu | fcvtSL | fcvtSLu | fmaddS | fmsubS | fnmsubS | fnmaddS
  =>
    exact canonicalNext_next (canonical_withMode (fun x => canonical_finF hs) hs)
  | fsgnjS | fsgnjnS | fsgnjxS => exact canonicalNext_next (canonical_finSign hs)
  | fminS | fmaxS => exact canonicalNext_next (canonical_finF hs)
  | fleS | fltS | feqS => exact canonicalNext_next (canonical_finCmp hs)
  | fcvtWS | fcvtWuS | fcvtLS | fcvtLuS =>
    exact canonicalNext_next (canonical_withMode (fun x => canonical_finInt hs) hs)
  | cJ | cJr => exact canonicalNext_next (canonical_jump hs)
  | illegalInstruction => exact canonicalNext_next (canonical_illegal hs)
  | batSpawn => exact canonicalNext_execBatSpawn hs
  | batSend | batSendR => exact canonicalNext_next (canonical_batSend hs)
  | batExit => exact canonicalNext_next (canonical_unlessGanged (fun _ ht => canonical_exitBaton ht) hs)
  | batYield => exact canonicalNext_execBatYield hs
  | batPark => exact canonicalNext_execBatPark hs
  | batWake => exact canonicalNext_execBatWake hs
  | batSelf => exact canonicalNext_execBatSelf hs
  | hdInit => exact canonicalNext_execHdInit hs
  | hdArrive | hdArriveR | hdWithdraw | hdWithdrawR =>
    exact canonicalNext_next (canonical_whenReleased (fun _ ht => canonical_hurdleOp ht) hs)
  | hdWait => exact canonicalNext_execHdWait hs
  | hdArrwait => exact canonicalNext_execHdArrwait hs
  | hdTest => exact canonicalNext_execHdTest hs
  | hdJoin | hdJoinR => exact canonicalNext_next (canonical_hurdleOp hs)
  | lapEnd => exact canonicalNext_execLapEnd hs
  | domRd => exact canonicalNext_next (canonical_ite (canonical_finX hs) (canonical_finX hs))
  | waitUntil => exact canonicalNext_next (canonical_ite (canonical_finX hs) hs)
  | waitPromise => exact canonicalNext_execWaitPromise hs
  | msgSend => exact canonicalNext_execMsgSend hs
  | msgRecv => exact canonicalNext_execMsgRecv hs
  | msgPoll => exact canonicalNext_next (canonical_takeMsg (fun _ ht => canonical_finX ht) hs)
  | rctSet | rctHold | rctRelease => exact canonicalNext_next (canonical_rctChange hs)
  | gangLead => exact canonicalNext_next (canonical_unlessGanged (fun _ ht => canonical_leadGang ht) hs)
  | gangJoin => exact canonicalNext_execGangJoin hs
  | gangEnd => exact canonicalNext_execGangEnd hs
  | xuret => exact canonicalNext_execXuret hs
  | ctxSave => exact canonicalNext_next (canonical_unlessGanged (fun _ ht => canonical_ctxSave ht) hs)
  | ctxRestore => exact canonicalNext_next (canonical_unlessGanged (fun _ ht => canonical_ctxRestore ht) hs)
  | stamClaim => exact canonicalNext_execStamClaim hs
  | stamRd => exact canonicalNext_next (canonical_of_mem_eq mem_finReply hs)
  | ivlPost => exact canonicalNext_execIvlPost hs
  | ivlSync => exact canonicalNext_execIvlSync hs
  | grLaunch => exact canonicalNext_execGrLaunch hs
  | grWait => exact canonicalNext_next (canonical_ite hs (canonical_finX (canonical_of_mem_eq mem_acquireLog hs)))
  | vaddFloat | vsubFloat | vmulFloat | vminFloat | vmaxFloat | vdiv => exact canonicalNext_next (canonical_vFloat2 hs)
  | vabsFloat | vnegFloat | vsqrt | vrsq | vabsInt | vnegInt => exact canonicalNext_next (canonical_vMap hs)
  | vaddInt | vsubInt | vmulInt | vminInt | vmaxInt | vand | vor | vxor | vshl | vshr | vsra =>
    exact canonicalNext_next (canonical_vInt2 hs)
  | vcmp | vsel | vcvt | vsplat | vstatNorm => exact canonicalNext_next (canonical_vecOp hs)
  | vqnt | vdqnt | vredsum | vredmax | vperm | vshuf | vslide | vins | vext =>
    exact canonicalNext_next (canonical_gangWide hs)
  | vld | vlds | vldx | vldb => exact canonicalNext_next (canonical_vload hs)
  | vldq => exact canonicalNext_next (canonical_vloadq hs)
  | vst | vsts | vstx => exact canonicalNext_next (canonical_vstore hs)
  | vfma | vfms | vfnma | vfnms => exact canonicalNext_next (canonical_vFma hs)
  | mmTile | stFill => exact canonicalNext_next (canonical_ite (canonical_trap hs) (canonical_xm hs))
  | panelStep => exact canonicalNext_next (canonical_panelStep hs)
  | mmZero | mmMset | mmTostrm | stSkip => exact canonicalNext_next (canonical_xm hs)
  | mmWait => exact canonicalNext_execMmWait hs
  | mmDrain | mmLoad => exact canonicalNext_next (canonical_drainLoad hs)
  | stBind => exact canonicalNext_next (canonical_ite (canonical_illegal hs) (canonical_xm hs))
  | stStat => exact canonicalNext_next (canonical_withContext (fun _ ht => canonical_finX ht) hs)
  | stFlush =>
    exact canonicalNext_next (canonical_withContext (fun _ ht => canonical_fin
      (canonical_of_mem_eq mem_flushPort ht)) hs)
  | cpGet | cpPut | cpXfer | cpFeed | cpMcast | cpFill | cpGath | cpScat | cpAtom =>
    exact canonicalNext_next (canonical_cpIssue hs)
  | cpStat => exact canonicalNext_execCpStat hs
  | cpCancel => exact canonicalNext_execCpCancel hs
  | bufMap | bufShadow => exact canonicalNext_next (canonical_ite (canonical_illegal hs) (canonical_bufSet hs))
  | bufUnmap => exact canonicalNext_next (canonical_bufSet hs)
  | bufPub => exact canonicalNext_next (canonical_ite (canonical_illegal hs) (canonical_finX hs))
  | statUpd | statUpdw | statMerge =>
    exact canonicalNext_next (canonical_statChecked (fun _ ht => canonical_finSt ht) hs)
  | statLd => exact canonicalNext_execStatLd hs
  | statSt => exact canonicalNext_execStatSt hs
  | vstatUpd | vstatUpdw => exact canonicalNext_next (canonical_vstat hs)
  | statDrain => exact canonicalNext_execStatDrain hs
  | cycOpen =>
    exact canonicalNext_next (canonical_unlessGanged (fun _ ht => canonical_ite (canonical_trap ht)
      (canonical_descIssue ht)) hs)
  | cycFreeze => exact canonicalNext_execCycFreeze hs
  | cycIter | cycBwd | cycClose =>
    exact canonicalNext_next (canonical_onCycle (fun _ _ _ ht => canonical_of_mem_eq mem_finReply ht) hs)
  | cycRes | cycPass => exact canonicalNext_next (canonical_cycPost hs)
  | cycTake => exact canonicalNext_execCycTake hs
  | cycNext => exact canonicalNext_execCycNext hs
  | cycStat => exact canonicalNext_next (canonical_onCycle (fun _ _ _ ht => canonical_of_mem_eq mem_finReply ht) hs)
  | cycAbort => exact canonicalNext_execCycAbort hs
  | clLoad => exact canonicalNext_execClLoad hs
  | clRun => exact canonicalNext_execClRun hs
  | clWait => exact canonicalNext_execClWait hs
  | clCancel => exact canonicalNext_execClCancel hs
  | clGrp => exact canonicalNext_execClGrp hs
  | clJoin | clLeave => exact canonicalNext_next (canonical_memberChange hs)
  | clPause | clResume => exact canonicalNext_next (canonical_pauseRank hs)
  | powerOnReset | inputUndervoltage => exact canonicalNext_next (canonical_packageReset hs)
  | resetRequest => exact canonicalNext_execResetRequest hs
  | thermalReport => exact canonicalNext_next (canonical_ite (canonical_dieReset hs) hs)
  | dieReset => exact canonicalNext_next (canonical_dieReset hs)
  | dieReturn => exact canonicalNext_next (canonical_of_mem_eq mem_dieReturn hs)
  | farModuleLoss => exact canonicalNext_next (canonical_ite (canonical_loseModule hs) hs)
  | relayDown => exact canonicalNext_next (canonical_onRelay (fun _ ht => canonical_relayDown ht) hs)
  | linkFlit => exact canonicalNext_execLinkFlit hs
  | linkRetrain =>
    exact canonicalNext_next (canonical_ite hs (canonical_of_mem_eq mem_sendOwed (canonical_of_mem_eq mem_sendOwed hs)))
  | slotSyncMarker | swcSlew => exact canonicalNext_next (canonical_ite hs hs)
  | slotSync => exact canonicalNext_execSlotSync hs
  | read | amo | copyData | mcastData | atomBatch | chunk =>
    exact canonicalNext_next (canonical_deliverPkt (fun _ _ ht => canonical_homePkt ht) hs)
  | write => exact canonicalNext_execWrite hs
  | readReply => exact canonicalNext_next (canonical_deliverPkt (fun _ _ ht => canonical_readReplied ht) hs)
  | writeAck => exact canonicalNext_next (canonical_deliverPkt (fun _ _ ht => canonical_writeAcked ht) hs)
  | faultReply => exact canonicalNext_next (canonical_deliverPkt (fun _ _ ht => canonical_faulted ht) hs)
  | msg => exact canonicalNext_next (canonical_deliverPkt (fun _ _ ht => canonical_msgArrives ht) hs)
  | msgAck => exact canonicalNext_next (canonical_deliverPkt (fun _ _ ht => canonical_msgAcked ht) hs)
  | msgResend => exact canonicalNext_next (canonical_msgResend hs)
  | msgMoved => exact canonicalNext_next (canonical_deliverPkt (fun _ _ ht => canonical_msgMoved ht) hs)
  | arrive => exact canonicalNext_next (canonical_deliverPkt (fun _ _ ht => canonical_arrivePkt ht) hs)
  | copyDone => exact canonicalNext_execCopyDone hs
  | pause => exact canonicalNext_execPause hs
  | resume => exact canonicalNext_execResume hs
  | ivl => exact canonicalNext_next (canonical_deliverPkt (fun _ _ ht => canonical_ivlAppend ht) hs)
  | rctUpd =>
    exact canonicalNext_next (canonical_deliverPkt (fun _ _ ht => canonical_rctApplied (canonical_applyRct ht)) hs)
  | swcSync => exact canonicalNext_execSwcSync hs
  | swcSyncSend => exact canonicalNext_execSwcSyncSend hs
  | e2eAck => exact canonicalNext_execE2eAck hs
  | e2eAckSend => exact canonicalNext_execE2eAckSend hs
  | gatewayOutbound => exact canonicalNext_execGatewayOutbound hs
  | gatewayInbound => exact canonicalNext_execGatewayInbound hs
  | replayTimeout => exact canonicalNext_execReplayTimeout hs
  | planeIdleTimeout => exact canonicalNext_next (canonical_ite (canonical_of_mem_eq mem_planeDown hs) hs)
  | walkDone => exact canonicalNext_execWalkDone hs
  | faultAnswer => exact canonicalNext_next (canonical_faultAnswer hs)
  | faultRecordTimeout => exact canonicalNext_execFaultRecordTimeout hs
  | logApply => exact canonicalNext_execLogApply hs
  | appliedIndexReport => exact canonicalNext_execAppliedIndexReport hs
  | tierMove | homeMove => exact canonicalNext_next (canonical_ite (canonical_moveStart hs) hs)
  | vaultCopyDone => exact canonicalNext_execVaultCopyDone hs
  | trkload => exact canonicalNext_next (canonical_of_mem_eq mem_trkload hs)
  | trkloadDone => exact canonicalNext_execTrkloadDone hs
  | hostApertureAccess => exact canonicalNext_execHostApertureAccess hs
  | intakeWrite => exact canonicalNext_next (canonical_intakeWrite hs)
  | intakecommit => exact canonicalNext_next (canonical_intakeCommit hs)
  | grdef => exact canonicalNext_next (canonical_of_mem_eq mem_grdefWrite hs)
  | grdefCopyDone => exact canonicalNext_next (canonical_of_mem_eq mem_grdefDone hs)
  | prectlPreempt | prectlResume => exact canonicalNext_next (canonical_ite (canonical_prectlWrite hs) hs)
  | prestatDone => exact canonicalNext_execPrestatDone hs
  | ckctlStart | ckctlQuiesce | ckctlRestore => exact canonicalNext_next (canonical_ite (canonical_ckctlWrite hs) hs)
  | quiesceDone => exact canonicalNext_execQuiesceDone hs
  | checkpointCopyDone => exact canonicalNext_next (canonical_ite (canonical_heldReset (canonical_copyDone hs)) hs)
  | restoreDone => exact canonicalNext_execRestoreDone hs
  | tftpResend => exact canonicalNext_next (canonical_ite hs (canonical_ite hs hs))
  | fetchRestart => exact canonicalNext_execFetchRestart hs
  | imageVerify => exact canonicalNext_next (canonical_ite hs (canonical_ite (canonical_of_mem_eq mem_certify hs) hs))
  | bankGate => exact canonicalNext_next (canonical_bankGate hs)
  | bankWake => exact canonicalNext_next (canonical_of_mem_eq mem_bankWake hs)
  | bankWakeDone => exact canonicalNext_execBankWakeDone hs
  | registerWrite => exact canonicalNext_next (canonical_mgmtWrite hs)
  | resourceReport => exact canonicalNext_next (canonical_of_mem_eq mem_resourceReport hs)
  | launchAdmit => exact canonicalNext_next (canonical_of_mem_eq mem_launchAdmit hs)
  | admissionDeadline => exact canonicalNext_next (canonical_of_mem_eq mem_admissionDeadline hs)
  | launchPlace => exact canonicalNext_next (canonical_launchPlace hs)
  | placementTimeout => exact canonicalNext_next (canonical_of_mem_eq mem_placementTimeout hs)
  | energyMeasure => exact canonicalNext_next (canonical_of_mem_eq mem_energyMeasure hs)
  | batonDispatch => exact canonicalNext_next (canonical_dispatch hs)
  | ageTick => exact canonicalNext_execAgeTick hs
  | slotPromotion => exact canonicalNext_execSlotPromotion hs
  | pacerBind => exact canonicalNext_next (canonical_of_mem_eq mem_pacerBind hs)
  | batonEvict => exact canonicalNext_next (canonical_evict hs)
  | waitDeadline => exact canonicalNext_next (canonical_deadline hs)
  | gangFormationTimeout => exact canonicalNext_next (canonical_formationTimeout hs)
  | deferredFaultDelivery => exact canonicalNext_next (canonical_ite (canonical_deliverDeferred hs) hs)
  | promiseMissed => exact canonicalNext_execPromiseMissed hs
  | copyComplete => exact canonicalNext_next (canonical_copyComplete hs)
  | feedPanel => exact canonicalNext_next (canonical_feedPanel hs)
  | handleEntryLapse => exact canonicalNext_next (canonical_of_mem_eq mem_lapseEntry hs)
  | nodeStart => exact canonicalNext_next (canonical_onRelay (fun _ ht => canonical_nodeStart ht) hs)
  | nodeEnd => exact canonicalNext_next (canonical_onRelay (fun _ ht => canonical_nodeEnd ht) hs)
  | stallTimeout =>
    exact canonicalNext_next (canonical_onRelay (fun _ ht => canonical_of_mem_eq mem_stallTimeout ht) hs)
  | pauseLimit => exact canonicalNext_next (canonical_onRelay (fun _ ht => canonical_of_mem_eq mem_pauseLimit ht) hs)
  | reservationRelease =>
    exact canonicalNext_next (canonical_onRelay (fun _ ht => canonical_of_mem_eq mem_reservationRelease ht) hs)
  | functionReady => exact canonicalNext_next (canonical_functionReady hs)
  | functionFailure => exact canonicalNext_next (canonical_functionFailure hs)
  | dispatchEntryComplete => exact canonicalNext_next (canonical_dispatchDone hs)
  | cycleControllerRequest => exact canonicalNext_next (canonical_cycRequest hs)
  | managementEthernetFrame => exact canonicalNext_next (canonical_loadImage hs)

/-! ## The step -/
section
variable {s : State} {k : Nat}

theorem canonicalNext_issue (hs : Canonical s.mem) : CanonicalNext (s.issue k) := by
  have hchosen {l : List Byte} : Canonical (s.chosen k l).mem := canonical_of_mem_eq mem_chosen hs
  unfold State.issue
  split
  · exact canonicalNext_next hs
  · exact canonicalNext_next (canonical_deliverDeferred hs)
  · exact canonicalNext_next (canonical_fetchTrap hs)
  · exact canonicalNext_next (canonical_of_mem_eq mem_fetchAsk hs)
  · exact canonicalNext_exec hchosen
  · exact canonicalNext_exec hchosen

theorem canonicalNext_turn {t : Turn} (hs : Canonical s.mem) : CanonicalNext (s.turn t) := by
  cases t with
  | event i => exact canonicalNext_exec hs
  | slot k => exact canonicalNext_issue hs
  | tick n => exact canonicalNext_next (canonical_of_mem_eq mem_tick hs)
  | piece cl entry piece => exact canonicalNext_next (canonical_pieceStep hs)
  | poll r => exact canonicalNext_next (canonical_poll hs)

theorem canonicalNext_step (hs : Canonical s.mem) : CanonicalNext (step s) := by
  unfold step
  split
  · exact canonicalNext_next hs
  · exact canonicalNext_turn hs
end

/-- Settles O59: what each function of the model makes of the memory keeps it canonical, and a step is made of these. -/
theorem memoryStaysCanonical : Obligations.MemoryStaysCanonical :=
  fun _ hs => ⟨canonicalNext_step hs, fun _ => canonicalNext_exec hs⟩

end Sys2Proof.Machine
end

section
/-!
PROOF of O54. What a step does, by the head of the agenda, and what a slot's turn comes to, by what the slot has to do.
-/
namespace Sys2Proof.Machine

/-! ## The head of the agenda -/

section
variable {s : State} {rest : List Turn}

theorem step_of_agenda_nil (h : s.agenda = []) : step s = .next { s with agenda := s.plan } := by
  unfold step
  rw [h]

theorem step_of_agenda_cons {t : Turn} (h : s.agenda = t :: rest) : step s = State.turn { s with agenda := rest } t := by
  unfold step
  rw [h]
end

/-! ## Code (R194) -/

theorem codeUnit_of_homeUnit {s : State} {f n : Nat} {l : List Byte}
    (hhome : s.homeUnit (keyDie f) (s.slotAt f).track n = .bytes l) (hstale : s.staleUnit f n l = none) :
    s.codeUnit f n = .bytes l := by
  simp only [State.codeUnit, hhome, hstale]

/-! ## The state in which an instruction executes (R103, R107) -/

section
variable {s : State} {k : Nat} {l : List Byte}

/-- What a choice leaves of the slots and the agenda as it caches code and notes it in a gang. -/
structure ChoiceFrame (s v : State) : Prop where
  slots : v.slots = s.slots
  agenda : v.agenda = s.agenda

theorem choiceFrame_cached {f n : Nat} : ChoiceFrame s (s.cached f n) := ⟨rfl, rfl⟩

theorem ChoiceFrame.setGang {v : State} {key : Nat} {g : Gang} (h : ChoiceFrame s v) : ChoiceFrame s (v.setGang key g) := by
  obtain ⟨hslots, hagenda⟩ := h
  exact ⟨hslots, hagenda⟩

/-- A choice is an update of the chosen slot, of its core's last slot and of the focus, but for the instruction cache and the gang's code. -/
theorem chosen_eq (s : State) (k : Nat) (l : List Byte) : ∃ v, ChoiceFrame s v ∧
    s.chosen k l = { (v.setSlotAt k { s.slotAt k with unchosen := 0, promoted := none }).setCore (keyCid k)
      { s.core (keyCid k) with lastSlot := keySlot k } with focus := k } := by
  have hgang (u : State) (hu : ChoiceFrame s u) (o : Option (Nat × Gang × Nat)) : ChoiceFrame s
      (match o with | none => u | some (key, g, _) => u.setGang key { g with code := l }) := by
    cases o with
    | none => exact hu
    | some p => exact hu.setGang
  unfold State.chosen
  cases s.roundCode k with
  | some _ => exact ⟨_, hgang s ⟨rfl, rfl⟩ _, rfl⟩
  | none => exact ⟨_, hgang _ choiceFrame_cached _, rfl⟩

theorem chosen_me : (s.chosen k l).me = { s.slotAt k with unchosen := 0, promoted := none } := by
  obtain ⟨v, -, h⟩ := chosen_eq s k l
  rw [h]
  exact slotAt_setSlotAt v k _

theorem chosen_focus : (s.chosen k l).focus = k := rfl

theorem chosen_agenda : (s.chosen k l).agenda = s.agenda := by
  obtain ⟨v, hv, h⟩ := chosen_eq s k l
  rw [h]
  exact hv.agenda

theorem chosen_lastSlot : ((s.chosen k l).core (keyCid k)).lastSlot = keySlot k := by
  obtain ⟨v, -, h⟩ := chosen_eq s k l
  rw [h]
  exact congrArg Core.lastSlot (core_setCore _ _ _)

theorem chosen_slotAt_other {j : Nat} (hj : j ≠ k) : (s.chosen k l).slotAt j = s.slotAt j := by
  obtain ⟨v, hv, h⟩ := chosen_eq s k l
  rw [h]
  calc (v.setSlotAt k _).slotAt j = v.slotAt j := slotAt_setSlotAt_other v j k _ hj
    _ = s.slotAt j := by rw [State.slotAt, hv.slots, State.slotAt]

/-! ## What a slot has to do -/

theorem look_of_code (hrest : s.resting k = false) (hfault : s.faultDue k = false)
    (hcode : s.roundCode k = some l ∨ s.roundCode k = none ∧ s.fetch (s.fetchSlot k) = .code l) :
    s.look k = s.lookAt k l := by
  unfold State.look
  rw [hrest, hfault]
  obtain hround | ⟨hround, hfetch⟩ := hcode
  · simp [hround]
  · simp [hround, hfetch]

theorem issue_of_decode_ok {i : Instr} {r : List Byte} (hlook : s.look k = s.lookAt k l) (hdecode : decode l = .ok (i, r))
    (hfree : s.interlocked k i = false) : s.issue k = exec i (s.chosen k l) := by
  simp [State.issue, hlook, State.lookAt, hdecode, hfree]

theorem issue_of_decode_error {e : Reject} (hlook : s.look k = s.lookAt k l) (hdecode : decode l = .error e) :
    s.issue k = exec (.illegalInstruction (BitVec.ofNat 32 (natLE l))) (s.chosen k l) := by
  simp [State.issue, hlook, State.lookAt, hdecode]
end

/-- Settles O54: the turns of the agenda's head, with what a slot has to do and what its choice changes. -/
theorem stepRunsDecodedInstruction : Obligations.StepRunsDecodedInstruction := by
  intro s rest
  refine ⟨step_of_agenda_nil, fun i h => step_of_agenda_cons h, fun f n l => codeUnit_of_homeUnit, ?_⟩
  intro k l h u f hrest hfault hcode c
  have hstep : step s = u.issue k := step_of_agenda_cons h
  have hlook : u.look k = u.lookAt k l := look_of_code hrest hfault hcode
  exact ⟨fun i r hdecode hfree => hstep.trans (issue_of_decode_ok hlook hdecode hfree),
    fun e hdecode => hstep.trans (issue_of_decode_error hlook hdecode),
    chosen_focus, chosen_me, mem_chosen, chosen_agenda, chosen_lastSlot, fun j hj => chosen_slotAt_other hj⟩

end Sys2Proof.Machine
end

section
/-!
PROOF of O49. What boot's events, a register write, a host access and the bank events make of the state: an equation of each, from which the
obligation is read off.
-/
namespace Sys2Proof.Machine

/-! ## Bytes and fields -/

theorem readByte_writeBytes_in {m : Memory} {a j : Nat} {l : List Byte} (hj : j < l.length) :
    readByte (writeBytes m a l) (a + j) = l[j] := by
  induction l generalizing m a j with
  | nil => exact absurd hj (Nat.not_lt_zero j)
  | cons b r ih =>
    cases j with
    | zero => exact (readByte_writeBytes_out _ _ _ _ (.inl (Nat.lt_succ_self a))).trans (readByte_writeByte_same m a b)
    | succ n =>
      have hn : n < r.length := Nat.lt_of_succ_lt_succ hj
      rw [writeBytes, ← Nat.add_assoc, Nat.add_right_comm, ih hn, List.getElem_cons_succ]

theorem readByte_clearRange {m : Memory} {a n j : Nat} (hj : j < n) : readByte (clearRange m a n) (a + j) = 0 := by
  induction m with
  | nil => rfl
  | cons p r ih =>
    obtain ⟨k, x⟩ := p
    rw [clearRange, List.filter_cons]
    split
    next hout =>
      have hne : a + j ≠ k := by
        simp only [Bool.or_eq_true, decide_eq_true_eq] at hout
        omega
      rwa [readByte, kget, if_neg hne]
    next => exact ih

theorem toNat_append_eq_add {m n : Nat} (x : BitVec m) (y : BitVec n) : (x ++ y).toNat = x.toNat * 2 ^ n + y.toNat := by
  rw [BitVec.toNat_append, ← Nat.shiftLeft_add_eq_or_of_lt y.isLt, Nat.shiftLeft_eq]

/-- A field that has been set reads as it was set. -/
theorem extractLsb'_setField {n : Nat} (w : BitVec n) {lo len v : Nat} (hn : lo + len ≤ n) :
    (setField w lo len v).extractLsb' lo len = BitVec.ofNat len v := by
  apply BitVec.eq_of_getLsbD_eq
  intro i hi
  have hmask : ((2 ^ len - 1) * 2 ^ lo).testBit (lo + i) = true := by
    rw [Nat.testBit_mul_two_pow, Nat.testBit_two_pow_sub_one]
    simp [hi]
  have hval : (v % 2 ^ len * 2 ^ lo).testBit (lo + i) = v.testBit i := by
    rw [Nat.testBit_mul_two_pow, Nat.testBit_mod_two_pow]
    simp [hi]
  have hlt : lo + i < n := by omega
  simp only [setField, BitVec.getLsbD_extractLsb', BitVec.getLsbD_or, BitVec.getLsbD_and, BitVec.getLsbD_not,
    BitVec.getLsbD_ofNat, hmask, hval, hi, hlt]
  simp

/-! ## The fetch of the boot image (R76) -/

section
variable {s : State} {b old : Boot} {now : Nat} {f p data : List Byte}

theorem frame_of_not_waiting (h : b.step ∈ [.verify, .running, .rejected, .hbm]) : b.frame now f = b := by
  have hlink : b.step ≠ .link := fun e => by simp [e] at h
  have haddress : b.step ≠ .address := fun e => by simp [e] at h
  have hfetch : b.step ≠ .fetch := fun e => by simp [e] at h
  simp [Boot.frame, hlink, haddress, hfetch]

theorem loadImage_of_not_fetch (h : old.step ≠ .fetch) : s.loadImage old = s := by simp [State.loadImage, h]

theorem execFrame_of_not_waiting (h : s.boot.step ∈ [.verify, .running, .rejected, .hbm]) :
    exec (.managementEthernetFrame f) s = .next s := by
  have hfetch : s.boot.step ≠ .fetch := fun e => by simp [e] at h
  calc exec (.managementEthernetFrame f) s
    _ = .next ({ s with boot := s.boot.frame (s.swcAt bDie) f }.loadImage s.boot) := rfl
    _ = .next s := by rw [loadImage_of_not_fetch hfetch, frame_of_not_waiting h]

/-- The boot ROM after the next block of the image: a block shorter than the block size ends the fetch. -/
def Boot.withBlock (b : Boot) (now : Nat) (data : List Byte) : Boot :=
  { b with image := b.image ++ data, blocks := b.blocks + 1, resends := 0, sentAt := now,
           sent := tftpAck (b.blocks + 1) :: b.sent, complete := b.complete || decide (data.length < tftpBlock),
           step := if data.length < tftpBlock then .verify else b.step }

theorem tftp_of_block (hop : netField p 0 2 = 3) (hblock : netField p 2 2 = (b.blocks + 1) % 65536)
    (hlen : (p.drop 4).length ≤ tftpBlock) : b.tftp now p = b.withBlock now (p.drop 4) := by
  have hoptions : ¬ (netField p 0 2 = 6 ∧ b.blocks = 0) := by simp [hop]
  unfold Boot.tftp
  dsimp only
  rw [if_neg hoptions, if_pos ⟨hop, hblock, hlen⟩]
  by_cases hlast : (p.drop 4).length < tftpBlock
  · simp only [Boot.withBlock, hlast, if_true, decide_true, Bool.or_true]
  · simp only [Boot.withBlock, hlast, if_false, decide_false, Bool.or_false]

theorem frame_of_fetch {udp : List Byte} (hstep : b.step = .fetch) (hwait : b.waitUntil = none)
    (hpayload : ipv6Payload f 17 = some (b.server, udp)) : b.frame now f = b.tftp now (udp.drop 8) := by
  simp [Boot.frame, hstep, hwait, hpayload]

theorem tftpAck_eq (n : Nat) : tftpAck n = [0#8, 4#8, BitVec.ofNat 8 (n / 256), BitVec.ofNat 8 n] := by
  have hop : toByte 4 2 = [0#8, 4#8] := by decide
  have hnum : toByte (n % 65536) 2 = [BitVec.ofNat 8 (n / 256), BitVec.ofNat 8 n] := by
    have hhigh : BitVec.ofNat 8 (n % 65536 / 2 ^ (8 * 1)) = BitVec.ofNat 8 (n / 256) :=
      BitVec.eq_of_toNat_eq (by simp only [BitVec.toNat_ofNat]; omega)
    have hlow : BitVec.ofNat 8 (n % 65536 / 2 ^ (8 * 0)) = BitVec.ofNat 8 n :=
      BitVec.eq_of_toNat_eq (by simp only [BitVec.toNat_ofNat]; omega)
    exact congrArg₂ (fun x y => [x, y]) hhigh hlow
  rw [tftpAck, hop, hnum]
  rfl

theorem boot_loadImage : (s.loadImage old).boot = s.boot := by
  unfold State.loadImage
  dsimp only
  split <;> rfl

/-- What a frame has added to the image stands in C-die 0's HBM behind what came before. -/
theorem readByte_loadImage (hstep : old.step = .fetch) (himage : s.boot.image = old.image ++ data)
    (hfits : Config.bootBase.toNat + old.image.length + data.length ≤ hbmSize) {j : Nat} (hj : j < data.length) :
    readByte (s.loadImage old).mem (hbmCell 0 (Config.bootBase.toNat + old.image.length) + j) = data[j] := by
  have hnew : s.boot.image.drop old.image.length = data := by rw [himage, List.drop_left]
  have hdata : data ≠ [] := List.ne_nil_of_length_pos (Nat.zero_lt_of_lt hj)
  have hload : s.loadImage old = s.store none (hbmCell 0 (Config.bootBase.toNat + old.image.length)) data := by
    simp only [State.loadImage, hnew]
    exact if_pos ⟨hstep, hdata, hfits⟩
  rw [hload, mem_store, readByte_writeBytes_in hj]

theorem execFrame_of_block {udp : List Byte} (hstep : s.boot.step = .fetch) (hwait : s.boot.waitUntil = none)
    (hpayload : ipv6Payload f 17 = some (s.boot.server, udp)) (hop : netField (udp.drop 8) 0 2 = 3)
    (hblock : netField (udp.drop 8) 2 2 = (s.boot.blocks + 1) % 65536) (hlen : (udp.drop 12).length ≤ tftpBlock) :
    exec (.managementEthernetFrame f) s =
      .next ({ s with boot := s.boot.withBlock (s.swcAt bDie) (udp.drop 12) }.loadImage s.boot) := by
  have hdrop : (udp.drop 8).drop 4 = udp.drop 12 := List.drop_drop
  have hframe : s.boot.frame (s.swcAt bDie) f = s.boot.withBlock (s.swcAt bDie) (udp.drop 12) := by
    rw [frame_of_fetch hstep hwait hpayload, tftp_of_block hop hblock (hdrop ▸ hlen), hdrop]
  rw [← hframe]
  rfl

theorem execTftpResend_of_not_fetch (h : s.boot.step ≠ .fetch) : exec .tftpResend s = .next s :=
  congrArg Host.Outcome.next (if_pos (.inl h))

theorem execTftpResend_early (h : s.swcAt bDie < s.boot.sentAt + secondCycles) : exec .tftpResend s = .next s :=
  congrArg Host.Outcome.next (if_pos (.inr (.inr h)))

theorem execTftpResend_late (hstep : s.boot.step = .fetch) (hwait : s.boot.waitUntil = none)
    (h : s.boot.sentAt + secondCycles ≤ s.swcAt bDie) : exec .tftpResend s = .next { s with boot :=
      if s.boot.resends < 5 then
        { s.boot with resends := s.boot.resends + 1, sentAt := s.swcAt bDie, sent := s.boot.sent.take 1 ++ s.boot.sent }
      else { s.boot with waitUntil := some (s.swcAt bDie + 10 * secondCycles) } } := by
  have hdue : ¬ (s.boot.step ≠ .fetch ∨ s.boot.waitUntil ≠ none ∨ s.swcAt bDie < s.boot.sentAt + secondCycles) := by
    simp [hstep, hwait, h]
  refine congrArg Host.Outcome.next ((if_neg hdue).trans ?_)
  split <;> rfl

theorem execFetchRestart_of_not_waiting (h : s.boot.waitUntil = none) : exec .fetchRestart s = .next s := by
  refine congrArg Host.Outcome.next ?_
  simp only [h]

theorem execFetchRestart_early {t : Nat} (hwait : s.boot.waitUntil = some t) (h : s.swcAt bDie < t) :
    exec .fetchRestart s = .next s := by
  refine congrArg Host.Outcome.next ?_
  simp only [hwait, h, true_or, if_true]

theorem execFetchRestart_late {t : Nat} (hwait : s.boot.waitUntil = some t) (hstep : s.boot.step ∈ [.fetch, .rejected])
    (h : t ≤ s.swcAt bDie) : exec .fetchRestart s = .next { s with boot :=
      { s.boot with step := .address, restarts := if s.boot.restarts = 4095#12 then s.boot.restarts else s.boot.restarts + 1,
                    address := 0, server := 0, file := [], image := [], blocks := 0, tsize := none, complete := false,
                    resends := 0, waitUntil := none } } := by
  have hdue : ¬ (s.swcAt bDie < t ∨ s.boot.step ≠ .fetch ∧ s.boot.step ≠ .rejected) := by
    simp only [List.mem_cons, List.not_mem_nil, or_false] at hstep
    obtain hstep | hstep := hstep
    · simp [hstep, h]
    · simp [hstep, h]
  refine congrArg Host.Outcome.next ?_
  simp only [hwait]
  exact if_neg hdue

/-- The counter of restarts stops at its greatest value. -/
theorem toNat_restarts (r : BitVec 12) : (if r = 4095#12 then r else r + 1).toNat = min 4095 (r.toNat + 1) := by
  split
  next h => simp [h]
  next h =>
    have hne : r.toNat ≠ 4095 := fun e => h (BitVec.eq_of_toNat_eq e)
    have hlt : r.toNat < 4096 := r.isLt
    have hadd : (r + 1).toNat = (r.toNat + 1) % 4096 := BitVec.toNat_add r 1
    omega

/-! ## The verification of the image (R77) -/

theorem execImageVerify_of_not_verify (h : s.boot.step ≠ .verify) : exec .imageVerify s = .next s :=
  congrArg Host.Outcome.next (if_pos h)

theorem execImageVerify_accepts (hstep : s.boot.step = .verify) (hok : imageOk s.boot.image = true) :
    exec .imageVerify s = .next ({ s with boot :=
      { s.boot with step := .running, entry := some (imageField s.boot.image 0x10 8),
                    version := imageField s.boot.image 8 4 } }).certify :=
  congrArg Host.Outcome.next ((if_neg (not_not_intro hstep)).trans (if_pos hok))

theorem execImageVerify_rejects (hstep : s.boot.step = .verify) (hok : imageOk s.boot.image = false) :
    exec .imageVerify s = .next { s with boot :=
      { s.boot with step := .rejected, waitUntil := some (s.swcAt bDie + 10 * secondCycles) } } :=
  congrArg Host.Outcome.next ((if_neg (not_not_intro hstep)).trans (if_neg (by rw [hok]; exact Bool.false_ne_true)))

theorem imageOk_of_magic {l : List Byte} (h : natLE (l.take 4) ≠ 0x4D494A4E) : imageOk l = false := by
  simp [imageOk, imageField, h]

/-- The identity key's certificate changes nothing of what runs. -/
theorem certify_frame : s.certify.slots = s.slots ∧ s.certify.boot.step = s.boot.step ∧ s.certify.boot.entry = s.boot.entry ∧
    s.certify.boot.version = s.boot.version := by
  unfold State.certify
  dsimp only
  split <;> exact ⟨rfl, rfl, rfl, rfl⟩
end

/-! ## Writes of registers (R73, R74, R86, R116) -/

theorem lnctlValue_fields (v : Dword) : (lnctlValue v).toNat % 4 = v.toNat % 4 ∧ (lnctlValue v).toNat / 4 % 2 ^ 26 = 0 ∧
    (lnctlValue v).toNat / 2 ^ 28 = v.toNat / 2 ^ 28 := by
  have hv := v.isLt
  have hvalue : (lnctlValue v).toNat = v.toNat / 2 ^ 28 * 2 ^ 28 + v.toNat % 4 := by
    rw [lnctlValue, toNat_append_eq_add, toNat_append_eq_add, BitVec.extractLsb'_toNat, BitVec.extractLsb'_toNat,
      Nat.shiftRight_eq_div_pow, Nat.shiftRight_zero, BitVec.toNat_ofNat]
    omega
  omega

theorem toNat_grtrk (v : Dword) : ((v.extractLsb' 0 16).zeroExtend 64).toNat = v.toNat % 2 ^ 16 := by
  rw [BitVec.toNat_setWidth, BitVec.extractLsb'_toNat, Nat.shiftRight_zero]
  omega

theorem stamcfgValue_fields (v : Dword) : (stamcfgValue v).toNat % 2 ^ 32 = min 3600 (v.toNat % 2 ^ 12) ∧
    (stamcfgValue v).toNat / 2 ^ 32 = v.toNat / 2 ^ 32 := by
  have hv := v.isLt
  have hlow : (v.extractLsb' 0 12).toNat = v.toNat % 2 ^ 12 := by rw [BitVec.extractLsb'_toNat, Nat.shiftRight_zero]
  have hbudget : (if 3600 < (v.extractLsb' 0 12).toNat then 3600#12 else v.extractLsb' 0 12).toNat =
      min 3600 (v.toNat % 2 ^ 12) := by
    split
    next h => exact (Nat.min_eq_left (Nat.le_of_lt (hlow ▸ h))).symm
    next h => rw [hlow, Nat.min_eq_right (hlow ▸ Nat.le_of_not_lt h)]
  have hvalue : (stamcfgValue v).toNat = v.toNat / 2 ^ 32 * 2 ^ 32 + min 3600 (v.toNat % 2 ^ 12) := by
    rw [stamcfgValue, toNat_append_eq_add, toNat_append_eq_add, hbudget, BitVec.extractLsb'_toNat, Nat.shiftRight_eq_div_pow,
      BitVec.toNat_ofNat]
    omega
  omega

theorem toNat_timerField (x : BitVec 32) : (timerField x).toNat = max 1 x.toNat := by
  unfold timerField
  split
  next h => rw [h]; rfl
  next h =>
    have hpos : x.toNat ≠ 0 := fun e => h (BitVec.eq_of_toNat_eq e)
    omega

theorem toNat_lowTimer (v : Dword) : (timerField (v.extractLsb' 0 32)).toNat = max 1 (v.toNat % 2 ^ 32) := by
  rw [toNat_timerField, BitVec.extractLsb'_toNat, Nat.shiftRight_zero]

theorem toNat_highTimer (v : Dword) : (timerField (v.extractLsb' 32 32)).toNat = max 1 (v.toNat / 2 ^ 32) := by
  have hv := v.isLt
  rw [toNat_timerField, BitVec.extractLsb'_toNat, Nat.shiftRight_eq_div_pow, Nat.mod_eq_of_lt (by omega)]

theorem rlytim0_fields (v : Dword) :
    (timerField (v.extractLsb' 32 32) ++ timerField (v.extractLsb' 0 32)).toNat % 2 ^ 32 = max 1 (v.toNat % 2 ^ 32) ∧
    (timerField (v.extractLsb' 32 32) ++ timerField (v.extractLsb' 0 32)).toNat / 2 ^ 32 = max 1 (v.toNat / 2 ^ 32) := by
  rw [toNat_append_eq_add, toNat_highTimer, toNat_lowTimer]
  omega

theorem toNat_rlytim1 (v : Dword) : (0#32 ++ timerField (v.extractLsb' 0 32)).toNat = max 1 (v.toNat % 2 ^ 32) := by
  rw [toNat_append_eq_add, toNat_lowTimer]
  exact Nat.zero_add _

section
variable {s : State} {v : Dword}

/-- The registers of the block that are read-only. -/
theorem execRegisterWrite_readOnly {off : Nat}
    (h : off ∈ [0x000, 0x108, 0x200, 0x208, 0x210, 0x218, 0x230, 0x308, 0x408, 0x500, 0x620]) :
    exec (.registerWrite off v) s = .next s := by
  simp only [List.mem_cons, List.not_mem_nil, or_false] at h
  obtain rfl | rfl | rfl | rfl | rfl | rfl | rfl | rfl | rfl | rfl | rfl := h <;> rfl

theorem mgmtWrite_staging {i q : Nat} (hi : i < 16) (hq : q < 8) :
    s.mgmtWrite (0x1000 + 64 * i + 8 * q) v = s.stage (64 * i + 8 * q) v := by
  have ho : 0x1000 + 64 * i + 8 * q - 0x1000 = 64 * i + 8 * q := by omega
  unfold State.mgmtWrite
  iterate 14 refine (if_neg (by omega)).trans ?_
  exact (if_pos ⟨by omega, by omega⟩).trans (congrArg (s.stage · v) ho)

theorem stagingWord_stage {o : Nat} : (s.stage o v).stagingWord o = v := by
  have hset {m : State} (h : m.pkg.staging = s.pkg.staging.set (o / 64 % 16) (setField
      (s.pkg.staging[o / 64 % 16]'(Nat.mod_lt _ (by decide))) (o / 8 % 8 * 64) 64 v.toNat) (Nat.mod_lt _ (by decide))) :
      m.stagingWord o = v := by
    have hfield : o / 8 % 8 * 64 + 64 ≤ 512 := by omega
    simp only [State.stagingWord, h, Vector.getElem_set_self, extractLsb'_setField _ hfield, BitVec.ofNat_toNat,
      BitVec.setWidth_eq]
  unfold State.stage
  dsimp only
  split <;> exact hset rfl

theorem slots_stage {o : Nat} : (s.stage o v).slots = s.slots := by
  unfold State.stage
  dsimp only
  split <;> rfl
end

/-! ## The host aperture (R72) -/

theorem linePieces_of_line {a n : Nat} (hn : 0 < n) (hline : a % 64 + n ≤ 64) : linePieces a n = [(a, n)] := by
  have hone : (a + n + 63) / 64 - a / 64 = 1 := by omega
  have hlo : max a ((a / 64 + 0) * 64) = a := by omega
  have hlen : min (a + n) ((a / 64 + 0 + 1) * 64) - a = n := by omega
  simp only [linePieces, hone, List.range_one, List.map_cons, List.map_nil, hlo, hlen]

section
variable {s : State} {write poison : Bool} {tk : BitVec 16} {a n len data : Nat} {bytes : List Byte}

/-- The packet of a piece of a host access. -/
def State.hostPkt (s : State) (write : Bool) (tk : BitVec 16) (a n : Nat) (data : List Byte) (poison : Bool) : Pkt :=
  { Pkt.blank with ty := if write then .write else .read, op := if write then .write else .read, va := a, track := tk,
                   src := niEp xDie, dst := (s.routeTo xDie tk a).1, dstPkg := (s.routeTo xDie tk a).2, master := 6,
                   tag := s.nextTag, elems := [(a, n)], data := data, poison := poison }

/-- A piece whose home is a die of the package that can be reached is accepted. -/
theorem hostPiece_eq_accept (hpkg : (s.routeTo xDie tk a).2 = 0) (hep : isEp (s.routeTo xDie tk a).1 = true)
    (hup : s.dieUp (epDie (s.routeTo xDie tk a).1) = true) (hlink : s.linkUp xDie (epDie (s.routeTo xDie tk a).1) = true) :
    s.hostPiece write tk a n bytes poison = (s.newTag (.host (!write))).2.accept xDie (epDie (s.routeTo xDie tk a).1)
      (s.hostPkt write tk a n bytes poison) := by
  have hsend : s.hostPiece write tk a n bytes poison =
      (s.newTag (.host (!write))).2.sendFrom (epDie (niEp xDie)) (s.hostPkt write tk a n bytes poison) := rfl
  have hdie : epDie (niEp xDie) = xDie := by decide
  rw [hsend, hdie]
  exact send_accepts _ xDie (s.hostPkt write tk a n bytes poison) hpkg hep hup hlink

theorem hostPiece_accepted (hpkg : (s.routeTo xDie tk a).2 = 0) (hep : isEp (s.routeTo xDie tk a).1 = true)
    (hup : s.dieUp (epDie (s.routeTo xDie tk a).1) = true) (hlink : s.linkUp xDie (epDie (s.routeTo xDie tk a).1) = true) :
    (s.hostPiece write tk a n bytes poison).slots = s.slots ∧ (s.hostPiece write tk a n bytes poison).mem = s.mem ∧
      kfind (s.hostPiece write tk a n bytes poison).owners s.nextTag = some (.host (!write)) ∧
      (s.hostPiece write tk a n bytes poison).inFlight fun p => p.ty = (if write then .write else .read) ∧ p.va = a ∧
        p.dst = (s.routeTo xDie tk a).1 ∧ p.track = tk ∧ p.tag = s.nextTag ∧ p.elems = [(a, n)] ∧ p.data = bytes ∧
        p.poison = poison := by
  rw [hostPiece_eq_accept hpkg hep hup hlink]
  exact ⟨rfl, rfl, kfind_kset_same _ _ _, accept_inFlight _ _ _ _ _ ⟨rfl, rfl, rfl, rfl, rfl, rfl, rfl, rfl⟩⟩

theorem execHost_unready (h : s.readyBit 55 = false) : exec (.hostApertureAccess write a len data poison) s = .next s :=
  congrArg Host.Outcome.next (if_pos (by rw [h]; rfl))

theorem execHost_disabled (hready : s.readyBit 55 = true) (hup : s.dieUp xDie = true) (hoff : s.pkg.lnctl.getLsbD 0 = false) :
    exec (.hostApertureAccess write a len data poison) s = .next (s.hostAnswer (!write) none false) := by
  refine congrArg Host.Outcome.next ((if_neg ?_).trans (if_pos ?_))
  · rw [hready, hup]
    decide
  · rw [hoff]
    rfl

/-- The global address of a host access. -/
def State.hostVa (s : State) (a : Nat) : Nat := s.pkg.lnctl.toNat / 2 ^ 28 % 2 ^ 20 * 2 ^ 36 + a

theorem hostVa_eq : (s.pkg.lnctl.extractLsb' 28 20).toNat * 2 ^ 36 + a = s.hostVa a := by
  rw [State.hostVa, BitVec.extractLsb'_toNat, Nat.shiftRight_eq_div_pow]

theorem execHost_line (hready : s.readyBit 55 = true) (hup : s.dieUp xDie = true) (hon : s.pkg.lnctl.getLsbD 0 = true)
    (hend : a + len ≤ 2 ^ 36) (hclass : addrClass (s.hostVa a) = .global) (hlen : 0 < len) (hline : s.hostVa a % 64 + len ≤ 64) :
    exec (.hostApertureAccess write a len data poison) s = .next (s.hostPiece write (s.pkg.lnctl.extractLsb' 48 16) (s.hostVa a)
      len (if write then bytesLE len data else []) (write && poison)) := by
  have hbytes : ((bytesLE len data).drop (s.hostVa a - s.hostVa a)).take len = bytesLE len data := by
    simp [bytesLE]
  refine congrArg Host.Outcome.next ?_
  dsimp only
  rw [hostVa_eq, if_neg (by simp [hready, hup]), if_neg (by simp only [hon, hclass]; simp; omega),
    linePieces_of_line hlen hline, List.foldl_cons, List.foldl_nil, hbytes]

theorem bytesLE_eq_map (n w : Nat) : bytesLE n w = (List.range n).map fun i => BitVec.ofNat 8 (w / 256 ^ i) := by
  refine List.map_congr_left fun i _ => ?_
  rw [Nat.pow_mul]
end

/-! ## Banks (R155 to R157) -/

section
variable {s : State} {d w b : Nat}

theorem bankRanges_eq_singleton : ∃ r, bankRanges d w b = [r] := by
  unfold bankRanges
  split
  · exact ⟨_, rfl⟩
  · split
    · exact ⟨_, rfl⟩
    · exact ⟨_, rfl⟩

theorem readByte_clearBank {m : Memory} {r : Nat × Nat} (hr : r ∈ bankRanges d w b) {j : Nat} (hj : j < r.2) :
    readByte (clearBank m d w b) (r.1 + j) = 0 := by
  obtain ⟨r', h⟩ := bankRanges_eq_singleton (d := d) (w := w) (b := b)
  rw [h, List.mem_singleton] at hr
  rw [clearBank, h, ← hr]
  exact readByte_clearRange hj

theorem bankGate_of_not_bank (h : isBank d w b = false) : s.bankGate d w b = s := if_pos (by rw [h]; rfl)

theorem bankWake_of_not_bank (h : isBank d w b = false) : s.bankWake d w b = s := if_pos (by rw [h]; rfl)

theorem bankGate_of_off (h : s.bankOff (d, w, b) = true) : s.bankGate d w b = s := if_pos (by rw [h, Bool.or_true])

theorem bankGate_of_powered (hbank : isBank d w b = true) (hoff : s.bankOff (d, w, b) = false)
    (hwaking : s.bankWaking (d, w, b) = false) (hheld : (w, b) ∉ (s.power d).gateHeld) : s.bankGate d w b = s.gateNow d w b := by
  simp [State.bankGate, hbank, hoff, hwaking, hheld]

theorem bankOff_gateNow : (s.gateNow d w b).bankOff (d, w, b) = true := by
  have hpower : (s.gateNow d w b).power d = { s.power d with
      off := (w, b) :: (s.power d).off.filter (fun o => o != (w, b)),
      gateHeld := (s.power d).gateHeld.filter (fun o => o != (w, b)) } := kget_kset_same _ _ _ _
  simp [State.bankOff, hpower]

/-- The power of a die whose bank wakes: the bank is off no more, and its wake ends after 3,200 cycles. -/
theorem power_bankWake (hbank : isBank d w b = true) (hoff : s.bankOff (d, w, b) = true) (hwaking : s.bankWaking (d, w, b) = false) :
    (s.bankWake d w b).power d = { s.power d with
      off := (s.power d).off.filter (fun o => o != (w, b)), gateHeld := (s.power d).gateHeld.filter (· != (w, b)),
      waking := (s.power d).waking ++ [(w, b, s.swcAt d + 3200)] } := by
  let u := s.setPower d { s.power d with gateHeld := (s.power d).gateHeld.filter (· != (w, b)) }
  have hu : u.power d = { s.power d with gateHeld := (s.power d).gateHeld.filter (· != (w, b)) } := power_setPower s d _
  have huoff : u.bankOff (d, w, b) = true := by rwa [State.bankOff, hu]
  have huwaking : u.bankWaking (d, w, b) = false := by rwa [State.bankWaking, hu]
  have hwake : s.bankWake d w b = u.startWake (d, w, b) := if_neg (by rw [hbank]; decide)
  rw [hwake, State.startWake, if_pos (by rw [huoff, huwaking]; rfl)]
  refine (power_setPower u d _).trans ?_
  rw [hu]
  rfl

theorem bankWake_frame : (s.bankWake d w b).mem = s.mem ∧ (s.bankWake d w b).slots = s.slots := by
  unfold State.bankWake
  split
  · exact ⟨rfl, rfl⟩
  · obtain ⟨hmem, hslots, -⟩ := startWake_frame (s.setPower d
      { s.power d with gateHeld := (s.power d).gateHeld.filter (· != (w, b)) }) (d, w, b)
    exact ⟨hmem, hslots⟩

theorem execBankWakeDone_of_not_waking (hwaking : s.bankWaking (d, w, b) = false) (hheld : (w, b) ∉ (s.power d).gateHeld) :
    exec (.bankWakeDone d w b) s = .next s := by
  have hfind : (s.power d).waking.find? (fun x => x.1 == w && x.2.1 == b) = none :=
    List.find?_eq_none.2 fun x hx => by simpa using List.any_eq_false.1 hwaking x hx
  refine congrArg Host.Outcome.next ?_
  simp [hfind, hheld]

section
variable {t : Nat} (hwaking : (s.power d).waking = [(w, b, t)])
include hwaking

theorem execBankWakeDone_early (h : s.swcAt d < t) : exec (.bankWakeDone d w b) s = .next s := by
  refine congrArg Host.Outcome.next ?_
  simp [hwaking, h]

theorem execBankWakeDone_late (hheld : (s.power d).gateHeld = []) (hlate : (s.power d).late = []) (h : t ≤ s.swcAt d) :
    exec (.bankWakeDone d w b) s = .next
      { s.setPower d { s.power d with waking := [], late := [] } with mem := clearBank s.mem d w b } := by
  refine congrArg Host.Outcome.next ?_
  simp [hwaking, hheld, hlate, Nat.not_lt.2 h]
end
end

/-! ## The obligation -/

section
variable {s : State} {v : Dword} {f : List Byte} {d w b a len data : Nat} {poison : Bool}

/-- The next block is appended, loaded and acknowledged. -/
theorem exec_block {udp : List Byte} (hstep : s.boot.step = .fetch) (hwait : s.boot.waitUntil = none)
    (hpayload : ipv6Payload f 17 = some (s.boot.server, udp)) (hop : netField (udp.drop 8) 0 2 = 3)
    (hblock : netField (udp.drop 8) 2 2 = (s.boot.blocks + 1) % 65536) (hlen : (udp.drop 12).length ≤ 1408)
    (hfits : Config.bootBase.toNat + s.boot.image.length + (udp.drop 12).length ≤ hbmSize) :
    ∃ t, exec (.managementEthernetFrame f) s = .next t ∧ t.boot.image = s.boot.image ++ udp.drop 12 ∧
      t.boot.blocks = s.boot.blocks + 1 ∧ t.boot.step = (if (udp.drop 12).length < 1408 then .verify else .fetch) ∧
      t.boot.sent = [0#8, 4#8, BitVec.ofNat 8 ((s.boot.blocks + 1) / 256), BitVec.ofNat 8 (s.boot.blocks + 1)] :: s.boot.sent ∧
      ∀ j (h : j < (udp.drop 12).length),
        readByte t.mem (hbmCell 0 (Config.bootBase.toNat + s.boot.image.length) + j) = (udp.drop 12)[j] := by
  refine ⟨_, execFrame_of_block hstep hwait hpayload hop hblock hlen, ?_⟩
  rw [boot_loadImage, ← tftpAck_eq, ← hstep]
  exact ⟨rfl, rfl, rfl, rfl, fun j hj => readByte_loadImage hstep rfl hfits hj⟩

/-- What the verification of an image comes to. -/
theorem exec_imageVerify (hstep : s.boot.step = .verify) : ∃ t, exec .imageVerify s = .next t ∧ t.slots = s.slots ∧
    if imageOk s.boot.image then
      t.boot.step = .running ∧ t.boot.entry = some (natLE ((s.boot.image.drop 16).take 8)) ∧
        t.boot.version = natLE ((s.boot.image.drop 8).take 4)
    else t.boot = { s.boot with step := .rejected, waitUntil := some (s.swcAt bDie + 16000000000) } := by
  cases hok : imageOk s.boot.image with
  | true =>
    obtain ⟨hslots, hrun, hentry, hversion⟩ := certify_frame (s := { s with boot :=
      { s.boot with step := .running, entry := some (imageField s.boot.image 0x10 8),
                    version := imageField s.boot.image 8 4 } })
    exact ⟨_, execImageVerify_accepts hstep hok, hslots, hrun, hentry, hversion⟩
  | false => exact ⟨_, execImageVerify_rejects hstep hok, rfl, rfl⟩

/-- A write to a staging slot is what the slot then holds. -/
theorem exec_staging {i q : Nat} (hi : i < 16) (hq : q < 8) : ∃ t, exec (.registerWrite (0x1000 + 64 * i + 8 * q) v) s = .next t ∧
    t.slots = s.slots ∧ t.stagingWord (64 * i + 8 * q) = v ∧ t.mem = s.mem :=
  ⟨_, congrArg Host.Outcome.next (mgmtWrite_staging hi hq), slots_stage, stagingWord_stage, mem_stage⟩

/-- An access within a line is one request to its home. -/
theorem exec_hostLine {va : Nat} (hva : va = s.hostVa a) {tk : BitVec 16} (htk : tk = s.pkg.lnctl.extractLsb' 48 16)
    {dest : Nat × Nat} (hdest : dest = s.routeTo xDie tk va) (hready : s.readyBit 55 = true) (hup : s.dieUp xDie = true)
    (hon : s.pkg.lnctl.getLsbD 0 = true) (hend : a + len ≤ 2 ^ 36) (hclass : addrClass va = .global) (hlen : 0 < len)
    (hline : va % 64 + len ≤ 64) (hpkg : dest.2 = 0) (hep : isEp dest.1 = true)
    (hdup : s.dieUp (epDie dest.1) = true) (hlink : s.linkUp xDie (epDie dest.1) = true) (wr : Bool) :
    ∃ t, exec (.hostApertureAccess wr a len data poison) s = .next t ∧ t.slots = s.slots ∧ t.mem = s.mem ∧
      kfind t.owners s.nextTag = some (.host (!wr)) ∧ t.inFlight fun p =>
        p.ty = (if wr then .write else .read) ∧ p.va = va ∧ p.dst = dest.1 ∧ p.track = tk ∧ p.tag = s.nextTag ∧
        p.elems = [(va, len)] ∧
        p.data = (if wr then (List.range len).map fun i => BitVec.ofNat 8 (data / 256 ^ i) else []) ∧ p.poison = (wr && poison) := by
  subst hva htk hdest
  refine ⟨_, execHost_line hready hup hon hend hclass hlen hline, ?_⟩
  rw [bytesLE_eq_map]
  exact hostPiece_accepted hpkg hep hdup hlink

/-- A bank that is powered is gated at once, and its bytes are zero. -/
theorem exec_bankGate (hbank : isBank d w b = true) (hoff : s.bankOff (d, w, b) = false) (hwaking : s.bankWaking (d, w, b) = false)
    (hheld : (w, b) ∉ (s.power d).gateHeld) : ∃ t, exec (.bankGate d w b) s = .next t ∧ t.slots = s.slots ∧
      t.bankOff (d, w, b) = true ∧ ∀ r ∈ bankRanges d w b, ∀ j < r.2, readByte t.mem (r.1 + j) = 0 :=
  ⟨_, congrArg Host.Outcome.next (bankGate_of_powered hbank hoff hwaking hheld), rfl, bankOff_gateNow,
    fun _ hr _ hj => readByte_clearBank hr hj⟩

/-- A bank that is off wakes, which takes 3,200 cycles. -/
theorem exec_bankWake (hbank : isBank d w b = true) (hoff : s.bankOff (d, w, b) = true) (hwaking : s.bankWaking (d, w, b) = false) :
    ∃ t, exec (.bankWake d w b) s = .next t ∧ t.slots = s.slots ∧ t.mem = s.mem ∧ t.bankOff (d, w, b) = false ∧
      (w, b, s.swcAt d + 3200) ∈ (t.power d).waking := by
  obtain ⟨hmem, hslots⟩ := bankWake_frame (s := s) (d := d) (w := w) (b := b)
  refine ⟨_, rfl, hslots, hmem, ?_, ?_⟩
  · simp [State.bankOff, power_bankWake hbank hoff hwaking]
  · simp [power_bankWake hbank hoff hwaking]

/-- The end of a wake leaves zeros. -/
theorem exec_bankWakeDone {t : Nat} (hwaking : (s.power d).waking = [(w, b, t)]) (hheld : (s.power d).gateHeld = [])
    (hlate : (s.power d).late = []) (h : t ≤ s.swcAt d) : ∃ u, exec (.bankWakeDone d w b) s = .next u ∧ u.slots = s.slots ∧
      u.bankWaking (d, w, b) = false ∧ ∀ r ∈ bankRanges d w b, ∀ j < r.2, readByte u.mem (r.1 + j) = 0 := by
  refine ⟨_, execBankWakeDone_late hwaking hheld hlate h, rfl, ?_, fun _ hr _ hj => readByte_clearBank hr hj⟩
  have hpower : ({ s.setPower d { s.power d with waking := [], late := [] } with mem := clearBank s.mem d w b } : State).power d =
      { s.power d with waking := [], late := [] } := kget_kset_same _ _ _ _
  rw [State.bankWaking, hpower]
  rfl
end

/-- Settles O49: the equations of the events and of the writes, one for each case of the statement. -/
theorem bootRegistersAndBanks : Obligations.BootRegistersAndBanks := by
  intro s v f d w b a len data poison bt now gives sets
  refine ⟨execFrame_of_not_waiting, fun udp => exec_block, execTftpResend_of_not_fetch,
    fun hstep hwait => ⟨execTftpResend_early, fun h => ⟨_, execTftpResend_late hstep hwait h, rfl, rfl⟩⟩,
    execFetchRestart_of_not_waiting,
    fun t hwait hstep => ⟨execFetchRestart_early hwait,
      fun h => ⟨_, execFetchRestart_late hwait hstep h, rfl, rfl, rfl, rfl, rfl, toNat_restarts _⟩⟩,
    execImageVerify_of_not_verify, fun hstep => ⟨exec_imageVerify hstep,
      fun hmagic => ⟨_, execImageVerify_rejects hstep (imageOk_of_magic hmagic), rfl, rfl⟩⟩,
    ⟨_, rfl, rfl, rfl, lnctlValue_fields v⟩, ⟨_, rfl, rfl, rfl, toNat_grtrk v⟩, ⟨_, rfl, rfl, rfl, stamcfgValue_fields v⟩,
    ⟨_, rfl, rfl, rfl, rfl⟩, ⟨_, rfl, rfl, rfl, rfl⟩, ⟨_, rfl, rfl, rfl, rfl⟩, ⟨_, rfl, rfl, rfl, rlytim0_fields v⟩,
    ⟨_, rfl, rfl, rfl, toNat_rlytim1 v⟩,
    fun off hoff => execRegisterWrite_readOnly hoff, fun i q hi hq => exec_staging hi hq, ?_, ?_⟩
  case refine_1 =>
    intro c va tk access dest
    refine ⟨fun hready wr => execHost_unready hready, fun hready hup => ⟨fun hoff wr => ?_, ?_⟩⟩
    · refine ⟨_, execHost_disabled hready hup hoff, rfl, rfl, rfl, rfl, ?_⟩
      cases wr <;> rfl
    · intro hon hend hclass hlen hline hpkg hep hdup hlink wr
      exact exec_hostLine (va := va) (tk := tk) (dest := dest) rfl rfl rfl hready hup hon hend hclass hlen hline hpkg hep hdup
        hlink wr
  case refine_2 =>
    intro off waking
    have hnext {u : State} (h : u = s) : (.next u : Res) = .next s := congrArg Host.Outcome.next h
    exact ⟨fun h => ⟨hnext (bankGate_of_not_bank h), hnext (bankWake_of_not_bank h)⟩,
      fun hbank => ⟨exec_bankGate hbank, fun hoff => hnext (bankGate_of_off hoff), exec_bankWake hbank⟩,
      execBankWakeDone_of_not_waking,
      fun t hwaking hheld hlate => ⟨execBankWakeDone_early hwaking, exec_bankWakeDone hwaking hheld hlate⟩⟩

end Sys2Proof.Machine
end

section
/-!
PROOF of O60. The module right after package reset: its tables are empty, and the words of the bank power maps are those of dies whose banks are all
powered.
-/
namespace Sys2Proof.Machine

/-- The words of the bank power maps, by die and word (R155). -/
theorem mgmtRead_powerMap {s : State} {o d w : Nat} (hd : d < 12) (hw : w < 8) (ho : o = 0x4000 + 64 * d + 8 * w) :
    s.mgmtRead o = s.powerWord d w := by
  have hdie : (o - 0x4000) / 64 = d := by omega
  have hword : o / 8 % 8 = w := by omega
  unfold State.mgmtRead
  simp (disch := omega) only [if_neg]
  rw [if_pos (by omega), hdie, hword]

/-- The banks of die shared SRAM, where all of them are powered. -/
theorem powerWord_dsram {s : State} {d : Nat} (h : ∀ b, s.bankOff b = false) : (s.powerWord d 0).toNat = 2 ^ 60 - 1 := by
  simp only [State.powerWord, h]
  decide

/-- The scratchpads of a die, where all of them are powered. -/
theorem powerWord_spad {s : State} {d : Nat} (h : ∀ b, s.bankOff b = false) : (s.powerWord d 1).toNat = 2 ^ 24 - 1 := by
  simp only [State.powerWord, h]
  decide

/-- At reset every bank is powered. -/
theorem bankOff_reset (b : Nat × Nat × Nat) : State.reset.bankOff b = false := rfl

/-- Settles O60: the tables of the reset state are empty, so that every reading of one gives its default. -/
theorem resetState : Obligations.ResetState := by
  refine ⟨⟨rfl, nofun⟩, fun _ => rfl, rfl, fun _ => rfl, rfl, rfl, rfl, fun _ => ⟨rfl, rfl, rfl, rfl, rfl, rfl⟩,
    fun _ => ⟨rfl, rfl⟩, fun _ => ⟨rfl, rfl, rfl⟩, fun d r => rfl, by decide, by decide, by decide, by decide, bankOff_reset,
    fun d hd => ⟨?_, ?_⟩⟩
  · rw [mgmtRead_powerMap hd (w := 0) (by decide) (by omega), powerWord_dsram bankOff_reset]
  · rw [mgmtRead_powerMap hd (w := 1) (by decide) (by omega), powerWord_spad bankOff_reset]

end Sys2Proof.Machine
end

section
/-!
SUPPORT. What sending packets and what the batons, launches and collectives do leaves as it is: no such operation changes the stopwatch, a register of the
management block, whether the Starter admits, or the translations, walks and fault queues of the NIs. The lemmas are in the order of the model: `onWire_f`
for a function that only sends, `kept_f` for each function that the reset of a die, a quiesce or the end of a restore uses.
-/
namespace Sys2Proof.Machine

/-! ## Sending (R30, R31) -/

/-- Only packets and links differ. -/
def OnWire (s t : State) : Prop := t = { s with net := t.net, nextPkt := t.nextPkt, links := t.links }

section
variable {s t u : State} {p : Pkt} {d status a b : Nat}

theorem OnWire.refl : OnWire s s := rfl

theorem OnWire.trans (h : OnWire s t) (h' : OnWire t u) : OnWire s u := by
  unfold OnWire at *
  rw [h', h]

theorem OnWire.foldl {α : Type} {f : State → α → State} (hf : ∀ t x, OnWire t (f t x)) {l : List α} : OnWire s (l.foldl f s) :=
  List.foldlRecOn (motive := OnWire s) _ _ .refl fun t ht x _ => ht.trans (hf t x)

theorem OnWire.mem (h : OnWire s t) : t.mem = s.mem := by
  rw [show t = _ from h]

theorem OnWire.slots (h : OnWire s t) : t.slots = s.slots := by
  rw [show t = _ from h]

theorem OnWire.nis (h : OnWire s t) : t.nis = s.nis := by
  rw [show t = _ from h]

theorem OnWire.pkg (h : OnWire s t) : t.pkg = s.pkg := by
  rw [show t = _ from h]

theorem onWire_owe : OnWire s (s.owe p) := by
  unfold State.owe
  dsimp only
  split <;> rfl

theorem onWire_failPkt : OnWire s (s.failPkt p status) := by
  unfold State.failPkt
  dsimp only
  split
  · rfl
  · split
    · split <;> rfl
    · split
      · exact onWire_owe
      · rfl

theorem onWire_sendFrom : OnWire s (s.sendFrom d p) := by
  unfold State.sendFrom
  split
  · split
    · exact onWire_failPkt
    · rfl
  · split
    · exact onWire_failPkt
    · split
      · exact onWire_failPkt
      · rfl

theorem onWire_send : OnWire s (s.send p) := onWire_sendFrom

theorem onWire_sendOwed : OnWire s (s.sendOwed a b) := by
  unfold State.sendOwed
  exact OnWire.trans (t := s.setLink a b { s.link a b with owed := [] }) rfl (.foldl fun _ _ => onWire_send)
end

/-! ## What is kept -/

/-- The stopwatch, the management block but for the power of banks, whether the Starter is stopped, and what each NI has cached, walks and
queues. -/
structure Kept where
  swc : Nat
  pkg : Pkg
  stopped : Bool
  caches : Nat → List TcEntry × List Walk × KMap FaultRec

/-- What of a state is kept; the caches count where `c` says so. -/
def State.kept (c : Bool) (s : State) : Kept :=
  { swc := s.swc, pkg := { s.pkg with power := [] }, stopped := s.starter.stopped,
    caches := fun d => bif c then ((s.ni d).tcache, (s.ni d).walks, (s.ni d).fq) else ([], [], []) }

section
variable {s t : State} {c : Bool} {r : Kept}

theorem OnWire.kept (h : OnWire s t) (hs : s.kept c = r) : t.kept c = r := by
  rw [h]
  exact hs

theorem kept_ite {p : Prop} {_ : Decidable p} (hs : s.kept c = r) (ht : t.kept c = r) : (if p then s else t).kept c = r := by
  split <;> assumption

theorem kept_foldl {α : Type} {f : State → α → State} (hf : ∀ t x, t.kept c = r → (f t x).kept c = r) {l : List α}
    (hs : s.kept c = r) : (l.foldl f s).kept c = r :=
  List.foldlRecOn (motive := fun t => t.kept c = r) _ _ hs fun t ht x _ => hf t x ht

theorem kept_foldl_snd {α β : Type} {f : β × State → α → β × State} (hf : ∀ t x, t.2.kept c = r → (f t x).2.kept c = r)
    {l : List α} {x : β × State} (hx : x.2.kept c = r) : (l.foldl f x).2.kept c = r :=
  List.foldlRecOn (motive := fun t => t.2.kept c = r) _ _ hx fun t ht x _ => hf t x ht

/-- The state that an operation answers, where it answers one, keeps what is kept. -/
def KeptSome (c : Bool) (r : Kept) (o : Option State) : Prop := ∀ t, o = some t → t.kept c = r

theorem keptSome_none : KeptSome c r none := fun _ e => nomatch e

theorem keptSome_some (hs : s.kept c = r) : KeptSome c r (some s) := fun _ e => Option.some.inj e ▸ hs

theorem keptSome_map {α : Type} {f : α → State} {o : Option α} (hf : ∀ x, o = some x → (f x).kept c = r) :
    KeptSome c r (o.map f) := by
  intro t e
  obtain ⟨x, hx, rfl⟩ := Option.map_eq_some_iff.1 e
  exact hf x hx

theorem kept_getD {o : Option State} (ho : KeptSome c r o) (hs : s.kept c = r) : (o.getD s).kept c = r := by
  cases o with
  | none => exact hs
  | some t => exact ho t rfl

/-- The Starter with its admission as it was. -/
theorem kept_setStarter {x : Starter} (hx : x.stopped = s.starter.stopped) (hs : s.kept c = r) : (s.setStarter x).kept c = r := by
  rw [← hs]
  simp [State.kept, State.setStarter, hx, State.ni]
end

/-! ## Access to banks and memory -/
section
variable {s : State} {c : Bool} {r : Kept} {d a key k die word bit : Nat} {cells : List Nat} {who : Option Nat} {l : List Byte}
  {stamp : Dword} {g : Nat × Nat}

theorem kept_setPower {p : Power} (hs : s.kept c = r) : (s.setPower d p).kept c = r := hs

theorem kept_startWake {b : Nat × Nat × Nat} (hs : s.kept c = r) : (s.startWake b).kept c = r := by
  unfold State.startWake
  exact kept_ite (kept_setPower hs) hs

theorem kept_stallKey (hs : s.kept c = r) : (s.stallKey key stamp cells).kept c = r :=
  kept_foldl (fun _ _ ht => kept_ite ht (kept_setPower (kept_startWake ht))) hs

theorem kept_gateHeldNow (hs : s.kept c = r) : (s.gateHeldNow d g).kept c = r := by
  unfold State.gateHeldNow
  exact kept_ite hs hs

theorem kept_unstallAt (hs : s.kept c = r) : (s.unstallAt d key).kept c = r := by
  unfold State.unstallAt
  exact kept_ite (kept_foldl (fun _ _ ht => kept_gateHeldNow ht) (kept_setPower hs)) hs

theorem kept_store (hs : s.kept c = r) : (s.store who a l).kept c = r := hs

theorem kept_hwStore (hs : s.kept c = r) : (s.hwStore a l).kept c = r := by
  unfold State.hwStore
  split
  · exact kept_store hs
  · exact kept_store (kept_ite (kept_setPower (kept_startWake hs)) (kept_startWake hs))
end

/-! ## Launches (R82, R85) -/
section
variable {s : State} {c : Bool} {r : Kept} {seq status inst rec : Nat} {l : Launch} {o : Owner} {frame : Dword} {tk : BitVec 16}
  {bytes : List Byte} {v : GraphVer} {js : List Nat}

theorem kept_setLaunch (hs : s.kept c = r) : (s.setLaunch seq l).kept c = r := hs

theorem kept_writeCompletion (hs : s.kept c = r) : (s.writeCompletion o frame tk bytes).2.kept c = r := by
  unfold State.writeCompletion
  split
  · exact hs
  · split
    · exact kept_ite hs hs
    · refine kept_foldl_snd (fun _ _ ht => ?_) hs
      refine onWire_send.kept ?_
      exact ht

theorem kept_fireMsi (hs : s.kept c = r) : s.fireMsi.kept c = r := kept_ite hs hs

theorem kept_unfreeze (hs : s.kept c = r) : (s.unfreeze rec).kept c = r := by
  rw [← hs]
  refine congrArg (Kept.mk _ _ _) (funext fun d => ?_)
  rw [show (s.unfreeze rec).ni d = _ from kget_kmap Ni.init (fun _ n => { n with freeze := n.freeze.filter fun f => f.cycle != rec }) s.nis d rfl]
  rfl

theorem kept_abortCycle (hs : s.kept c = r) : (s.abortCycle rec).kept c = r := kept_ite (kept_unfreeze hs) hs

theorem kept_abortCyclesOf (hs : s.kept c = r) : (s.abortCyclesOf seq).kept c = r :=
  kept_foldl (fun _ _ ht => kept_abortCycle ht) hs

theorem kept_freeVersions (hs : s.kept c = r) : s.freeVersions.kept c = r := hs

theorem kept_endLaunch (hs : s.kept c = r) : (s.endLaunch seq status).kept c = r := by
  unfold State.endLaunch
  split
  · exact hs
  · exact kept_freeVersions (kept_ite hs (kept_fireMsi hs))

theorem kept_finishOne (hs : s.kept c = r) : (s.finishOne seq status).kept c = r := by
  unfold State.finishOne
  split
  · exact hs
  · dsimp only
    refine kept_ite (kept_endLaunch ?_) (kept_setLaunch ?_)
    · exact kept_writeCompletion (kept_abortCyclesOf hs)
    · exact kept_writeCompletion (kept_abortCyclesOf hs)

theorem kept_nodeRecords (hs : s.kept c = r) : (s.nodeRecords inst v js).2.kept c = r := by
  unfold State.nodeRecords
  exact kept_foldl_snd (fun _ _ ht => by exact kept_writeCompletion ht) hs

theorem kept_graphProgress (hs : s.kept c = r) : (s.graphProgress inst).kept c = r := by
  unfold State.graphProgress
  split
  · exact hs
  · split
    · exact hs
    · dsimp only
      refine kept_ite (kept_finishOne ?_) ?_
      · refine kept_foldl (fun _ _ ht => ?_) (kept_nodeRecords hs)
        exact ht
      · refine kept_foldl (fun _ _ ht => ?_) (kept_nodeRecords hs)
        exact ht

theorem kept_nodeEnded (hs : s.kept c = r) : (s.nodeEnded l status).kept c = r := by
  unfold State.nodeEnded
  split
  · exact hs
  · split
    · exact hs
    · exact kept_graphProgress hs

theorem kept_finishLaunch (hs : s.kept c = r) : (s.finishLaunch seq status).kept c = r := by
  unfold State.finishLaunch
  split
  · exact hs
  · exact kept_ite (kept_finishOne hs) (kept_nodeEnded (kept_finishOne hs))

theorem kept_markAborted (hs : s.kept c = r) : (s.markAborted seq).kept c = r := by
  unfold State.markAborted
  split
  · exact hs
  · exact kept_ite hs hs

theorem kept_batonDone (hs : s.kept c = r) : (s.batonDone seq).kept c = r := by
  unfold State.batonDone
  split
  · exact hs
  · exact kept_ite (kept_finishLaunch hs) hs
end

/-! ## Records, frames and the end of a baton -/
section
variable {s : State} {c : Bool} {r : Kept} {rec launch pcl a k rec' off n die key status : Nat} {tk : BitVec 16} {f : State → State}
  {v stamp pcAt : Dword} {large aborted posted : Bool} {l : List Byte} {op : MemOp} {cells : List Nat}

theorem kept_recWrite (hs : s.kept c = r) : (s.recWrite rec off v).kept c = r := kept_hwStore hs

theorem kept_setAway {x : Away} (hs : s.kept c = r) : (s.setAway rec x).kept c = r := hs

theorem kept_enqueue (hs : s.kept c = r) : (s.enqueue rec launch).kept c = r := by
  unfold State.enqueue
  dsimp only
  refine kept_recWrite (kept_recWrite ?_)
  split
  · exact kept_recWrite hs
  · exact hs

theorem kept_hwRanges {rs : Ranges} (hs : s.kept c = r) : (s.hwRanges rs l).kept c = r := by
  induction rs generalizing s l with
  | nil => exact hs
  | cons x rs ih => exact ih (kept_hwStore hs)

theorem kept_frameWrite (hs : s.kept c = r) : KeptSome c r (s.frameWrite pcl tk a l) :=
  keptSome_map fun _ _ => kept_hwRanges hs

theorem kept_withFrame (hf : ∀ t, t.kept c = r → (f t).kept c = r) (hs : s.kept c = r) :
    (s.withFrame rec' tk op a n f).kept c = r := by
  unfold State.withFrame
  dsimp only
  split
  · exact hf _ hs
  · exact hf _ hs
  · exact hf _ hs
  · exact hs
  · refine kept_ite hs (onWire_send.kept ?_)
    exact hs

theorem kept_onSpad (hf : ∀ t, t.kept c = r → (f t).kept c = r) (hs : s.kept c = r) : (s.onSpad k f).kept c = r :=
  kept_ite (kept_unstallAt (hf _ hs)) (kept_stallKey hs)

theorem kept_allocFrame (hs : s.kept c = r) : ∀ x, s.allocFrame pcl launch tk large = some x → x.2.kept c = r := by
  unfold State.allocFrame
  dsimp only
  (repeat' split) <;> rintro x ⟨⟩ <;> exact hs

theorem kept_freeFrame (hs : s.kept c = r) : (s.freeFrame pcl launch tk a large).kept c = r := by
  unfold State.freeFrame
  refine kept_ite hs ?_
  dsimp only
  split
  · exact hs
  · next t ht => exact kept_frameWrite hs t ht

theorem kept_endBaton (hs : s.kept c = r) : (s.endBaton k aborted).kept c = r := by
  unfold State.endBaton
  dsimp only
  refine kept_batonDone (kept_ite (kept_markAborted ?_) ?_)
  all_goals
    refine kept_freeFrame (kept_foldl (fun _ _ ht => ?_) (kept_recWrite hs))
    exact ht

theorem kept_deliver {cause : Nat} (hs : s.kept c = r) : (s.deliver k cause v status pcAt posted).kept c = r := by
  unfold State.deliver
  exact kept_ite (kept_endBaton hs) (kept_ite (kept_endBaton hs) hs)
end

/-! ## Gangs, and the end of an instruction or of a wait -/
section
variable {s : State} {c : Bool} {r : Kept} {rec key k status cause reason rec' i pcl frame tag : Nat} {g : Gang} {v next : Dword}
  {e : Effect} {w : Wait} {d : MemberDone} {tk : BitVec 16} {f : Dword → Dword} {cells : State → List Nat}

theorem kept_disbandGang (hs : s.kept c = r) : (s.disbandGang key g).kept c = r := by
  unfold State.disbandGang
  refine kept_foldl (fun _ _ ht => kept_recWrite ht) ?_
  refine kept_foldl (fun _ _ ht => ?_) hs
  exact ht

theorem kept_disbandAway (hs : s.kept c = r) : (s.disbandAway rec v).kept c = r := by
  unfold State.disbandAway
  split
  · exact hs
  · refine kept_setAway ?_
    split
    · exact kept_getD (kept_frameWrite hs) hs
    · exact hs

theorem kept_gangRound (hs : s.kept c = r) : (s.gangRound key g).kept c = r := by
  have hslots {t : State} {ms : List (Nat × Nat)} {x : State → Nat × Nat → Slot} (ht : t.kept c = r) :
      (ms.foldl (fun s m => s.setSlotAt m.2 (x s m)) t).kept c = r := by
    refine kept_foldl (fun _ _ hu => ?_) ht
    exact hu
  unfold State.gangRound
  refine kept_ite hs ?_
  split
  · exact kept_ite (kept_disbandGang (hslots hs)) (hslots hs)
  · refine kept_foldl (fun _ _ ht => ?_) (kept_disbandGang hs)
    dsimp only
    split <;> exact kept_deliver ht

theorem kept_memberDone (hs : s.kept c = r) : (s.memberDone key g i d next).kept c = r := kept_gangRound hs

theorem kept_complete (hs : s.kept c = r) : (s.complete k next).kept c = r := by
  unfold State.complete
  dsimp only
  split
  · exact kept_memberDone hs
  · exact hs

theorem kept_onFrame (hs : s.kept c = r) : (e.onFrame s pcl tk frame).kept c = r := by
  cases e with
  | none => exact hs
  | x r v => exact kept_ite hs (kept_getD (kept_frameWrite hs) hs)
  | vec p val => exact kept_getD (kept_frameWrite hs) hs
  | st i val => exact kept_getD (kept_frameWrite hs) hs

theorem kept_resumeSlot (hs : s.kept c = r) : (s.resumeSlot k e).kept c = r := kept_complete hs

theorem kept_finishWait (hs : s.kept c = r) : (s.finishWait rec e).kept c = r := by
  unfold State.finishWait
  split
  · exact kept_ite (kept_resumeSlot hs) hs
  · split
    · exact kept_ite hs (kept_ite (kept_setAway (kept_recWrite (kept_onFrame hs)))
        (kept_enqueue (kept_setAway (kept_recWrite (kept_onFrame hs)))))
    · exact hs

theorem kept_reissue (hs : s.kept c = r) : (s.reissue rec).kept c = r := by
  unfold State.reissue
  split
  · exact kept_ite hs hs
  · split
    · exact kept_ite hs (kept_ite (kept_setAway hs) (kept_enqueue (kept_setAway hs)))
    · exact hs

theorem kept_setOrig (hs : s.kept c = r) : (s.setOrig rec' reason).kept c = r := by
  unfold State.setOrig State.editFlags
  dsimp only
  split
  · exact kept_getD (kept_frameWrite hs) hs
  · exact hs

theorem kept_rouse (hs : s.kept c = r) : (s.rouse rec).kept c = r := by
  unfold State.rouse
  split
  · exact kept_ite hs (kept_ite (kept_setAway hs) (kept_enqueue (kept_setAway hs)))
  · exact hs

theorem kept_goOn {f : State → State} (hf : ∀ t, t.kept c = r → (f t).kept c = r) (hs : s.kept c = r) :
    (s.goOn rec cells f).kept c = r := by
  unfold State.goOn
  split
  · exact kept_rouse hs
  · refine kept_ite hs (kept_ite (kept_stallKey hs) ?_)
    exact hf _ hs

theorem kept_setWait (hs : s.kept c = r) : (s.setWait rec w).kept c = r := by
  unfold State.setWait
  split
  · exact hs
  · split <;> exact hs
end

/-! ## Feeds and the matrix unit -/
section
variable {s : State} {c : Bool} {r : Kept} {pcl i cid k : Nat} {b : Bool}

theorem kept_setEntry {e : CpEntry} (hs : s.kept c = r) : (s.setEntry pcl i e).kept c = r := hs

theorem kept_setCore {x : Core} (hs : s.kept c = r) : (s.setCore cid x).kept c = r := hs

theorem kept_stallPiece {e : CpEntry} {idx : Nat} {cells : List Nat} (hs : s.kept c = r) :
    (s.stallPiece pcl i e idx cells).kept c = r := kept_stallKey hs

theorem kept_pieceRequest {e : CpEntry} {p : Piece} {ty : PType} {ep pkg va n op : Nat} {data : List Byte} {rank : Option Nat}
    (hs : s.kept c = r) : (s.pieceRequest pcl i e p ty ep pkg va n data rank op).kept c = r := by
  unfold State.pieceRequest
  refine onWire_send.kept ?_
  exact hs

theorem kept_feedPanel (hs : s.kept c = r) : (s.feedPanel cid b).kept c = r := by
  unfold State.feedPanel
  dsimp only
  split
  · exact hs
  · refine kept_ite hs ?_
    split
    · exact kept_unstallAt (kept_setEntry (kept_setCore hs))
    · exact kept_setEntry hs
    · exact kept_stallPiece hs
    · exact kept_pieceRequest hs

theorem kept_wakeAwayMatrix (hs : s.kept c = r) : (s.wakeAwayMatrix cid).kept c = r := by
  unfold State.wakeAwayMatrix
  exact kept_ite hs (kept_foldl (fun _ _ ht => kept_ite (kept_reissue ht) ht) hs)

theorem kept_wakeMatrix (hs : s.kept c = r) : (s.wakeMatrix cid).kept c = r := by
  unfold State.wakeMatrix
  refine kept_wakeAwayMatrix (kept_foldl (fun _ _ ht => ?_) hs)
  dsimp only
  exact kept_ite ht ht
end

/-! ## Gangs that form (R108) -/
section
variable {s : State} {c : Bool} {r : Kept} {key rec k i n : Nat} {g : Gang} {v by' : Dword} {rd : Reg}

theorem kept_setSlotAt {t : Slot} (hs : s.kept c = r) : (s.setSlotAt k t).kept c = r := hs

theorem kept_setGang (hs : s.kept c = r) : (s.setGang key g).kept c = r := hs

theorem kept_formGang (hs : s.kept c = r) : (s.formGang key g).kept c = r := by
  unfold State.formGang
  dsimp only
  refine kept_setGang (kept_foldl (fun _ _ ht => ?_) (kept_foldl (fun _ _ ht => ?_) ?_))
  · split
    · exact ht
    · split
      · exact kept_setSlotAt ht
      · exact kept_recWrite ht
  · split
    · exact ht
    · refine kept_finishWait ?_
      split
      · exact kept_setSlotAt ht
      · exact kept_recWrite ht
  · exact hs

theorem kept_setWkey (hs : s.kept c = r) : (s.setWkey rec v).kept c = r := by
  unfold State.setWkey
  split
  · exact kept_setSlotAt hs
  · split
    · exact kept_recWrite (kept_setAway hs)
    · exact hs

theorem kept_joinGang (hs : s.kept c = r) : (s.joinGang key g i rec).kept c = r :=
  kept_ite (kept_formGang (kept_setWkey hs)) (kept_setGang (kept_setWkey hs))

theorem kept_absorbJoiners (hs : s.kept c = r) : (s.absorbJoiners key).kept c = r := by
  unfold State.absorbJoiners
  refine kept_foldl (fun _ _ ht => ?_) hs
  split
  · refine kept_ite ?_ ht
    split
    · exact kept_ite (kept_joinGang ht) ht
    · exact ht
  · exact ht

theorem kept_leadGang (hs : s.kept c = r) : (s.leadGang k rd n by').kept c = r := by
  unfold State.leadGang
  dsimp only
  refine kept_ite (kept_setSlotAt hs) (kept_ite (kept_deliver ?_) (kept_absorbJoiners (kept_setGang (kept_setSlotAt hs))))
  exact hs

theorem kept_wakeLeads (hs : s.kept c = r) : s.wakeLeads.kept c = r := by
  unfold State.wakeLeads
  refine kept_foldl (fun _ _ ht => ?_) hs
  split
  · exact kept_ite (kept_goOn (fun _ hu => kept_leadGang hu) ht) ht
  · exact ht

theorem kept_breakGang (hs : s.kept c = r) : (s.breakGang key g).kept c = r := by
  unfold State.breakGang
  dsimp only
  refine kept_wakeLeads (kept_foldl (fun _ _ ht => kept_disbandAway ?_) (kept_foldl (fun _ _ ht => ?_)
    (kept_ite (kept_disbandGang hs) ?_)))
  · exact ht
  · exact ht
  · exact kept_disbandGang (key := key) hs
end

/-! ## Saving batons (R111) -/
section
variable {s : State} {c : Bool} {r : Kept} {k pcl cid orig n base d : Nat} {b preempted owned : Bool} {t : Slot} {tk : BitVec 16}
  {segs : List (Nat × List Byte)} {f : State → State} {scales : KMap (BitVec 32)}

theorem kept_writeSegs (hs : s.kept c = r) : KeptSome c r (s.writeSegs pcl tk base segs) := by
  induction segs generalizing s with
  | nil => exact keptSome_some hs
  | cons p rest ih =>
    unfold State.writeSegs
    split
    · exact ih hs
    · split
      · next t ht => exact ih (kept_frameWrite hs t ht)
      · exact keptSome_none

theorem kept_settlePort (hs : s.kept c = r) : (s.settlePort cid b n).kept c = r := by
  induction n generalizing s with
  | zero => exact hs
  | succ n ih => exact kept_ite (kept_feedPanel hs) (ih (kept_feedPanel hs))

theorem kept_stopFeeds (hs : s.kept c = r) : (s.stopFeeds cid b).kept c = r := by
  unfold State.stopFeeds
  exact kept_ite hs (kept_foldl (fun _ _ ht => kept_ite ht (kept_setEntry ht)) hs)

theorem kept_settle (hs : s.kept c = r) : (s.settle k).kept c = r := by
  unfold State.settle
  exact kept_ite (kept_foldl (fun _ _ ht => kept_stopFeeds (kept_settlePort ht)) hs) hs

theorem kept_stopTile (hs : s.kept c = r) : (s.stopTile k).kept c = r := by
  unfold State.stopTile
  dsimp only
  split
  · split <;> exact hs
  · exact hs

theorem kept_saveFrame (hs : s.kept c = r) : KeptSome c r (s.saveFrame k orig) := by
  unfold State.saveFrame
  dsimp only
  split
  · exact keptSome_some (kept_setSlotAt (kept_ite hs (kept_setOrig hs)))
  · split
    · exact keptSome_none
    · next a t ht =>
      split
      · exact keptSome_none
      · next u hu =>
        have hu' : u.kept c = r := kept_writeSegs (kept_allocFrame (kept_stopTile hs) (a, t) ht) u hu
        exact keptSome_some (kept_wakeMatrix (kept_setSlotAt (kept_setCore (kept_recWrite (kept_recWrite (kept_recWrite hu'))))))

theorem kept_saving (hf : ∀ t, t.kept c = r → (f t).kept c = r) (hs : s.kept c = r) : (s.saving k f).kept c = r := by
  unfold State.saving
  refine kept_onSpad (fun _ ht => ?_) hs
  dsimp only
  split
  · exact hf _ ht
  · exact hf _ ht
  · exact kept_withFrame hf ht

theorem kept_putAway (hs : s.kept c = r) : (s.putAway k t owned preempted scales).kept c = r := by
  have htoken {u : State} {rec : Nat} (hu : u.kept c = r) :
      (match t.wait with | .restore .. => if t.token then u.keepToken rec else u | _ => u).kept c = r := by
    split
    · exact kept_ite (kept_ite hu hu) hu
    · exact hu
  unfold State.putAway
  exact kept_ite (kept_enqueue (htoken (kept_setAway (kept_recWrite (kept_recWrite (kept_recWrite hs))))))
    (htoken (kept_setAway (kept_recWrite (kept_recWrite (kept_recWrite hs)))))

/-- A die that applies its log may drop translations. -/
theorem kept_applyLog (hs : s.kept false = r) : (s.applyLog d).kept false = r := by
  refine kept_foldl (fun _ _ ht => ?_) hs
  unfold State.applyOne
  dsimp only
  split
  · unfold State.applyRecord
    split <;> exact ht
  · exact ht

theorem kept_saveOut (hs : s.kept false = r) : KeptSome false r (s.saveOut k orig preempted) :=
  keptSome_map fun t ht => kept_applyLog (kept_putAway (kept_saveFrame hs t ht))
end

/-! ## The intake (R80) -/
section
variable {s : State} {c : Bool} {r : Kept} {n status : Nat} {w : BitVec 512} {forbidden : Bool}

theorem kept_rejectRecord (hs : s.kept c = r) : (s.rejectRecord w status).kept c = r := by
  have hcount : (s.setStarter { s.starter with rejected := s.starter.rejected + 1 }).kept c = r := kept_setStarter rfl hs
  unfold State.rejectRecord
  refine kept_ite hcount ?_
  exact kept_ite (kept_fireMsi (kept_writeCompletion hcount)) (kept_setStarter rfl (kept_writeCompletion hcount))

theorem kept_takeRecord (hs : s.kept c = r) : (s.takeRecord w forbidden).2.kept c = r := by
  unfold State.takeRecord
  split
  · exact kept_rejectRecord hs
  · split
    · exact kept_rejectRecord hs
    · exact hs

theorem kept_drainIntake (hs : s.kept c = r) : (s.drainIntake n).kept c = r := by
  induction n generalizing s with
  | zero => exact hs
  | succ n ih =>
    unfold State.drainIntake
    split
    · exact hs
    · refine kept_ite hs (ih ?_)
      split
      · split
        · exact kept_finishWait (kept_takeRecord (kept_setStarter rfl hs))
        · exact kept_takeRecord (kept_setStarter rfl hs)
      · exact kept_takeRecord (kept_setStarter rfl hs)

theorem kept_takeIntake (hs : s.kept c = r) : s.takeIntake.kept c = r := kept_drainIntake hs
end

/-! ## The Relay (R129, R130) -/
section
variable {s : State} {c : Bool} {r : Kept} {rank tag d : Nat} {ty : PType}

theorem kept_setRelay {x : Relay} (hs : s.kept c = r) : (s.setRelay x).kept c = r := hs

theorem kept_retime (hs : s.kept c = r) : s.retime.kept c = r := hs

theorem kept_pauseFar (hs : s.kept c = r) : (s.pauseFar ty rank).kept c = r := by
  unfold State.pauseFar
  refine kept_foldl (fun _ _ ht => onWire_send.kept ?_) hs
  exact ht

theorem kept_pause (hs : s.kept c = r) : (s.pause rank).kept c = r := kept_ite hs (kept_retime (kept_setRelay hs))

theorem kept_rctApplied (hs : s.kept c = r) : (s.rctApplied tag d).kept c = r := by
  unfold State.rctApplied
  split
  · split
    · refine kept_ite hs (kept_ite (kept_finishWait ?_) (kept_setWait hs))
      exact hs
    · exact hs
  · exact hs

/-- The Relay that goes down with its die only ends the waits for its runs, and clears its PKREADY bit. -/
theorem kept_relayDown (hdown : s.dieUp xDie = false) (hs : (s.setReady 51 false).kept c = r) : s.relayDown.kept c = r := by
  unfold State.relayDown
  simp only [hdown, Bool.false_eq_true, if_false]
  refine kept_foldl (fun _ _ ht => ?_) ?_
  · split
    · exact kept_finishWait ht
    · exact ht
  · exact hs
end

/-! ## Pre-emption (R112) and quiesce (R23) -/
section
variable {s : State} {c : Bool} {r : Kept} {p : Nat → Bool} {rec reason : Nat} {ks : List Nat} {on : Bool}

theorem kept_setReason (hs : s.kept c = r) : (s.setReason rec reason).kept c = r := kept_recWrite hs

theorem kept_holdStep (hs : s.kept false = r) : (s.holdStep p).kept false = r := by
  unfold State.holdStep
  have hwaiting : (s.holdWaiting p).kept false = r := by
    unfold State.holdWaiting
    exact kept_foldl (fun _ _ ht => kept_ite (kept_setReason (kept_setOrig (kept_setAway ht))) ht) hs
  have hgangs : ((s.holdWaiting p).holdGangs p).kept false = r := by
    unfold State.holdGangs
    refine kept_foldl (fun _ _ ht => ?_) hwaiting
    dsimp only
    exact kept_ite (kept_breakGang ht) ht
  unfold State.holdSlots
  refine kept_foldl (fun _ _ ht => ?_) hgangs
  dsimp only
  exact kept_ite ht (kept_ite (kept_saving (fun _ hu => kept_getD (kept_saveOut hu) (kept_endBaton hu)) (kept_settle ht))
    (kept_settle ht))

theorem kept_release (hs : s.kept c = r) : (s.release p).kept c = r := by
  unfold State.release
  refine kept_foldl (fun _ _ ht => kept_ite ?_ ht) hs
  exact kept_ite (kept_enqueue (kept_setOrig (kept_setAway ht))) (kept_setReason (kept_setOrig (kept_setAway ht)))

theorem kept_markHeld (hs : s.kept c = r) : (s.markHeld ks on).kept c = r := by
  unfold State.markHeld
  refine kept_foldl (fun _ _ ht => ?_) hs
  split
  · exact kept_setLaunch ht
  · exact ht
end

/-! ## The end of a restore (R27) -/
section
variable {s : State} {c : Bool} {r : Kept} {g : GraphCopy} {off n : Nat}

theorem kept_grdefAsk (hs : s.kept c = r) : (s.grdefAsk g off n).2.kept c = r := by
  unfold State.grdefAsk
  refine kept_foldl_snd (fun _ _ ht => ?_) hs
  dsimp only
  split
  · exact ht
  · refine onWire_send.kept ?_
    exact ht

theorem kept_resumeStarter (hs : s.kept c = r) : s.resumeStarter.kept c = r := by
  unfold State.resumeStarter
  dsimp only
  refine kept_takeIntake ?_
  split
  on_goal 1 => refine kept_setStarter rfl (kept_grdefAsk ?_)
  all_goals
    refine kept_foldl (fun _ _ ht => ?_) (kept_foldl (fun _ _ ht => ?_) (kept_foldl (fun _ _ ht => kept_fireMsi ht)
      (kept_setStarter rfl hs)))
    · exact kept_ite ht (kept_graphProgress (kept_setStarter rfl ht))
    · split
      · exact kept_finishLaunch (kept_setLaunch ht)
      · exact ht

/-- The Starter admits again; the rest stays. -/
theorem kept_resumeAll : s.resumeAll.kept c = { s.kept c with stopped := false } := by
  have hadmit {t : State} (ht : t.kept c = s.kept c) :
      (t.setStarter { t.starter with stopped := false }).kept c = { s.kept c with stopped := false } := by
    rw [← ht]
    rfl
  unfold State.resumeAll
  exact kept_resumeStarter (kept_retime (hadmit (kept_setRelay (kept_foldl (fun _ _ ht => kept_pauseFar ht)
    (kept_release (kept_markHeld rfl))))))
end

/-! ## A C-die that goes down (R19) -/

theorem kept_endDie {s : State} {c : Bool} {r : Kept} {d : Nat} (hs : s.kept c = r) : (s.endDie d).kept c = r := by
  unfold State.endDie
  dsimp only
  refine kept_foldl (fun _ _ ht => kept_batonDone ht) (kept_foldl (fun _ _ ht => kept_markAborted ht) (kept_setStarter rfl ?_))
  exact hs
end Sys2Proof.Machine
end

section
/-!
PROOF of O53. Resets of the package and of dies, and functions that come and go.
-/
namespace Sys2Proof.Machine

/-! ## Readiness (R18) and dies that are up -/
section
variable {s t : State} {b d n : Nat} {on c : Bool}

theorem readyBit_setReady (hb : b < 64) : (s.setReady b on).readyBit n = if n = b then on else s.readyBit n := by
  have hmask : (1#64 <<< b).getLsbD n = decide (n = b) := by
    rw [show 1#64 <<< b = BitVec.twoPow 64 b from rfl, BitVec.getLsbD_twoPow, decide_eq_true hb, Bool.true_and]
    exact decide_eq_decide.2 eq_comm
  cases on with
  | true =>
    simp only [State.readyBit, State.setReady, if_true, BitVec.getLsbD_or, hmask]
    split <;> simp [*]
  | false =>
    have hn (h : ¬ n < 64) : s.pkg.ready.getLsbD n = false := BitVec.getLsbD_of_ge _ _ (Nat.le_of_not_lt h)
    simp only [State.readyBit, State.setReady, Bool.false_eq_true, if_false, BitVec.getLsbD_and, BitVec.getLsbD_not, hmask]
    split <;> by_cases h : n < 64 <;> simp [*]

theorem readyBit_setReady_same (hb : b < 64) : (s.setReady b on).readyBit b = on := by
  rw [readyBit_setReady hb, if_pos rfl]

theorem readyBit_setReady_other (hb : b < 64) (h : n ≠ b) : (s.setReady b on).readyBit n = s.readyBit n := by
  rw [readyBit_setReady hb, if_neg h]

theorem dieUp_congr (hready : t.pkg.ready = s.pkg.ready) (hreset : t.pkg.inReset = s.pkg.inReset) : t.dieUp d = s.dieUp d := by
  simp only [State.dieUp, State.readyBit, hready, hreset]

theorem dieUp_of_kept (h : t.kept c = s.kept c) : t.dieUp d = s.dieUp d :=
  dieUp_congr (congrArg (fun k => k.pkg.ready) h) (congrArg (fun k => k.pkg.inReset) h)

/-- A bit of PKREADY that is no CDIE bit says nothing of a die. -/
theorem dieUp_setReady (hb : 12 ≤ b) (hb' : b < 64) : (s.setReady b on).dieUp d = s.dieUp d := by
  unfold State.dieUp
  split
  · next hd =>
    have hne : d ≠ b := by
      have : d < 12 := of_decide_eq_true hd
      omega
    exact readyBit_setReady_other hb' hne
  · rfl
end

/-! ## Package reset (R17, R25, R76) -/
section
variable {s : State} {st status : Nat}

/-- The bytes outside a range that is cleared stay. -/
theorem readByte_clearRange_out {m : Memory} {a n x : Nat} (hx : x < a ∨ a + n ≤ x) : readByte (clearRange m a n) x = readByte m x := by
  induction m with
  | nil => rfl
  | cons p r ih =>
    obtain ⟨k, v⟩ := p
    rw [clearRange, List.filter_cons]
    split
    · simp only [readByte, kget]
      split
      · rfl
      · exact ih
    next hin =>
      have hne : x ≠ k := by
        simp only [Bool.or_eq_true, decide_eq_true_eq] at hin
        omega
      refine Eq.trans ih ?_
      simp only [readByte, kget, if_neg hne]

theorem readByte_clearRange_eq {m : Memory} {a n j : Nat} :
    readByte (clearRange m a n) (a + j) = if j < n then 0 else readByte m (a + j) := by
  split
  · next h => exact readByte_clearRange h
  · next h => exact readByte_clearRange_out (.inr (by omega))

/-- What a package reset leaves of a state. -/
def Fresh (s t : State) : Prop :=
  t.slots = [] ∧ t.gangs = [] ∧ t.net = [] ∧ t.ckState = 0 ∧ t.pkg.sinceReset = true ∧ t.boot.leaf = s.boot.leaf ∧
    ∀ a, readByte t.mem a = if a < 2 ^ 80 then 0 else readByte s.mem a

theorem fresh_packageReset : Fresh s s.packageReset := by
  refine ⟨rfl, rfl, rfl, rfl, rfl, rfl, fun a => ?_⟩
  have h := readByte_clearRange_eq (m := s.mem) (a := 0) (n := 2 ^ 80) (j := a)
  rwa [Nat.zero_add] at h

theorem ckState_setCk : (s.setCk st status).ckState = st % 16 := by
  have h : (s.setCk st status).pkg.ckstat.extractLsb' 0 4 = BitVec.ofNat 4 st :=
    (extract_append_low _ _ _ _ (by decide)).trans (extract_whole _)
  rw [State.ckState, h, BitVec.toNat_ofNat]
end

/-! ## The reset request (R25) -/
section
variable {s : State} {thenCopy : Bool}

/-- What a quiesce does before it saves the batons: it stops the Starter, holds the running launches and pauses the collectives (R23). -/
def State.stopAll (s : State) : State :=
  let ks := (s.starter.launches.filter fun p => match p.2.state with | .placing _ | .running => true | _ => false).map Prod.fst
  let u := (s.setStarter { s.starter with stopped := true }).markHeld ks true
  let ranks := (u.relay.runs.flatMap fun r => (r.2.members.filter fun m => m.joined && !m.withdrawn).map RunMember.rank).eraseDups
  ranks.foldl (fun s k => (s.pauseFar .pause k).pause k) u

theorem quiesce_eq : s.quiesce thenCopy =
    (({ s.stopAll with pkg := { s.stopAll.pkg with copyAfter := thenCopy, sinceReset := false } } : State).holdStep
      fun _ => true).setCk 1 0 := by
  rw [State.quiesce]
  rfl

theorem kept_stopAll : s.stopAll.kept false = (s.setStarter { s.starter with stopped := true }).kept false :=
  kept_foldl (fun _ _ ht => kept_pause (kept_pauseFar ht)) (kept_markHeld rfl)

/-- A quiesce is under way, and a reset that is held stays held. -/
theorem quiesce_frame : (s.quiesce thenCopy).ckState = 1 ∧ (s.quiesce thenCopy).pkg.resetHeld = s.pkg.resetHeld := by
  have hstop : s.stopAll.pkg.resetHeld = s.pkg.resetHeld := congrArg (fun k => k.pkg.resetHeld) kept_stopAll
  have hsaved := kept_holdStep (s := { s.stopAll with pkg := { s.stopAll.pkg with copyAfter := thenCopy, sinceReset := false } })
    (p := fun _ => true) rfl
  rw [quiesce_eq, ← hstop]
  exact ⟨ckState_setCk, congrArg (fun k => k.pkg.resetHeld) hsaved⟩

/-- The copy phase begins once an earlier checkpoint's header is cleared (R23). -/
theorem beginCopy_eq : ∃ u : State, u.pkg = s.pkg ∧
    s.beginCopy = ({ u with pkg := { u.pkg with copyStart := u.swcAt bDie } } : State).setCk 3 0 ∧
    u.mem = match s.farMods with
      | m :: _ => writeBytes s.mem (farCell m s.ckBase) (List.replicate ckHeader 0)
      | [] => s.mem := by
  unfold State.beginCopy
  cases s.farMods with
  | nil => exact ⟨s, rfl, rfl, rfl⟩
  | cons m ms =>
    exact ⟨s.store none (farCell m s.ckBase) (List.replicate ckHeader 0), pkg_store _ _ _ _, rfl, mem_store _ _ _ _⟩

theorem beginCopy_frame :
    s.beginCopy.ckState = 3 ∧ s.beginCopy.pkg.resetHeld = s.pkg.resetHeld ∧ s.beginCopy.pkg.ckctl = s.pkg.ckctl := by
  obtain ⟨u, hu, hcopy, -⟩ := beginCopy_eq (s := s)
  rw [hcopy, ← hu]
  exact ⟨ckState_setCk, rfl, rfl⟩

theorem heldReset_of_ckState (h : s.ckState ≠ 4) (h' : s.ckState ≠ 5) : s.heldReset = s := by
  simp [State.heldReset, h, h']

theorem heldReset_of_not_held (h : s.pkg.resetHeld = false) : s.heldReset = s := by
  simp [State.heldReset, h]

/-- A checkpoint that fails with no region ends at once, and lets a reset that it held go ahead. -/
theorem fresh_failed {status : Nat} (h : s.pkg.resetHeld = true) : Fresh s (s.setCk 5 status).heldReset := by
  have hstate : (s.setCk 5 status).ckState = 5 := ckState_setCk
  have hheld : (s.setCk 5 status).pkg.resetHeld = true := h
  rw [State.heldReset, hstate, hheld]
  exact fresh_packageReset (s := s.setCk 5 status)

theorem execResetRequest_held (h : s.ckState ∈ [1, 3]) :
    exec .resetRequest s = .next { s with pkg := { s.pkg with resetHeld := true } } := by
  refine congrArg Host.Outcome.next (if_pos ?_)
  simpa using h

theorem execResetRequest_now (h : s.ckState ∉ [1, 3]) (hnow : ¬s.pkg.ckctl.getLsbD 2 = true ∨ s.ckState = 6) :
    exec .resetRequest s = .next s.packageReset := by
  refine congrArg Host.Outcome.next ((if_neg ?_).trans (if_neg ?_))
  · simpa using h
  · tauto

theorem execResetRequest_auto (h : s.ckState ∉ [1, 3, 6]) (hauto : s.pkg.ckctl.getLsbD 2 = true) :
    exec .resetRequest s = .next ({ s with pkg := { s.pkg with resetHeld := true } } : State).ckStart.heldReset := by
  simp only [List.mem_cons, List.not_mem_nil, or_false, not_or] at h
  obtain ⟨h1, h3, h6⟩ := h
  exact congrArg Host.Outcome.next ((if_neg (by tauto)).trans (if_pos ⟨hauto, h6⟩))

theorem ckStart_of_no_region (h : s.ckState ∉ [1, 3, 6]) (hfits : s.readyBit 56 = false) : s.ckStart = s.setCk 5 1 := by
  unfold State.ckStart
  rw [if_neg (by simpa using h), if_pos (by rw [hfits]; rfl)]

theorem ckStart_of_region (h : s.ckState ∉ [1, 3, 6]) (hfits : s.readyBit 56 = true) :
    s.ckStart = if s.ckState = 2 then s.beginCopy else s.quiesce true := by
  unfold State.ckStart
  rw [if_neg (by simpa using h), if_neg (by simp [hfits])]

/-- A reset request that no checkpoint holds. -/
theorem execResetRequest_fresh (h : s.ckState ∉ [1, 3])
    (hnow : ¬s.pkg.ckctl.getLsbD 2 = true ∨ s.ckState = 6 ∨ s.readyBit 56 = false) :
    ∃ t, exec .resetRequest s = .next t ∧ Fresh s t := by
  by_cases hskip : ¬s.pkg.ckctl.getLsbD 2 = true ∨ s.ckState = 6
  · exact ⟨_, execResetRequest_now h hskip, fresh_packageReset⟩
  · have hauto : s.pkg.ckctl.getLsbD 2 = true := by tauto
    have hck : s.ckState ∉ [1, 3, 6] := by
      simp only [List.mem_cons, List.not_mem_nil, or_false] at h ⊢
      tauto
    have hfits : s.readyBit 56 = false := by tauto
    refine ⟨_, execResetRequest_auto hck hauto, ?_⟩
    rw [ckStart_of_no_region (s := { s with pkg := { s.pkg with resetHeld := true } }) hck hfits]
    exact fresh_failed rfl

/-- With AUTO a checkpoint starts, and holds the reset. -/
theorem execResetRequest_checkpoint (h : s.ckState ∉ [1, 3, 6]) (hauto : s.pkg.ckctl.getLsbD 2 = true)
    (hfits : s.readyBit 56 = true) :
    ∃ t, exec .resetRequest s = .next t ∧ t.ckState = (if s.ckState = 2 then 3 else 1) ∧ t.pkg.resetHeld = true := by
  refine ⟨_, execResetRequest_auto h hauto, ?_⟩
  rw [ckStart_of_region (s := { s with pkg := { s.pkg with resetHeld := true } }) h hfits]
  generalize hu : ({ s with pkg := { s.pkg with resetHeld := true } } : State) = u
  have hck : u.ckState = s.ckState := by rw [← hu]; rfl
  have hheld : u.pkg.resetHeld = true := by rw [← hu]
  rw [hck]
  split
  · obtain ⟨hcopy, hkeep, -⟩ := beginCopy_frame (s := u)
    rw [heldReset_of_ckState (by rw [hcopy]; decide) (by rw [hcopy]; decide)]
    exact ⟨hcopy, hkeep.trans hheld⟩
  · obtain ⟨hquiesce, hkeep⟩ := quiesce_frame (s := u) (thenCopy := true)
    rw [heldReset_of_ckState (by rw [hquiesce]; decide) (by rw [hquiesce]; decide)]
    exact ⟨hquiesce, hkeep.trans hheld⟩
end

/-! ## A die that is reset (R17, R19) -/
section
variable {s t : State} {c : Bool} {d b m : Nat}

/-- A die is down, and no checkpoint holds a reset. -/
def Down (d : Nat) (s : State) : Prop := s.dieUp d = false ∧ s.pkg.resetHeld = false

theorem down_of_pkg (h : t.pkg = s.pkg) (hs : Down d s) : Down d t := by
  obtain ⟨hdown, hheld⟩ := hs
  exact ⟨(dieUp_congr (congrArg Pkg.ready h) (congrArg Pkg.inReset h)).trans hdown, (congrArg Pkg.resetHeld h).trans hheld⟩

theorem down_of_kept (h : t.kept c = s.kept c) (hs : Down d s) : Down d t := by
  obtain ⟨hdown, hheld⟩ := hs
  exact ⟨(dieUp_of_kept h).trans hdown, (congrArg (fun k => k.pkg.resetHeld) h).trans hheld⟩

theorem down_setReady (hb : 12 ≤ b) (hb' : b < 64) {on : Bool} (hs : Down d s) : Down d (s.setReady b on) :=
  ⟨(dieUp_setReady hb hb').trans hs.1, hs.2⟩

theorem pkg_failFabric : s.failFabric.pkg = s.pkg :=
  (OnWire.foldl fun _ _ => onWire_failPkt).pkg

theorem slots_failFabric : s.failFabric.slots = s.slots :=
  (OnWire.foldl fun _ _ => onWire_failPkt).slots

/-- A plane that goes down clears its PKREADY bit; what else it changes is packets. -/
theorem planeDown_frame : (s.planeDown m).pkg = (s.setReady (40 + m) false).pkg ∧ (s.planeDown m).slots = s.slots := by
  unfold State.planeDown
  dsimp only
  split
  · exact ⟨pkg_failFabric, slots_failFabric⟩
  · exact ⟨rfl, rfl⟩

theorem down_loseModule (hm : m < 16) (hs : Down d s) : Down d (s.loseModule m) := by
  have hbits : Down d (s.setReady (24 + m) false).ckptBit :=
    down_setReady (by decide) (by decide) (down_setReady (by omega) (by omega) hs)
  unfold State.loseModule
  dsimp only
  split
  · rw [heldReset_of_not_held (s := (s.setReady (24 + m) false).ckptBit.setCk 5 2) hbits.2]
    exact hbits
  · exact hbits

theorem down_functionFailure (hb : 12 ≤ b) (hb' : b < 59) (hrelay : b = 51 → d = xDie) (hs : Down d s) : Down d (s.functionFailure b) := by
  unfold State.functionFailure
  split
  · exact hs
  · split
    · exact down_loseModule (by omega) hs
    · split
      · refine down_of_pkg planeDown_frame.1 (down_setReady (by omega) (by omega) hs)
      · split
        · next h =>
          obtain rfl := hrelay h
          exact down_of_kept (c := true) (kept_relayDown hs.1 rfl) (down_setReady (by decide) (by decide) hs)
        · split
          · exact down_of_pkg pkg_failFabric (down_setReady (by decide) (by decide) hs)
          · split
            · exact down_setReady (by omega) (by omega) hs
            · exact hs

/-- The functions that a die carries are no CDIE bits, and the Relay is the X-die's. -/
theorem dieFunctions_range (hb : b ∈ dieFunctions d) : 12 ≤ b ∧ b < 59 ∧ (b = 51 → d = xDie) := by
  unfold dieFunctions at hb
  split at hb
  · next hd =>
    have hlt : d < 12 := of_decide_eq_true hd
    simp only [List.mem_singleton] at hb
    omega
  · split at hb
    · next hd =>
      simp only [List.mem_append, List.mem_cons, List.not_mem_nil, or_false, List.mem_map, List.mem_range] at hb
      obtain hb | ⟨i, hi, rfl⟩ := hb
      · omega
      · omega
    · split at hb
      · simp only [List.mem_cons, List.not_mem_nil, or_false] at hb
        omega
      · split at hb
        · next hd =>
          have hF : d = 16 ∨ d = 17 := by simpa [isFDie] using hd
          simp only [List.mem_cons, List.mem_map, List.mem_range] at hb
          obtain rfl | ⟨i, hi, rfl⟩ := hb
          · omega
          · omega
        · exact absurd hb List.not_mem_nil

/-- A die in reset, its functions down. -/
def State.dieDown (s : State) (d : Nat) : State :=
  (dieFunctions d).foldl State.functionFailure
    (if isCDie d then (s.endDie d).setReady d false else { s with pkg := { s.pkg with inReset := s.pkg.inReset ++ [d] } })

theorem down_dieDown (hheld : s.pkg.resetHeld = false) : Down d (s.dieDown d) := by
  have hstart : Down d (if isCDie d then (s.endDie d).setReady d false
      else { s with pkg := { s.pkg with inReset := s.pkg.inReset ++ [d] } }) := by
    split
    · next hc =>
      have hlt : d < 12 := of_decide_eq_true hc
      refine ⟨?_, (congrArg (fun k => k.pkg.resetHeld) (kept_endDie (s := s) (c := true) rfl)).trans hheld⟩
      rw [State.dieUp, if_pos hc, readyBit_setReady_same (by omega)]
    · next hc =>
      refine ⟨?_, hheld⟩
      rw [State.dieUp, if_neg hc]
      simp
  refine List.foldlRecOn (motive := Down d) _ _ hstart fun t ht b hb => ?_
  obtain ⟨hlow, hhigh, hrelay⟩ := dieFunctions_range hb
  exact down_functionFailure hlow hhigh hrelay ht

/-- After the functions are down and the NI is reset, the reset of a die changes nothing more of what is kept. -/
theorem kept_dieReset (hd : isDie d = true) (hup : s.dieUp d = true) : ∃ t : State, s.dieReset d = t.syncBit ∧
    t.kept true = ((s.dieDown d).setNi d ((s.dieDown d).freshNi d)).kept true := by
  rw [State.dieReset, if_neg (by simp [hd, hup])]
  refine ⟨_, rfl, ?_⟩
  refine kept_foldl (fun t w ht => ?_) ?_
  · split
    · exact kept_ite (kept_finishWait ht) ht
    · exact kept_rctApplied ht
    · exact ht
  · have hanswered : ∀ (l : List Pkt) {t : State} {r : Kept}, t.kept true = r →
        (l.foldl (fun s p => if epDie p.src = d && p.ty.isRequest then s else s.failPkt p 5) t).kept true = r :=
      fun l _ _ ht => kept_foldl (fun _ _ hu => kept_ite hu (onWire_failPkt.kept hu)) ht
    refine kept_ite (kept_takeIntake ?_) ?_
    · exact hanswered _ rfl
    · exact hanswered _ rfl

theorem dieReset_frame (hd : isDie d = true) (hup : s.dieUp d = true) (hheld : s.pkg.resetHeld = false) :
    (s.dieReset d).dieUp d = false ∧ ((s.dieReset d).ni d).tcache = [] ∧ ((s.dieReset d).ni d).walks = [] ∧
      ((s.dieReset d).ni d).fq = [] := by
  obtain ⟨t, hreset, hkept⟩ := kept_dieReset hd hup
  have hcaches := congrArg (fun k => k.caches d) hkept
  simp only [State.kept, ni_setNi, cond_true, Prod.mk.injEq] at hcaches
  rw [hreset]
  exact ⟨(dieUp_setReady (by decide) (by decide)).trans ((dieUp_of_kept hkept).trans (down_dieDown hheld).1), hcaches⟩
end

/-! ## A die that returns (R41, R42, R66) -/
section
variable {s t : State} {d n : Nat}

/-- The first `n` entries of a die's track table are those of the image, it has no cached translation, and its rank table, log and count are as they were. -/
structure TablesLoaded (s t : State) (d n : Nat) : Prop where
  pkg : t.pkg = s.pkg
  mem : t.mem = s.mem
  slots : t.slots = s.slots
  tcache : (t.ni d).tcache = []
  rct : (t.ni d).rct = (s.ni d).rct
  log : (t.ni d).log = (s.ni d).log
  swcOffset : (t.ni d).swcOffset = (s.ni d).swcOffset
  trk : ∀ i < n, kget 0 (t.ni d).trk i = s.trkLoaded i d

theorem trkLoaded_congr (hpkg : t.pkg = s.pkg) (hmem : t.mem = s.mem) {i : Nat} : t.trkLoaded i d = s.trkLoaded i d := by
  simp only [State.trkLoaded, State.trkRoot, State.trkImage, State.load64, State.loadLE, hpkg, hmem]

/-- An entry that is not the one set keeps its value, and the one set reads as set, zero or not. -/
theorem kget_loadTrack {i j : Nat} {e : BitVec 128} {m : KMap (BitVec 128)} :
    kget 0 (if e = 0 then kdel i m else kset i e m) j = if j = i then e else kget 0 m j := by
  by_cases hj : j = i
  · subst hj
    rw [if_pos rfl]
    split
    · next he => rw [kget_kdel_same, he]
    · exact kget_kset_same _ _ _ _
  · rw [if_neg hj]
    split
    · exact kget_kdel_other _ _ _ _ hj
    · exact kget_kset_other _ _ _ _ _ hj

theorem tablesLoaded_succ (h : TablesLoaded s t d n) : TablesLoaded s ((t.loadTrack n d).loadPmap n d) d (n + 1) := by
  have hni : ((t.loadTrack n d).loadPmap n d).ni d = { t.ni d with
      trk := if t.trkLoaded n d = 0 then kdel n (t.ni d).trk else kset n (t.trkLoaded n d) (t.ni d).trk,
      tcache := (t.ni d).tcache.filter fun x => trkIdx x.track != n,
      pmap := kset n ((t.loadTrack n d).pmapStore n) (t.ni d).pmap } := by
    rw [State.loadPmap, ni_setNi, State.loadTrack, ni_setNi]
  refine ⟨h.pkg, h.mem, h.slots, ?_, ?_, ?_, ?_, fun i hi => ?_⟩
  · rw [hni, h.tcache]
    rfl
  · rw [hni, ← h.rct]
  · rw [hni, ← h.log]
  · rw [hni, ← h.swcOffset]
  · rw [hni, kget_loadTrack]
    split
    · next hin => rw [hin, trkLoaded_congr h.pkg h.mem]
    · exact h.trk i (by omega)

/-- The first `n` entries of the tables are loaded. -/
@[irreducible] def State.loadTables (s : State) (d n : Nat) : State := (List.range n).foldl (fun s i => (s.loadTrack i d).loadPmap i d) s

theorem tablesLoaded (h : (s.ni d).tcache = []) : TablesLoaded s (s.loadTables d n) d n := by
  unfold State.loadTables
  induction n with
  | zero => exact ⟨rfl, rfl, rfl, h, rfl, rfl, rfl, fun _ hi => absurd hi (Nat.not_lt_zero _)⟩
  | succ n ih =>
    rw [List.range_succ, List.foldl_append]
    exact tablesLoaded_succ ih

/-- What a die that returns has loaded before it is marked up. -/
def State.dieLoaded (s : State) (d : Nat) : State :=
  (s.setNi d { s.freshNi d with rct := s.pkg.rct, freeze := if isCDie d ∨ isFDie d then s.liveFreezes else [] }).loadTables d 1024

/-- A die that returns is marked up. -/
def State.dieMarked (s : State) (d : Nat) : State :=
  if isCDie d then (s.dieLoaded d).setReady d true
  else { s.dieLoaded d with pkg := { (s.dieLoaded d).pkg with inReset := (s.dieLoaded d).pkg.inReset.filter (· != d) } }

theorem onWire_keptByLinks :
    OnWire s (if d = bDie then (allDies.filter fun e => s.linkUp bDie e).foldl (fun s e => s.sendOwed bDie e) s else s) := by
  split
  · exact OnWire.foldl fun _ _ => onWire_sendOwed
  · exact OnWire.refl

/-- Once a die is marked up, packets that a link has kept are sent. -/
theorem dieReturn_eq (hd : isDie d = true) (hup : s.dieUp d = false) : ∃ t, OnWire (s.dieMarked d) t ∧ s.dieReturn d = t.syncBit := by
  rw [State.dieReturn, if_neg (show ¬(!isDie d || s.dieUp d) = true by simp [hd, hup])]
  refine ⟨_, ?_, rfl⟩
  rw [State.dieMarked, State.dieLoaded, State.loadTables]
  exact onWire_keptByLinks

theorem dieUp_dieMarked (hd : isDie d = true) : (s.dieMarked d).dieUp d = true := by
  unfold State.dieMarked State.dieUp
  split
  · next hc =>
    have hlt : d < 12 := of_decide_eq_true hc
    exact readyBit_setReady_same (by omega)
  · simp [hd]

theorem nis_dieMarked : (s.dieMarked d).nis = (s.dieLoaded d).nis := by
  unfold State.dieMarked
  split <;> rfl

theorem slots_dieMarked : (s.dieMarked d).slots = (s.dieLoaded d).slots := by
  unfold State.dieMarked
  split <;> rfl

/-- What a die that returns holds: the rank table and the track table that the B-die keeps, the current INDEX, no cached translation. -/
theorem dieReturn_frame (hd : isDie d = true) (hup : s.dieUp d = false) :
    (s.dieReturn d).dieUp d = true ∧ (s.dieReturn d).slots = s.slots ∧ ((s.dieReturn d).ni d).tcache = [] ∧
      ((s.dieReturn d).ni d).rct = s.pkg.rct ∧ ((s.dieReturn d).ni d).log.applied = s.pkg.ivlIndex ∧
      ((s.dieReturn d).ni d).swcOffset = 0 ∧ ∀ i < 1024, kget 0 ((s.dieReturn d).ni d).trk i = s.trkLoaded i d := by
  obtain ⟨t, hwire, hreturn⟩ := dieReturn_eq hd hup
  generalize hstart : s.setNi d { s.freshNi d with rct := s.pkg.rct, freeze := if isCDie d ∨ isFDie d then s.liveFreezes else [] } = u
  have hni : u.ni d = { s.freshNi d with rct := s.pkg.rct, freeze := if isCDie d ∨ isFDie d then s.liveFreezes else [] } := by
    rw [← hstart, ni_setNi]
  have htables : TablesLoaded u (s.dieLoaded d) d 1024 := by
    rw [State.dieLoaded, hstart]
    exact tablesLoaded (by rw [hni]; rfl)
  have hsame : (s.dieReturn d).ni d = (s.dieLoaded d).ni d := by
    have hnis : (s.dieReturn d).nis = (s.dieLoaded d).nis := by
      rw [hreturn]
      exact hwire.nis.trans nis_dieMarked
    simp only [State.ni, hnis]
  rw [hsame]
  refine ⟨?_, ?_, htables.tcache, ?_, ?_, ?_, fun i hi => ?_⟩
  · rw [hreturn]
    exact (dieUp_setReady (by decide) (by decide)).trans
      ((dieUp_congr (congrArg Pkg.ready hwire.pkg) (congrArg Pkg.inReset hwire.pkg)).trans (dieUp_dieMarked hd))
  · rw [hreturn]
    refine (hwire.slots.trans slots_dieMarked).trans (htables.slots.trans ?_)
    rw [← hstart]
    rfl
  · rw [htables.rct, hni]
  · rw [htables.log, hni]
    rfl
  · rw [htables.swcOffset, hni]
    rfl
  · rw [htables.trk i hi, ← hstart]
    exact trkLoaded_congr rfl rfl
end

theorem execPowerOnReset_fresh {s : State} : ∃ t, exec .powerOnReset s = .next t ∧ Fresh s t ∧ t.boot.powered = true := by
  obtain ⟨hslots, hgangs, hnet, hck, hsince, hleaf, hmem⟩ := fresh_packageReset (s := s)
  exact ⟨_, rfl, ⟨hslots, hgangs, hnet, hck, hsince, hleaf, hmem⟩, rfl⟩

/-! ## Temperatures (R17) -/
section
variable {s : State} {d : Nat} {c : Int}

theorem dieReset_of_down (hup : s.dieUp d = false) : s.dieReset d = s := by
  rw [State.dieReset, if_pos (by simp [hup])]

theorem dieReturn_of_up (hup : s.dieUp d = true) : s.dieReturn d = s := by
  rw [State.dieReturn, if_pos (by simp [hup])]

/-- The state in which a die's temperature is noted. -/
def State.throttle (s : State) (d : Nat) (c : Int) : State :=
  { s with pkg := { s.pkg with throttled := if 105 ≤ c ∧ isDie d then s.pkg.throttled.filter (· != d) ++ [d] else s.pkg.throttled.filter (· != d) } }

theorem execThermalReport_below (hc : c < 115) : exec (.thermalReport d c) s = .next (s.throttle d c) :=
  congrArg Host.Outcome.next (if_neg (by omega))

theorem execThermalReport_reset (hc : 115 ≤ c) : exec (.thermalReport d c) s = .next ((s.throttle d c).dieReset d) :=
  congrArg Host.Outcome.next (if_pos hc)

theorem throttled_throttle (hd : isDie d = true) : d ∈ (s.throttle d c).pkg.throttled ↔ 105 ≤ c := by
  unfold State.throttle
  dsimp only
  split
  · next h => simp [h.1]
  · next h =>
    have hcold : ¬105 ≤ c := fun hc => h ⟨hc, hd⟩
    simp [hcold]
end

/-! ## Functions that come and go (R18, R19) -/
section
variable {s : State} {b m n : Nat}

theorem functionReady_of_ready (h : s.readyBit b = true) : s.functionReady b = s := by
  rw [State.functionReady, if_pos h]

theorem functionFailure_of_down (h : s.readyBit b = false) : s.functionFailure b = s := by
  rw [State.functionFailure, if_pos (by simp [h])]

/-- The functions whose readiness is all that their return changes. -/
theorem functionReady_sets (hb : 50 ≤ b) (hb' : b ≤ 55) (h : s.readyBit b = false) : s.functionReady b = s.setReady b true := by
  rw [State.functionReady, if_neg (by simp [h]), if_neg (by omega), if_neg (by omega), if_neg (by omega), if_neg (by omega),
    if_neg (by omega), if_pos ⟨hb, hb'⟩]

theorem functionReady_starter (hempty : s.starter.intake = []) (h : s.readyBit 48 = false) : s.functionReady 48 = s.setReady 48 true := by
  have htake : (s.setReady 48 true).takeIntake = s.setReady 48 true := by
    rw [State.takeIntake, State.drainIntake, show (s.setReady 48 true).starter.intake = [] from hempty]
  rw [State.functionReady, if_neg (by simp [h]), if_neg (by decide), if_neg (by decide), if_neg (by decide), if_neg (by decide),
    if_pos rfl, htake]

theorem functionReady_security (h : s.readyBit 58 = false) : s.functionReady 58 = s.setReady 58 (decide (0 < s.boot.quotes)) := by
  rw [State.functionReady, if_neg (by simp [h]), if_neg (by decide), if_neg (by decide), if_neg (by decide), if_neg (by decide),
    if_neg (by decide), if_neg (by decide), if_pos rfl]

/-- The functions whose readiness is all that their failure changes. -/
theorem functionFailure_clears (hb : 12 ≤ b ∧ b < 24 ∨ 48 ≤ b ∧ b ≤ 55) (h51 : b ≠ 51) (h52 : b ≠ 52) (h : s.readyBit b = true) :
    s.functionFailure b = s.setReady b false := by
  rw [State.functionFailure, if_neg (by simp [h]), if_neg (by omega), if_neg (by omega), if_neg h51, if_neg h52, if_pos (by omega)]

/-- An HBM that becomes usable is cleared (log entry 24). -/
theorem functionReady_hbm (hb : 12 ≤ b) (hb' : b < 24) (h : s.readyBit b = false) :
    (s.functionReady b).readyBit b = true ∧ (s.functionReady b).slots = s.slots ∧
      (s.functionReady b).mem = clearRange s.mem (hbmCell (b - 12) 0) (2 ^ 64) := by
  rw [State.functionReady, if_neg (by simp [h]), if_pos ⟨hb, hb'⟩]
  dsimp only
  split
  · exact ⟨readyBit_setReady_same (by omega), rfl, rfl⟩
  · exact ⟨readyBit_setReady_same (by omega), rfl, rfl⟩

theorem functionReady_module (hm : m < 16) (h : s.readyBit (24 + m) = false) :
    s.functionReady (24 + m) = (s.setReady (24 + m) true).ckptBit := by
  rw [State.functionReady, if_neg (by simp [h]), if_neg (by omega), if_pos (by omega)]

theorem readyBit_ckptBit (h : n ≠ 56) : s.ckptBit.readyBit n = s.readyBit n :=
  readyBit_setReady_other (by decide) h

theorem readyBit_module {on : Bool} (hm : m < 16) : (s.setReady (24 + m) on).ckptBit.readyBit (24 + m) = on := by
  rw [readyBit_ckptBit (by omega), readyBit_setReady_same (by omega)]

/-- The loss of a module outside a checkpoint's copy (R19). -/
theorem loseModule_eq (hck : s.ckState ≠ 3) : s.loseModule m = (s.setReady (24 + m) false).ckptBit :=
  if_neg (show ¬(s.setReady (24 + m) false).ckptBit.ckState = 3 from hck)

theorem functionFailure_module (hm : m < 16) (h : s.readyBit (24 + m) = true) : s.functionFailure (24 + m) = s.loseModule m := by
  rw [State.functionFailure, if_neg (by simp [h]), if_pos (by omega), Nat.add_sub_cancel_left]

theorem functionReady_plane (hm : m < 8) (h : s.readyBit (40 + m) = false) :
    (s.functionReady (40 + m)).readyBit (40 + m) = true ∧ (s.functionReady (40 + m)).mem = s.mem ∧
      (s.functionReady (40 + m)).slots = s.slots ∧ (s.functionReady (40 + m)).gateway.lastFlit.toList.getD m 0 = s.swcAt xDie := by
  rw [State.functionReady, if_neg (by simp [h]), if_neg (by omega), if_neg (by omega), if_pos (by omega)]
  refine ⟨readyBit_setReady_same (by omega), rfl, rfl, ?_⟩
  simp [hm, Nat.mod_eq_of_lt hm]

theorem functionFailure_plane (hm : m < 8) (h : s.readyBit (40 + m) = true) : s.functionFailure (40 + m) = s.planeDown m := by
  rw [State.functionFailure, if_neg (by simp [h]), if_neg (by omega), if_pos (by omega), Nat.add_sub_cancel_left]

theorem readyBit_planeDown (hm : m < 8) : (s.planeDown m).readyBit (40 + m) = false := by
  rw [State.readyBit, planeDown_frame.1]
  exact readyBit_setReady_same (by omega)

/-- The cycle controller returns, with no record to abort and no baton that waits (R304). -/
theorem functionReady_cycle (hrecs : s.cyc.recs = []) (hwaiting : s.waiting = []) (h : s.readyBit 49 = false) :
    s.functionReady 49 = s.setReady 49 true := by
  have hwaiting' : (s.setReady 49 true).waiting = [] := hwaiting
  have habort : (List.range 64).foldl (fun s n => if (s.cycRec n).state.live then s.abortCycle n else s) s = s := by
    refine List.foldlRecOn (motive := (· = s)) _ _ rfl fun t ht n _ => ?_
    subst ht
    rw [State.cycRec, hrecs]
    rfl
  have hwake : (List.range 64).foldl State.wakeCycle (s.setReady 49 true) = s.setReady 49 true := by
    refine List.foldlRecOn (motive := (· = s.setReady 49 true)) _ _ rfl fun t ht n _ => ?_
    rw [ht, State.wakeCycle, hwaiting', List.foldl_nil]
  rw [State.functionReady, if_neg (by simp [h]), if_neg (by decide), if_neg (by decide), if_neg (by decide), if_pos rfl,
    State.cycReturn, habort, hwake]

theorem functionFailure_gateway (h : s.readyBit 52 = true) : s.functionFailure 52 = (s.setReady 52 false).failFabric := by
  rw [State.functionFailure, if_neg (by simp [h]), if_neg (by decide), if_neg (by decide), if_neg (by decide), if_pos rfl]

theorem readyBit_failFabric : s.failFabric.readyBit n = s.readyBit n := by
  rw [State.readyBit, pkg_failFabric, State.readyBit]
end

/-- Settles O53: a reset is shown by its fixed fields and the range it clears; a checkpoint that it starts, by what a quiesce and the begin of a copy
leave of the registers; a die that is reset, by what its batons, functions and packets leave of them; a die that returns, by induction on the tables. -/
theorem resetAndFunctionEvents : Obligations.ResetAndFunctionEvents := by
  unfold Obligations.ResetAndFunctionEvents
  intro s d m b c gives fresh ck auto same clears sets
  refine ⟨execPowerOnReset_fresh, ⟨_, rfl, fresh_packageReset⟩, execResetRequest_held, execResetRequest_fresh,
    execResetRequest_checkpoint, fun hd => ⟨fun hlow hhigh => ?_, fun hlow => ?_⟩, fun hdown => congrArg Host.Outcome.next (dieReset_of_down hdown),
    fun hd hup hheld => ⟨⟨_, rfl, dieReset_frame hd hup hheld⟩, fun hhot => ?_, congrArg Host.Outcome.next (dieReturn_of_up hup)⟩,
    fun hd hdown => ?_, fun hm => congrArg Host.Outcome.next (if_neg (by omega)), fun hm hck => ?_,
    fun h => congrArg Host.Outcome.next (functionReady_of_ready h), fun h => congrArg Host.Outcome.next (functionFailure_of_down h),
    fun n hn hdown => ?_, fun hempty hdown => congrArg Host.Outcome.next (functionReady_starter hempty hdown),
    fun hdown => congrArg Host.Outcome.next (functionReady_security hdown), fun n hn hup => ?_,
    fun hb hb' => ⟨fun hup => ?_, fun hdown => ?_⟩, fun hm hdown => ?_, fun hm => ⟨fun hdown => ?_, fun hup => ?_⟩,
    fun hdown hrecs hwaiting => ?_, fun hup => ?_⟩
  · exact ⟨_, execThermalReport_below hhigh, (throttled_throttle hd).2 hlow, rfl, rfl⟩
  · exact ⟨_, execThermalReport_below (by omega), fun h => absurd ((throttled_throttle hd).1 h) (by omega), rfl, rfl⟩
  · exact ⟨_, execThermalReport_reset hhot, (dieReset_frame (s := s.throttle d c) hd hup hheld).1⟩
  · obtain ⟨hup, hslots, hcache⟩ := dieReturn_frame hd hdown
    exact ⟨_, rfl, hup, ⟨mem_dieReturn, hslots⟩, hcache⟩
  · have hlost : exec (.farModuleLoss m) s = .next (s.loseModule m) := congrArg Host.Outcome.next (if_pos hm)
    refine ⟨_, hlost, ?_, ?_, fun hup => congrArg Host.Outcome.next (functionFailure_module hm hup)⟩
    · rw [loseModule_eq hck, readyBit_module hm]
    · rw [loseModule_eq hck]
      exact ⟨rfl, rfl⟩
  · have hrange : 50 ≤ n ∧ n ≤ 55 := by simp at hn; omega
    exact congrArg Host.Outcome.next (functionReady_sets hrange.1 hrange.2 hdown)
  · have hrange : 48 ≤ n ∧ n ≤ 55 ∧ n ≠ 51 ∧ n ≠ 52 := by simp at hn; omega
    obtain ⟨hlow, hhigh, h51, h52⟩ := hrange
    exact congrArg Host.Outcome.next (functionFailure_clears (.inr ⟨hlow, hhigh⟩) h51 h52 hup)
  · exact congrArg Host.Outcome.next (functionFailure_clears (.inl ⟨hb, hb'⟩) (by omega) (by omega) hup)
  · obtain ⟨hbit, hslots, hmem⟩ := functionReady_hbm hb hb' hdown
    refine ⟨_, rfl, hbit, hslots, fun a => ?_⟩
    rw [hmem]
    exact readByte_clearRange_eq
  · exact ⟨_, congrArg Host.Outcome.next (functionReady_module hm hdown), readyBit_module hm, rfl, rfl⟩
  · obtain ⟨hbit, hmem, hslots, hflit⟩ := functionReady_plane hm hdown
    exact ⟨_, rfl, hbit, ⟨hmem, hslots⟩, hflit⟩
  · exact ⟨_, congrArg Host.Outcome.next (functionFailure_plane hm hup), readyBit_planeDown hm, mem_planeDown, planeDown_frame.2⟩
  · exact ⟨_, congrArg Host.Outcome.next (functionReady_cycle hrecs hwaiting hdown), readyBit_setReady_same (by decide), rfl, rfl⟩
  · exact ⟨_, congrArg Host.Outcome.next (functionFailure_gateway hup), readyBit_failFabric.trans (readyBit_setReady_same (by decide)),
      mem_failFabric, slots_failFabric⟩
end Sys2Proof.Machine
end

section
/-!
PROOF of O48. Pre-emption, checkpoint and restore requests.
-/
namespace Sys2Proof.Machine

/-! ## With nothing to save or to pause -/
section
variable {s t : State} {p : Nat → Bool} {ks : List Nat} {far one : State → Nat → State}

/-- No baton is in a slot or out of one, there is no gang, and no run is open. -/
def Still (s : State) : Prop := s.slots = [] ∧ s.gangs = [] ∧ s.aways = [] ∧ s.relay.runs = []

theorem holdStep_still (h : Still s) : s.holdStep p = s := by
  obtain ⟨hslots, hgangs, haways, -⟩ := h
  have hwaiting : s.holdWaiting p = s := by rw [State.holdWaiting, haways, List.foldl_nil]
  have hsets : s.holdGangs p = s := by rw [State.holdGangs, hgangs, List.foldl_nil]
  rw [State.holdStep, hwaiting, hsets, State.holdSlots, hslots, List.foldl_nil]

theorem release_still (h : Still s) : s.release p = s := by
  obtain ⟨-, -, haways, -⟩ := h
  rw [State.release, haways, List.foldl_nil]

theorem allHeld_still (h : Still s) : s.allHeld p = true := by
  rw [State.allHeld, h.1]
  rfl

theorem ranksOfLaunches_still (h : Still s) : s.ranksOfLaunches ks = [] := by
  obtain ⟨-, -, -, hruns⟩ := h
  have hranks : s.launchRanks = fun _ => [] := by
    funext k
    rw [State.launchRanks, hruns]
    rfl
  have hnone : ks.flatMap s.launchRanks = [] := List.flatMap_eq_nil_iff.2 fun k _ => congrFun hranks k
  rw [State.ranksOfLaunches, hnone]
  rfl

theorem still_markHeld {on : Bool} (h : Still s) : Still (s.markHeld ks on) := by
  refine List.foldlRecOn (motive := Still) _ _ h fun t ht k _ => ?_
  split
  · exact ht
  · exact ht
end

/-! ## PRECTL (R113) -/
section
variable {s : State} {v : Dword} {l : Launch} {op seq : Nat} {pre : Bool}

theorem prectl_op : (v.extractLsb' 62 2).toNat = v.toNat / 2 ^ 62 := by
  rw [BitVec.extractLsb'_toNat, Nat.shiftRight_eq_div_pow]
  exact Nat.mod_eq_of_lt (by omega)

theorem prectl_seq : (v.extractLsb' 0 62).toNat = v.toNat % 2 ^ 62 := by
  rw [BitVec.extractLsb'_toNat, Nat.shiftRight_zero]

theorem prectl_is {n : Nat} (hn : n < 4) : v.extractLsb' 62 2 = BitVec.ofNat 2 n ↔ v.toNat / 2 ^ 62 = n := by
  rw [← prectl_op, ← BitVec.toNat_inj, BitVec.toNat_ofNat, Nat.mod_eq_of_lt hn]

theorem preBusy_iff : s.preBusy = true ↔ s.starter.prestat.toNat / 16 % 16 = 1 := by
  rw [State.preBusy, beq_iff_eq, ← BitVec.toNat_inj, BitVec.extractLsb'_toNat, Nat.shiftRight_eq_div_pow]
  rfl

theorem preResult_busy (h : s.ckState ∈ [1, 2, 3, 6]) : s.preResult op seq = 3 :=
  if_pos (by simpa using h)

theorem preResult_unnamed (h : s.ckState ∉ [1, 2, 3, 6]) (hl : s.preTarget seq = none) : s.preResult op seq = 1 := by
  rw [State.preResult, if_neg (by simpa using h), hl]

theorem preResult_named (h : s.ckState ∉ [1, 2, 3, 6]) (hl : s.preTarget seq = some l) (hop : op ≠ 0) :
    s.preResult op seq = if l.preempted = (op == 1) then 2 else 0 := by
  rw [State.preResult, if_neg (by simpa using h), hl]
  simp [hop]

theorem launchOf_of_preTarget (h : s.preTarget seq = some l) : s.launchOf seq = some l := by
  unfold State.preTarget at h
  split at h
  · next x hx =>
    split at h
    all_goals simp_all
  · cases h

/-- A request is noted: BUSY, with the result that it will have. -/
def State.noted (s : State) (op seq : Nat) : State :=
  s.setStarter { s.starter with prestat := prestatWord 1 0, preTarget := seq, preResume := op != 1, preResult := s.preResult op seq }

/-- What PRESTAT and the request registers show of a request. -/
def Requested (s : State) (seq r : Nat) (t : State) : Prop :=
  t.starter.prestat = 16 ∧ t.starter.preResult = r ∧ t.starter.preTarget = seq ∧ t.mem = s.mem

theorem requested_noted : Requested s seq (s.preResult op seq) (s.noted op seq) := ⟨rfl, rfl, rfl, rfl⟩

theorem requested_markHeld {t : State} {r : Nat} {ks : List Nat} {on : Bool} (h : Requested s seq r t) : Requested s seq r (t.markHeld ks on) := by
  refine List.foldlRecOn (motive := Requested s seq r) _ _ h fun u hu k _ => ?_
  split
  · exact hu
  · exact hu

theorem prectlWrite_busy (h : s.preBusy = true) : s.prectlWrite v = s :=
  if_pos (.inr h)

/-- A request that is not carried out is only noted. -/
theorem prectlWrite_refused (hop : v.toNat / 2 ^ 62 ≠ 3) (h : ¬s.preBusy = true)
    (hr : s.preResult (v.toNat / 2 ^ 62) (v.toNat % 2 ^ 62) ≠ 0) :
    s.prectlWrite v = s.noted (v.toNat / 2 ^ 62) (v.toNat % 2 ^ 62) := by
  rw [State.prectlWrite, prectl_op, prectl_seq, if_neg (by tauto)]
  exact if_pos (.inl hr)

/-- A request that is carried out marks its launch; with nothing to save or to pause it does no more. -/
theorem prectlWrite_accepted (hop : v.toNat / 2 ^ 62 = 1 ∨ v.toNat / 2 ^ 62 = 2) (h : ¬s.preBusy = true)
    (hr : s.preResult (v.toNat / 2 ^ 62) (v.toNat % 2 ^ 62) = 0) (hstill : Still s) :
    s.prectlWrite v = (s.noted (v.toNat / 2 ^ 62) (v.toNat % 2 ^ 62)).markHeld [v.toNat % 2 ^ 62] (v.toNat / 2 ^ 62 == 1) := by
  have hmarked : Still ((s.noted (v.toNat / 2 ^ 62) (v.toNat % 2 ^ 62)).markHeld [v.toNat % 2 ^ 62] (v.toNat / 2 ^ 62 == 1)) :=
    still_markHeld hstill
  rw [State.prectlWrite, prectl_op, prectl_seq, if_neg (by rintro (h3 | hb) <;> [omega; exact h hb])]
  refine (if_neg ?_).trans ?_
  · rintro (hne | h0)
    · exact hne hr
    · omega
  · dsimp only
    split
    · exact (congrArg₂ (List.foldl _) (holdStep_still hmarked) (ranksOfLaunches_still hmarked)).trans rfl
    · exact (congrArg₂ (List.foldl _) (release_still hmarked) (ranksOfLaunches_still hmarked)).trans rfl
end

section
variable {s : State} {v : Dword} {i : Instr} {pre : Bool}

/-- A write of PRECTL with a request in it, the request being OP 1 or 2. -/
theorem prectl_request (hi : exec i s = .next (s.prectlWrite v)) (hop : v.toNat / 2 ^ 62 = 1 ∨ v.toNat / 2 ^ 62 = 2)
    (hpre : pre = (v.toNat / 2 ^ 62 == 1)) (hbusy : ¬s.preBusy = true) :
    (s.ckState ∈ [1, 2, 3, 6] → ∃ t, exec i s = .next t ∧ Requested s (v.toNat % 2 ^ 62) 3 t) ∧
    (s.ckState ∉ [1, 2, 3, 6] → s.preTarget (v.toNat % 2 ^ 62) = none → ∃ t, exec i s = .next t ∧ Requested s (v.toNat % 2 ^ 62) 1 t) ∧
    (∀ l, s.ckState ∉ [1, 2, 3, 6] → s.preTarget (v.toNat % 2 ^ 62) = some l →
      (l.preempted = pre → ∃ t, exec i s = .next t ∧ Requested s (v.toNat % 2 ^ 62) 2 t) ∧
      (l.preempted ≠ pre → Still s → (∃ t, exec i s = .next t ∧ Requested s (v.toNat % 2 ^ 62) 0 t) ∧
        ∃ t, exec i s = .next t ∧ t.launchOf (v.toNat % 2 ^ 62) = some { l with preempted := pre })) := by
  have hrefused {r : Nat} (hr : s.preResult (v.toNat / 2 ^ 62) (v.toNat % 2 ^ 62) = r) (hr0 : r ≠ 0) :
      ∃ t, exec i s = .next t ∧ Requested s (v.toNat % 2 ^ 62) r t := by
    refine ⟨_, hi, ?_⟩
    rw [prectlWrite_refused (by omega) hbusy (by rwa [hr]), ← hr]
    exact requested_noted
  refine ⟨fun hck => hrefused (preResult_busy hck) (by decide), fun hck hl => hrefused (preResult_unnamed hck hl) (by decide),
    fun l hck hl => ?_⟩
  have hr := preResult_named (op := v.toNat / 2 ^ 62) hck hl (by omega)
  rw [← hpre] at hr
  refine ⟨fun hsame => hrefused (hr.trans (if_pos hsame)) (by decide), fun hother hstill => ?_⟩
  rw [if_neg hother] at hr
  have hmark := hi
  rw [prectlWrite_accepted hop hbusy hr hstill, ← hpre] at hmark
  refine ⟨⟨_, hmark, requested_markHeld ?_⟩, ⟨_, hmark, ?_⟩⟩
  · rw [← hr]
    exact requested_noted
  · have hfind : (s.noted (v.toNat / 2 ^ 62) (v.toNat % 2 ^ 62)).launchOf (v.toNat % 2 ^ 62) = some l := launchOf_of_preTarget hl
    rw [State.markHeld, List.foldl_cons, List.foldl_nil, hfind]
    exact kfind_kset_same _ _ _

/-- The state in which a request has ended with its result. -/
def State.requestDone (s : State) : State := s.setStarter { s.starter with prestat := prestatWord 2 s.starter.preResult }

theorem prestat_requestDone (h : s.starter.preResult < 16) : s.requestDone.starter.prestat.toNat = 32 + s.starter.preResult := by
  refine (BitVec.toNat_ofNat _ _).trans (Nat.mod_eq_of_lt ?_)
  omega

theorem execPrestatDone_idle (h : ¬s.preBusy = true) : exec .prestatDone s = .next s :=
  congrArg Host.Outcome.next (if_pos (by simpa using h))

theorem execPrestatDone_ends (h : s.preBusy = true) (hr : s.starter.preResult ≠ 0 ∨ s.starter.preResume = true) :
    exec .prestatDone s = .next s.requestDone :=
  congrArg Host.Outcome.next ((if_neg (by simp [h])).trans (if_pos hr))

theorem execPrestatDone_still (h : s.preBusy = true) (hstill : Still s) : exec .prestatDone s = .next s.requestDone := by
  by_cases hr : s.starter.preResult ≠ 0 ∨ s.starter.preResume = true
  · exact execPrestatDone_ends h hr
  · refine congrArg Host.Outcome.next ((if_neg (by simp [h])).trans ((if_neg hr).trans ?_))
    dsimp only
    rw [holdStep_still hstill, if_pos (allHeld_still hstill)]
    rfl
end

/-! ## CKCTL (R21, R23, R25) -/
section
variable {s : State} {v : Dword}

/-- The word that CKCTL keeps of a write. -/
def ckctlWord (v : Dword) : Dword := v.extractLsb' 30 34 ++ 0#27 ++ BitVec.ofBool (v.getLsbD 2) ++ 0#2

/-- The state in which a write of CKCTL is stored, and CKPT is as the region says. -/
def State.ckctlStored (s : State) (v : Dword) : State := ({ s with pkg := { s.pkg with ckctl := ckctlWord v } } : State).ckptBit

theorem readyBit_ckctlStored : (s.ckctlStored v).readyBit 56 = ({ s with pkg := { s.pkg with ckctl := ckctlWord v } } : State).ckFits :=
  readyBit_setReady_same (by decide)

theorem ckctlWrite_restore (hbit : v.getLsbD 3 = true) (hck : s.ckState = 0) (hreset : s.pkg.sinceReset = true) :
    s.ckctlWrite v = (s.ckctlStored v).ckRestore :=
  if_pos ⟨hbit, hck, hreset⟩

theorem ckctlWrite_start (h3 : v.getLsbD 3 = false) (hbit : v.getLsbD 0 = true) : s.ckctlWrite v = (s.ckctlStored v).ckStart :=
  (if_neg fun h => Bool.false_ne_true (h3.symm.trans h.1)).trans (if_pos hbit)

theorem ckctlWrite_quiesce (h3 : v.getLsbD 3 = false) (h0 : v.getLsbD 0 = false) (hbit : v.getLsbD 1 = true) :
    s.ckctlWrite v = (s.ckctlStored v).ckQuiesce :=
  (if_neg fun h => Bool.false_ne_true (h3.symm.trans h.1)).trans ((if_neg (Bool.eq_false_iff.1 h0)).trans (if_pos hbit))

theorem ckRestore_accepted (hck : s.ckState = 0) (hreset : s.pkg.sinceReset = true) :
    s.ckRestore.ckState = 6 ∧ s.ckRestore.pkg.ckctl = s.pkg.ckctl := by
  rw [State.ckRestore, if_neg (by simp [hck, hreset])]
  exact ⟨ckState_setCk, rfl⟩

theorem ckStart_ignored (h : s.ckState ∈ [1, 3, 6]) : s.ckStart = s :=
  if_pos (by simpa using h)

theorem ckQuiesce_ignored (h : s.ckState ∈ [1, 2, 3, 6]) : s.ckQuiesce = s :=
  if_pos (by simpa using h)

theorem ckQuiesce_idle (h : s.ckState = 0) : s.ckQuiesce = s.quiesce false :=
  if_neg (by simp [h])

/-- START (R23, R25). -/
theorem execCkctlStart_set (h0 : v.getLsbD 0 = true) (h3 : v.getLsbD 3 = false) : exec (.ckctlStart v) s = .next (s.ckctlStored v).ckStart :=
  congrArg Host.Outcome.next ((if_pos h0).trans (ckctlWrite_start h3 h0))

/-- QUIESCE (R23, R25). -/
theorem execCkctlQuiesce_set (h1 : v.getLsbD 1 = true) (h0 : v.getLsbD 0 = false) (h3 : v.getLsbD 3 = false) :
    exec (.ckctlQuiesce v) s = .next (s.ckctlStored v).ckQuiesce :=
  congrArg Host.Outcome.next ((if_pos h1).trans (ckctlWrite_quiesce h3 h0 h1))

/-- RESTORE (R25, R27). -/
theorem execCkctlRestore_accepted (h3 : v.getLsbD 3 = true) (hck : s.ckState = 0) (hreset : s.pkg.sinceReset = true) :
    exec (.ckctlRestore v) s = .next (s.ckctlStored v).ckRestore :=
  congrArg Host.Outcome.next ((if_pos h3).trans (ckctlWrite_restore h3 hck hreset))
end

/-! ## The end of a quiesce and of a copy (R23, R24) -/
section
variable {s : State}

theorem execQuiesceDone_other (h : s.ckState ≠ 1) : exec .quiesceDone s = .next s :=
  congrArg Host.Outcome.next (if_pos h)

theorem execQuiesceDone_still (h : s.ckState = 1) (hstill : Still s) (hcopies : s.copiesDone = true) :
    exec .quiesceDone s = .next (if s.pkg.copyAfter then s.beginCopy else s.setCk 2 0) := by
  refine congrArg Host.Outcome.next ((if_neg (by simp [h])).trans ?_)
  dsimp only
  rw [holdStep_still hstill, if_neg (by simp [allHeld_still hstill, hcopies])]

theorem kept_poisonBlock {c : Bool} {r : Kept} {src : State} {a n : Nat} (hs : s.kept c = r) : (s.poisonBlock src a n).kept c = r := by
  refine kept_foldl (fun t j ht => ?_) hs
  split
  · exact kept_ite ht ht
  · exact ht

/-- The copy of the blocks and of the header changes memory and poison only, and the list of images. -/
theorem kept_copyOut {c : Bool} {r : Kept} (hs : s.kept c = r) : s.copyOut.kept c = r := by
  have himages {t : State} {l : List Saved} {n : Nat} (ht : t.kept c = r) : ({ t with saved := l, fresh := n } : State).kept c = r := ht
  have hpoison {t : State} {l : List Nat} (ht : t.kept c = r) : ({ t with poison := l } : State).kept c = r := ht
  unfold State.copyOut
  dsimp only
  refine himages ?_
  refine kept_foldl (fun _ _ ht => ?_) ?_
  · exact kept_store ht
  · refine kept_store ?_
    refine kept_foldl (fun _ _ ht => ?_) hs
    exact kept_poisonBlock (kept_store (hpoison ht))

theorem extract_status {n : Nat} {x : BitVec n} {status state : BitVec 4} : (x ++ status ++ state).toNat / 16 % 16 = status.toNat := by
  have hword : (x ++ status ++ state).extractLsb' 4 4 = status :=
    (extract_append_high _ _ _ _ (by decide)).trans ((extract_append_low _ _ _ _ (by decide)).trans (extract_whole _))
  rw [← congrArg BitVec.toNat hword, BitVec.extractLsb'_toNat, Nat.shiftRight_eq_div_pow]

theorem status_setCk {st status : Nat} : (s.setCk st status).pkg.ckstat.toNat / 16 % 16 = status % 16 :=
  extract_status.trans (BitVec.toNat_ofNat _ _)

/-- At the end of a copy only CKSTAT differs among the registers. -/
theorem copyDone_eq : ∃ (u : State) (x : BitVec 56), u.kept false = s.kept false ∧
    s.copyDone = { u with pkg := { u.pkg with ckstat := x ++ (if s.poison.any fun a => a < 2 ^ 80 then 3#4 else 0#4) ++ 4#4 } } := by
  rw [State.copyDone]
  have hkept : s.copyOut.kept false = s.kept false := kept_copyOut rfl
  generalize s.copyOut = u at hkept ⊢
  exact ⟨u, _, hkept, rfl⟩

theorem copyDone_frame : s.copyDone.ckState = 4 ∧
    s.copyDone.pkg.ckstat.toNat / 16 % 16 = if ∃ a ∈ s.poison, a < 2 ^ 80 then 3 else 0 := by
  obtain ⟨u, x, -, hdone⟩ := copyDone_eq (s := s)
  have hword := congrArg (fun t => t.pkg.ckstat) hdone
  dsimp only at hword
  have hbad : (s.poison.any fun a => a < 2 ^ 80) = true ↔ ∃ a ∈ s.poison, a < 2 ^ 80 := by
    simp only [List.any_eq_true, decide_eq_true_eq]
  refine ⟨?_, ?_⟩
  · rw [State.ckState, hword, extract_append_low _ _ _ _ (by decide)]
    rfl
  · rw [hword, extract_status]
    by_cases h : ∃ a ∈ s.poison, a < 2 ^ 80
    · rw [if_pos h, if_pos (hbad.2 h)]
      rfl
    · rw [if_neg h, if_neg (mt hbad.1 h)]
      rfl

theorem resetHeld_copyDone : s.copyDone.pkg.resetHeld = s.pkg.resetHeld := by
  obtain ⟨u, x, hkept, hdone⟩ := copyDone_eq (s := s)
  rw [hdone]
  exact congrArg (fun k => k.pkg.resetHeld) hkept

theorem execCheckpointCopyDone_other (h : s.ckState ≠ 3) : exec .checkpointCopyDone s = .next s :=
  congrArg Host.Outcome.next (if_neg h)

theorem execCheckpointCopyDone_copying (h : s.ckState = 3) (hheld : s.pkg.resetHeld = false) :
    exec .checkpointCopyDone s = .next s.copyDone :=
  congrArg Host.Outcome.next ((if_pos h).trans (heldReset_of_not_held (resetHeld_copyDone.trans hheld)))
end

/-! ## Restore (R27) -/
section
variable {s u : State} {st v : Nat}

/-- A restore fails with BAD_IMAGE or MODULE_FAILED. -/
theorem status_of_restoreFails (h : s.restoreFails = some st) : st = 4 ∨ st = 2 := by
  unfold State.restoreFails at h
  generalize List.range ckBlocks = blocks at h
  dsimp only at h
  split at h
  · simp_all
  · split at h
    · simp_all
    · split at h
      · simp_all
      · split at h
        · simp_all
        · cases h

/-- Where every check holds, the image names a control state. -/
theorem savedAt_of_restoreFails (h : s.restoreFails = none) : ∃ x, s.savedAt (farCell (s.farMods.headD 0) s.ckBase) = some x := by
  unfold State.restoreFails at h
  generalize List.range ckBlocks = blocks at h
  dsimp only at h
  split at h
  · cases h
  · next low mods hmods =>
    rw [hmods, List.headD_cons]
    split at h
    · cases h
    · split at h
      · cases h
      · split at h
        · cases h
        · next hblocks =>
          exact Option.ne_none_iff_exists'.1 (by simpa using (not_or.1 hblocks).2)

theorem swc_setSwc : (s.setSwc v).swc = v := by
  unfold State.setSwc
  refine List.foldlRecOn (motive := fun t : State => t.swc = v) _ _ rfl fun t ht d _ => ?_
  exact (swc_setNi _ _ _).trans ht

theorem resumeAll_frame : s.resumeAll.swc = s.swc ∧ s.resumeAll.starter.stopped = false := by
  have hkept := kept_resumeAll (s := s) (c := false)
  exact ⟨congrArg Kept.swc hkept, congrArg Kept.stopped hkept⟩

/-- DONE, with the time that the restore took. -/
def State.restoreEnds (s : State) (micros status : Nat) : State :=
  let t := s.setCk 4 status
  { t with pkg := { t.pkg with ckstat := BitVec.ofNat 32 micros ++ t.pkg.ckstat.extractLsb' 0 32, writeBack := false } }

theorem swc_restoreEnds {micros status : Nat} : (s.restoreEnds micros status).swc = s.swc := rfl

theorem starter_restoreEnds {micros status : Nat} : (s.restoreEnds micros status).starter = s.starter := rfl

theorem ckState_restoreEnds {micros status : Nat} : (s.restoreEnds micros status).ckState = 4 := by
  have hlow : (s.restoreEnds micros status).pkg.ckstat.extractLsb' 0 4 = (s.setCk 4 status).pkg.ckstat.extractLsb' 0 4 :=
    (extract_append_low _ _ _ _ (by decide)).trans (BitVec.extractLsb'_extractLsb'_of_le (by decide))
  have hck : (s.setCk 4 status).ckState = 4 := ckState_setCk
  rw [State.ckState, hlow]
  exact hck

theorem execRestoreDone_other (h : s.ckState ≠ 6) : exec .restoreDone s = .next s :=
  congrArg Host.Outcome.next (if_pos h)

theorem execRestoreDone_fails (h : s.ckState = 6) (hfails : s.restoreFails = some st) : exec .restoreDone s = .next (s.setCk 5 st) := by
  refine congrArg Host.Outcome.next ((if_neg (by simp [h])).trans ((if_neg (by simp [hfails])).trans ?_))
  rw [hfails]

theorem execRestoreDone_checked (h : s.ckState = 6) (hfails : s.restoreFails = none) (hback : s.pkg.writeBack = false) :
    exec .restoreDone s = .next { s with pkg := { s.pkg with writeBack := true, copyStart := s.swcAt bDie } } :=
  congrArg Host.Outcome.next ((if_neg (by simp [h])).trans (if_pos (by simp [hfails, hback])))

theorem execRestoreDone_written (h : s.ckState = 6) (hfails : s.restoreFails = none) (hback : s.pkg.writeBack = true) :
    ∃ (u : State) (micros status : Nat), exec .restoreDone s =
      .next (((u.setSwc (s.ckField (farCell (s.farMods.headD 0) s.ckBase) 0x10 8 + 1)).setReady 57 true).resumeAll.restoreEnds micros status) := by
  obtain ⟨x, hx⟩ := savedAt_of_restoreFails hfails
  refine ⟨(s.copyIn s.ckBase (modsOf (s.ckField (farCell (s.farMods.headD 0) s.ckBase) 0x30 4))).loadSaved x, s.ckMicros,
    if s.ckField (farCell (s.farMods.headD 0) s.ckBase) 0x34 4 = 3 then 3 else 0, ?_⟩
  refine congrArg Host.Outcome.next ((if_neg (by simp [h])).trans ((if_neg (by simp [hback])).trans ?_))
  rw [hfails]
  dsimp only
  rw [hx]
  rfl

/-- What RESTORE_DONE gives during a restore. -/
theorem execRestoreDone_restoring (h : s.ckState = 6) : ∃ t, exec .restoreDone s = .next t ∧
    match s.restoreFails, s.pkg.writeBack with
    | some st, _ => t.ckState = 5 ∧ t.pkg.ckstat.toNat / 16 % 16 = st ∧ t.mem = s.mem
    | none, false => t.ckState = 6 ∧ t.pkg.writeBack = true ∧ t.mem = s.mem ∧ t.pkg.copyStart = s.swcAt bDie
    | none, true => t.ckState = 4 ∧ t.starter.stopped = false ∧
        t.swc = memNat s.mem (farCell (s.farMods.headD 0) s.ckBase + 0x10) 8 + 1 := by
  cases hfails : s.restoreFails with
  | some st =>
    have hst := status_of_restoreFails hfails
    exact ⟨_, execRestoreDone_fails h hfails, ckState_setCk, status_setCk.trans (Nat.mod_eq_of_lt (by omega)), mem_setCk⟩
  | none =>
    cases hback : s.pkg.writeBack with
    | false => exact ⟨_, execRestoreDone_checked h hfails hback, h, rfl, rfl, rfl⟩
    | true =>
      obtain ⟨u, micros, status, hwritten⟩ := execRestoreDone_written h hfails hback
      refine ⟨_, hwritten, ckState_restoreEnds, ?_, ?_⟩
      · rw [starter_restoreEnds, resumeAll_frame.2]
      · rw [swc_restoreEnds, resumeAll_frame.1, swc_setReady, swc_setSwc, State.ckField, State.loadLE, readLE_eq_memNat]
end

/-- Settles O48: with nothing to save or to pause a request is only noted and its launch marked; CKCTL goes through the state that a write stores; a copy
and a restore keep the registers, by folds over blocks, batons, launches and collectives. -/
theorem preemptionAndCheckpointEvents : Obligations.PreemptionAndCheckpointEvents := by
  unfold Obligations.PreemptionAndCheckpointEvents
  intro s v op seq busy ck gives result still request word fits goes
  have hrequest (i : Instr) (pre : Bool) (hi : exec i s = .next (s.prectlWrite v)) (hop : op = 1 ∨ op = 2) (hpre : pre = (op == 1)) :
      request i pre :=
    ⟨fun hb => hi.trans (congrArg Host.Outcome.next (prectlWrite_busy (preBusy_iff.2 hb))),
      fun hb => prectl_request hi hop hpre (mt preBusy_iff.1 hb)⟩
  have hfits : (s.ckctlStored v).readyBit 56 = fits := readyBit_ckctlStored
  have hquiesce (b : Bool) : ((s.ckctlStored v).quiesce b).ckState = 1 := quiesce_frame.1
  refine ⟨fun hop => congrArg Host.Outcome.next (if_neg (mt (prectl_is (by decide)).1 hop)),
    fun hop => congrArg Host.Outcome.next (if_neg (mt (prectl_is (by decide)).1 hop)), fun hop => ?_, fun hop => ?_,
    fun hb => execPrestatDone_idle (mt preBusy_iff.1 hb), fun hb => ⟨fun hr hlow => ?_, fun hr hstill => ?_⟩,
    fun h => congrArg Host.Outcome.next (if_neg (Bool.eq_false_iff.1 h)), fun h => congrArg Host.Outcome.next (if_neg (Bool.eq_false_iff.1 h)),
    fun h => congrArg Host.Outcome.next (if_neg (Bool.eq_false_iff.1 h)),
    fun h0 h3 => ⟨fun hck => ?_, fun hck hno => ?_, fun hck hyes => ?_, fun hck hyes => ?_⟩,
    fun h1 h0 h3 => ⟨fun hck => ?_, fun hck => ?_⟩, fun h3 hck hreset => ?_,
    execQuiesceDone_other, fun hck hstill hcopies => ?_, execCheckpointCopyDone_other, fun hck hheld => ?_, execRestoreDone_other,
    execRestoreDone_restoring⟩
  · exact hrequest _ _ (congrArg Host.Outcome.next (if_pos ((prectl_is (by decide)).2 hop))) (.inl hop) (by rw [hop]; rfl)
  · exact hrequest _ _ (congrArg Host.Outcome.next (if_pos ((prectl_is (by decide)).2 hop))) (.inr hop) (by rw [hop]; rfl)
  · exact ⟨_, execPrestatDone_ends (preBusy_iff.2 hb) hr, prestat_requestDone hlow, rfl⟩
  · have hdone := prestat_requestDone (s := s) (by omega)
    rw [hr] at hdone
    exact ⟨_, execPrestatDone_still (preBusy_iff.2 hb) hstill, hdone, rfl⟩
  · exact ⟨_, (execCkctlStart_set h0 h3).trans (congrArg Host.Outcome.next (ckStart_ignored hck)), rfl, rfl⟩
  · exact ⟨_, (execCkctlStart_set h0 h3).trans (congrArg Host.Outcome.next (ckStart_of_no_region hck (hfits.trans hno))), ckState_setCk, rfl⟩
  · have hstored : (s.ckctlStored v).ckState = 2 := hck
    have hnot : (s.ckctlStored v).ckState ∉ [1, 3, 6] := by rw [hstored]; decide
    obtain ⟨hstate, -, hctl⟩ := beginCopy_frame (s := s.ckctlStored v)
    exact ⟨_, (execCkctlStart_set h0 h3).trans (congrArg Host.Outcome.next ((ckStart_of_region hnot (hfits.trans hyes)).trans (if_pos hck))),
      hstate, hctl⟩
  · have hstored : (s.ckctlStored v).ckState = 0 := hck
    have hnot : (s.ckctlStored v).ckState ∉ [1, 3, 6] := by rw [hstored]; decide
    have hidle : (s.ckctlStored v).ckState ≠ 2 := by rw [hstored]; decide
    exact ⟨_, (execCkctlStart_set h0 h3).trans (congrArg Host.Outcome.next ((ckStart_of_region hnot (hfits.trans hyes)).trans (if_neg hidle))),
      hquiesce true⟩
  · exact ⟨_, (execCkctlQuiesce_set h1 h0 h3).trans (congrArg Host.Outcome.next (ckQuiesce_ignored hck)), rfl, rfl⟩
  · exact ⟨_, (execCkctlQuiesce_set h1 h0 h3).trans (congrArg Host.Outcome.next (ckQuiesce_idle hck)), hquiesce false⟩
  · exact ⟨_, execCkctlRestore_accepted h3 hck hreset, ckRestore_accepted (s := s.ckctlStored v) hck hreset⟩
  · refine ⟨_, execQuiesceDone_still hck hstill hcopies, ?_⟩
    cases s.pkg.copyAfter with
    | true =>
      obtain ⟨u, -, hcopy, hmem⟩ := beginCopy_eq (s := s)
      refine ⟨beginCopy_frame.1, ?_⟩
      rw [if_pos rfl, hcopy, mem_setCk]
      refine hmem.trans ?_
      cases s.farMods <;> rfl
    | false => exact ⟨ckState_setCk, rfl⟩
  · exact ⟨_, execCheckpointCopyDone_copying hck hheld, copyDone_frame⟩
end Sys2Proof.Machine
end

section
/-!
PROOF of O45. Links: flits with slot returns, failed replays, SLOT_SYNC and training.
-/
namespace Sys2Proof.Machine

/-! ## Per-VC counters and links -/
section
variable {s : State} {a b c d : Nat} {l : Link}

@[simp] theorem vcGet_vcSet_same {α : Type} (v : Vector α 4) (i : Nat) (x : α) : vcGet (vcSet v i x) i = x :=
  Vector.getElem_set_self _

theorem isDie_lt (h : isDie d = true) : d < 32 := by
  simp only [isDie, isCDie, isFDie, xDie, bDie, Bool.or_eq_true, decide_eq_true_eq, beq_iff_eq] at h
  omega

theorem link_setLink_other (hd : d < 32) (hb : b < 32) (h : a ≠ c ∨ b ≠ d) :
    (s.setLink c d l).link a b = s.link a b :=
  kget_kset_other _ _ _ _ _ (by omega)

/-- Setting a link to what it is changes no link. -/
theorem link_setLink_self : (s.setLink a b (s.link a b)).link c d = s.link c d := by
  simp only [State.link, State.setLink, kget_kset]
  split
  next h => rw [h]
  next => rfl

/-- A link is up in both directions or in none. -/
theorem linkUp_eq (h : a ≠ b) : s.linkUp a b = ((s.link a b).up && (s.link b a).up) := by
  rw [State.linkUp, beq_false_of_ne h, Bool.false_or]
end

/-! ## A link that goes down (R30) -/
section
variable {s : State} {a b c d status : Nat} {p : Pkt} {o : List Pkt}

/-- A link is down in both directions, and no packet is on it. -/
def State.Severed (s : State) (a b : Nat) : Prop :=
  (s.link a b).up = false ∧ (s.link b a).up = false ∧
    ∀ e ∈ s.net, ¬(e.2.hopSrc = a ∧ e.2.hopDst = b) ∧ ¬(e.2.hopSrc = b ∧ e.2.hopDst = a)

/-- What a link keeps says nothing of whether a link is up. -/
theorem up_setLink_owed : ((s.setLink c d { s.link c d with owed := o }).link a b).up = (s.link a b).up := by
  simp only [State.link, State.setLink, kget_kset]
  split
  next h => rw [h]
  next => rfl

theorem severed_owe (h : s.Severed a b) : (s.owe p).Severed a b := by
  unfold State.owe
  dsimp only
  split
  · exact ⟨up_setLink_owed.trans h.1, up_setLink_owed.trans h.2.1, h.2.2⟩
  · exact h

/-- An answer that stays at a die crosses no link. -/
theorem severed_accept_local (hab : a ≠ b) (h : s.Severed a b) : (s.accept d d p).Severed a b := by
  obtain ⟨hto, hback, hnet⟩ := h
  refine ⟨hto, hback, fun e he => ?_⟩
  rcases mem_kset _ _ _ _ he with rfl | hold
  · exact ⟨fun ⟨hsrc, hdst⟩ => hab (hsrc.symm.trans hdst), fun ⟨hsrc, hdst⟩ => hab (hdst.symm.trans hsrc)⟩
  · exact hnet e hold

theorem severed_failPkt (hab : a ≠ b) (h : s.Severed a b) : (s.failPkt p status).Severed a b := by
  unfold State.failPkt
  dsimp only
  split
  · exact severed_accept_local hab h
  · split
    · split
      · exact severed_accept_local hab h
      · exact severed_accept_local hab h
    · split
      · exact severed_owe h
      · exact h

theorem severed_linkDown (ha : a < 32) (hb : b < 32) (hab : a ≠ b) : (s.linkDown a b).Severed a b := by
  refine List.foldlRecOn (motive := fun t : State => t.Severed a b) _ _ ⟨?_, ?_, fun e he => ?_⟩
    fun t ht p _ => severed_failPkt hab ht
  · exact congrArg Link.up ((link_setLink_other ha hb (.inl hab)).trans (link_setLink _ _ _ _))
  · exact congrArg Link.up (link_setLink _ _ _ _)
  · have hoff := (List.mem_filter.1 he).2
    simpa [imp_iff_not_or] using hoff

theorem onWire_linkDown : OnWire s (s.linkDown a b) :=
  .trans (t := { ((s.setLink a b { s.link a b with up := false }).setLink b a
    { (s.setLink a b { s.link a b with up := false }).link b a with up := false }) with net := _ }) rfl
    (.foldl fun _ _ => onWire_failPkt)
end

/-! ## The events of a link that is down (R30) -/
section
variable {s : State} {a b vc : Nat} {crc reply : Bool} {field : Option (BitVec 2)} {ret : Option (BitVec 16)}

/-- The two dies of a link number. -/
theorem linkDies (hb : b < 32) : (a * 32 + b) / 32 = a ∧ (a * 32 + b) % 32 = b := by omega

theorem execLinkFlit_down (hb : b < 32) (h : s.linkUp a b = false) : exec (.linkFlit (a * 32 + b) crc field ret) s = .next s := by
  obtain ⟨hdiv, hmod⟩ := linkDies (a := a) hb
  exact congrArg Host.Outcome.next (if_pos (by rw [hdiv, hmod, h]; simp))

theorem execSlotSyncMarker_down (hb : b < 32) (h : s.linkUp a b = false) : exec (.slotSyncMarker (a * 32 + b) vc) s = .next s := by
  obtain ⟨hdiv, hmod⟩ := linkDies (a := a) hb
  exact congrArg Host.Outcome.next (if_pos (by rw [hdiv, hmod, h]; simp))

theorem execSlotSync_down (hb : b < 32) (h : s.linkUp a b = false) : exec (.slotSync (a * 32 + b) vc reply) s = .next s := by
  obtain ⟨hdiv, hmod⟩ := linkDies (a := a) hb
  exact congrArg Host.Outcome.next (if_pos (by rw [hdiv, hmod, h]; simp))

theorem execLinkRetrain_up (hb : b < 32) (h : s.linkUp a b = true) : exec (.linkRetrain (a * 32 + b) true) s = .next s := by
  obtain ⟨hdiv, hmod⟩ := linkDies (a := a) hb
  exact congrArg Host.Outcome.next (if_pos (by rw [hdiv, hmod, h]; simp))
end

/-! ## The events of a link that is up (R30, R35, R36) -/
section
variable {s : State} {a b vc : Nat} {field : Option (BitVec 2)} {ret : Option (BitVec 16)}
variable (ha : isDie a = true) (hb : isDie b = true) (hab : a ≠ b) (hup : s.linkUp a b = true)
include ha hb hab hup

/-- An event of a link between two dies that is up passes its guard. -/
theorem linkGuard : ¬(!isDie a || !isDie b || a == b || !s.linkUp a b) = true := by
  simp [ha, hb, hab, hup]

/-- A flit with a good CRC: the return goes to the sender of the reverse link. -/
theorem execLinkFlit_good : exec (.linkFlit (a * 32 + b) true field ret) s =
    .next ((s.setLink a b { s.link a b with fails := 0, nextVc := ((s.link a b).nextVc + 1) % 4 }).setLink b a
      ((s.link b a).slotReturn ((field.map BitVec.toNat).getD (s.link a b).nextVc)
        (ret.getD (vcGet (s.link b a).recvFreed (s.link a b).nextVc)))) := by
  obtain ⟨hdiv, hmod⟩ := linkDies (a := a) (isDie_lt hb)
  have hback {l : Link} : (s.setLink a b l).link b a = s.link b a := link_setLink_other (isDie_lt hb) (isDie_lt ha) (.inl hab.symm)
  rw [show exec (.linkFlit (a * 32 + b) true field ret) s = execLinkFlit (a * 32 + b) true field ret s from rfl, execLinkFlit]
  simp only [hdiv, hmod, if_neg (linkGuard ha hb hab hup), if_true, hback]

theorem execLinkFlit_bad : exec (.linkFlit (a * 32 + b) false field ret) s =
    .next (if 8 ≤ (s.link a b).fails then s.linkDown a b
      else s.setLink a b { s.link a b with fails := (s.link a b).fails + 1 }) := by
  obtain ⟨hdiv, hmod⟩ := linkDies (a := a) (isDie_lt hb)
  rw [show exec (.linkFlit (a * 32 + b) false field ret) s = execLinkFlit (a * 32 + b) false field ret s from rfl, execLinkFlit]
  simp only [hdiv, hmod, if_neg (linkGuard ha hb hab hup), Bool.false_eq_true, if_false]

theorem execSlotSyncMarker_up : exec (.slotSyncMarker (a * 32 + b) vc) s =
    .next (s.setLink a b { s.link a b with marker := vcSet (s.link a b).marker vc (some (vcGet (s.link a b).sent vc)) }) := by
  obtain ⟨hdiv, hmod⟩ := linkDies (a := a) (isDie_lt hb)
  rw [show exec (.slotSyncMarker (a * 32 + b) vc) s = execSlotSyncMarker (a * 32 + b) vc s from rfl, execSlotSyncMarker]
  simp only [hdiv, hmod, if_neg (linkGuard ha hb hab hup)]

/-- A marker at the receiver, with no more than 64 occupied slots. -/
theorem execSlotSync_marker {m : BitVec 16} (hm : vcGet (s.link a b).marker vc = some m)
    (ho : (m - vcGet (s.link a b).recvFreed vc).toNat ≤ 64) : exec (.slotSync (a * 32 + b) vc false) s =
    .next (s.setLink a b { s.link a b with
      marker := vcSet (s.link a b).marker vc none,
      reply := vcSet (s.link a b).reply vc (some (m, m - vcGet (s.link a b).recvFreed vc)) }) := by
  obtain ⟨hdiv, hmod⟩ := linkDies (a := a) (isDie_lt hb)
  rw [show exec (.slotSync (a * 32 + b) vc false) s = execSlotSync (a * 32 + b) vc false s from rfl, execSlotSync]
  simp only [hdiv, hmod, if_neg (linkGuard ha hb hab hup), Bool.false_eq_true, if_false, hm, if_pos ho]

/-- The reply of SLOT_SYNC at the sender. -/
theorem execSlotSync_reply {m o : BitVec 16} (h : vcGet (s.link a b).reply vc = some (m, o)) :
    exec (.slotSync (a * 32 + b) vc true) s =
    .next (s.setLink a b { s.link a b with
      freed := vcSet (s.link a b).freed vc (m - o), reply := vcSet (s.link a b).reply vc none }) := by
  obtain ⟨hdiv, hmod⟩ := linkDies (a := a) (isDie_lt hb)
  rw [show exec (.slotSync (a * 32 + b) vc true) s = execSlotSync (a * 32 + b) vc true s from rfl, execSlotSync]
  simp only [hdiv, hmod, if_neg (linkGuard ha hb hab hup), if_true, h]
end

/-! ## Training (R30; log entry 104) -/
section
variable {s : State} {a b : Nat} {q : Pkt}

/-- The two directions of a link trained, with what each keeps. -/
def State.trained (s : State) (a b : Nat) : State :=
  (s.setLink a b { Link.init with errors := (s.link a b).errors, owed := (s.link a b).owed }).setLink b a
    { Link.init with errors := (s.link b a).errors, owed := (s.link b a).owed }

theorem execLinkRetrain_trains (ha : isDie a = true) (hb : isDie b = true) (hab : a ≠ b) (hdown : s.linkUp a b = false)
    (hupA : s.dieUp a = true) (hupB : s.dieUp b = true) :
    exec (.linkRetrain (a * 32 + b) true) s = .next (((s.trained a b).sendOwed a b).sendOwed b a) := by
  obtain ⟨hdiv, hmod⟩ := linkDies (a := a) (isDie_lt hb)
  rw [show exec (.linkRetrain (a * 32 + b) true) s = execLinkRetrain (a * 32 + b) true s from rfl, execLinkRetrain]
  simp only [hdiv, hmod]
  exact congrArg Host.Outcome.next (if_neg (by simp [ha, hb, hab, hdown, hupA, hupB]))

theorem link_trained_to (ha : a < 32) (hb : b < 32) (hab : a ≠ b) :
    (s.trained a b).link a b = { Link.init with errors := (s.link a b).errors, owed := (s.link a b).owed } :=
  (link_setLink_other ha hb (.inl hab)).trans (link_setLink _ _ _ _)

theorem link_trained_back : (s.trained a b).link b a = { Link.init with errors := (s.link b a).errors, owed := (s.link b a).owed } :=
  link_setLink _ _ _ _

theorem linkUp_trained (ha : a < 32) (hb : b < 32) (hab : a ≠ b) : (s.trained a b).linkUp a b = true := by
  rw [linkUp_eq hab, link_trained_to ha hb hab, link_trained_back]
  rfl

/-- A link that has kept nothing sends nothing. -/
theorem sendOwed_of_nil (h : (s.link a b).owed = []) : s.sendOwed a b = s.setLink a b (s.link a b) := by
  have hsame : { s.link a b with owed := [] } = s.link a b := by rw [← h]
  rw [State.sendOwed]
  simp only [h, hsame, List.foldl_nil]

theorem link_sendOwed_of_nil {c d : Nat} (h : (s.link a b).owed = []) : (s.sendOwed a b).link c d = s.link c d := by
  rw [sendOwed_of_nil h, link_setLink_self]

theorem net_sendOwed_of_nil (h : (s.link a b).owed = []) : (s.sendOwed a b).net = s.net := by
  rw [sendOwed_of_nil h, net_setLink]

/-- One kept packet is accepted again on its link. -/
theorem sendOwed_of_one (hab : a ≠ b) (h : (s.link a b).owed = [q]) (hsrc : epDie q.src = a) (hdst : epDie q.dst = b)
    (hep : isEp q.dst = true) (hpkg : q.dstPkg = 0) (hdie : s.dieUp b = true) (hlink : s.linkUp a b = true) :
    s.sendOwed a b = (s.setLink a b { s.link a b with owed := [] }).accept a b q := by
  have hlink' : (s.setLink a b { s.link a b with owed := [] }).linkUp a b = true := by
    rw [linkUp_eq hab, up_setLink_owed, up_setLink_owed, ← linkUp_eq hab, hlink]
  rw [State.sendOwed]
  simp only [h, List.foldl_cons, List.foldl_nil, State.send, hsrc]
  rw [send_accepts _ _ _ hpkg hep (by rw [hdst]; exact hdie) (by rw [hdst]; exact hlink'), hdst]

/-- Training with nothing kept leaves both directions as new, with their errors counted. -/
theorem link_retrained (ha : a < 32) (hb : b < 32) (hab : a ≠ b) (hto : (s.link a b).owed = []) (hback : (s.link b a).owed = []) :
    let t := ((s.trained a b).sendOwed a b).sendOwed b a
    t.linkUp a b = true ∧ t.link a b = { Link.init with errors := (s.link a b).errors } ∧
      t.link b a = { Link.init with errors := (s.link b a).errors } := by
  have hto' : ((s.trained a b).link a b).owed = [] := by rw [link_trained_to ha hb hab, hto]
  have hback' : (((s.trained a b).sendOwed a b).link b a).owed = [] := by rw [link_sendOwed_of_nil hto', link_trained_back, hback]
  have hlink {c d : Nat} : (((s.trained a b).sendOwed a b).sendOwed b a).link c d = (s.trained a b).link c d :=
    (link_sendOwed_of_nil hback').trans (link_sendOwed_of_nil hto')
  refine ⟨?_, ?_, ?_⟩
  · rw [linkUp_eq hab, hlink, hlink, ← linkUp_eq hab, linkUp_trained ha hb hab]
  · rw [hlink, link_trained_to ha hb hab, hto]
    rfl
  · rw [hlink, link_trained_back, hback]
    rfl

/-- Training with one packet kept sends it again. -/
theorem inFlight_retrained (ha : a < 32) (hb : b < 32) (hab : a ≠ b) (hto : (s.link a b).owed = [q]) (hback : (s.link b a).owed = [])
    (hsrc : epDie q.src = a) (hdst : epDie q.dst = b) (hep : isEp q.dst = true) (hpkg : q.dstPkg = 0) (hdie : s.dieUp b = true) :
    let t := ((s.trained a b).sendOwed a b).sendOwed b a
    t.linkUp a b = true ∧ (t.link a b).owed = [] ∧ t.inFlight fun x => x = { q.sealed with hopSrc := a, hopDst := b } := by
  have hup := linkUp_trained (s := s) ha hb hab
  have hto' : ((s.trained a b).link a b).owed = [q] := by rw [link_trained_to ha hb hab, hto]
  have hsent := sendOwed_of_one hab hto' hsrc hdst hep hpkg hdie hup
  have hlink {c d : Nat} : ((s.trained a b).sendOwed a b).link c d =
      ((s.trained a b).setLink a b { (s.trained a b).link a b with owed := [] }).link c d := by rw [hsent]; rfl
  have hback' : (((s.trained a b).sendOwed a b).link b a).owed = [] := by
    rw [hlink, link_setLink_other hb ha (.inl hab.symm), link_trained_back, hback]
  refine ⟨?_, ?_, ?_⟩
  · rw [linkUp_eq hab, link_sendOwed_of_nil hback', link_sendOwed_of_nil hback', hlink, hlink, up_setLink_owed, up_setLink_owed,
      ← linkUp_eq hab, hup]
  · rw [link_sendOwed_of_nil hback', hlink, link_setLink]
  · rw [State.inFlight, net_sendOwed_of_nil hback', hsent]
    exact accept_inFlight _ a b q (fun x => x = { q.sealed with hopSrc := a, hopDst := b }) rfl

theorem retrained_frame : let t := ((s.trained a b).sendOwed a b).sendOwed b a
    t.mem = s.mem ∧ t.slots = s.slots :=
  ⟨mem_sendOwed.trans mem_sendOwed, onWire_sendOwed.slots.trans onWire_sendOwed.slots⟩
end

/-! ## Slot returns (R35, R36) -/
section
variable {l : Link} {vc : Nat} {f : BitVec 16}

theorem slotReturn_plausible (h : (vcGet l.sent vc - f).toNat ≤ 64) : l.slotReturn vc f = { l with freed := vcSet l.freed vc f } :=
  if_pos h

theorem slotReturn_implausible (h : 64 < (vcGet l.sent vc - f).toNat) : l.slotReturn vc f = { l with errors := l.errors + 1 } :=
  if_neg (Nat.not_le.2 h)
end

/-- Settles O45: what each event makes of a link that is up is one equation; a link that goes down is severed, which the failing of its packets keeps;
training sends what was kept. -/
theorem linkEvents : Obligations.LinkEvents := by
  unfold Obligations.LinkEvents
  intro s a b vc field ret ha hb hab _ link l back F v gives
  have hltA := isDie_lt ha
  have hltB := isDie_lt hb
  refine ⟨fun hup => ⟨⟨fun hplausible => ?_, fun himplausible => ?_⟩, fun hfew => ?_, fun hmany => ?_, ?_, fun m hm ho => ?_,
    fun m o hr => ?_, execLinkRetrain_up hltB hup⟩,
    fun hdown => ⟨fun _ => execLinkFlit_down hltB hdown, execSlotSyncMarker_down hltB hdown, fun _ => execSlotSync_down hltB hdown, rfl,
      fun hupA hupB => ⟨fun hto hback => ?_, fun q hto hback hsrc hdst hep hpkg => ?_⟩⟩⟩
  · refine ⟨_, execLinkFlit_good ha hb hab hup, rfl, rfl, (link_setLink_other hltA hltB (.inl hab)).trans (link_setLink _ _ _ _), ?_⟩
    rw [link_setLink, slotReturn_plausible hplausible]
    exact ⟨vcGet_vcSet_same _ _ _, rfl⟩
  · refine ⟨_, execLinkFlit_good ha hb hab hup, rfl, rfl, (link_setLink_other hltA hltB (.inl hab)).trans (link_setLink _ _ _ _), ?_⟩
    rw [link_setLink, slotReturn_implausible himplausible]
  · refine ⟨_, (execLinkFlit_bad ha hb hab hup).trans (congrArg Host.Outcome.next (if_neg (Nat.not_le.2 hfew))), rfl, rfl,
      link_setLink _ _ _ _, link_setLink_other hltB hltA (.inl hab.symm)⟩
  · obtain ⟨hto, hback, hnet⟩ := severed_linkDown (s := s) hltA hltB hab
    refine ⟨_, (execLinkFlit_bad ha hb hab hup).trans (congrArg Host.Outcome.next (if_pos hmany)), mem_linkDown, onWire_linkDown.slots, ?_, ?_, hnet⟩
    · rw [linkUp_eq hab, hto, Bool.false_and]
    · rw [linkUp_eq hab.symm, hback, Bool.false_and]
  · refine ⟨_, execSlotSyncMarker_up ha hb hab hup, rfl, rfl, ?_⟩
    dsimp only
    rw [link_setLink, vcGet_vcSet_same]
  · refine ⟨_, execSlotSync_marker ha hb hab hup hm ho, rfl, rfl, ?_⟩
    dsimp only
    rw [link_setLink]
    exact ⟨vcGet_vcSet_same _ _ _, vcGet_vcSet_same _ _ _⟩
  · refine ⟨_, execSlotSync_reply ha hb hab hup hr, rfl, rfl, ?_⟩
    dsimp only
    rw [link_setLink]
    exact ⟨vcGet_vcSet_same _ _ _, vcGet_vcSet_same _ _ _⟩
  · obtain ⟨hmem, hslots⟩ := retrained_frame (s := s) (a := a) (b := b)
    exact ⟨_, execLinkRetrain_trains ha hb hab hdown hupA hupB, hmem, hslots, link_retrained hltA hltB hab hto hback⟩
  · obtain ⟨hmem, hslots⟩ := retrained_frame (s := s) (a := a) (b := b)
    obtain ⟨hup, howed, x, hx, hsent⟩ := inFlight_retrained hltA hltB hab hto hback hsrc hdst hep hpkg hupB
    refine ⟨_, execLinkRetrain_trains ha hb hab hdown hupA hupB, hmem, hslots, hup, howed, x, hx, ?_⟩
    rw [hsent]
    exact ⟨rfl, rfl, rfl, rfl, rfl, rfl, rfl⟩
end Sys2Proof.Machine
end

section
/-!
REFUTATION of O46. The clause of SWC_SYNC fails for a packet that carries a baton record (R220): the delivery takes the record's cell for one that the
packet reaches, and waits where its bank is gated (R156).
-/
namespace Sys2Proof.Machine

/-! ## SWC_SYNC (R41) -/
section
variable {s : State} {pid d : Nat} {p : Pkt} {key : Nat} {stamp : Dword} {cells : List Nat}

theorem nis_startWake {b : Nat × Nat × Nat} : (s.startWake b).nis = s.nis := by
  unfold State.startWake
  split <;> rfl

/-- Waiting for banks leaves the NIs, and with them the stopwatches, as they are. -/
theorem nis_stallKey : (s.stallKey key stamp cells).nis = s.nis :=
  List.foldlRecOn (motive := fun t : State => t.nis = s.nis) _ _ rfl fun t ht b _ => by
    split
    · exact ht
    · exact nis_startWake.trans ht

/-- A packet that has crossed its link changes the net and the link. -/
theorem onWire_takePkt : OnWire s (s.takePkt pid p) := by
  unfold State.takePkt
  split <;> rfl

theorem swc_takePkt : (s.takePkt pid p).swc = s.swc := by
  rw [show s.takePkt pid p = _ from onWire_takePkt]

/-- A die's correction set from the master count. -/
def State.corrected (s : State) (d : Nat) : State :=
  (s.setNi d { s.ni d with swcAdjust := s.swcTarget d - (s.swcAt d : Nat) - (s.ni d).swcPending }).syncBit

/-- An arriving SWC_SYNC sets the correction where the banks of its cells are granted, and waits for them otherwise. -/
theorem execSwcSync_arrived (h : s.arrived pid p) (hty : p.ty = .swcSync) : exec (.swcSync pid) s =
    .next (if s.granted (pktKey pid) (s.pktCells p.hopDst p) then
      ((s.takePkt pid p).corrected p.hopDst).unstallAt p.hopDst (pktKey pid)
    else s.stallPkt pid (s.pktCells p.hopDst p)) := by
  obtain ⟨hdeliver, hformed, -, hpkg, -⟩ := h
  have hown : s.foreign p.dstPkg = false := by
    rw [hpkg]
    rfl
  rw [show exec (.swcSync pid) s = execSwcSync pid s from rfl, execSwcSync, State.deliverPkt, hdeliver]
  simp only [hty, hown, hformed]
  cases s.granted (pktKey pid) (s.pktCells p.hopDst p) <;> rfl

/-- The correction, with what is being made, is the difference of the counts to within the error of the measured delay. -/
theorem correction_corrected : (((s.corrected d).ni d).swcAdjust + ((s.corrected d).ni d).swcPending - ((s.swc : Int) - s.swcAt d)).natAbs ≤ 1 := by
  have hni : (s.corrected d).ni d = { s.ni d with swcAdjust := s.swcTarget d - (s.swcAt d : Nat) - (s.ni d).swcPending } := ni_setNi _ _ _
  rw [hni, State.swcTarget]
  dsimp only
  omega

/-- The clause of SWC_SYNC as it holds: of a packet that carries no baton record. -/
theorem execSwcSync_of_no_record (h : s.arrived pid p) (hty : p.ty = .swcSync) (hrecord : p.enqueue = none) :
    ∃ t, exec (.swcSync pid) s = .next t ∧ t.mem = s.mem ∧ t.slots = s.slots ∧
      ((t.ni p.hopDst).swcAdjust + (t.ni p.hopDst).swcPending - ((s.swc : Int) - s.swcAt p.hopDst)).natAbs ≤ 1 := by
  have hcells : s.pktCells p.hopDst p = [] := by
    rw [State.pktCells, hrecord, hty]
    rfl
  have hidle : (((s.takePkt pid p).corrected p.hopDst).power p.hopDst).waiters = [] := by
    have hpower : ((s.takePkt pid p).corrected p.hopDst).power p.hopDst = (s.takePkt pid p).power p.hopDst := rfl
    obtain ⟨-, -, -, -, hwaiters⟩ := h
    rwa [hpower, State.power, onWire_takePkt.pkg]
  have hexec := execSwcSync_arrived h hty
  rw [hcells, granted_nil, if_pos rfl, unstallAt_of_no_waiters _ _ _ hidle] at hexec
  have hat : (s.takePkt pid p).swcAt p.hopDst = s.swcAt p.hopDst := by
    rw [State.swcAt, State.ni, onWire_takePkt.nis, swc_takePkt]
    rfl
  refine ⟨_, hexec, mem_takePkt, onWire_takePkt.slots, ?_⟩
  have hnear := correction_corrected (s := s.takePkt pid p) (d := p.hopDst)
  rwa [hat, swc_takePkt] at hnear
end

/-! ## The counterexample -/

/-- A SWC_SYNC from the B-die to die 0 that carries a baton record in the TCM of core 0. -/
def recordSync : Pkt :=
  { Pkt.blank with ty := .swcSync, va := tcmCell 0 0, src := mgmtEp, dst := niEp 0, hopSrc := bDie, hopDst := 0, enqueue := some 0 }

/-- That packet at die 0, which has a correction of 5 counts left though its count is the master's, and whose core 0 has its TCM gated. -/
def gatedSync : State :=
  { State.reset with
    net := [(1, recordSync)], nis := [(0, { Ni.init with swcAdjust := 5 })],
    pkg := { Pkg.init with ready := 1, power := [(0, { Power.init with off := [(2, 0)] })] } }

theorem gatedSync_arrived : gatedSync.arrived 1 recordSync := by decide

theorem gatedSync_waits : exec (.swcSync 1) gatedSync = .next (gatedSync.stallPkt 1 [tcmCell 0 0]) := by
  have hcells : gatedSync.pktCells recordSync.hopDst recordSync = [tcmCell 0 0] := rfl
  have hgated : gatedSync.granted (pktKey 1) [tcmCell 0 0] = false := by decide
  have hexec := execSwcSync_arrived gatedSync_arrived rfl
  rwa [hcells, hgated, if_neg Bool.false_ne_true] at hexec

/-- Refutes O46: a SWC_SYNC that carries a baton record whose bank is gated waits for the bank, and the die's correction stays 5 counts off. -/
theorem not_gatewayAndStopwatchEvents : ¬ Obligations.GatewayAndStopwatchEvents := by
  unfold Obligations.GatewayAndStopwatchEvents
  intro h
  obtain ⟨-, hsync, -⟩ := h gatedSync 1 0 0 0 0 recordSync
  obtain ⟨t, ht, -, -, hnear⟩ := hsync gatedSync_arrived rfl
  obtain rfl : gatedSync.stallPkt 1 [tcmCell 0 0] = t := Host.Outcome.next.inj (gatedSync_waits.symm.trans ht)
  have hni : (gatedSync.stallPkt 1 [tcmCell 0 0]).ni recordSync.hopDst = { Ni.init with swcAdjust := 5 } :=
    congrArg (kget Ni.init · 0) nis_stallKey
  rw [hni] at hnear
  exact absurd hnear (by decide)
end Sys2Proof.Machine
end

section
/-!
SUPPORT. What a home does with a request that it deals with at once (R59): delivery, the checks, and the answer. Shared by the proofs of the families of
packets and of translation.
-/
namespace Sys2Proof.Machine

/-! ## The answer (R30, R33) -/
section
variable {s t u : State} {p : Pkt} {ty : PType} {a b c : Dword} {data : List Byte} {d st i j k m pid : Nat}

/-- The packet with which a home answers a request. -/
def Pkt.answering (p : Pkt) (ty : PType) (a b c : Dword) (data : List Byte) : Pkt :=
  { Pkt.blank with ty := ty, va := p.va, track := p.track, src := p.dst, dst := p.src, dstPkg := p.srcPkg, srcRank := p.dstRank,
                   dstRank := p.srcRank, tag := p.tag, a := a, b := b, c := c, data := data }

theorem onWire_answer : OnWire s (s.answer d p ty a b c data) := onWire_sendFrom

/-- A source that can be answered receives the answer. -/
theorem replied_answer (hsrc : p.srcPkg = 0) (hway : s.canAnswer p) : (s.answer p.hopDst p ty a b c data).replied p ty a data := by
  obtain ⟨hep, hup, hlink⟩ := hway
  have h : s.answer p.hopDst p ty a b c data = s.accept p.hopDst (epDie p.src) (p.answering ty a b c data) :=
    send_accepts s p.hopDst (p.answering ty a b c data) hsrc hep hup hlink
  rw [h]
  exact accept_inFlight _ _ _ _ _ ⟨rfl, rfl, rfl, rfl, rfl, rfl⟩

/-- Whether a source can be answered is a matter of the dies and links. -/
theorem canAnswer_congr (hpkg : t.pkg = s.pkg) (hup : ∀ i j, (t.link i j).up = (s.link i j).up) (h : s.canAnswer p) : t.canAnswer p := by
  obtain ⟨hep, hdie, hlink⟩ := h
  refine ⟨hep, (dieUp_congr (by rw [hpkg]) (by rw [hpkg])).trans hdie, ?_⟩
  rwa [State.linkUp, hup, hup]

theorem replied_congr (hnet : t.net = s.net) (h : s.replied p ty a data) : t.replied p ty a data := by
  rw [State.replied, State.inFlight, hnet]
  exact h

/-- A refusal of a request that is not addressed to a rank names the request's own address. -/
theorem refuse_eq_answer (hrank : p.ranked = false) : s.refuse d p st p.va = s.answer d p .faultReply (BitVec.ofNat 64 st) 0 0 [] := by
  rw [State.refuse, Pkt.faultVa, hrank]
  rfl

theorem net_settleRecord : (s.settleRecord d p).net = s.net := by
  unfold State.settleRecord
  dsimp only
  split <;> rfl

theorem pkg_settleRecord : (s.settleRecord d p).pkg = s.pkg := by
  unfold State.settleRecord
  dsimp only
  split <;> rfl

/-! ## Delivery (R31, R156) -/

theorem up_takePkt : ((s.takePkt pid p).link i j).up = (s.link i j).up := by
  unfold State.takePkt
  dsimp only
  split
  · rfl
  · simp only [State.link, State.setLink, kget_kset]
    split
    next h => rw [h]
    next => rfl

theorem canAnswer_takePkt (h : s.canAnswer p) : (s.takePkt pid p).canAnswer p := canAnswer_congr onWire_takePkt.pkg (fun _ _ => up_takePkt) h

/-- A packet of one of the types that has arrived is dealt with where the banks of its cells are granted, and waits for them otherwise. -/
theorem deliverPkt_arrived {tys : List PType} {f : State → Pkt → State} (h : s.arrived pid p) (hty : tys.contains p.ty = true) :
    s.deliverPkt pid tys f =
      if s.granted (pktKey pid) (s.pktCells p.hopDst p) then (f (s.takePkt pid p) p).unstallAt p.hopDst (pktKey pid)
      else s.stallPkt pid (s.pktCells p.hopDst p) := by
  obtain ⟨hdeliver, hformed, -, hpkg, -⟩ := h
  have hown : s.foreign p.dstPkg = false := by
    rw [hpkg]
    rfl
  rw [State.deliverPkt, hdeliver]
  simp only [hty, hown, hformed]
  cases s.granted (pktKey pid) (s.pktCells p.hopDst p) <;> rfl

theorem deliverPkt_of_not_deliverable {tys : List PType} {f : State → Pkt → State} (h : s.canDeliver pid = none) : s.deliverPkt pid tys f = s := by
  rw [State.deliverPkt, h]

/-- What has been done with a packet leaves its die's banks to no waiter. -/
theorem unstallAt_of_pkg (h : s.arrived pid p) (hpkg : t.pkg = s.pkg) : t.unstallAt p.hopDst (pktKey pid) = t := by
  obtain ⟨-, -, -, -, hwaiters⟩ := h
  refine unstallAt_of_no_waiters _ _ _ ?_
  rwa [State.power, hpkg]
end

/-! ## What the checks of R59 read -/

/-- Two states agree on all that the checks of R59 read, but for what the NIs have cached. -/
structure SameChecks (s t : State) : Prop where
  mem : t.mem = s.mem
  pkg : t.pkg = s.pkg
  clusters : t.clusters = s.clusters
  trk : ∀ d, (t.ni d).trk = (s.ni d).trk
  acc : ∀ d, (t.ni d).acc = (s.ni d).acc
  accHeld : ∀ d, (t.ni d).accHeld = (s.ni d).accHeld
  freeze : ∀ d, (t.ni d).freeze = (s.ni d).freeze

theorem OnWire.sameChecks {s t : State} (h : OnWire s t) : SameChecks s t := by
  rw [h]
  exact ⟨rfl, rfl, rfl, fun _ => rfl, fun _ => rfl, fun _ => rfl, fun _ => rfl⟩

namespace SameChecks
variable {s t : State} (h : SameChecks s t)
include h

theorem trackEntry (d : Nat) (tk : BitVec 16) : t.trackEntry d tk = s.trackEntry d tk := by
  simp only [State.trackEntry, h.trk]

theorem readyBit (b : Nat) : t.readyBit b = s.readyBit b := by
  rw [State.readyBit, h.pkg, State.readyBit]

theorem dieUp (d : Nat) : t.dieUp d = s.dieUp d := dieUp_congr (by rw [h.pkg]) (by rw [h.pkg])

theorem accEntry (d i j : Nat) : t.accEntry d i j = s.accEntry d i j := by
  simp only [State.accEntry, h.acc, h.accHeld]

theorem ataperAdmits (d i : Nat) (tk : BitVec 16) (c : Nat) (op : MemOp) : t.ataperAdmits d i tk c op = s.ataperAdmits d i tk c op := by
  simp only [State.ataperAdmits, h.trackEntry, h.accEntry]

theorem frozenPkt (d : Nat) (p : Pkt) : t.frozenPkt d p = s.frozenPkt d p := by
  simp only [State.frozenPkt, State.frozenAt, h.freeze]

theorem pageCheck (d : Nat) (p : Pkt) (e : TcEntry) : t.pageCheck d p e = s.pageCheck d p e := by
  simp only [State.pageCheck, h.dieUp, h.accEntry, h.frozenPkt, h.readyBit]

theorem entry32 (c : Nat) : t.entry32 c = s.entry32 c := by
  rw [State.entry32, State.loadLE, h.mem, State.entry32, State.loadLE]

theorem hashedFind (d : Nat) (tk : BitVec 16) (ent : BitVec 128) (va : Nat) : t.hashedFind d tk ent va = s.hashedFind d tk ent va := by
  simp only [State.hashedFind, h.entry32]

theorem sv57Find (d va : Nat) (fuel table : Nat) : t.sv57Find d va fuel table = s.sv57Find d va fuel table := by
  induction fuel generalizing table with
  | zero => rfl
  | succ n ih =>
    simp only [State.sv57Find, State.load64, State.loadLE, h.mem, ih]
    rfl

theorem walk (d : Nat) (tk : BitVec 16) (ent : BitVec 128) (va : Nat) (store : Bool) : t.walk d tk ent va store = s.walk d tk ent va store := by
  simp only [State.walk, h.sv57Find, h.hashedFind, h.entry32]

theorem window (c w : Nat) : t.window c w = s.window c w := by
  simp only [State.window, State.cluster, h.clusters]

theorem engineSpad (c o n : Nat) (w : Bool) : t.engineSpad c o n w = s.engineSpad c o n w := by
  simp only [State.engineSpad, State.shadowCell, State.frontCell, h.window]

theorem apertureCells (d a n : Nat) (w : Bool) : t.apertureCells d a n w = s.apertureCells d a n w := by
  simp only [State.apertureCells, h.engineSpad]

theorem apertureCheck (d : Nat) (p : Pkt) (ent : BitVec 128) : t.apertureCheck d p ent = s.apertureCheck d p ent := by
  simp only [State.apertureCheck, h.apertureCells, h.accEntry, h.frozenPkt]

theorem onePage (d : Nat) (p : Pkt) (r : Option WalkRes) : t.onePage d p r = s.onePage d p r := by
  simp only [State.onePage, State.afterWalk, h.pageCheck]

/-- The checks of a request, where its walk has just ended or the caches are the same too. -/
theorem homeCheck {walked : Bool} (hc : walked = true ∨ ∀ d, (t.ni d).tcache = (s.ni d).tcache) (d : Nat) (p : Pkt) :
    t.homeCheck d p walked = s.homeCheck d p walked := by
  have htranslation : ∀ ent va, t.translation d p ent walked va = s.translation d p ent walked va := fun ent va => by
    rcases hc with rfl | hc
    · simp only [State.translation, h.walk, if_true]
    · simp only [State.translation, h.walk, State.tcHit, hc]
  have hglobal : ∀ ent, t.globalCheck d p ent walked = s.globalCheck d p ent walked := fun ent => by
    simp only [State.globalCheck, htranslation, h.onePage]
  have hhit : (walked || (t.tcHit d p.track p.va p.memOp.changes).isNone) = (walked || (s.tcHit d p.track p.va p.memOp.changes).isNone) := by
    rcases hc with rfl | hc
    · rfl
    · simp only [State.tcHit, hc]
  simp only [State.homeCheck, h.trackEntry, h.apertureCheck, h.readyBit, hglobal, hhit]
end SameChecks

end Sys2Proof.Machine
end

section
/-! SUPPORT. The banks of the cells that a request reaches are its home's (R50, R155), so that no wait at another die holds it up. -/
namespace Sys2Proof.Machine

/-- The cells that the checks give lie in banks of a die, or in none. -/
def BanksAt (d : Nat) (h : Homed) : Prop := ∀ rs, h = .ok rs → ∀ r ∈ rs, ∀ b, bankOf r.1 = some b → b.1 = d

theorem bankOf_hbmCell {d a : Nat} : bankOf (hbmCell d a) = none := by
  unfold bankOf hbmCell
  rw [if_neg (by omega), if_neg (by omega), if_neg (by omega)]

theorem bankOf_farCell {d a : Nat} : bankOf (farCell d a) = none := by
  unfold bankOf farCell
  rw [if_neg (by omega), if_neg (by omega), if_neg (by omega)]

theorem copyTcm_range {a : Nat} (h : addrClass a = .copyTcm) : 0x00F000000000 ≤ a ∧ a < 0x00F400000000 := by
  unfold addrClass at h
  split_ifs at h
  assumption

/-- A scratchpad's cells lie in its own bank. -/
theorem bankOf_spadCell {d cl o : Nat} (hd : d < 12) (hcl : cl < 24) (ho : o < 2 ^ 22) : bankOf (spadCell (d * 24 + cl) o) = some (d, 1, cl) := by
  have hcell : spadCell (d * 24 + cl) o = 0x00F800000000 + (d * 2 ^ 27 + cl * 2 ^ 22 + o) := by
    unfold spadCell
    omega
  rw [hcell]
  unfold bankOf
  rw [if_neg (by omega), if_pos (by omega), Nat.add_sub_cancel_left]
  dsimp only
  have h1 : (d * 2 ^ 27 + cl * 2 ^ 22 + o) / 2 ^ 27 = d := by omega
  have h2 : (d * 2 ^ 27 + cl * 2 ^ 22 + o) / 2 ^ 22 % 32 = cl := by omega
  rw [h1, h2]

section
variable {s : State} {d : Nat} {p : Pkt}

theorem banksAt_refuse {st : Nat} : BanksAt d (.refuse st) := fun _ h => nomatch h

theorem banksAt_ite {c : Prop} {_ : Decidable c} {x y : Homed} (hx : BanksAt d x) (hy : BanksAt d y) : BanksAt d (if c then x else y) := by
  split <;> assumption

theorem banksAt_join {x y : Homed} (hx : BanksAt d x) (hy : BanksAt d y) : BanksAt d (x.join y) := by
  intro rs h
  cases x with
  | ok a =>
    cases y with
    | ok b =>
      obtain rfl := Homed.ok.inj h
      exact fun r hr => (List.mem_append.1 hr).elim (hx a rfl r) (hy b rfl r)
    | _ => cases h
  | _ => cases h

theorem banksAt_pageCheck {e : TcEntry} : BanksAt d (s.pageCheck d p e) := by
  unfold State.pageCheck
  dsimp only
  iterate 6 refine banksAt_ite banksAt_refuse ?_
  intro rs h r hr b hb
  obtain rfl := Homed.ok.inj h
  obtain ⟨q, -, rfl⟩ := List.mem_map.1 hr
  dsimp only at hb
  split at hb
  · rw [bankOf_farCell] at hb
    cases hb
  · rw [bankOf_hbmCell] at hb
    cases hb

theorem banksAt_onePage {r : Option WalkRes} : BanksAt d (s.onePage d p r) := by
  unfold State.onePage State.afterWalk
  split
  · split
    · exact banksAt_pageCheck
    · exact banksAt_ite (fun _ h => nomatch h) fun _ h => nomatch h
    · exact banksAt_ite (fun _ h => nomatch h) fun _ h => nomatch h
    · exact fun _ h => nomatch h
    · exact banksAt_refuse
  · exact fun _ h => nomatch h

theorem banksAt_globalCheck {ent : BitVec 128} {walked : Bool} : BanksAt d (s.globalCheck d p ent walked) := by
  unfold State.globalCheck
  refine banksAt_ite banksAt_onePage ?_
  refine List.foldlRecOn (motive := BanksAt d) _ _ ?_ fun _ hx _ _ => banksAt_join hx banksAt_onePage
  intro rs h r hr
  obtain rfl := Homed.ok.inj h
  cases hr

/-- A scratchpad offset resolves within the scratchpad, through a window or not. -/
theorem bankOf_frontCell {cl o c : Nat} (hd : d < 12) (hcl : cl < 24) (ho : o < 2 ^ 22) (h : s.frontCell (d * 24 + cl) o = some c) :
    bankOf c = some (d, 1, cl) := by
  unfold State.frontCell at h
  split at h
  · exact Option.some.inj h ▸ bankOf_spadCell hd hcl ho
  · dsimp only at h
    split at h
    · exact Option.some.inj h ▸ bankOf_spadCell hd hcl (by omega)
    · cases h

theorem bankOf_shadowCell {cl o c : Nat} (hd : d < 12) (hcl : cl < 24) (ho : o < 2 ^ 22) (h : s.shadowCell (d * 24 + cl) o = some c) :
    bankOf c = some (d, 1, cl) := by
  unfold State.shadowCell at h
  split at h
  · exact Option.some.inj h ▸ bankOf_spadCell hd hcl ho
  · dsimp only at h
    split at h
    · exact Option.some.inj h ▸ bankOf_spadCell hd hcl (by omega)
    · cases h

theorem bank_engineSpad {cl o n : Nat} {w : Bool} {rs : Ranges} (hd : d < 12) (hcl : cl < 24) (ho : o < 2 ^ 22) (hn : o + n ≤ 2 ^ 22)
    (h : s.engineSpad (d * 24 + cl) o n w = some rs) {r : Nat × Nat} (hr : r ∈ rs) : bankOf r.1 = some (d, 1, cl) := by
  have hone : ∀ x < 2 ^ 22, ∀ c, (if w then s.shadowCell (d * 24 + cl) x else s.frontCell (d * 24 + cl) x) = some c →
      bankOf c = some (d, 1, cl) := fun x hx c hc => by
    split at hc
    · exact bankOf_shadowCell hd hcl hx hc
    · exact bankOf_frontCell hd hcl hx hc
  unfold State.engineSpad at h
  dsimp only at h
  split at h
  · obtain ⟨q, hq, rfl⟩ := Option.map_eq_some_iff.1 h
    obtain rfl := List.mem_singleton.1 hr
    split at hq
    · cases hq
    · next c hc =>
      split at hq
      · cases hq
      · exact Option.some.inj hq ▸ hone _ ho c hc
  · next hlong =>
    split at h
    · next a b ha hb =>
      obtain rfl := Option.some.inj h
      rcases List.mem_cons.1 hr with rfl | hr
      · split at ha
        · cases ha
        · next c hc =>
          split at ha
          · cases ha
          · exact Option.some.inj ha ▸ hone _ ho c hc
      · obtain rfl := List.mem_singleton.1 hr
        split at hb
        · cases hb
        · next c hc =>
          split at hb
          · cases hb
          · exact Option.some.inj hb ▸ hone _ (by omega) c hc
    · cases h

/-- The cells of an aperture at a die are in its banks (R50). -/
theorem bank_apertureCells {a n i : Nat} {w : Bool} {rs : Ranges} (h : s.apertureCells d a n w = some (i, rs)) {r : Nat × Nat} (hr : r ∈ rs)
    {b : Nat × Nat × Nat} (hb : bankOf r.1 = some b) : b.1 = d := by
  unfold State.apertureCells at h
  split at h
  · next hcls =>
    dsimp only at h
    split at h
    · next hin =>
      obtain ⟨-, hdie, -⟩ := hin
      obtain ⟨-, rfl⟩ := Prod.mk.inj (Option.some.inj h)
      obtain rfl := List.mem_singleton.1 hr
      unfold bankOf at hb
      dsimp only at hb
      rw [if_pos (copyTcm_range hcls)] at hb
      exact Option.some.inj hb ▸ hdie
    · cases h
  · dsimp only at h
    split at h
    · next hin =>
      obtain ⟨-, hcl, hc, hn⟩ := hin
      have hd : d < 12 := of_decide_eq_true hc
      obtain ⟨q, hq, hqr⟩ := Option.map_eq_some_iff.1 h
      obtain ⟨-, rfl⟩ := Prod.mk.inj hqr
      rw [bank_engineSpad hd hcl (Nat.mod_lt _ (by decide)) hn hq hr] at hb
      exact Option.some.inj hb ▸ rfl
    · cases h
  · cases h

theorem banksAt_apertureCheck {ent : BitVec 128} : BanksAt d (s.apertureCheck d p ent) := by
  unfold State.apertureCheck
  dsimp only
  iterate 3 refine banksAt_ite banksAt_refuse ?_
  intro rs h r hr b hb
  obtain rfl := Homed.ok.inj h
  obtain ⟨⟨i, q⟩, hq, hrq⟩ := List.mem_flatMap.1 hr
  obtain ⟨x, hx, hxq⟩ := List.mem_filterMap.1 hq
  obtain rfl : x = some (i, q) := hxq
  obtain ⟨y, -, hy⟩ := List.mem_map.1 hx
  exact bank_apertureCells hy hrq hb

theorem banksAt_homeCheck {walked : Bool} : BanksAt d (s.homeCheck d p walked) := by
  unfold State.homeCheck
  split
  · exact banksAt_refuse
  · split
    · exact banksAt_ite banksAt_refuse banksAt_globalCheck
    · exact banksAt_apertureCheck
    · exact banksAt_apertureCheck
    · exact banksAt_refuse

/-- A request that names memory reaches banks of its home alone. -/
theorem bank_pktCells (hrecord : p.enqueue = none) (hty : p.ty ∉ [.arrive, .copyDone]) {c : Nat} (hc : c ∈ s.pktCells d p) {b : Nat × Nat × Nat}
    (hb : bankOf c = some b) : b.1 = d := by
  simp only [List.mem_cons, List.not_mem_nil, or_false, not_or] at hty
  obtain ⟨harrive, hdone⟩ := hty
  simp only [State.pktCells, hrecord, Option.isSome_none, beq_eq_false_iff_ne.2 harrive, beq_eq_false_iff_ne.2 hdone, Bool.or_self, Bool.false_eq_true,
    if_false] at hc
  split at hc
  · cases hc
  · split at hc
    · next rs hrs =>
      obtain ⟨r, hr, rfl⟩ := List.mem_map.1 hc
      exact banksAt_homeCheck rs hrs r hr b hb
    · cases hc

/-- A hurdle lies in its cluster's bank (R225). -/
theorem bank_hurdle {h : Nat} (hcell : isHurdleCell h = true) (hdie : hurdlePcl h / 24 = d) {b : Nat × Nat × Nat} (hb : bankOf h = some b) : b.1 = d := by
  simp only [isHurdleCell, Bool.and_eq_true, decide_eq_true_eq] at hcell
  obtain ⟨⟨⟨⟨⟨hlo, hhi⟩, -⟩, -⟩, -⟩, hcl⟩ := hcell
  unfold bankOf at hb
  dsimp only at hb
  rw [if_neg (by omega), if_pos ⟨hlo, hhi⟩] at hb
  obtain rfl := Option.some.inj hb
  unfold hurdlePcl recPcl at hdie
  dsimp only at hdie ⊢
  omega

/-- A request that has arrived, whose banks are powered and its home's, is granted. -/
theorem granted_asked {pid : Nat} (h : s.asked pid p) (hbanks : ∀ c ∈ s.pktCells p.hopDst p, ∀ b, bankOf c = some b → b.1 = p.hopDst) :
    s.granted (pktKey pid) (s.pktCells p.hopDst p) = true := by
  obtain ⟨⟨-, -, -, -, hwaiters⟩, -, -, -, hready, -⟩ := h
  refine granted_of_no_waiters _ _ _ fun b hb => ⟨List.all_eq_true.1 hready b hb, ?_⟩
  obtain ⟨c, hc, hcb⟩ := List.mem_filterMap.1 hb
  rwa [hbanks c hc b hcb]
end

end Sys2Proof.Machine
end

section
/-!
PROOF of O42. A request whose home deals with it at once is answered; what is done before the answer is said of each kind of request, in memory.
-/
namespace Sys2Proof.Machine

/-! ## Bytes and numbers (R1) -/

theorem bytesLE_succ (n v : Nat) : bytesLE (n + 1) v = BitVec.ofNat 8 v :: bytesLE n (v / 256) := by
  rw [bytesLE_eq_map, List.range_succ_eq_map, List.map_cons, List.map_map, bytesLE_eq_map]
  refine congrArg₂ _ (by simp) (List.map_congr_left fun i _ => ?_)
  rw [Function.comp_apply, Nat.pow_succ', Nat.div_div_eq_div_mul]

theorem length_bytesLE (n v : Nat) : (bytesLE n v).length = n := by
  simp [bytesLE]

theorem natLE_bytesLE (n v : Nat) : natLE (bytesLE n v) = v % 256 ^ n := by
  induction n generalizing v with
  | zero => simp [bytesLE, natLE, Nat.mod_one]
  | succ n ih => rw [pow_succ' 256 n, Nat.mod_mul, bytesLE_succ, natLE, ih, BitVec.toNat_ofNat]

theorem bytesLE_natLE (l : List Byte) : bytesLE l.length (natLE l) = l := by
  induction l with
  | nil => rfl
  | cons b r ih =>
    have hlow : BitVec.ofNat 8 (b.toNat + 256 * natLE r) = b := by bv_omega
    have hhigh : (b.toNat + 256 * natLE r) / 256 = natLE r := by omega
    rw [List.length_cons, bytesLE_succ, natLE, hhigh, ih, hlow]

theorem readBytes_eq_map (m : Memory) (c n : Nat) : readBytes m c n = (List.range n).map fun i => readByte m (c + i) := by
  induction n generalizing c with
  | zero => rfl
  | succ n ih =>
    rw [readBytes, ih, List.range_succ_eq_map, List.map_cons, List.map_map]
    refine congrArg _ (List.map_congr_left fun i _ => ?_)
    rw [Function.comp_apply, Nat.succ_eq_add_one, Nat.add_right_comm, Nat.add_assoc]

/-- The bytes of a value that has been read are those that were read. -/
theorem bytesLE_readLE (m : Memory) (c n : Nat) : bytesLE n (readLE m c n) = readBytes m c n := by
  have h := bytesLE_natLE (readBytes m c n)
  rwa [readBytes_length] at h

/-- A value that has been written is read again. -/
theorem readLE_writeBytes (m : Memory) (c n v : Nat) : readLE (writeBytes m c (bytesLE n v)) c n = v % 256 ^ n := by
  have h := readBytes_writeBytes_same m c (bytesLE n v)
  rw [length_bytesLE] at h
  rw [readLE, h, natLE_bytesLE]

theorem readLE_congr {m m' : Memory} {c n : Nat} (h : ∀ i < n, readByte m' (c + i) = readByte m (c + i)) : readLE m' c n = readLE m c n := by
  rw [readLE, readLE, readBytes_eq_map, readBytes_eq_map]
  exact congrArg natLE (List.map_congr_left fun i hi => h i (List.mem_range.1 hi))

/-! ## What performing a request leaves for its answer -/

/-- Only what a store and the bookkeeping of a hurdle touch differs: the management block and the links, by which the answer goes, are the same. -/
structure WayBack (s t : State) : Prop where
  pkg : t.pkg = s.pkg
  links : t.links = s.links

theorem WayBack.canAnswer {s t : State} {p : Pkt} (h : WayBack s t) (ha : s.canAnswer p) : t.canAnswer p :=
  canAnswer_congr h.pkg (fun i j => by rw [State.link, h.links, State.link]) ha

section
variable {s u : State} {p : Pkt} {i : Instr} {f : State → Pkt → State} {ty : PType} {a b c : Dword} {data : List Byte} {pid d n st cell : Nat}

/-- An event of a packet that is dealt with and answered. -/
theorem exec_answered (h : s.asked pid p) (hi : exec i s = .next (s.deliverPkt pid [p.ty] f))
    (hbanks : ∀ c ∈ s.pktCells p.hopDst p, ∀ b, bankOf c = some b → b.1 = p.hopDst) (hu : WayBack (s.takePkt pid p) u)
    (hf : (f (s.takePkt pid p) p).net = (u.answer p.hopDst p ty a b c data).net) (hpkg : (f (s.takePkt pid p) p).pkg = u.pkg) :
    ∃ t, exec i s = .next t ∧ t = f (s.takePkt pid p) p ∧ t.replied p ty a data := by
  have hgranted := granted_asked h hbanks
  obtain ⟨harrived, -, -, -, -, hway⟩ := h
  obtain ⟨-, -, hsrc, -, -⟩ := id harrived
  have hdone : (f (s.takePkt pid p) p).unstallAt p.hopDst (pktKey pid) = f (s.takePkt pid p) p :=
    unstallAt_of_pkg harrived (hpkg.trans (hu.pkg.trans onWire_takePkt.pkg))
  rw [deliverPkt_arrived harrived (by simp), if_pos hgranted, hdone] at hi
  exact ⟨_, hi, rfl, replied_congr hf (replied_answer hsrc (hu.canAnswer (canAnswer_takePkt hway)))⟩

/-- A request that its home performs at once: what it does before the answer, `u`, shows in memory. -/
theorem exec_homeRun (h : s.asked pid p) (hline : s.lineHeld p.hopDst p = false) (hi : exec i s = .next (s.deliverPkt pid [p.ty] f))
    (hty : p.ty ∉ [.arrive, .copyDone]) (hf : f (s.takePkt pid p) p = (s.takePkt pid p).homePkt p.hopDst p)
    (hrun : (s.takePkt pid p).homeRun p.hopDst p false = (u.answer p.hopDst p ty a b c data).settleRecord p.hopDst p)
    (hu : WayBack (s.takePkt pid p) u) :
    ∃ t, exec i s = .next t ∧ t.mem = u.mem ∧ t.replied p ty a data := by
  obtain ⟨-, hrank, hrecord, hblock, -, -⟩ := id h
  have hheld : (s.takePkt pid p).lineHeld p.hopDst p = false := by
    rw [show s.takePkt pid p = _ from onWire_takePkt]
    exact hline
  have hdone : f (s.takePkt pid p) p = (u.answer p.hopDst p ty a b c data).settleRecord p.hopDst p := by
    rw [hf, State.homePkt, State.rankHere, hrank, hrecord]
    simp only [hblock, State.homeEnter, hheld, hrun, Bool.not_false, Bool.true_or, Bool.not_true, Bool.false_eq_true, if_false]
  have hnet : (f (s.takePkt pid p) p).net = (u.answer p.hopDst p ty a b c data).net := by
    rw [hdone, net_settleRecord]
  have hpkg : (f (s.takePkt pid p) p).pkg = u.pkg := by
    rw [hdone, pkg_settleRecord, onWire_answer.pkg]
  obtain ⟨t, ht, rfl, hreplied⟩ := exec_answered h hi (fun c hc b => bank_pktCells hrecord hty hc) hu hnet hpkg
  refine ⟨_, ht, ?_, hreplied⟩
  rw [hdone, mem_settleRecord, mem_answer]

theorem homeCheck_takePkt : (s.takePkt pid p).homeCheck d p false = s.homeCheck d p false :=
  (onWire_takePkt (s := s)).sameChecks.homeCheck (.inr fun d => by rw [State.ni, onWire_takePkt.nis, State.ni]) d p

/-- The home run of a request that passes every check. -/
theorem homeRun_ok {rs : Ranges} (hcheck : s.homeCheck p.hopDst p false = .ok rs)
    (hperform : (s.takePkt pid p).perform p.hopDst p rs = u.answer p.hopDst p ty a b c data) :
    (s.takePkt pid p).homeRun p.hopDst p false = (u.answer p.hopDst p ty a b c data).settleRecord p.hopDst p := by
  rw [State.homeRun, homeCheck_takePkt, hcheck]
  exact congrArg (State.settleRecord · p.hopDst p) hperform

/-- A request of one page that the check refuses names its own address. -/
theorem homeRun_refused (hrank : p.ranked = false) (hcheck : s.homeCheck p.hopDst p false = .refuse st)
    (hpage : ∀ r ∈ p.elems, r.1 / 4096 = p.va / 4096) : (s.takePkt pid p).homeRun p.hopDst p false =
      ((s.takePkt pid p).answer p.hopDst p .faultReply (BitVec.ofNat 64 st) 0 0 []).settleRecord p.hopDst p := by
  have hva : (s.takePkt pid p).failVa p.hopDst p false = p.va :=
    if_pos (List.all_eq_true.2 fun r hr => beq_iff_eq.2 (hpage r hr))
  rw [State.homeRun, homeCheck_takePkt, hcheck]
  simp only [hva, refuse_eq_answer hrank]

/-! ## Performing a request (R59 step 6) -/

theorem poisonedRanges_one : s.poisonedRanges [(cell, n)] = s.poisoned cell n := by
  rw [State.poisonedRanges, List.any_cons, List.any_nil, Bool.or_false]

theorem poisoned_takePkt : (s.takePkt pid p).poisoned cell n = s.poisoned cell n := by
  rw [show s.takePkt pid p = _ from onWire_takePkt]
  rfl

theorem perform_read (hty : p.ty = .read) (hclean : s.poisoned cell n = false) : s.perform d p [(cell, n)] =
    s.answer d p .readReply 0 0 0 ((List.range n).map fun i => readByte s.mem (cell + i)) := by
  rw [State.perform, hty]
  simp only [poisonedRanges_one, hclean, Bool.false_eq_true, if_false, State.readRanges, List.flatMap_cons, List.flatMap_nil, List.append_nil,
    State.load, readBytes_eq_map]

theorem perform_amo (hty : p.ty = .amo) (hsrc : p.srcPkg = 0) (hop : p.amo ∉ [.lr, .sc]) (hclean : s.poisoned cell n = false) :
    s.perform d p [(cell, n)] =
      (s.storeLE (s.requester p) cell n (amoResult p.amo n (readLE s.mem cell n) p.a.toNat)).answer d p .readReply 0 0 0
        ((List.range n).map fun i => readByte s.mem (cell + i)) := by
  have hcell : s.amoCell (s.requester p) p.amo cell n p.a.toNat =
      (readLE s.mem cell n, s.storeLE (s.requester p) cell n (amoResult p.amo n (readLE s.mem cell n) p.a.toNat)) := by
    unfold State.amoCell
    split
    · next h => simp [h] at hop
    · next h => simp [h] at hop
    · rfl
  rw [State.perform, hty]
  simp only [poisonedRanges_one, hclean, hsrc, hcell, Bool.and_false, Bool.false_eq_true, if_false, if_true, bytesLE_readLE, readBytes_eq_map]

/-- The requests that write their data. -/
theorem perform_write (hty : p.ty ∈ [.write, .copyData, .mcastData, .chunk]) (hlen : p.data.length = n) (hpoison : p.poison = false) :
    ∃ who, s.perform d p [(cell, n)] = (s.store who cell p.data).answer d p .writeAck 0 0 0 [] := by
  have hranges : ∀ who, s.writeRanges who [(cell, n)] p.data = s.store who cell p.data := fun who => by
    rw [State.writeRanges, State.writeRanges, ← hlen, List.take_length]
  simp only [List.mem_cons, List.not_mem_nil, or_false] at hty
  rcases hty with hty | hty | hty | hty
  case inr.inr.inr =>
    refine ⟨none, ?_⟩
    rw [State.perform, hty]
    exact congrArg (State.answer · d p .writeAck 0 0 0 []) (hranges none)
  all_goals
    refine ⟨s.requester p, ?_⟩
    rw [State.perform, hty]
    simp only [hranges, hpoison, Bool.false_eq_true, if_false]
end

/-! ## AMOs (R191) -/

/-- The value that an AMO of `w` bits leaves, in numbers. -/
def amoNat (op : AmoOp) (w v src : Nat) : Nat :=
  match op with
  | .swap => src | .add => (v + src) % 2 ^ w | .xor => v ^^^ src | .and => v &&& src | .or => v ||| src
  | .min => if signedOf w v < signedOf w src then v else src | .max => if signedOf w v < signedOf w src then src else v
  | .minu => min v src | .maxu => max v src | .lr => v | .sc => v

theorem toNat_amoApply {op : AmoOp} {w v a : Nat} (hv : v < 2 ^ w) (hop : op ∉ [.lr, .sc]) :
    (amoApply op (BitVec.ofNat w v) (BitVec.ofNat w a)).toNat = amoNat op w v (a % 2 ^ w) := by
  have hold : (BitVec.ofNat w v).toNat = v := by rw [BitVec.toNat_ofNat, Nat.mod_eq_of_lt hv]
  have hsrc : (BitVec.ofNat w a).toNat = a % 2 ^ w := BitVec.toNat_ofNat ..
  have hslt : (BitVec.ofNat w v).slt (BitVec.ofNat w a) = decide (signedOf w v < signedOf w (a % 2 ^ w)) := by
    rw [BitVec.slt, BitVec.toInt_eq_toNat_bmod, BitVec.toInt_eq_toNat_bmod, hold, hsrc]
    rfl
  have hult : (BitVec.ofNat w v).ult (BitVec.ofNat w a) = decide (v < a % 2 ^ w) := by
    rw [BitVec.ult, hold, hsrc]
  cases op with
  | swap => exact hsrc
  | add => rw [amoApply, BitVec.toNat_add, hold, hsrc, amoNat]
  | xor => rw [amoApply, BitVec.toNat_xor, hold, hsrc, amoNat]
  | and => rw [amoApply, BitVec.toNat_and, hold, hsrc, amoNat]
  | or => rw [amoApply, BitVec.toNat_or, hold, hsrc, amoNat]
  | min => rw [amoApply, hslt, apply_ite BitVec.toNat, hold, hsrc, amoNat]; simp only [decide_eq_true_eq]
  | max => rw [amoApply, hslt, apply_ite BitVec.toNat, hold, hsrc, amoNat]; simp only [decide_eq_true_eq]
  | minu =>
    rw [amoApply, hult, apply_ite BitVec.toNat, hold, hsrc, amoNat]
    simp only [decide_eq_true_eq]
    split <;> omega
  | maxu =>
    rw [amoApply, hult, apply_ite BitVec.toNat, hold, hsrc, amoNat]
    simp only [decide_eq_true_eq]
    split <;> omega
  | lr => exact absurd (by decide) hop
  | sc => exact absurd (by decide) hop

/-- What an AMO of 4 or 8 bytes stores, as the low bytes of its exact result. -/
theorem bytesLE_amoResult {op : AmoOp} {n : Nat} {a : Dword} {m : Memory} {c : Nat} (hn : n ∈ [4, 8]) (hop : op ∉ [.lr, .sc]) :
    bytesLE n (amoResult op n (readLE m c n) a.toNat) = lowBytes (BitVec.ofNat 64 (amoNat op (8 * n) (memNat m c n) (a.toNat % 2 ^ (8 * n)))) n := by
  rw [readLE_eq_memNat]
  have hv := memNat_lt m c n
  have hresult : amoResult op n (memNat m c n) a.toNat = amoNat op (8 * n) (memNat m c n) (a.toNat % 2 ^ (8 * n)) ∧
      amoResult op n (memNat m c n) a.toNat < 2 ^ 64 := by
    simp only [List.mem_cons, List.not_mem_nil, or_false] at hn
    rcases hn with rfl | rfl
    · exact ⟨toNat_amoApply hv hop, (BitVec.isLt _).trans (by decide)⟩
    · exact ⟨toNat_amoApply hv hop, BitVec.isLt _⟩
  obtain ⟨heq, hlt⟩ := hresult
  rw [← bytesLE_eq_lowBytes, ← heq, BitVec.toNat_ofNat, Nat.mod_eq_of_lt hlt]

/-! ## Accumulate batches (R288) -/

/-- One FADD32 element of a batch performed. -/
def faddElem (c : Nat) (l : List Byte) (s : State) (i : Nat) : State :=
  s.storeLE none (c + 4 * i) 4 (add32 (s.loadLE (c + 4 * i) 4) (natLE ((l.drop (4 * i)).take 4)))

/-- The FADD32 elements of a batch up to one. -/
def State.faddElems (s : State) (c : Nat) (l : List Byte) (k : Nat) : State := (List.range k).foldl (faddElem c l) s

theorem atomBatch_fadd {s : State} {c : Nat} {l : List Byte} : s.atomBatch false c l = (none, s.faddElems c l (l.length / 4)) := by
  have hfold : ∀ (is : List Nat) (t : State), is.foldl (fun (r : Option Nat × State) i =>
      match atomElem false (r.2.loadLE (c + i * 4) 4) (natLE ((l.drop (i * 4)).take 4)) with
      | some v => (r.1, r.2.storeLE none (c + i * 4) 4 v)
      | none => (match r.1 with | some j => some j | none => some i, r.2)) (none, t) = (none, is.foldl (faddElem c l) t) := by
    intro is
    induction is with
    | nil => exact fun _ => rfl
    | cons i is ih =>
      intro t
      rw [List.foldl_cons, List.foldl_cons, ← ih, faddElem, Nat.mul_comm 4 i]
      rfl
  exact hfold _ _

section
variable {s : State} {c k : Nat} {l : List Byte}

theorem faddElems_succ : s.faddElems c l (k + 1) = faddElem c l (s.faddElems c l k) k := by
  rw [State.faddElems, List.range_succ, List.foldl_append]
  rfl

theorem wayBack_faddElems : WayBack s (s.faddElems c l k) :=
  List.foldlRecOn (motive := WayBack s) _ _ ⟨rfl, rfl⟩ fun _ ht _ _ => ⟨ht.pkg, ht.links⟩

/-- A batch changes no byte outside its elements. -/
theorem readByte_faddElems {x : Nat} (hx : x < c ∨ c + 4 * k ≤ x) : readByte (s.faddElems c l k).mem x = readByte s.mem x := by
  induction k with
  | zero => rfl
  | succ k ih =>
    rw [faddElems_succ]
    refine (readByte_writeBytes_out _ _ _ _ ?_).trans (ih (by omega))
    rw [length_bytesLE]
    omega

/-- Each element of a batch is the sum of what stood there and of its datum. -/
theorem memNat_faddElems {i : Nat} (hi : i < k) : memNat (s.faddElems c l k).mem (c + 4 * i) 4 =
    add32 (memNat s.mem (c + 4 * i) 4) (natLE ((l.drop (4 * i)).take 4)) % 2 ^ 32 := by
  rw [← readLE_eq_memNat, ← readLE_eq_memNat]
  induction k with
  | zero => exact absurd hi (Nat.not_lt_zero i)
  | succ k ih =>
    rw [faddElems_succ]
    rcases Nat.lt_succ_iff_lt_or_eq.1 hi with hlt | rfl
    · refine Eq.trans (readLE_congr fun j hj => readByte_writeBytes_out _ _ _ _ (.inl ?_)) (ih hlt)
      omega
    · have hold : (s.faddElems c l i).loadLE (c + 4 * i) 4 = readLE s.mem (c + 4 * i) 4 :=
        readLE_congr fun j _ => readByte_faddElems (.inr (by omega))
      rw [faddElem, hold]
      exact readLE_writeBytes ..
end

theorem perform_atomBatch {s : State} {p : Pkt} {d cell n : Nat} (hty : p.ty = .atomBatch) (hsub : p.sub ≠ 1) (hclean : s.poisoned cell n = false) :
    s.perform d p [(cell, n)] = (s.faddElems cell p.data (p.data.length / 4)).answer d p .writeAck 0 0 0 [] := by
  rw [State.perform, hty]
  simp only [hclean, beq_eq_false_iff_ne.2 hsub, atomBatch_fadd, Bool.false_eq_true, if_false]

/-! ## Hurdles (R100, R226) -/

/-- A field that ends a concatenation. -/
theorem extract_append_whole {m n : Nat} (x : BitVec m) (y : BitVec n) : (x ++ y).extractLsb' 0 n = y :=
  (extract_append_low x y 0 n (Nat.zero_add n).le).trans (extract_whole y)

theorem Hurdle.ofBits_bits (h : Hurdle) : Hurdle.ofBits h.bits = h := by
  have up {m n : Nat} {x : BitVec m} {y : BitVec n} {i k : Nat} {z : BitVec k} (hi : n ≤ i) (hz : x.extractLsb' (i - n) k = z) :
      (x ++ y).extractLsb' i k = z := (extract_append_high x y i k hi).trans hz
  have hexp : h.bits.extractLsb' 0 32 = h.exp := extract_append_whole _ _
  have harr : h.bits.extractLsb' 32 32 = h.arr := up (by decide) (extract_append_whole _ _)
  have hgen : h.bits.extractLsb' 64 32 = h.gen := up (by decide) (up (by decide) (extract_append_whole _ _))
  have herr : h.bits.extractLsb' 96 32 = h.err := up (by decide) (up (by decide) (up (by decide) (extract_append_whole _ _)))
  have hmask : h.bits.extractLsb' 128 64 = h.mask :=
    up (by decide) (up (by decide) (up (by decide) (up (by decide) (extract_append_whole _ _))))
  have hwake : h.bits.extractLsb' 192 32 = h.wake :=
    up (by decide) (up (by decide) (up (by decide) (up (by decide) (up (by decide) (extract_append_whole _ _)))))
  have hmode : h.bits.extractLsb' 224 32 = h.mode :=
    up (by decide) (up (by decide) (up (by decide) (up (by decide) (up (by decide) (up (by decide) (extract_whole _))))))
  rw [Hurdle.ofBits, hexp, harr, hgen, herr, hmask, hwake, hmode]

/-- In `u` the hurdle at `h` is `y`; nothing else of memory differs from `s`, and an answer goes the same way. -/
structure HurdleSet (s u : State) (h : Nat) (y : Hurdle) : Prop where
  way : WayBack s u
  hurdle : u.hurdle h = y
  frame : s.memSameBut u h 32

section
variable {s t : State} {h m scope : Nat} {who : Option Nat} {y : Hurdle} {st gen : BitVec 32}

/-- A 32-byte entry that has been written is read again. -/
theorem entry32_store {v : BitVec 256} : (s.store who h (bytesLE 32 v.toNat)).entry32 h = v := by
  rw [State.entry32, State.loadLE, mem_store, readLE_writeBytes]
  exact (congrArg (BitVec.ofNat 256) (Nat.mod_eq_of_lt v.isLt)).trans (BitVec.ofNat_toNat 256 v)

theorem hurdleSet_setHurdle (hmem : t.mem = s.mem) (hway : WayBack s t) : HurdleSet s (t.setHurdle who h y) h y := by
  refine ⟨⟨hway.pkg, hway.links⟩, ?_, fun c hc => ?_⟩
  · rw [State.hurdle, State.setHurdle, State.storeLE, entry32_store, Hurdle.ofBits_bits]
  · refine (readByte_writeBytes_out t.mem h c _ ?_).trans (by rw [hmem])
    rwa [length_bytesLE]

/-- An arrival that does not complete its hurdle. -/
theorem hurdleSet_hurdleArrive (hpending : ((s.hurdle h).arrive m st).2 = false) :
    HurdleSet s (s.hurdleArrive who scope h m st) h ((s.hurdle h).arrive m st).1 := by
  simp only [State.hurdleArrive, State.applyHurdle, hpending, Bool.false_eq_true, if_false]
  split
  · exact hurdleSet_setHurdle rfl ⟨rfl, rfl⟩
  · exact hurdleSet_setHurdle rfl ⟨rfl, rfl⟩

theorem hurdleSet_hurdleWithdraw (hpending : ((s.hurdle h).withdraw m).2 = false) :
    HurdleSet s (s.hurdleWithdraw who scope h m) h ((s.hurdle h).withdraw m).1 := by
  simp only [State.hurdleWithdraw, State.applyHurdle, hpending, Bool.false_eq_true, if_false]
  exact hurdleSet_setHurdle rfl ⟨rfl, rfl⟩

theorem hurdleSet_hurdleJoin : HurdleSet s (s.hurdleJoin who h) h (s.hurdle h).join := hurdleSet_setHurdle rfl ⟨rfl, rfl⟩

theorem engineArrive_current {source : Nat} (hgen : (s.hurdle h).gen = gen) :
    s.engineArrive h gen m st source = (s.hurdleArrive none 3 h m st, false) := by
  rw [State.engineArrive, if_pos hgen]
end

/-- An ARRIVE that its hurdle's die admits (R225, R355). -/
structure Admitted (s : State) (p : Pkt) : Prop where
  unranked : p.ranked = false
  track : (s.trackEntry p.hopDst p.track).isSome = true
  cell : isHurdleCell p.va = true
  home : hurdlePcl p.va / 24 = p.hopDst
  access : s.hurdleAdmits p.va p.track (arriveClass p.hopDst p) .amo = true

section
variable {s t : State} {p : Pkt} {pid : Nat}

theorem Admitted.congr (h : Admitted s p) (ht : SameChecks s t) : Admitted t p :=
  ⟨h.unranked, by rw [ht.trackEntry]; exact h.track, h.cell, h.home, (ht.ataperAdmits ..).trans h.access⟩

/-- The operation of an ARRIVE that a core has sent, by its code. -/
theorem arrivePkt_core (h : Admitted s p) (hcore : ¬(p.master = 2 ∨ p.master = 3)) {u : State}
    (hop : p.b = 0 ∧ u = s.hurdleArrive (s.requester p) p.scope p.va p.a.toNat (p.c.extractLsb' 0 32) ∨
      p.b = 1 ∧ u = s.hurdleWithdraw (s.requester p) p.scope p.va p.a.toNat ∨ p.b = 2 ∧ u = s.hurdleJoin (s.requester p) p.va) :
    s.arrivePkt p.hopDst p = u.answer p.hopDst p .writeAck 0 0 0 [] := by
  obtain ⟨hrank, htrack, hcell, hhome, haccess⟩ := h
  have hentry : (s.trackEntry p.hopDst p.track).isNone = false := by
    rw [← Option.not_isSome, htrack]
    rfl
  rw [State.arrivePkt, State.rankHere, hrank]
  simp only [hentry, hcell, hhome, haccess, hcore, Bool.not_false, Bool.true_or, Bool.not_true, Bool.and_false, bne_self_eq_false, Bool.or_self,
    Bool.false_eq_true, if_false]
  rcases hop with ⟨hb, hu⟩ | ⟨hb, hu⟩ | ⟨hb, hu⟩
  · rw [hu, if_neg (by rw [hb]; decide), if_neg (by rw [hb]; decide), if_neg (by rw [hb]; decide)]
  · rw [hu, if_pos hb]
  · rw [hu, if_neg (by rw [hb]; decide), if_pos hb]

/-- An engine's ARRIVE for the generation that its hurdle has. -/
theorem arrivePkt_engine (h : Admitted s p) (hengine : p.master = 2 ∨ p.master = 3) (hgen : (s.hurdle p.va).gen = p.c.extractLsb' 32 32) :
    s.arrivePkt p.hopDst p = (s.hurdleArrive none 3 p.va p.a.toNat (p.c.extractLsb' 0 32)).answer p.hopDst p .writeAck 0 0 0 [] := by
  obtain ⟨hrank, htrack, hcell, hhome, haccess⟩ := h
  have hentry : (s.trackEntry p.hopDst p.track).isNone = false := by
    rw [← Option.not_isSome, htrack]
    rfl
  rw [State.arrivePkt, State.rankHere, hrank]
  simp only [hentry, hcell, hhome, haccess, hengine, engineArrive_current hgen, Bool.not_false, Bool.true_or, Bool.not_true, Bool.and_false,
    bne_self_eq_false, Bool.or_self, Bool.false_eq_true, if_false, if_true]

theorem hurdle_takePkt {h : Nat} : (s.takePkt pid p).hurdle h = s.hurdle h := by
  rw [State.hurdle, (onWire_takePkt (s := s)).sameChecks.entry32, State.hurdle]

/-- An ARRIVE that leaves its hurdle as `y` is acknowledged. -/
theorem exec_arrive {u : State} {y : Hurdle} (h : s.asked pid p) (hty : p.ty = .arrive) (hadm : Admitted s p)
    (hu : HurdleSet (s.takePkt pid p) u p.va y)
    (hdone : (s.takePkt pid p).arrivePkt p.hopDst p = u.answer p.hopDst p .writeAck 0 0 0 []) :
    ∃ t, exec (.arrive pid) s = .next t ∧ t.hurdle p.va = y ∧ s.memSameBut t p.va 32 ∧ t.replied p .writeAck 0 [] := by
  have hcells : s.pktCells p.hopDst p = [p.va] := by
    rw [State.pktCells, hty]
    simp
  have hbanks : ∀ c ∈ s.pktCells p.hopDst p, ∀ b, bankOf c = some b → b.1 = p.hopDst := fun c hc b hb => by
    rw [hcells] at hc
    exact bank_hurdle hadm.cell hadm.home (List.mem_singleton.1 hc ▸ hb)
  obtain ⟨t, ht, rfl, hreplied⟩ := exec_answered (i := .arrive pid) (f := fun s p => s.arrivePkt p.hopDst p) h (by rw [hty]; rfl) hbanks hu.way
    (by rw [hdone]) (by rw [hdone, onWire_answer.pkg])
  refine ⟨_, ht, ?_, fun c hc => ?_, hreplied⟩
  · rw [hdone, State.hurdle, (onWire_answer (s := u)).sameChecks.entry32]
    exact hu.hurdle
  · rw [hdone, mem_answer, hu.frame c hc, mem_takePkt]
end

/-! ## The obligation -/
section
variable {s : State} {p : Pkt} {i : Instr} {f : State → Pkt → State} {pid c n st : Nat}
variable (hasked : s.asked pid p) (hline : s.lineHeld p.hopDst p = false) (hi : exec i s = .next (s.deliverPkt pid [p.ty] f))
  (hf : f (s.takePkt pid p) p = (s.takePkt pid p).homePkt p.hopDst p)
include hasked hline hi hf

/-- A write of a list of types is stored and acknowledged. -/
theorem exec_write (hcheck : s.homeCheck p.hopDst p false = .ok [(c, n)]) (hty : p.ty ∈ [.write, .copyData, .mcastData, .chunk])
    (hlen : p.data.length = n) (hpoison : p.poison = false) :
    ∃ t, exec i s = .next t ∧ t.mem = writeBytes s.mem c p.data ∧ t.replied p .writeAck 0 [] := by
  obtain ⟨who, hperform⟩ := perform_write (s := s.takePkt pid p) (d := p.hopDst) (cell := c) hty hlen hpoison
  have hkind : p.ty ∉ [.arrive, .copyDone] := by
    revert hty
    cases p.ty <;> decide
  obtain ⟨t, ht, hmem, hreplied⟩ := exec_homeRun hasked hline hi hkind hf (homeRun_ok hcheck hperform) ⟨rfl, rfl⟩
  exact ⟨t, ht, hmem.trans (by rw [mem_store, mem_takePkt]), hreplied⟩

/-- A request of one page that the check refuses is answered with the status. -/
theorem exec_refused (hcheck : s.homeCheck p.hopDst p false = .refuse st) (hty : p.ty ∉ [.arrive, .copyDone])
    (hpage : ∀ r ∈ p.elems, r.1 / 4096 = p.va / 4096) :
    ∃ t, exec i s = .next t ∧ t.mem = s.mem ∧ t.replied p .faultReply (BitVec.ofNat 64 st) [] := by
  obtain ⟨-, hrank, -⟩ := id hasked
  obtain ⟨t, ht, hmem, hreplied⟩ := exec_homeRun hasked hline hi hty hf (homeRun_refused hrank hcheck hpage) ⟨rfl, rfl⟩
  exact ⟨t, ht, hmem.trans mem_takePkt, hreplied⟩
end

/-- Settles O42: a request goes through the lemma of a home that answers, with what was done before the answer as its argument. -/
theorem requestsAtTheirHome : Obligations.RequestsAtTheirHome := by
  unfold Obligations.RequestsAtTheirHome
  intro s pid n c p
  refine ⟨fun hnone i hi => ?_, fun hasked hline hdst hcheck => ⟨fun hty hclean => ?_, fun hty hn hop hclean => ?_, fun hlen hpoison => ?_,
    fun hty hsub hlen hdiv hclean => ?_⟩, fun st hasked hline hdst hcheck hpage => ?_, fun hasked hty htrack hcell hhome haccess => ?_⟩
  · simp only [List.mem_cons, List.not_mem_nil, or_false] at hi
    rcases hi with rfl | rfl | rfl | rfl | rfl | rfl | rfl | rfl
    all_goals exact congrArg Host.Outcome.next (deliverPkt_of_not_deliverable hnone)
  · obtain ⟨t, ht, hmem, hreplied⟩ := exec_homeRun (i := .read pid) (f := fun s p => s.homePkt p.hopDst p) hasked hline (by rw [hty]; rfl) (by rw [hty]; decide) rfl
      (homeRun_ok hcheck (perform_read hty (poisoned_takePkt.trans hclean))) ⟨rfl, rfl⟩
    exact ⟨t, ht, hmem.trans mem_takePkt, by rwa [mem_takePkt] at hreplied⟩
  · obtain ⟨⟨-, -, hsrc, -⟩, -⟩ := id hasked
    obtain ⟨t, ht, hmem, hreplied⟩ := exec_homeRun (i := .amo pid) (f := fun s p => s.homePkt p.hopDst p) hasked hline (by rw [hty]; rfl) (by rw [hty]; decide) rfl
      (homeRun_ok hcheck (perform_amo hty hsrc hop (poisoned_takePkt.trans hclean))) ⟨rfl, rfl⟩
    refine ⟨t, ht, hmem.trans ?_, by rwa [mem_takePkt] at hreplied⟩
    rw [State.storeLE, mem_store, bytesLE_amoResult hn hop, mem_takePkt]
    rfl
  · refine ⟨fun hty => ?_, fun hty => ?_, fun hty => ?_, fun hty => ?_⟩
    · exact exec_write hasked hline (by rw [hty]; rfl) (if_neg hdst) hcheck (by rw [hty]; decide) hlen hpoison
    all_goals
      exact exec_write (f := fun s p => s.homePkt p.hopDst p) hasked hline (by rw [hty]; rfl) rfl hcheck (by rw [hty]; decide) hlen hpoison
  · obtain ⟨t, ht, hmem, hreplied⟩ := exec_homeRun (i := .atomBatch pid) (f := fun s p => s.homePkt p.hopDst p) hasked hline (by rw [hty]; rfl) (by rw [hty]; decide) rfl
      (homeRun_ok hcheck (perform_atomBatch hty hsub (poisoned_takePkt.trans hclean))) wayBack_faddElems
    rw [hlen] at hmem
    refine ⟨t, ht, hreplied, fun i hi => ?_, fun x hx => ?_⟩
    · rw [hmem, memNat_faddElems hi, mem_takePkt]
    · rw [hmem, readByte_faddElems (by omega), mem_takePkt]
  · refine ⟨fun hty => ?_, fun hty => ?_, fun hty => ?_, fun hty => ?_, fun hty => ?_, fun hty => ?_, fun hty => ?_⟩
    case refine_2 => exact exec_refused hasked hline (by rw [hty]; rfl) (if_neg hdst) hcheck (by rw [hty]; decide) hpage
    all_goals exact exec_refused (f := fun s p => s.homePkt p.hopDst p) hasked hline (by rw [hty]; rfl) rfl hcheck (by rw [hty]; decide) hpage
  · obtain ⟨-, hrank, -⟩ := id hasked
    have hadm : Admitted s p := ⟨hrank, htrack, hcell, hhome, haccess⟩
    have hthere : Admitted (s.takePkt pid p) p := hadm.congr onWire_takePkt.sameChecks
    have hhurdle : (s.takePkt pid p).hurdle p.va = s.hurdle p.va := hurdle_takePkt
    refine ⟨fun hcore hb hpending => ?_, fun hengine hgen hpending => ?_, fun hcore hb hpending => ?_, fun hcore hb => ?_⟩
    · rw [← hhurdle] at hpending ⊢
      exact exec_arrive hasked hty hadm (hurdleSet_hurdleArrive hpending) (arrivePkt_core hthere hcore (.inl ⟨hb, rfl⟩))
    · rw [← hhurdle] at hpending hgen ⊢
      exact exec_arrive hasked hty hadm (hurdleSet_hurdleArrive hpending) (arrivePkt_engine hthere hengine hgen)
    · rw [← hhurdle] at hpending ⊢
      exact exec_arrive hasked hty hadm (hurdleSet_hurdleWithdraw hpending) (arrivePkt_core hthere hcore (.inr (.inl ⟨hb, rfl⟩)))
    · rw [← hhurdle]
      exact exec_arrive hasked hty hadm hurdleSet_hurdleJoin (arrivePkt_core hthere hcore (.inr (.inr ⟨hb, rfl⟩)))
end Sys2Proof.Machine
end

section
/-!
PROOF of O47. What each event of translation makes of the state: walks and fault records answer a request and let those behind it go on, a log applies its
oldest record, a move goes over the entry of its page, and a reload gives every die its track-table entry.
-/
namespace Sys2Proof.Machine

/-! ## Updates of one NI -/
section
variable {s t : State} {d i j st : Nat} {n : Ni} {p : Pkt} {e : TcEntry} {ent : BitVec 128} {w : Walk}

theorem ni_setNi_eq : (s.setNi d n).ni j = if j = d then n else s.ni j := by
  rw [State.ni, State.setNi, kget_kset, State.ni]

theorem setNi_setNi {n' : Ni} : (s.setNi d n).setNi d n' = s.setNi d n' := by
  simp only [State.setNi, kset_kset]

/-- An NI set to what it is changes no NI. -/
theorem ni_setNi_self : (s.setNi d (s.ni d)).ni j = s.ni j := by
  rw [ni_setNi_eq]
  split
  next h => rw [h]
  next => rfl

/-- The checks read neither the walks nor the queues of an NI. -/
theorem sameChecks_setNi (htrk : n.trk = (s.ni d).trk) (hacc : n.acc = (s.ni d).acc) (hheld : n.accHeld = (s.ni d).accHeld)
    (hfreeze : n.freeze = (s.ni d).freeze) : SameChecks s (s.setNi d n) := by
  have hfield {α : Type} (f : Ni → α) (hf : f n = f (s.ni d)) (j : Nat) : f ((s.setNi d n).ni j) = f (s.ni j) := by
    rw [ni_setNi_eq]
    split
    next h => rw [h, hf]
    next => rfl
  exact ⟨rfl, rfl, rfl, hfield _ htrk, hfield _ hacc, hfield _ hheld, hfield _ hfreeze⟩

/-- With nothing behind, a request that has left lets nothing go on. -/
theorem releaseBehind_of_nil (h : (s.ni d).behind = []) : s.releaseBehind d = s.setNi d (s.ni d) := by
  have hsame : { s.ni d with behind := [] } = s.ni d := by
    rw [← h]
  rw [State.releaseBehind, h]
  exact congrArg (s.setNi d) hsame

/-! ## Walks (R54, R56) -/

/-- The NI of a die after a walk that has found a translation. -/
def State.walked (s : State) (d : Nat) (w : Walk) (e : TcEntry) : State :=
  s.setNi d { s.ni d with walks := (s.ni d).walks.filter fun x => x.id != w.id, tcache := tcInsert e (s.ni d).tcache }

theorem sameChecks_walked : SameChecks s (s.walked d w e) := sameChecks_setNi rfl rfl rfl rfl

theorem walkDone_present (hent : s.trackEntry d w.pkt.track = some ent) (hwalk : s.walk d w.pkt.track ent w.pkt.va w.pkt.memOp.changes = .present e) :
    s.walkDone d w = ((s.walked d w e).homeRun d w.pkt true).releaseBehind d := by
  have hsame : SameChecks s (s.setNi d { s.ni d with walks := (s.ni d).walks.filter fun x => x.id != w.id }) := sameChecks_setNi rfl rfl rfl rfl
  unfold State.walkDone
  simp only [hsame.trackEntry, hsame.walk, hent, hwalk, ni_setNi, setNi_setNi]
  rfl

/-- A translation that is cached is there. -/
theorem mem_tcInsert {l : List TcEntry} : e ∈ tcInsert e l := by
  unfold tcInsert
  dsimp only
  split
  · exact List.mem_cons_self
  · rw [tcKeep, if_neg (by simp)]
    exact List.mem_cons_self

/-- What the settling of a record leaves of its NI. -/
theorem ni_settleRecord : ∃ fq, (s.settleRecord d p).ni d = { s.ni d with fq := fq } := by
  unfold State.settleRecord
  dsimp only
  split
  · exact ⟨_, ni_setNi _ _ _⟩
  · exact ⟨_, rfl⟩

/-! ## Fault records (R61, R62) -/

/-- A fault record set. -/
def State.putRecord (s : State) (d i : Nat) (r : FaultRec) : State := s.setNi d { s.ni d with fq := kset i r (s.ni d).fq }

theorem record_putRecord {r : FaultRec} : kget FaultRec.free ((s.putRecord d i r).ni d).fq i = r := by
  rw [State.putRecord, ni_setNi]
  exact kget_kset_same _ _ _ _

/-- What is seen of a request that a fault record no longer holds: the record is free, and the request has been answered. -/
structure RecordAnswered (s t : State) (d i : Nat) (p : Pkt) (st : Dword) : Prop where
  mem : t.mem = s.mem
  held : (kget FaultRec.free (t.ni d).fq i).held = none
  replied : t.replied p .faultReply st []

/-- A record gives up its request, which is refused. -/
theorem recordAnswered_refuse {r : FaultRec} (hheld : r.held = none) (hbehind : (s.ni d).behind = []) (hrank : p.ranked = false) (hdie : p.hopDst = d)
    (hsrc : p.srcPkg = 0) (hway : s.canAnswer p) :
    RecordAnswered s (((s.putRecord d i r).refuse d p st p.va).releaseBehind d) d i p (BitVec.ofNat 64 st) := by
  subst hdie
  have hni : ((s.putRecord p.hopDst i r).refuse p.hopDst p st p.va).ni p.hopDst = (s.putRecord p.hopDst i r).ni p.hopDst := by
    rw [refuse_eq_answer hrank, State.ni, onWire_answer.nis, State.ni]
  have hnone : (((s.putRecord p.hopDst i r).refuse p.hopDst p st p.va).ni p.hopDst).behind = [] := by
    rw [hni, State.putRecord, ni_setNi]
    exact hbehind
  rw [releaseBehind_of_nil hnone]
  refine ⟨mem_refuse, ?_, replied_congr rfl ?_⟩
  · rw [ni_setNi_self, hni, record_putRecord]
    exact hheld
  · rw [refuse_eq_answer hrank]
    exact replied_answer hsrc (canAnswer_congr (s := s) rfl (fun _ _ => rfl) hway)

variable {st : BitVec 4}

theorem low_action {a : BitVec 4} : (st ++ a).extractLsb' 0 4 = a := extract_append_whole _ _

theorem high_action {a : BitVec 4} : (st ++ a).extractLsb' 4 4 = st := (extract_append_high _ _ _ _ (by decide)).trans (extract_whole _)

theorem faultAnswer_refused (hheld : (kget FaultRec.free (s.ni d).fq i).held = some p) (haction : (kget FaultRec.free (s.ni d).fq i).action = 0) :
    s.faultAnswer d i (st ++ 2#4) =
      ((s.putRecord d i { kget FaultRec.free (s.ni d).fq i with action := 2, status := st, held := none }).refuse d p
        (if st.toNat ≠ 0 then st.toNat else 3) p.va).releaseBehind d := by
  unfold State.faultAnswer
  simp only [low_action, high_action, hheld, haction, show (2#4).toNat = 2 from rfl, true_and]
  rw [if_neg (by decide), if_neg (by decide), if_neg (by decide)]
  rfl

/-- A record that stays PENDING only takes its new status. -/
theorem faultAnswer_pending (hheld : (kget FaultRec.free (s.ni d).fq i).held = some p) :
    s.faultAnswer d i (st ++ 0#4) = s.putRecord d i { kget FaultRec.free (s.ni d).fq i with status := st } := by
  unfold State.faultAnswer
  simp only [low_action, high_action, hheld]
  rfl

theorem execFaultRecordTimeout_due (hheld : (kget FaultRec.free (s.ni d).fq i).held = some p) (haction : (kget FaultRec.free (s.ni d).fq i).action = 0)
    (hdue : (kget FaultRec.free (s.ni d).fq i).time.toNat + 1048576 ≤ s.swcAt d) : exec (.faultRecordTimeout d i) s =
      .next (((s.putRecord d i { kget FaultRec.free (s.ni d).fq i with held := none }).refuse d p 8 p.va).releaseBehind d) := by
  rw [show exec (.faultRecordTimeout d i) s = execFaultRecordTimeout d i s from rfl, execFaultRecordTimeout]
  simp only [hheld, haction, hdue, and_self, if_true]
  rfl

theorem execFaultRecordTimeout_early (hearly : s.swcAt d < (kget FaultRec.free (s.ni d).fq i).time.toNat + 1048576) :
    exec (.faultRecordTimeout d i) s = .next s := by
  rw [show exec (.faultRecordTimeout d i) s = execFaultRecordTimeout d i s from rfl, execFaultRecordTimeout]
  dsimp only
  split
  · rfl
  · rw [if_neg fun h => Nat.not_le.2 hearly h.2]

theorem execFaultRecordTimeout_free (hheld : (kget FaultRec.free (s.ni d).fq i).held = none) : exec (.faultRecordTimeout d i) s = .next s := by
  rw [show exec (.faultRecordTimeout d i) s = execFaultRecordTimeout d i s from rfl, execFaultRecordTimeout]
  simp only [hheld]
end

/-! ## Logs (R64 to R66) -/
section
variable {s : State} {d k r ix at' : Nat} {rec' : BitVec 256} {w : Wait} {x : TcEntry} {tk : BitVec 16} {lo hi : Nat} {l : List TcEntry}

theorem mem_tcDrop : x ∈ tcDrop tk lo hi l ↔ x ∈ l ∧ ¬(x.track = tk ∧ x.base < hi ∧ lo < x.base + 2 ^ x.log2) := by
  simp only [tcDrop, List.mem_filter, Bool.not_eq_true', ← Bool.not_eq_true, Bool.and_eq_true, beq_iff_eq, decide_eq_true_eq, and_assoc]

theorem execLogApply_empty (h : s.appendedIvl d = []) : exec (.logApply d) s = .next s := by
  rw [show exec (.logApply d) s = execLogApply d s from rfl, execLogApply, h]

theorem execLogApply_young (h : s.appendedIvl d = [(ix, at')]) (hyoung : s.swcAt d < at' + 65536) : exec (.logApply d) s = .next s := by
  rw [show exec (.logApply d) s = execLogApply d s from rfl, execLogApply, h]
  exact congrArg Host.Outcome.next (if_neg (Nat.not_le.2 hyoung))

theorem execLogApply_old (h : s.appendedIvl d = [(ix, at')]) (hold : at' + 65536 ≤ s.swcAt d) : exec (.logApply d) s = .next (s.applyOne d ix) := by
  rw [show exec (.logApply d) s = execLogApply d s from rfl, execLogApply, h]
  refine congrArg Host.Outcome.next ((if_pos hold).trans ?_)
  rw [State.applyLog, h]
  rfl

/-- A record changes no log. -/
theorem log_applyRecord : ((s.applyRecord d rec').ni d).log = (s.ni d).log := by
  unfold State.applyRecord
  dsimp only
  split
  · rw [State.loadPmap, ni_setNi]
  · rw [ni_setNi]
  · rw [ni_setNi]
  · rfl

/-- A PAGE record drops the translations that it covers. -/
theorem tcache_applyRecord_page (h : ivlKind rec' = 1) : ((s.applyRecord d rec').ni d).tcache =
    tcDrop (ivlTrack rec') (rec'.extractLsb' 128 64).toNat (rec'.extractLsb' 192 64).toNat (s.ni d).tcache := by
  unfold State.applyRecord
  rw [h]
  simp only [ni_setNi]

/-- The oldest record in the ring of a C-die (R51, R65). -/
def State.ringRecord (s : State) (d : Nat) : BitVec 256 :=
  s.entry32 (hbmCell d (s.pkg.logbase.toNat + 32 * ((s.ni d).log.consumed % 4096)))

/-- A log with one record applied. -/
def DieLog.afterOne (g : DieLog) (ix : Nat) : DieLog :=
  { g with consumed := g.consumed + 1, pending := g.pending.filter fun p => p.1 != ix, applied := ix }

/-- The NI of a C-die after a record of its ring. -/
theorem ni_applyOne (hd : isCDie d = true) :
    (s.applyOne d ix).ni d = { (s.applyRecord d (s.ringRecord d)).ni d with log := (s.ni d).log.afterOne ix } := by
  have hring : s.ringCell d (s.ni d).log.consumed = some (hbmCell d (s.pkg.logbase.toNat + 32 * ((s.ni d).log.consumed % 4096))) := if_pos hd
  rw [State.applyOne, hring]
  simp only [ni_setNi, log_applyRecord]
  rfl

/-- The wait of a baton alone ends: its slot takes the effect and the pc goes past the instruction. -/
theorem finishWait_alone {eff : Effect} (h : s.parkedAlone k r w) (hbaton : (eff.onSlot (s.slotAt k).unpark).xbaton = (s.slotAt k).xbaton) :
    s.finishWait r eff = ((s.setSlotAt k (eff.onSlot (s.slotAt k).unpark)).retire (keyCid k)).setSlotAt k
      { eff.onSlot (s.slotAt k).unpark with pc := (s.slotAt k).pc + BitVec.ofNat 64 (s.slotAt k).waitLen } := by
  obtain ⟨hslot, hrecord, hparked, -, halone⟩ := h
  have hat : ((s.setSlotAt k (eff.onSlot (s.slotAt k).unpark)).retire (keyCid k)).slotAt k = eff.onSlot (s.slotAt k).unpark := by
    rw [State.retire, slotAt_setCore, slotAt_setSlotAt]
  have hgang : ((s.setSlotAt k (eff.onSlot (s.slotAt k).unpark)).retire (keyCid k)).gangOf r = none := halone
  rw [State.finishWait, hslot]
  simp only [hparked, if_true, State.resumeSlot, State.complete, hat]
  rw [slotRecord_congr k _ _ hbaton, hrecord, hgang]

/-- A baton whose wait ends with nothing to write goes on past its instruction. -/
theorem slotAt_finishWait_none (h : s.parkedAlone k r w) : (s.finishWait r .none).slotAt k = (s.slotAt k).resumed 0 0 := by
  rw [finishWait_alone h rfl, slotAt_setSlotAt]
  rfl

/-- The state in which the B-die knows what a die has applied. -/
def State.reportKnown (s : State) (d : Nat) : State :=
  s.setNi d { s.ni d with log := { (s.ni d).log with reported := (s.ni d).log.applied } }

theorem execAppliedIndexReport_unawaited (h : s.waiting = []) : exec (.appliedIndexReport d) s = .next (s.reportKnown d) := by
  rw [show exec (.appliedIndexReport d) s = execAppliedIndexReport d s from rfl, execAppliedIndexReport]
  show Host.Outcome.next (List.foldl _ (s.reportKnown d) s.waiting) = _
  rw [h]
  rfl

/-- An index that every live die covers once a report is known is synced. -/
theorem ivlSynced_reportKnown (h : ∀ j, isDie j = true → s.dieUp j = true →
    ({ (s.ni j).log with reported := if j = d then (s.ni j).log.applied else (s.ni j).log.reported } : DieLog).covers ix = true) :
    (s.reportKnown d).ivlSynced ix = true := by
  refine List.all_eq_true.2 fun j hj => ?_
  obtain ⟨hall, hup⟩ := List.mem_filter.1 hj
  have hdie : ∀ j ∈ allDies, isDie j = true := by decide
  have hlog : ((s.reportKnown d).ni j).log = { (s.ni j).log with reported := if j = d then (s.ni j).log.applied else (s.ni j).log.reported } := by
    rw [State.reportKnown, ni_setNi_eq]
    split
    next h => rw [h]
    next => rfl
  rw [hlog]
  exact h j (hdie j hall) hup

theorem execAppliedIndexReport_awaited (h : s.waiting = [(r, .ivlSync ix)]) (hsynced : (s.reportKnown d).ivlSynced ix = true) :
    exec (.appliedIndexReport d) s = .next ((s.reportKnown d).finishWait r .none) := by
  rw [show exec (.appliedIndexReport d) s = execAppliedIndexReport d s from rfl, execAppliedIndexReport]
  show Host.Outcome.next (List.foldl _ (s.reportKnown d) s.waiting) = _
  rw [h]
  exact congrArg Host.Outcome.next (if_pos hsynced)
end

/-! ## The start of a move (R67, R68) -/
section
variable {s : State} {d new k base limit far phys v va : Nat} {tk : BitVec 16} {home : Bool} {pe : PageEntry} {e : TcEntry}

theorem ivlKind_mkIvl (hk : k < 16) : ivlKind (mkIvl k d tk base limit) = k := by
  have hfield : (mkIvl k d tk base limit).extractLsb' 64 4 = (BitVec.ofNat 64 (k + d * 16 + tk.toNat * 65536)).extractLsb' 0 4 :=
    (extract_append_high _ _ _ _ (by decide)).trans (extract_append_low _ _ _ _ (by decide))
  rw [ivlKind, hfield, BitVec.extractLsb'_toNat, BitVec.toNat_ofNat]
  omega

theorem ivlTrack_mkIvl (hk : k + d * 16 < 65536) : ivlTrack (mkIvl k d tk base limit) = tk := by
  have hfield : (mkIvl k d tk base limit).extractLsb' 80 16 = (BitVec.ofNat 64 (k + d * 16 + tk.toNat * 65536)).extractLsb' 16 16 :=
    (extract_append_high _ _ _ _ (by decide)).trans (extract_append_low _ _ _ _ (by decide))
  have htk := tk.isLt
  rw [ivlTrack, hfield]
  apply BitVec.eq_of_toNat_eq
  rw [BitVec.extractLsb'_toNat, BitVec.toNat_ofNat, Nat.shiftRight_eq_div_pow]
  omega

theorem base_mkIvl (h : base < 2 ^ 64) : ((mkIvl k d tk base limit).extractLsb' 128 64).toNat = base := by
  have hfield : (mkIvl k d tk base limit).extractLsb' 128 64 = BitVec.ofNat 64 base :=
    (extract_append_high _ _ _ _ (by decide)).trans ((extract_append_high _ _ _ _ (by decide)).trans (extract_append_whole _ _))
  rw [hfield, BitVec.toNat_ofNat, Nat.mod_eq_of_lt h]

theorem limit_mkIvl (h : limit < 2 ^ 64) : ((mkIvl k d tk base limit).extractLsb' 192 64).toNat = limit := by
  have hfield : (mkIvl k d tk base limit).extractLsb' 192 64 = BitVec.ofNat 64 limit :=
    (extract_append_high _ _ _ _ (by decide)).trans ((extract_append_high _ _ _ _ (by decide)).trans
      ((extract_append_high _ _ _ _ (by decide)).trans (extract_whole _)))
  rw [hfield, BitVec.toNat_ofNat, Nat.mod_eq_of_lt h]

/-- The move of a page to a place, by a Vault. -/
def State.newMove (s : State) (home : Bool) (v d new : Nat) (tk : BitVec 16) (e : TcEntry) (far phys : Nat) : Move :=
  { id := s.pkg.nextMove, home := home, vault := v, oldDie := d, newDie := new, track := tk, va := e.base, log2 := e.log2,
    oldPlace := e.place, oldPhys := e.phys, newPlace := far, newPhys := phys }

/-- What the start of a move shows: the entry is MIGRATING, no cached translation of the old home meets the page, and the move is under way. -/
structure MoveBegun (s t : State) (d : Nat) (tk : BitVec 16) (pe : PageEntry) (e : TcEntry) (m : Move) : Prop where
  mem : t.mem = (s.putEntry pe.migrating).mem
  tcache : ∀ q ∈ (t.ni d).tcache, ¬(q.track = tk ∧ q.base < e.base + 2 ^ e.log2 ∧ e.base < q.base + 2 ^ q.log2)
  moves : t.pkg.moves = s.pkg.moves ++ [m]

theorem pkg_putEntry : (s.putEntry pe).pkg = s.pkg := by
  cases pe <;> rfl

theorem pkg_applyRecord {r : BitVec 256} : (s.applyRecord d r).pkg = s.pkg := by
  unfold State.applyRecord
  dsimp only
  split <;> rfl

/-- What a move needs to start (R67): the page's entry, a Vault, both dies and places, an aligned place for it that differs from the old one in kind,
access to both, and, at a new home, a slot in its tables. -/
structure MoveReady (s : State) (home : Bool) (d new : Nat) (tk : BitVec 16) (va far phys : Nat) (pe : PageEntry) (e : TcEntry) (v : Nat) : Prop where
  entry : s.pageEntry d tk va = some (pe, .present e)
  die : d < 4000
  range : e.base + 2 ^ e.log2 < 2 ^ 64
  vault : s.vaultFor e.place far = v
  ready : s.readyBit (53 + (v - 16)) = true
  vaultUp : s.dieUp v = true
  up : s.dieUp d = true
  oldUp : s.placeUp e.place d = true
  newUp : s.placeUp far new = true
  aligned : phys % 2 ^ e.log2 = 0
  fits : phys + 2 ^ e.log2 ≤ placeSize far
  kinds : home = false → e.place ≠ far ∧ (e.place == 0) ≠ (far == 0)
  readable : s.vaultAdmits e.place d e.ati tk .read = true
  writable : s.vaultAdmits far new e.ati tk .write = true
  slot : home = true → (s.newSlot new tk va pe).isSome = true

theorem moveStart_begins (h : MoveReady s home d new tk va far phys pe e v) :
    MoveBegun s (s.moveStart home d new tk va far phys) d tk pe e (s.newMove home v d new tk e far phys) := by
  obtain ⟨hentry, hd, hrange, hvault, hready, hvaultUp, hup, hold, hnew, haligned, hfits, hkinds, hread, hwrite, hslot⟩ := h
  have hsame : (!home && e.place == far && far ≠ 0) = false ∧ (!home && (e.place == 0) == (far == 0)) = false := by
    cases home with
    | true => exact ⟨rfl, rfl⟩
    | false =>
      obtain ⟨hne, hkind⟩ := hkinds rfl
      simp [hne, hkind]
  obtain ⟨hsame, hkind⟩ := hsame
  have hroom : ¬(home = true ∧ s.newSlot new tk va pe = none) := fun ⟨hhome, hnone⟩ => by
    have := hslot hhome
    rw [hnone] at this
    cases this
  have hstart : s.moveStart home d new tk va far phys =
      let u := (s.putEntry pe.migrating).applyRecord d (mkIvl 1 d tk e.base (e.base + 2 ^ e.log2))
      { u with pkg := { u.pkg with moves := u.pkg.moves ++ [u.newMove home v d new tk e far phys], nextMove := u.pkg.nextMove + 1 } } := by
    unfold State.moveStart
    rw [hentry]
    dsimp only
    rw [hvault]
    refine (if_neg ?_).trans (if_neg hroom)
    simp only [hready, hvaultUp, hup, hold, hnew, haligned, hread, hwrite, hkind, hsame, Nat.not_lt.2 hfits, ne_eq, not_true_eq_false, decide_false,
      Bool.not_true, Bool.or_self, Bool.false_eq_true, not_false_eq_true]
  rw [hstart]
  refine ⟨mem_applyRecord, fun q hq => ?_, ?_⟩
  · have hpage : ivlKind (mkIvl 1 d tk e.base (e.base + 2 ^ e.log2)) = 1 := ivlKind_mkIvl (by decide)
    have hlow : e.base < 2 ^ 64 := Nat.lt_of_le_of_lt (Nat.le_add_right _ _) hrange
    have hcache := tcache_applyRecord_page (s := s.putEntry pe.migrating) (d := d) hpage
    rw [ivlTrack_mkIvl (by omega), base_mkIvl hlow, limit_mkIvl hrange] at hcache
    exact (mem_tcDrop.1 (hcache ▸ hq)).2
  · dsimp only [State.newMove]
    rw [pkg_applyRecord, pkg_putEntry]
end

/-! ## Where a move goes -/
section
variable {s : State} {d dest m va pa : Nat} {tk : BitVec 16} {pe : PageEntry} {e : TcEntry}

theorem execTierMove_start (hd : isCDie d = true) (hm : m < 16) :
    exec (.tierMove d va tk.toNat (m + 1) pa) s = .next (s.moveStart false d d tk va (m + 1) pa) := by
  rw [show exec (.tierMove d va tk.toNat (m + 1) pa) s = execTierMove d va tk.toNat (m + 1) pa s from rfl, execTierMove, if_pos ⟨hd, hm⟩,
    BitVec.ofNat_toNat, BitVec.setWidth_eq]

theorem execHomeMove_start (hd : isCDie d = true ∨ isFDie d = true) (hdest : isCDie dest = true) (hne : dest ≠ d) :
    exec (.homeMove d va tk.toNat dest 0 pa) s = .next (s.moveStart true d dest tk va 0 pa) := by
  rw [show exec (.homeMove d va tk.toNat dest 0 pa) s = execHomeMove d va tk.toNat dest 0 pa s from rfl, execHomeMove, if_pos ⟨hd, hdest, hne, rfl⟩,
    BitVec.ofNat_toNat, BitVec.setWidth_eq]

theorem die_lt (h : isCDie d = true ∨ isFDie d = true) : d < 4000 := by
  simp only [isCDie, isFDie, decide_eq_true_eq, Bool.or_eq_true, beq_iff_eq] at h
  omega

theorem place_of_near (h : e.far = false) : e.place = 0 := by
  rw [TcEntry.place, h]
  rfl

/-- Towards HBM, the Vault is the one of the page's module, else one that is up. -/
theorem vaultFor_near : s.vaultFor e.place 0 = if e.far then 16 + e.fmod / 8 else if s.readyBit 53 then 16 else 17 := by
  unfold State.vaultFor TcEntry.place
  cases e.far <;> rfl

/-- Out of HBM, the Vault is the one of the new module. -/
theorem vaultFor_far : s.vaultFor 0 (m + 1) = 16 + m / 8 := rfl
end

/-! ## The end of a tier move (R68) -/
section
variable {s : State} {m : Memory} {l : KMap Byte} {src dst n j a : Nat}

theorem kget_of_lt {α : Type} {x : α} {l : KMap α} {j : Nat} (h : ∀ p ∈ l, j < p.1) : kget x l j = x := by
  induction l with
  | nil => rfl
  | cons p r ih =>
    rw [kget, if_neg (Nat.ne_of_lt (h p List.mem_cons_self)), ih fun q hq => h q (List.mem_cons_of_mem _ hq)]

theorem kget_filter {α : Type} {x : α} {P : Nat × α → Bool} {l : KMap α} {j : Nat} (h : ∀ v, P (j, v) = true) : kget x (l.filter P) j = kget x l j := by
  induction l with
  | nil => rfl
  | cons p r ih =>
    obtain ⟨k, v⟩ := p
    rw [List.filter_cons, kget]
    split
    next => rw [kget, ih]
    next hout => rw [if_neg fun hk : j = k => hout (hk ▸ h v), ih]

theorem kwf_filter {α : Type} {P : Nat × α → Bool} {l : KMap α} (h : kwf l = true) : kwf (l.filter P) = true := by
  induction l with
  | nil => rfl
  | cons p r ih =>
    obtain ⟨hlt, hr⟩ := (kwf_cons_iff p.1 p.2 r).1 h
    rw [List.filter_cons]
    split
    next => exact (kwf_cons_iff _ _ _).2 ⟨fun q hq => hlt q (List.mem_of_mem_filter hq), ih hr⟩
    next => exact ih hr

/-- The bytes listed, each written as far from `dst` as it lay from `src`. -/
def placeBytes (src dst : Nat) (m : Memory) (l : KMap Byte) : Memory := l.foldl (fun m p => writeByte m (p.1 - src + dst) p.2) m

theorem readByte_placeBytes_out (h : ∀ p ∈ l, p.1 - src + dst ≠ a) : readByte (placeBytes src dst m l) a = readByte m a :=
  List.foldlRecOn (motive := fun t => readByte t a = readByte m a) _ _ rfl fun _ ht p hp =>
    (readByte_writeByte_other _ _ _ _ (h p hp).symm).trans ht

theorem readByte_placeBytes (hwf : kwf l = true) (hin : ∀ p ∈ l, src ≤ p.1) :
    readByte (placeBytes src dst m l) (dst + j) = kget (readByte m (dst + j)) l (src + j) := by
  induction l generalizing m with
  | nil => rfl
  | cons p r ih =>
    obtain ⟨k, v⟩ := p
    obtain ⟨hlt, hr⟩ := (kwf_cons_iff k v r).1 hwf
    have hk : src ≤ k := hin _ List.mem_cons_self
    rw [placeBytes, List.foldl_cons]
    refine (ih hr fun q hq => hin q (List.mem_cons_of_mem _ hq)).trans ?_
    rw [kget]
    split
    next h =>
      subst h
      rw [kget_of_lt hlt, Nat.add_sub_cancel_left, Nat.add_comm j dst, readByte_writeByte_same]
    next h =>
      rw [readByte_writeByte_other _ _ _ _ (by omega)]

theorem mem_moveData : (s.moveData src dst n).mem =
    placeBytes src dst (clearRange s.mem dst n) (s.mem.filter fun p => decide (src ≤ p.1) && decide (p.1 < src + n)) := rfl

/-- A range of memory that has been copied is the same at its new place. -/
theorem readByte_moveData_in (hwf : kwf s.mem = true) (hj : j < n) : readByte (s.moveData src dst n).mem (dst + j) = readByte s.mem (src + j) := by
  rw [mem_moveData, readByte_placeBytes (kwf_filter hwf), readByte_clearRange hj]
  · exact kget_filter fun v => by simp [hj]
  · intro p hp
    simp only [List.mem_filter, Bool.and_eq_true, decide_eq_true_eq] at hp
    exact hp.2.1

theorem readByte_moveData_out (ha : a < dst ∨ dst + n ≤ a) : readByte (s.moveData src dst n).mem a = readByte s.mem a := by
  rw [mem_moveData, readByte_placeBytes_out, readByte_clearRange_out ha]
  intro p hp
  simp only [List.mem_filter, Bool.and_eq_true, decide_eq_true_eq] at hp
  omega

/-- A field keeps its value when another one is set. -/
theorem extractLsb'_setField_other {w : BitVec n} {lo len v lo' len' : Nat} (h : lo' + len' ≤ lo ∨ lo + len ≤ lo') :
    (setField w lo len v).extractLsb' lo' len' = w.extractLsb' lo' len' := by
  apply BitVec.eq_of_getLsbD_eq
  intro i hi
  have hmask : ((2 ^ len - 1) * 2 ^ lo).testBit (lo' + i) = false := by
    rw [Nat.testBit_mul_two_pow, Nat.testBit_two_pow_sub_one]
    rcases h with h | h <;> simp <;> omega
  have hval : (v % 2 ^ len * 2 ^ lo).testBit (lo' + i) = false := by
    rw [Nat.testBit_mul_two_pow, Nat.testBit_mod_two_pow]
    rcases h with h | h <;> simp <;> omega
  simp only [setField, BitVec.getLsbD_extractLsb', BitVec.getLsbD_or, BitVec.getLsbD_and, BitVec.getLsbD_not, BitVec.getLsbD_ofNat, hmask, hval, hi,
    Bool.and_false, Bool.or_false, Bool.not_false, Bool.and_true]
  by_cases hn : lo' + i < n
  · simp [hn]
  · simp [hn, BitVec.getLsbD_of_ge w _ (Nat.not_lt.1 hn)]

/-- A hashed page-table entry that is PRESENT. -/
theorem present_hashed {far phys : Nat} {cell : Nat} {word : BitVec 256} :
    ∃ w : BitVec 256, PageEntry.present far phys (.hashed cell word) = .hashed cell w ∧ w.extractLsb' 192 2 = 1#2 := by
  refine ⟨_, rfl, ?_⟩
  rw [extractLsb'_setField_other (by decide), extractLsb'_setField_other (by decide), extractLsb'_setField_other (by decide),
    extractLsb'_setField _ (by decide)]
end

section
variable {s : State} {d x : Nat} {m : Move}

/-- Nothing held, nothing goes on. -/
theorem releaseHeld_of_nil (hmig : (s.ni m.oldDie).migrating = []) (hbehind : (s.ni m.oldDie).behind = []) :
    (s.releaseHeld m).mem = s.mem ∧ (s.releaseHeld m).pkg = s.pkg := by
  unfold State.releaseHeld
  dsimp only
  rw [hmig]
  dsimp only [List.filter_nil, List.foldl_nil]
  rw [releaseBehind_of_nil (by rw [ni_setNi]; exact hbehind)]
  exact ⟨rfl, rfl⟩

/-- The state in which the Vault has copied a page. -/
def State.moveCopied (s : State) (m : Move) : State :=
  let u := s.moveData (placeCell m.oldPlace m.oldDie m.oldPhys) (placeCell m.newPlace m.newDie m.newPhys) (2 ^ m.log2)
  { u with pkg := { u.pkg with moves := u.pkg.moves.filter (·.id != m.id) } }

theorem oldDie_of_find (h : (s.pkg.moves.find? fun y => y.id == x && y.oldDie == d) = some m) : m.oldDie = d := by
  have hfound := List.find?_some h
  simp only [Bool.and_eq_true, beq_iff_eq] at hfound
  exact hfound.2

/-- The end of a tier move writes the entry and lets the requests held go on. -/
theorem execVaultCopyDone_tier {cell : Nat} {word w : BitVec 256} {out : WalkRes} (hm : (s.pkg.moves.find? fun y => y.id == x && y.oldDie == d) = some m)
    (htier : m.home = false) (hentry : s.pageEntry d m.track m.va = some (.hashed cell word, out)) (hold : s.placeUp m.oldPlace d = true)
    (hnew : s.placeUp m.newPlace m.newDie = true) (hw : PageEntry.present m.newPlace m.newPhys (.hashed cell word) = .hashed cell w) :
    exec (.vaultCopyDone d x) s = .next (((s.moveCopied m).putEntry (.hashed cell w)).releaseHeld m) := by
  obtain rfl := oldDie_of_find hm
  rw [show exec (.vaultCopyDone m.oldDie x) s = execVaultCopyDone m.oldDie x s from rfl, execVaultCopyDone, hm]
  refine congrArg Host.Outcome.next ?_
  dsimp only
  rw [State.moveDone, hentry]
  simp only [hold, hnew, htier, hw, Bool.not_true, Bool.not_false, Bool.or_self, Bool.false_eq_true, if_false, if_true]
  rfl
end

/-! ## Reloads of the track table (R51) -/
section
variable {s t : State} {d i j : Nat} {v : Dword}

/-- A die has an entry of its track table as the image of `s` gives it, and no translation under it. -/
structure EntryLoaded (s t : State) (i d : Nat) : Prop where
  trk : kget 0 (t.ni d).trk i = s.trkLoaded i d
  tcache : ∀ x ∈ (t.ni d).tcache, trkIdx x.track ≠ i

theorem entryLoaded_loadTrack (hpkg : t.pkg = s.pkg) (hmem : t.mem = s.mem) : EntryLoaded s (t.loadTrack i d) i d := by
  refine ⟨?_, fun x hx => ?_⟩
  · rw [State.loadTrack, ni_setNi, trkLoaded_congr hpkg hmem, kget_loadTrack, if_pos rfl]
  · rw [State.loadTrack, ni_setNi] at hx
    simpa using (List.mem_filter.1 hx).2

theorem EntryLoaded.loadTrack (h : EntryLoaded s t i d) (hpkg : t.pkg = s.pkg) (hmem : t.mem = s.mem) : EntryLoaded s (t.loadTrack i j) i d := by
  by_cases hd : d = j
  · subst hd
    exact entryLoaded_loadTrack hpkg hmem
  · have hni : (t.loadTrack i j).ni d = t.ni d := (ni_setNi_eq ..).trans (if_neg hd)
    exact ⟨by rw [hni]; exact h.trk, by rw [hni]; exact h.tcache⟩

/-- The dies of a list reload the entry that TRKLOAD names. -/
def State.reload (s : State) (ds : List Nat) : State := ds.foldl (fun s d => s.loadTrack s.pkg.trkIndex d) s

theorem reload_frame {ds : List Nat} : (s.reload ds).pkg = s.pkg ∧ (s.reload ds).mem = s.mem :=
  List.foldlRecOn (motive := fun t : State => t.pkg = s.pkg ∧ t.mem = s.mem) _ _ ⟨rfl, rfl⟩ fun _ ht _ _ => ht

theorem entryLoaded_reload {ds : List Nat} (hd : d ∈ ds ∨ EntryLoaded s t s.pkg.trkIndex d) (hpkg : t.pkg = s.pkg) (hmem : t.mem = s.mem) :
    EntryLoaded s (t.reload ds) s.pkg.trkIndex d := by
  induction ds generalizing t with
  | nil => exact hd.resolve_left List.not_mem_nil
  | cons j r ih =>
    refine ih (t := t.loadTrack t.pkg.trkIndex j) ?_ hpkg hmem
    rw [hpkg]
    rcases hd with hd | hd
    · rcases List.mem_cons.1 hd with rfl | hd
      · exact .inr (entryLoaded_loadTrack hpkg hmem)
      · exact .inl hd
    · exact .inr (hd.loadTrack hpkg hmem)

theorem mem_liveDies (hd : isDie d = true) (hup : s.dieUp d = true) : d ∈ allDies.filter s.dieUp := by
  refine List.mem_filter.2 ⟨?_, hup⟩
  simp only [isDie, isCDie, isFDie, xDie, bDie, Bool.or_eq_true, decide_eq_true_eq, beq_iff_eq] at hd
  simp only [allDies, List.mem_append, List.mem_range, List.mem_cons, List.not_mem_nil, or_false]
  omega

/-- TRKSTAT once a reload has ended. -/
def State.reloadEnded (s : State) : State := { s with pkg := { s.pkg with trkstat := 0 } }

theorem execTrkloadDone_busy (h : s.pkg.trkstat.getLsbD 0 = true) :
    exec .trkloadDone s = .next (s.reload (allDies.filter s.dieUp)).reloadEnded := by
  rw [show exec .trkloadDone s = execTrkloadDone s from rfl, execTrkloadDone, h]
  rfl

theorem execTrkloadDone_idle (h : s.pkg.trkstat.getLsbD 0 = false) : exec .trkloadDone s = .next s := by
  rw [show exec .trkloadDone s = execTrkloadDone s from rfl, execTrkloadDone, h]
  rfl

theorem execTrkload_busy (h : s.pkg.trkstat.getLsbD 0 = true) : exec (.trkload v) s = .next s :=
  congrArg Host.Outcome.next (if_pos h)

theorem execTrkload_idle (h : s.pkg.trkstat.getLsbD 0 = false) :
    exec (.trkload v) s = .next { s with pkg := { s.pkg with trkstat := 1, trkIndex := (v.extractLsb' 0 10).toNat } } :=
  congrArg Host.Outcome.next (if_neg (by rw [h]; decide))
end

/-! ## Walks that end, and the obligation -/
section
variable {s : State} {d id c n i : Nat} {w : Walk} {e : TcEntry} {ent : BitVec 128} {p : Pkt}

theorem execWalkDone_unknown (h : ((s.ni d).walks.find? fun x => x.id == id) = none) : exec (.walkDone d id) s = .next s := by
  rw [show exec (.walkDone d id) s = execWalkDone d id s from rfl, execWalkDone, h]

theorem execWalkDone_found (h : ((s.ni d).walks.find? fun x => x.id == id) = some w) : exec (.walkDone d id) s = .next (s.walkDone d w) := by
  rw [show exec (.walkDone d id) s = execWalkDone d id s from rfl, execWalkDone, h]

/-- A READ whose walk has found its page, and that the page admits, is answered. -/
theorem walkDone_read (hent : s.trackEntry w.pkt.hopDst w.pkt.track = some ent) (hwalk : s.walk w.pkt.hopDst w.pkt.track ent w.pkt.va false = .present e)
    (hbehind : (s.ni w.pkt.hopDst).behind = []) (hty : w.pkt.ty = .read) (hop : w.pkt.op = .read) (hsrc : w.pkt.srcPkg = 0) (hway : s.canAnswer w.pkt)
    (hcheck : s.homeCheck w.pkt.hopDst w.pkt true = .ok [(c, n)]) (hclean : s.poisoned c n = false) :
    ∃ t, s.walkDone w.pkt.hopDst w = t ∧ e ∈ (t.ni w.pkt.hopDst).tcache ∧ t.mem = s.mem ∧ (∀ x ∈ (t.ni w.pkt.hopDst).walks, x.id ≠ w.id) ∧
      t.replied w.pkt .readReply 0 ((List.range n).map fun i => readByte s.mem (c + i)) := by
  have hstore : w.pkt.memOp.changes = false := by
    rw [Pkt.memOp, hty, hop]
    rfl
  have hrun : (s.walked w.pkt.hopDst w e).homeRun w.pkt.hopDst w.pkt true =
      ((s.walked w.pkt.hopDst w e).answer w.pkt.hopDst w.pkt .readReply 0 0 0 ((List.range n).map fun i => readByte s.mem (c + i))).settleRecord
        w.pkt.hopDst w.pkt := by
    rw [State.homeRun, sameChecks_walked.homeCheck (.inl rfl), hcheck]
    exact congrArg (State.settleRecord · w.pkt.hopDst w.pkt) (perform_read hty hclean)
  obtain ⟨fq, hfq⟩ := ni_settleRecord (d := w.pkt.hopDst) (p := w.pkt) (s := (s.walked w.pkt.hopDst w e).answer w.pkt.hopDst w.pkt .readReply 0 0 0
    ((List.range n).map fun i => readByte s.mem (c + i)))
  have hni : ((s.walked w.pkt.hopDst w e).homeRun w.pkt.hopDst w.pkt true).ni w.pkt.hopDst =
      { s.ni w.pkt.hopDst with walks := (s.ni w.pkt.hopDst).walks.filter fun x => x.id != w.id,
                               tcache := tcInsert e (s.ni w.pkt.hopDst).tcache, fq := fq } := by
    rw [hrun, hfq, State.ni, onWire_answer.nis, ← State.ni, State.walked, ni_setNi]
  refine ⟨_, walkDone_present hent (hstore ▸ hwalk), ?_⟩
  rw [releaseBehind_of_nil (by rw [hni]; exact hbehind), ni_setNi_self, hni]
  refine ⟨mem_tcInsert, ?_, fun x hx => by simpa using (List.mem_filter.1 hx).2, replied_congr rfl ?_⟩
  · rw [mem_setNi, hrun, mem_settleRecord, mem_answer]
    rfl
  · rw [hrun]
    exact replied_congr net_settleRecord (replied_answer hsrc (canAnswer_congr (s := s) rfl (fun _ _ => rfl) hway))

/-- The status of a record that has been answered REFUSE, NOT_MAPPED where it names none (R62). -/
theorem refusedStatus (st : BitVec 4) : BitVec.ofNat 64 (if st.toNat ≠ 0 then st.toNat else 3) = if st = 0 then 3 else zext64 st := by
  revert st
  decide
end

/-- Settles O47: each event goes through the lemma that says what it makes of the state. -/
theorem translationAndLogEvents : Obligations.TranslationAndLogEvents := by
  unfold Obligations.TranslationAndLogEvents
  intro s die id idx c n k r va ix at' w p tk e
  dsimp only
  refine ⟨execWalkDone_unknown, ?_, ?_, execFaultRecordTimeout_free, execLogApply_empty, ?_, ?_, ?_, ?_, ?_⟩
  · intro ent hfind hent _ hwalk _ hbehind hty hop hsrc hdie hway hcheck hclean
    subst hdie
    obtain ⟨t, ht, hcached, hmem, hwalks, hreplied⟩ := walkDone_read hent hwalk hbehind hty hop hsrc hway hcheck hclean
    have hid : w.id = id := by simpa using List.find?_some hfind
    exact ⟨t, (execWalkDone_found hfind).trans (congrArg _ ht), hcached, hmem, hid ▸ hwalks, hreplied⟩
  · intro hidx hbehind hheld haction hrank hdie hsrc hway
    have hanswer : ∀ a, exec (.faultAnswer die idx a) s = .next (s.faultAnswer die idx a) := fun a => by
      rw [show exec (.faultAnswer die idx a) s = execFaultAnswer die idx a s from rfl, execFaultAnswer, Nat.mod_eq_of_lt hidx]
    refine ⟨fun st => ?_, fun st => ?_, fun hdue => ?_, execFaultRecordTimeout_early⟩
    · obtain ⟨hmem, hfree, hreplied⟩ := recordAnswered_refuse (i := idx) (st := if st.toNat ≠ 0 then st.toNat else 3)
        (r := { kget FaultRec.free (s.ni die).fq idx with action := 2, status := st, held := none }) rfl hbehind hrank hdie hsrc hway
      exact ⟨_, (hanswer _).trans (congrArg _ (faultAnswer_refused hheld haction)), hmem, hfree, refusedStatus st ▸ hreplied⟩
    · refine ⟨_, (hanswer _).trans (congrArg _ (faultAnswer_pending hheld)), rfl, rfl, ?_⟩
      rw [record_putRecord]
      exact hheld
    · obtain ⟨hmem, hfree, hreplied⟩ := recordAnswered_refuse (i := idx) (st := 8)
        (r := { kget FaultRec.free (s.ni die).fq idx with held := none }) rfl hbehind hrank hdie hsrc hway
      exact ⟨_, execFaultRecordTimeout_due hheld haction hdue, hmem, hfree, hreplied⟩
  · intro hone
    refine ⟨execLogApply_young hone, fun hold hd => ⟨_, execLogApply_old hone hold, ?_⟩⟩
    rw [ni_applyOne hd]
    refine ⟨mem_applyOne, rfl, rfl, fun x hx => by simpa using (List.mem_filter.1 hx).2, fun hpage x hx => ?_⟩
    exact (mem_tcDrop.1 (tcache_applyRecord_page hpage ▸ hx)).2
  · refine ⟨_, rfl, fun hnone => ?_, fun hone halone hcovers => ?_⟩
    · have ht := Host.Outcome.next.inj (execAppliedIndexReport_unawaited (d := die) hnone)
      rw [ht, State.reportKnown, ni_setNi]
      exact ⟨rfl, rfl⟩
    · have ht := Host.Outcome.next.inj (execAppliedIndexReport_awaited (d := die) hone (ivlSynced_reportKnown hcovers))
      rw [ht]
      exact slotAt_finishWait_none (s := s.reportKnown die) halone
  · intro pe m pa hentry hup hrange
    refine ⟨fun hd hnear hm haligned hfits hold hnew hread hwrite ⟨hready, hvaultUp⟩ => ?_,
      fun dest hd hdest hne hold hnew haligned hfits hslot hread hwrite ⟨hready, hvaultUp⟩ => ?_⟩
    · have hplace : e.place = 0 := place_of_near hnear
      rw [hnear] at hready hvaultUp ⊢
      obtain ⟨hmem, hcache, hmoves⟩ := moveStart_begins (home := false) (new := die) (phys := pa)
        { entry := hentry, die := die_lt (.inl hd), range := hrange, vault := hplace ▸ vaultFor_far, ready := hready, vaultUp := hvaultUp, up := hup
          oldUp := hplace ▸ hold, newUp := hnew, aligned := haligned, fits := hfits, kinds := fun _ => by simp [hplace]
          readable := hplace ▸ hread, writable := hwrite, slot := fun h => nomatch h }
      exact ⟨_, execTierMove_start hd hm, hmem, hcache, hmoves⟩
    · obtain ⟨hmem, hcache, hmoves⟩ := moveStart_begins (home := true) (new := dest) (phys := pa)
        { entry := hentry, die := die_lt hd, range := hrange, vault := vaultFor_near, ready := hready, vaultUp := hvaultUp, up := hup
          oldUp := hold, newUp := hnew, aligned := haligned, fits := hfits, kinds := fun h => nomatch h
          readable := hread, writable := hwrite, slot := fun _ => hslot }
      exact ⟨_, execHomeMove_start hd hdest hne, hmem, hcache, hmoves⟩
  · intro m cell word out hfind htier hentry hold hnew hmig hbehind hwf
    obtain ⟨wd, hw, hstate⟩ := present_hashed (far := m.newPlace) (phys := m.newPhys) (cell := cell) (word := word)
    have hdone := execVaultCopyDone_tier hfind htier hentry hold hnew hw
    obtain rfl := oldDie_of_find hfind
    obtain ⟨hmem, hpkg⟩ := releaseHeld_of_nil (s := (s.moveCopied m).putEntry (.hashed cell wd)) (m := m) hmig hbehind
    refine ⟨_, hdone, fun x hx => ?_, fun j hj hout => ?_, fun a hdst hcell => ?_, ?_⟩
    · rw [hpkg] at hx
      simpa using (List.mem_filter.1 hx).2
    · rw [hmem]
      refine (readByte_writeBytes_out _ _ _ _ ?_).trans (readByte_moveData_in hwf.1 hj)
      rw [length_bytesLE]
      omega
    · rw [hmem]
      refine (readByte_writeBytes_out _ _ _ _ ?_).trans (readByte_moveData_out hdst)
      rwa [length_bytesLE]
    · rw [State.entry32, State.loadLE, hmem]
      exact (congrArg (BitVec.extractLsb' 192 2) (entry32_store (s := s.moveCopied m) (who := none))).trans hstate
  · intro v
    refine ⟨execTrkload_busy, fun hidle => ⟨execTrkloadDone_idle hidle, _, execTrkload_idle hidle, rfl, rfl, ?_, rfl⟩, fun hbusy =>
      ⟨_, execTrkloadDone_busy hbusy, reload_frame.2, rfl, fun d hd hup => ?_⟩⟩
    · exact BitVec.extractLsb'_toNat ..
    · obtain ⟨htrk, hcache⟩ := entryLoaded_reload (t := s) (.inl (mem_liveDies hd hup)) rfl rfl
      exact ⟨htrk, hcache⟩
end Sys2Proof.Machine
end

section
/-!
PROOF of the refutation of O43. An answer that carries a baton record waits for the bank that its address names, though an answer touches no bank; the clause of
WRITE_ACK is proved for answers without one.
-/
namespace Sys2Proof.Machine

/-! ## WRITE_ACK as it holds -/
section
variable {s : State} {p : Pkt} {pid k r d tag : Nat} {w : Wait}

theorem kfind_kdel_same {α : Type} {j : Nat} {m : KMap α} : kfind (kdel j m) j = none := by
  induction m with
  | nil => rfl
  | cons q m ih =>
    rw [kdel, List.filter_cons]
    split
    next hne => rw [kfind, if_neg (by simpa using Ne.symm (bne_iff_ne.1 hne))]; exact ih
    next => exact ih

/-- The tag of a completed request is dropped from the requests to ranks, and nothing else of the state is. -/
theorem rankDone_eq : ∃ nis, s.rankDone d tag = { s with nis := nis } := by
  unfold State.rankDone
  dsimp only
  split
  · exact ⟨_, rfl⟩
  · exact ⟨_, rfl⟩

theorem waitOf_parked (h : s.parkedAlone k r w) : s.waitOf r = w := by
  obtain ⟨hslot, -, hparked, hwait, -⟩ := h
  rw [State.waitOf, hslot]
  exact (if_pos hparked).trans hwait

/-- The state once an answer has come: its tag is given up, and the requests to ranks are as `nis` says. -/
def State.tagEnded (s : State) (tag : Nat) (nis : KMap Ni) : State := { s with nis := nis, owners := kdel tag s.owners }

theorem writeAcked_store (howner : kfind s.owners p.tag = some (.baton r)) (halone : s.parkedAlone k r (.store p.tag)) :
    ∃ nis, s.writeAcked p = (s.tagEnded p.tag nis).finishWait r .none := by
  obtain ⟨nis, hdone⟩ := rankDone_eq (s := s) (d := epDie p.dst) (tag := p.tag)
  have hwait : (s.tagEnded p.tag nis).waitOf r = .store p.tag := waitOf_parked (s := s.tagEnded p.tag nis) halone
  refine ⟨nis, ?_⟩
  rw [State.writeAcked, hdone]
  dsimp only
  rw [howner]
  show (s.tagEnded p.tag nis).ackReply r p = _
  rw [State.ackReply, hwait]
  exact if_pos rfl

/-- The clause of WRITE_ACK for a parked store as it holds: of a packet that carries no baton record. -/
theorem execWriteAck_of_no_record (h : s.arrived pid p) (hty : p.ty = .writeAck) (hrecord : p.enqueue = none)
    (howner : kfind s.owners p.tag = some (.baton r)) (halone : s.parkedAlone k r (.store p.tag)) :
    ∃ t, exec (.writeAck pid) s = .next t ∧ t.slotAt k = (s.slotAt k).resumed 0 0 ∧ kfind t.owners p.tag = none ∧ t.mem = s.mem := by
  have hcells : s.pktCells p.hopDst p = [] := by
    rw [State.pktCells, hrecord, hty]
    rfl
  have hwire : OnWire s (s.takePkt pid p) := onWire_takePkt
  have hthere : (s.takePkt pid p).parkedAlone k r (.store p.tag) ∧ (s.takePkt pid p).owners = s.owners := by
    rw [hwire]
    exact ⟨halone, rfl⟩
  obtain ⟨hparked, howners⟩ := hthere
  obtain ⟨nis, hacked⟩ := writeAcked_store (p := p) (howners.symm ▸ howner) hparked
  have hfinish := finishWait_alone (s := (s.takePkt pid p).tagEnded p.tag nis) (eff := .none) hparked rfl
  have hexec := deliverPkt_arrived (tys := [.writeAck]) (f := State.writeAcked) h (by rw [hty]; rfl)
  rw [hcells, granted_nil, if_pos rfl, hacked, unstallAt_of_pkg h (by rw [hfinish]; exact hwire.pkg)] at hexec
  refine ⟨_, congrArg Host.Outcome.next hexec, ?_, ?_, ?_⟩
  · rw [slotAt_finishWait_none (s := (s.takePkt pid p).tagEnded p.tag nis) hparked]
    exact congrArg (fun x => (kget Slot.empty x k).resumed 0 0) hwire.slots
  · rw [hfinish]
    exact kfind_kdel_same
  · rw [hfinish]
    exact hwire.mem
end

/-! ## The counterexample -/

/-- A WRITE_ACK from die 0 to itself that carries a baton record in the TCM of core 0. -/
def recordAck : Pkt :=
  { Pkt.blank with ty := .writeAck, va := tcmCell 0 0, src := niEp 0, dst := niEp 0, tag := 7, enqueue := some 0 }

/-- That packet at die 0, whose core 0 has its TCM gated and a baton parked on the store that the packet acknowledges. -/
def gatedAck : State :=
  { State.reset with
    net := [(1, recordAck)], owners := [(7, .baton (spadCell 0 0))],
    slots := [(0, { Slot.empty with mode := .parked, wait := .store 7, xbaton := BitVec.ofNat 64 spadBase })],
    pkg := { Pkg.init with ready := 1, power := [(0, { Power.init with off := [(2, 0)] })] } }

theorem gatedAck_arrived : gatedAck.arrived 1 recordAck := by decide

theorem gatedAck_parked : gatedAck.parkedAlone 0 (spadCell 0 0) (.store 7) := by decide

theorem gatedAck_waits : exec (.writeAck 1) gatedAck = .next (gatedAck.stallPkt 1 [tcmCell 0 0]) := by
  have hcells : gatedAck.pktCells recordAck.hopDst recordAck = [tcmCell 0 0] := rfl
  have hgated : gatedAck.granted (pktKey 1) [tcmCell 0 0] = false := by decide
  have hdeliver := deliverPkt_arrived (tys := [.writeAck]) (f := State.writeAcked) gatedAck_arrived (by decide)
  rw [hcells, hgated, if_neg Bool.false_ne_true] at hdeliver
  exact congrArg Host.Outcome.next hdeliver

/-- Refutes O43: a WRITE_ACK that carries a baton record whose bank is gated waits for the bank, and the store that it acknowledges stays parked. -/
theorem not_answersAtTheirIssuer : ¬ Obligations.AnswersAtTheirIssuer := by
  unfold Obligations.AnswersAtTheirIssuer
  intro h
  obtain ⟨-, hbaton, -⟩ := h gatedAck 1 0 (spadCell 0 0) 7 recordAck 0
  obtain ⟨howned, -⟩ := hbaton gatedAck_arrived
  obtain ⟨-, -, -, hstore, -⟩ := howned rfl
  obtain ⟨t, ht, hslot, -⟩ := hstore gatedAck_parked rfl
  obtain rfl : gatedAck.stallPkt 1 [tcmCell 0 0] = t := Host.Outcome.next.inj (gatedAck_waits.symm.trans ht)
  have hstill : (gatedAck.stallPkt 1 [tcmCell 0 0]).slotAt 0 = gatedAck.slotAt 0 :=
    congrArg (kget Slot.empty · 0) (stallKey_frame gatedAck (pktKey 1) 0 [tcmCell 0 0]).2.1
  rw [hstill] at hslot
  exact absurd (congrArg Slot.mode hslot) (by decide)
end Sys2Proof.Machine
end

section
/-!
PROOF of O50. What each event of the Starter makes of the state: an equation of each, for the intake, admission, completion, reports, placement, energy and
graph definitions, from which the obligation is read off.
-/
namespace Sys2Proof.Machine

/-- An event leaves the thread slots as they are and what follows meets `P`. -/
def Gives (s : State) (i : Instr) (P : State → Prop) : Prop := ∃ t, exec i s = .next t ∧ t.slots = s.slots ∧ P t

/-! ## The intake (R75, R80) -/
section
variable {s : State} {r : BitVec 512} {st n : Nat} {baton slot : Option Nat} {forbidden : Bool} {i : Instr} {v : Dword} {core : Nat}

/-- A Starter that is down, or an oldest record that still waits for writes of the host, holds the queue. -/
theorem drainIntake_of_held (h : ∀ x rest, s.starter.intake = x :: rest → s.starterUp = false ∨ x.after.any s.hostPosted.contains = true) :
    s.drainIntake n = s := by
  cases n with
  | zero => rfl
  | succ n =>
    rw [State.drainIntake]
    split
    next => rfl
    next x rest hqueue =>
      refine if_pos ?_
      obtain hdown | hwaits := h x rest hqueue
      · exact .inl (by rw [hdown]; rfl)
      · exact .inr hwaits

theorem drainIntake_of_empty (h : s.starter.intake = []) : s.drainIntake n = s :=
  drainIntake_of_held fun _ _ e => nomatch h.symm.trans e

theorem intakeJoin_drops (h : s.starterUp = false ∨ 256 ≤ s.starter.intake.length) : s.intakeJoin r baton slot forbidden = s.dropIntake := by
  refine if_pos (h.imp_left fun hdown => ?_)
  rw [hdown]
  rfl

/-- The state with the intake queue as given. -/
def State.withIntake (s : State) (q : List IntakeRec) : State := s.setStarter { s.starter with intake := q }

theorem hostPosted_withIntake {q : List IntakeRec} : (s.withIntake q).hostPosted = s.hostPosted := rfl

theorem withIntake_self (h : s.starter.intake = []) : s.withIntake [] = s := by
  rw [State.withIntake, ← h]
  rfl

/-- A record as it joins the queue: it stands behind the writes that the host has posted. -/
def State.waitingRec (s : State) (r : BitVec 512) (baton slot : Option Nat) (forbidden : Bool) : IntakeRec :=
  { record := r, after := s.hostPosted, baton := baton, slot := slot, forbidden := forbidden }

theorem intakeJoin_empty (hup : s.starterUp = true) (hempty : s.starter.intake = []) :
    s.intakeJoin r baton slot forbidden = s.withIntake [s.waitingRec r baton slot forbidden] := by
  unfold State.intakeJoin
  rw [if_neg (by simp [hup, hempty]), hempty]
  rfl

/-- A record that is dropped leaves the queue held, where it is held. -/
theorem takeIntake_drops (hdrop : s.starterUp = false ∨ 256 ≤ s.starter.intake.length)
    (hheld : ∀ x rest, s.starter.intake = x :: rest → s.starterUp = false ∨ x.after.any s.hostPosted.contains = true) :
    (s.intakeJoin r baton slot forbidden).takeIntake = s.dropIntake := by
  rw [intakeJoin_drops hdrop]
  exact drainIntake_of_held hheld

/-- A record behind writes of the host waits. -/
theorem takeIntake_waits (hup : s.starterUp = true) (hempty : s.starter.intake = []) (hposted : s.hostPosted ≠ []) :
    (s.intakeJoin r baton slot forbidden).takeIntake = s.withIntake [s.waitingRec r baton slot forbidden] := by
  rw [intakeJoin_empty hup hempty]
  refine drainIntake_of_held fun x rest hqueue => .inr ?_
  obtain ⟨rfl, -⟩ := List.cons.inj hqueue
  obtain ⟨w, hw⟩ := List.exists_mem_of_ne_nil _ hposted
  rw [hostPosted_withIntake]
  exact List.any_eq_true.2 ⟨w, hw, List.contains_iff_mem.2 hw⟩

/-- A record that finds nothing before it is taken at once. -/
theorem takeIntake_takes (hup : s.starterUp = true) (hempty : s.starter.intake = []) (hposted : s.hostPosted = [])
    (hrest : (s.takeRecord r forbidden).2.starter.intake = []) :
    (s.intakeJoin r none slot forbidden).takeIntake = (s.takeRecord r forbidden).2 := by
  have hnone : ¬((!s.starterUp) = true ∨ (s.waitingRec r none slot forbidden).after.any s.hostPosted.contains = true) := by
    simp [hup, State.waitingRec, hposted]
  calc (s.intakeJoin r none slot forbidden).takeIntake
    _ = (s.withIntake [s.waitingRec r none slot forbidden]).drainIntake (255 + 1) := by rw [intakeJoin_empty hup hempty]; rfl
    _ = ((s.withIntake []).takeRecord r forbidden).2.drainIntake 255 := if_neg hnone
    _ = (s.takeRecord r forbidden).2 := by rw [withIntake_self hempty, drainIntake_of_empty hrest]

theorem rejectRecord_of_no_frame (h : recFrame r = 0) : s.rejectRecord r st = s.setStarter { s.starter with rejected := s.starter.rejected + 1 } :=
  if_pos (.inl h)

theorem takeRecord_broken (h : recordBroken r = true) (hframe : recFrame r = 0) :
    (s.takeRecord r false).2 = s.setStarter { s.starter with rejected := s.starter.rejected + 1 } := by
  have hbad : (false || s.recordBad r) = true := by
    simp [State.recordBad, h]
  rw [State.takeRecord, if_pos hbad]
  exact rejectRecord_of_no_frame hframe

theorem takeRecord_overCap (h : s.recordBad r = false) (hclaim : s.stamCap < recClaim r) (hframe : recFrame r = 0) :
    (s.takeRecord r false).2 = s.setStarter { s.starter with rejected := s.starter.rejected + 1 } := by
  rw [State.takeRecord, if_neg (by simp [h]), if_pos hclaim]
  exact rejectRecord_of_no_frame hframe

/-- A launch as the intake submits it. -/
def submitted (r : BitVec 512) : Launch :=
  { record := r, state := .queued, remainder := 0, measured := 0, placed := none, ended := none, preempted := false, node := none }

theorem takeRecord_sound (h : s.recordBad r = false) (hclaim : recClaim r ≤ s.stamCap) : (s.takeRecord r false).2 =
    s.setStarter { s.starter with launches := kset (s.starter.seq + 1) (submitted r) s.starter.launches, seq := s.starter.seq + 1,
                                  admission := s.starter.admission ++ [s.starter.seq + 1] } := by
  rw [State.takeRecord, if_neg (by simp [h]), if_neg (by omega)]
  rfl

/-- What becomes of a record that the intake takes as it comes. -/
theorem exec_takes (hup : s.starterUp = true) (hempty : s.starter.intake = []) (hposted : s.hostPosted = [])
    (hi : exec i s = .next (s.intakeJoin r none slot false).takeIntake) :
    (recordBroken r = true → recFrame r = 0 → Gives s i fun t => t.starter = { s.starter with rejected := s.starter.rejected + 1 } ∧ t.mem = s.mem) ∧
    (s.recordBad r = false → s.stamCap < recClaim r → recFrame r = 0 →
      Gives s i fun t => t.starter = { s.starter with rejected := s.starter.rejected + 1 }) ∧
    (s.recordBad r = false → recClaim r ≤ s.stamCap → Gives s i fun t => t.starter.seq = s.starter.seq + 1 ∧
      t.starter.rejected = s.starter.rejected ∧ t.starter.admission = s.starter.admission ++ [s.starter.seq + 1] ∧ t.mem = s.mem ∧
      ∃ x, t.launchOf (s.starter.seq + 1) = some x ∧ x.record = r ∧ x.remainder = 0 ∧ x.node = none) := by
  have htake {u : State} (hu : (s.takeRecord r false).2 = u) (hrest : u.starter.intake = []) : exec i s = .next u := by
    subst hu
    rw [hi, takeIntake_takes hup hempty hposted hrest]
  refine ⟨fun hbroken hframe => ⟨_, htake (takeRecord_broken hbroken hframe) hempty, rfl, rfl, rfl⟩,
    fun hsound hclaim hframe => ⟨_, htake (takeRecord_overCap hsound hclaim hframe) hempty, rfl, rfl⟩,
    fun hsound hclaim => ⟨_, htake (takeRecord_sound hsound hclaim) hempty, rfl, rfl, rfl, rfl, rfl,
      submitted r, kfind_kset_same _ _ _, rfl, rfl, rfl⟩⟩

/-- The write that the intake can take: 64 aligned bytes with all enables (R80). -/
def WholeWrite (w : IntakeWrite) : Prop := w.offset % 64 = 0 ∧ w.len = 64 ∧ w.full = true

theorem exec_intakeWrite_unready {w : IntakeWrite} (h : s.readyBit 55 = false) : exec (.intakeWrite w) s = .next s := by
  refine congrArg Host.Outcome.next (if_pos ?_)
  rw [h]
  rfl

theorem exec_intakeWrite_partial {w : IntakeWrite} (hready : s.readyBit 55 = true) (h : ¬WholeWrite w) :
    exec (.intakeWrite w) s = .next s.dropIntake := by
  refine congrArg Host.Outcome.next ((if_neg (by rw [hready]; decide)).trans (if_pos ?_))
  rw [WholeWrite, not_and_or, not_and_or] at h
  exact h.imp_right (Or.imp_right fun hfull => by simpa using hfull)

theorem exec_intakeWrite_whole {w : IntakeWrite} (hready : s.readyBit 55 = true) (h : WholeWrite w) :
    exec (.intakeWrite w) s = .next (s.intakeJoin w.record none none false).takeIntake := by
  obtain ⟨hoff, hlen, hfull⟩ := h
  exact congrArg Host.Outcome.next ((if_neg (by rw [hready]; decide)).trans (if_neg (by simp [hoff, hlen, hfull])))

/-- A whole write that the queue does not admit is dropped like a partial one. -/
theorem exec_intakeWrite_drops {w : IntakeWrite} (hready : s.readyBit 55 = true)
    (hdrop : ¬WholeWrite w ∨ s.starterUp = false ∨ 256 ≤ s.starter.intake.length)
    (hheld : ∀ x rest, s.starter.intake = x :: rest → ¬WholeWrite w ∨ s.starterUp = false ∨ x.after.any s.hostPosted.contains = true) :
    exec (.intakeWrite w) s = .next s.dropIntake := by
  by_cases hwhole : WholeWrite w
  · rw [exec_intakeWrite_whole hready hwhole]
    have hnot {q : Prop} : ¬WholeWrite w ∨ q → q := fun h => h.resolve_left (not_not_intro hwhole)
    exact congrArg Host.Outcome.next (takeIntake_drops (hnot hdrop) fun x rest hqueue => hnot (hheld x rest hqueue))
  · exact exec_intakeWrite_partial hready hwhole

theorem exec_intakecommit_own (h : v.toNat < 16) (hcore : core = v.toNat) :
    exec (.intakecommit core v) s = .next (s.intakeJoin s.pkg.staging[v.toNat] none (some v.toNat) false).takeIntake := by
  subst hcore
  refine congrArg Host.Outcome.next ?_
  rw [if_pos h, State.intakeCommit, dif_pos h, if_neg (not_not_intro rfl)]

theorem exec_intakecommit_drops (h : 16 ≤ v.toNat ∨ core ≠ v.toNat ∨ s.starterUp = false) :
    exec (.intakecommit core v) s = .next s.dropIntake := by
  by_cases hslot : v.toNat < 16
  · by_cases hcore : core = v.toNat
    · have hdown : s.starterUp = false := by
        simpa [hcore, Nat.not_le.2 hslot] using h
      rw [exec_intakecommit_own hslot hcore]
      exact congrArg Host.Outcome.next (takeIntake_drops (.inl hdown) fun _ _ _ => .inl hdown)
    · refine congrArg Host.Outcome.next ?_
      rw [State.intakeCommit, dif_pos hslot, if_pos]
      split
      · exact fun e => hcore (Option.some.inj e)
      · exact nofun
  · exact congrArg Host.Outcome.next (dif_neg hslot)
end

/-! ## Admission (R85, R86) -/
section
variable {s : State} {n : Nat} {l : Launch}

theorem exec_launchAdmit_idle (h : s.starterUp = false ∨ s.starter.stopped = true ∨ s.starter.admission = []) : exec .launchAdmit s = .next s := by
  refine congrArg Host.Outcome.next ?_
  unfold State.launchAdmit
  split
  · rfl
  · next hrun =>
    have hempty : s.starter.admission = [] := by
      simpa [Bool.not_eq_true] using (or_assoc.2 h).resolve_left (by simpa using hrun)
    rw [hempty]
    rfl

theorem singleHeld_of_kind (hkind : recKind l.record = 0) : s.singleHeld l = false := by
  simp [State.singleHeld, hkind]

/-- A launch that is neither a graph launch nor a graph node is admitted where its claim is covered and its deadline has not passed. -/
theorem admissible_iff (hkind : recKind l.record = 0) (hnode : l.node = none) : s.admissible l = true ↔
    (recClaim l.record : Int) ≤ s.available ∧ (recWtime l.record = 0 ∨ s.swcAt bDie ≤ recWtime l.record) := by
  simp [State.admissible, singleHeld_of_kind hkind, hnode]

/-- Such a launch at the head of admission goes first, or waits with all behind it. -/
theorem nextAdmit_head {rest : List Nat} (hl : s.launchOf n = some l) (hkind : recKind l.record = 0) (hnode : l.node = none) :
    s.nextAdmit (n :: rest) = if s.admissible l then some (n, l) else none := by
  have haside : s.isAside l = false := by
    simp [State.isAside, hnode, singleHeld_of_kind hkind]
  rw [State.nextAdmit, hl]
  simp only [haside, Bool.false_eq_true, if_false]

/-- A launch goes from admission to placement, with its claim as its remainder. -/
def State.toPlacement (s : State) (n : Nat) (l : Launch) : State :=
  s.setStarter { s.starter with
    admission := s.starter.admission.filter (· != n), placement := s.starter.placement ++ [n],
    launches := kset n { l with remainder := recClaim l.record, state := .placing (s.swcAt bDie) } s.starter.launches }

variable (hup : s.starterUp = true) (hrun : s.starter.stopped = false) (hhead : s.starter.admission = [n]) (hl : s.launchOf n = some l)
  (hkind : recKind l.record = 0) (hnode : l.node = none)
include hup hrun hhead hl hkind hnode

theorem exec_launchAdmit_uncovered (h : s.available < recClaim l.record) : exec .launchAdmit s = .next s := by
  have hnot : s.admissible l = false := Bool.eq_false_iff.2 fun hadm => by
    have := ((admissible_iff hkind hnode).1 hadm).1
    omega
  refine congrArg Host.Outcome.next ((if_neg (by simp [hup, hrun])).trans ?_)
  rw [hhead, nextAdmit_head hl hkind hnode, hnot]
  rfl

theorem exec_launchAdmit_covered (hclaim : (recClaim l.record : Int) ≤ s.available)
    (hwtime : recWtime l.record = 0 ∨ s.swcAt bDie ≤ recWtime l.record) : Gives s .launchAdmit fun t =>
      t.starter.admission = [] ∧ t.starter.placement = s.starter.placement ++ [n] ∧ t.mem = s.mem ∧
      t.launchOf n = some { l with remainder := recClaim l.record, state := .placing (s.swcAt bDie) } := by
  have hnext : s.nextAdmit s.starter.admission = some (n, l) := by
    rw [hhead, nextAdmit_head hl hkind hnode, if_pos ((admissible_iff hkind hnode).2 ⟨hclaim, hwtime⟩)]
  have hadmit : s.launchAdmit = s.toPlacement n l := by
    refine (if_neg (by simp [hup, hrun])).trans ?_
    rw [hnext]
    exact if_neg fun h : recKind l.record = 1 => absurd (hkind.symm.trans h) Nat.zero_ne_one
  have hempty : s.starter.admission.filter (· != n) = [] := by
    rw [hhead]
    exact List.filter_cons_of_neg (by simp)
  exact ⟨_, congrArg Host.Outcome.next hadmit, rfl, hempty, rfl, rfl, kfind_kset_same _ _ _⟩
end

/-! ## Launches that complete (R82, R88) -/
section
variable {s : State} {n status c : Nat} {l : Launch}

theorem abortCycle_frame : (s.abortCycle c).slots = s.slots ∧ (s.abortCycle c).starter = s.starter := by
  unfold State.abortCycle
  dsimp only
  split <;> exact ⟨rfl, rfl⟩

theorem abortCyclesOf_frame : (s.abortCyclesOf n).slots = s.slots ∧ (s.abortCyclesOf n).starter = s.starter :=
  List.foldlRecOn (motive := fun t : State => t.slots = s.slots ∧ t.starter = s.starter) _ _ ⟨rfl, rfl⟩ fun _ ht _ _ =>
    ⟨abortCycle_frame.1.trans ht.1, abortCycle_frame.2.trans ht.2⟩

theorem fireMsi_frame : s.fireMsi.slots = s.slots ∧ ∃ m, s.fireMsi.starter = { s.starter with msi := m } := by
  unfold State.fireMsi
  split
  · exact ⟨rfl, _, rfl⟩
  · exact ⟨rfl, s.starter.msi, rfl⟩

/-- What the end of a launch that is no graph node shows: it is in the table no more, its status is kept first, and DONESEQ counts it. -/
structure LaunchEnded (s t : State) (n status : Nat) : Prop where
  slots : t.slots = s.slots
  gone : t.launchOf n = none
  kept : t.starter.statuses.head? = some (n, status)
  counted : t.starter.doneSeq = s.starter.doneSeq + 1

theorem endLaunch_ended (hl : s.launchOf n = some l) (hnode : l.node = none) : LaunchEnded s (s.endLaunch n status) n status := by
  have hends : ∃ u : State, s.endLaunch n status = u.fireMsi.freeVersions ∧ u.slots = s.slots ∧
      u.starter.launches = kdel n s.starter.launches ∧ u.starter.statuses = ((n, status) :: s.starter.statuses).take 4096 ∧
      u.starter.doneSeq = s.starter.doneSeq + 1 := by
    rw [State.endLaunch, hl]
    dsimp only
    rw [hnode]
    exact ⟨_, rfl, rfl, rfl, rfl, rfl⟩
  obtain ⟨u, hu, hslots, hlaunches, hstatuses, hdone⟩ := hends
  obtain ⟨hmsi, m, hm⟩ := fireMsi_frame (s := u)
  rw [hu]
  refine ⟨hmsi.trans hslots, ?_, ?_, ?_⟩
  · show kfind u.fireMsi.starter.launches n = none
    rw [hm, hlaunches, kfind_kdel_same]
  · show u.fireMsi.starter.statuses.head? = _
    rw [hm, hstatuses]
    rfl
  · show u.fireMsi.starter.doneSeq = _
    rw [hm, hdone]

theorem finishLaunch_ended (hl : s.launchOf n = some l) (hnode : l.node = none) (hframe : recFrame l.record = 0) :
    LaunchEnded s (s.finishLaunch n status) n status := by
  obtain ⟨hslots, hstarter⟩ := abortCyclesOf_frame (s := s) (n := n)
  have hone : s.finishOne n status = (s.abortCyclesOf n).endLaunch n status := by
    rw [State.finishOne, hl]
    simp only [State.writeCompletion, hframe, if_true]
  have hended : LaunchEnded s (s.finishOne n status) n status := by
    have hl' : (s.abortCyclesOf n).launchOf n = some l := by
      rw [State.launchOf, hstarter]
      exact hl
    obtain ⟨eslots, egone, ekept, ecounted⟩ := endLaunch_ended (status := status) hl' hnode
    rw [hone]
    exact ⟨eslots.trans hslots, egone, ekept, ecounted.trans (by rw [hstarter])⟩
  have hfinish : s.finishLaunch n status = s.finishOne n status := by
    rw [State.finishLaunch, hl]
    simp only [hended.gone, Option.isSome_none, Bool.false_eq_true, if_false, State.nodeEnded, hnode]
  rwa [hfinish]

/-- An event that completes a launch. -/
theorem gives_finishLaunch {i : Instr} (hl : s.launchOf n = some l) (hnode : l.node = none) (hframe : recFrame l.record = 0)
    (hi : exec i s = .next (s.finishLaunch n status)) : Gives s i fun t => t.launchOf n = none ∧
      t.starter.statuses.head? = some (n, status) ∧ t.starter.doneSeq = s.starter.doneSeq + 1 ∧ t.mem = s.mem := by
  obtain ⟨hslots, hgone, hkept, hcounted⟩ := finishLaunch_ended (status := status) hl hnode hframe
  exact ⟨_, hi, hslots, hgone, hkept, hcounted, mem_finishLaunch⟩

theorem exec_admissionDeadline_passed (hl : s.launchOf n = some l) (hqueue : n ∈ s.starter.admission) (hwtime : recWtime l.record ≠ 0)
    (hlate : recWtime l.record < s.swcAt bDie) : exec (.admissionDeadline n) s = .next (s.finishLaunch n 4) := by
  refine congrArg Host.Outcome.next ?_
  rw [State.admissionDeadline, hl]
  exact if_pos (by simp [hqueue, hwtime, hlate])

theorem exec_admissionDeadline_early (hl : s.launchOf n = some l) (h : recWtime l.record = 0 ∨ s.swcAt bDie ≤ recWtime l.record) :
    exec (.admissionDeadline n) s = .next s := by
  refine congrArg Host.Outcome.next ?_
  rw [State.admissionDeadline, hl]
  exact if_neg (by simp; omega)

theorem exec_placementTimeout_due {t0 : Nat} (hl : s.launchOf n = some l) (hstate : l.state = .placing t0) (hplace : recPlace l.record = 0xFFFF)
    (hdue : t0 + 1048576 ≤ s.swcAt bDie) : exec (.placementTimeout n) s = .next (s.finishLaunch n 3) := by
  refine congrArg Host.Outcome.next ?_
  rw [State.placementTimeout, hl]
  simp only [hstate]
  exact if_pos ⟨hplace, hdue⟩

theorem exec_placementTimeout_early {t0 : Nat} (hl : s.launchOf n = some l) (hstate : l.state = .placing t0)
    (h : s.swcAt bDie < t0 + 1048576) : exec (.placementTimeout n) s = .next s := by
  refine congrArg Host.Outcome.next ?_
  rw [State.placementTimeout, hl]
  simp only [hstate]
  exact if_neg fun hdue => Nat.not_le.2 h hdue.2
end

/-! ## Energy (R86) -/
section
variable {s : State} {n m die energy c c' : Nat} {l l' : Launch}

theorem exec_energyMeasure_down (h : s.dieUp die = false) : exec (.energyMeasure die energy) s = .next s :=
  congrArg Host.Outcome.next (if_pos (by rw [h]; rfl))

/-- A launch after its share of a measurement: the energy in proportion to its slot-cycles, rounded down. -/
def Launch.drawn (x : Launch) (energy a total : Nat) : Launch :=
  { x with measured := x.measured + energy * a / total, remainder := x.remainder - energy * a / total }

/-- The charge of one launch of a measurement: only a running one draws its share. -/
def State.charged (s : State) (energy total : Nat) (p : Nat × Nat) : State :=
  match s.launchOf (p.1 / 32) with
  | some l => if l.state == .running then s.setLaunch (p.1 / 32) (l.drawn energy p.2 total) else s
  | none => s

theorem charged_running (hl : s.launchOf n = some l) (hrun : l.state = .running) (hdie : die < 32) {total : Nat} :
    s.charged energy total (n * 32 + die, c) = s.setLaunch n (l.drawn energy c total) := by
  have hkey : (n * 32 + die) / 32 = n := by omega
  rw [State.charged, hkey, hl]
  exact if_pos (by rw [hrun]; rfl)

/-- The energy drawn on a die is debited, and the slot-cycles there are counted anew. -/
def State.debited (s : State) (die energy : Nat) : State :=
  s.setStarter { s.starter with reservoir := s.starter.reservoir - (energy : Int) * mJ,
                                slotCycles := s.starter.slotCycles.filter fun p => p.1 % 32 != die }

theorem energyMeasure_up (hup : s.dieUp die = true) {mine : List (Nat × Nat)} (hmine : s.starter.slotCycles.filter (fun p => p.1 % 32 == die) = mine) :
    s.energyMeasure die energy = mine.foldl (fun t p => t.charged energy (mine.map Prod.snd).sum p) (s.debited die energy) := by
  subst hmine
  exact if_neg (by simp [hup])

/-- Two launches that ran on a die share what it drew. -/
theorem exec_energyMeasure_shares (hup : s.dieUp die = true) (hdie : die < 32) (hne : m ≠ n) (hl : s.launchOf n = some l)
    (hl' : s.launchOf m = some l') (hrun : l.state = .running) (hrun' : l'.state = .running)
    (hcycles : s.starter.slotCycles = [(n * 32 + die, c), (m * 32 + die, c')]) : Gives s (.energyMeasure die energy) fun t =>
      t.starter.reservoir = s.starter.reservoir - energy * 1600000 ∧ t.mem = s.mem ∧ t.starter.slotCycles = [] ∧
      t.launchOf n = some (l.drawn energy c (c + c')) ∧ t.launchOf m = some (l'.drawn energy c' (c + c')) := by
  have hmine : s.starter.slotCycles.filter (fun p => p.1 % 32 == die) = [(n * 32 + die, c), (m * 32 + die, c')] := by
    simp [hcycles, Nat.mod_eq_of_lt hdie]
  have hrest : s.starter.slotCycles.filter (fun p => p.1 % 32 != die) = [] := by
    simp [hcycles, Nat.mod_eq_of_lt hdie]
  have hsecond : ((s.debited die energy).setLaunch n (l.drawn energy c (c + c'))).launchOf m = some l' := (kfind_kset_other _ _ _ _ hne).trans hl'
  have hmeasure : s.energyMeasure die energy =
      ((s.debited die energy).setLaunch n (l.drawn energy c (c + c'))).setLaunch m (l'.drawn energy c' (c + c')) := by
    rw [energyMeasure_up hup hmine]
    simp only [List.foldl_cons, List.foldl_nil, List.map_cons, List.map_nil, List.sum_cons, List.sum_nil, Nat.add_zero]
    rw [charged_running (s := s.debited die energy) hl hrun hdie, charged_running hsecond hrun' hdie]
  exact ⟨_, congrArg Host.Outcome.next hmeasure, rfl, rfl, rfl, hrest,
    (kfind_kset_other _ _ _ _ hne.symm).trans (kfind_kset_same _ _ _), kfind_kset_same _ _ _⟩
end

/-! ## Resource reports (R87) -/
section
variable {s : State} {pcl pid : Nat} {p : Pkt}

theorem exec_resourceReport_no_cluster (h : 288 ≤ pcl) : exec (.resourceReport pcl) s = .next s :=
  congrArg Host.Outcome.next (if_pos h)

theorem epDie_niEp {d : Nat} : epDie (niEp d) = d := by
  unfold epDie niEp mkEp
  omega

/-- The packet of a cluster's report. -/
def reportPkt (pcl : Nat) (word : Dword) : Pkt :=
  { Pkt.blank with ty := .write, op := .write, va := resourceOffset pcl, src := niEp (pcl / 24), dst := mgmtEp, master := 1,
                   elems := [(resourceOffset pcl, 8)], data := bytesLE 8 word.toNat }

/-- The first report of a cluster is due at once. -/
theorem exec_resourceReport_first (hpcl : pcl < 288) (hup : s.dieUp (pcl / 24) = true) (hb : s.dieUp bDie = true)
    (hlink : s.linkUp (pcl / 24) bDie = true) (hrseq : (s.cluster pcl).rseq = 0) : Gives s (.resourceReport pcl) fun t =>
      t.mem = s.mem ∧ (t.cluster pcl).rseq = 1 ∧ t.inFlight fun q => q.ty = .write ∧ q.va = 0x2000 + 8 * pcl ∧ q.src = niEp (pcl / 24) ∧
        q.dst = mgmtEp ∧ q.master = 1 ∧ q.track = 0 ∧ q.data = bytesLE 8 (1#16 ++ (s.resourceWord pcl).extractLsb' 0 48).toNat := by
  let u := s.setCluster pcl { s.cluster pcl with rseq := (s.cluster pcl).rseq + 1, reportAt := s.swcAt (pcl / 24), reported := s.resourceWord pcl }
  let q := reportPkt pcl (((s.cluster pcl).rseq + 1) ++ (s.resourceWord pcl).extractLsb' 0 48)
  have hsend : s.resourceReport pcl = u.send q := by
    refine (if_neg (Nat.not_le.2 hpcl)).trans ((if_neg (by rw [hup]; decide)).trans (if_neg ?_))
    simp [hrseq]
  have haccept : u.send q = u.accept (pcl / 24) bDie q := by
    have hdie : epDie q.src = pcl / 24 := epDie_niEp
    have hdst : epDie q.dst = bDie := show epDie mgmtEp = bDie by decide
    have hep : isEp q.dst = true := show isEp mgmtEp = true by decide
    rw [State.send, hdie, ← hdst]
    exact send_accepts u (pcl / 24) q rfl hep (by rw [hdst]; exact hb) (by rw [hdst]; exact hlink)
  have hseq : (u.cluster pcl).rseq = 1 := by
    show (State.cluster (s.setCluster _ _) _).rseq = _
    rw [cluster_setCluster, hrseq]
    rfl
  refine ⟨_, congrArg Host.Outcome.next (hsend.trans haccept), rfl, rfl, hseq, accept_inFlight _ _ _ _ _ ⟨rfl, rfl, rfl, rfl, rfl, rfl, ?_⟩⟩
  show bytesLE 8 (((s.cluster pcl).rseq + 1) ++ (s.resourceWord pcl).extractLsb' 0 48).toNat = _
  rw [hrseq]
  rfl

/-- With nothing in placement, a report is only kept. -/
theorem reported_idle {word : Dword} (h : s.starter.placement = []) :
    s.reported pcl word = s.setStarter { s.starter with resources := kset pcl word s.starter.resources } := by
  show List.foldl _ _ s.starter.placement = _
  rw [h]
  rfl

theorem starter_takePkt : (s.takePkt pid p).starter = s.starter := by
  rw [show s.takePkt pid p = _ from onWire_takePkt]

/-- A report that the management block admits is kept, and acknowledged. -/
theorem mgmtPkt_report (hty : p.ty = .write) (hpcl : pcl < 288) (hva : p.va = 0x2000 + 8 * pcl) (hsrc : p.src = niEp (pcl / 24))
    (hlen : p.data.length = 8) (hup : s.dieUp (pcl / 24) = true) (hidle : s.starter.placement = [])
    (hadmits : s.ataperAdmits bDie 0 p.track (p.classAt bDie) .write = true) : s.mgmtPkt p =
      (s.setStarter { s.starter with resources := kset pcl (BitVec.ofNat 64 (natLE p.data)) s.starter.resources }).answer bDie p .writeAck 0 0 0 [] := by
  have hcluster : (p.va - 0x2000) / 8 = pcl := by omega
  unfold State.mgmtPkt
  dsimp only
  rw [if_pos hadmits, hcluster, if_pos ⟨hty, hva, hpcl, hsrc, hlen, hup⟩, reported_idle hidle]

/-- A cluster's report reaches the Starter's table. -/
theorem exec_write_report (hasked : s.asked pid p) (hty : p.ty = .write) (hdst : p.dst = mgmtEp) (hhop : p.hopDst = bDie) (hpcl : pcl < 288)
    (hva : p.va = 0x2000 + 8 * pcl) (hsrc : p.src = niEp (pcl / 24)) (hlen : p.data.length = 8) (hup : s.dieUp (pcl / 24) = true)
    (hidle : s.starter.placement = []) (hadmits : s.ataperAdmits bDie 0 p.track (p.classAt bDie) .write = true) :
    Gives s (.write pid) fun t => t.mem = s.mem ∧ t.resource pcl = BitVec.ofNat 64 (natLE p.data) ∧ t.replied p .writeAck 0 [] := by
  have hsame := (onWire_takePkt (s := s) (pid := pid) (p := p)).sameChecks
  let u := (s.takePkt pid p).setStarter { (s.takePkt pid p).starter with
    resources := kset pcl (BitVec.ofNat 64 (natLE p.data)) (s.takePkt pid p).starter.resources }
  let f := fun (s : State) (p : Pkt) => if p.dst = mgmtEp then s.mgmtPkt p else s.homePkt p.hopDst p
  have hdone : f (s.takePkt pid p) p = u.answer p.hopDst p .writeAck 0 0 0 [] := by
    refine (if_pos hdst).trans ?_
    rw [hhop]
    exact mgmtPkt_report hty hpcl hva hsrc hlen ((hsame.dieUp _).trans hup) ((congrArg Starter.placement starter_takePkt).trans hidle)
      ((hsame.ataperAdmits _ _ _ _ _).trans hadmits)
  obtain ⟨-, -, hrecord, -⟩ := id hasked
  obtain ⟨t, ht, rfl, hreplied⟩ := exec_answered (i := .write pid) (f := f) (u := u) hasked (by rw [hty]; rfl)
    (fun c hc b => bank_pktCells hrecord (by rw [hty]; decide) hc) ⟨rfl, rfl⟩ (by rw [hdone]) (by rw [hdone, onWire_answer.pkg])
  refine ⟨_, ht, ?_, ?_, ?_, hreplied⟩
  · rw [hdone, onWire_answer.slots]
    exact onWire_takePkt.slots
  · rw [hdone, mem_answer]
    exact mem_takePkt
  · rw [hdone, show u.answer p.hopDst p .writeAck 0 0 0 [] = _ from onWire_answer]
    exact kget_kset_same _ _ _ _
end

/-! ## Records of batons (R90, R92) -/
section
variable {s : State} {pcl a o n m launch : Nat} {l : List Byte} {b : Nat × Nat × Nat}

theorem recPcl_spadCell (hpcl : pcl < 288) (ho : o < 2 ^ 22) : recPcl (spadCell pcl o) = pcl := by
  have hcell : spadCell pcl o - 0x00F800000000 = pcl / 24 * 2 ^ 27 + pcl % 24 * 2 ^ 22 + o := by
    unfold spadCell
    omega
  unfold recPcl
  rw [hcell]
  dsimp only
  omega

theorem bankOf_spad (hpcl : pcl < 288) (ho : o < 2 ^ 22) : bankOf (spadCell pcl o) = some (pcl / 24, 1, pcl % 24) := by
  have h := bankOf_spadCell (d := pcl / 24) (cl := pcl % 24) (by omega) (Nat.mod_lt _ (by decide)) ho
  rwa [Nat.div_add_mod'] at h

theorem spadCell_add : spadCell pcl o + a = spadCell pcl (o + a) := Nat.add_assoc _ _ _

/-- What the hardware writes to a powered bank is a store. -/
theorem hwStore_of_powered (hbank : bankOf a = some b) (hup : s.bankUp b = true) : s.hwStore a l = s.store none a l := by
  have hon : s.bankOff b = false ∧ s.bankWaking b = false := by
    simpa [State.bankUp] using hup
  have hwake : s.startWake b = s := if_neg (by simp [hon.1])
  rw [State.hwStore, hbank]
  simp only [hwake, hon.2, Bool.false_eq_true, if_false]

/-- A part of a value that has been written is read again. -/
theorem readLE_writeBytes_part {mem : Memory} {v : Nat} (h : o + m ≤ n) :
    readLE (writeBytes mem a (bytesLE n v)) (a + o) m = v / 256 ^ o % 256 ^ m := by
  rw [← natLE_bytesLE, readLE, readBytes_eq_map, bytesLE_eq_map m]
  refine congrArg natLE (List.map_congr_left fun i hi => ?_)
  have hin : o + i < (bytesLE n v).length := by
    rw [length_bytesLE]
    have := List.mem_range.1 hi
    omega
  rw [Nat.add_assoc, readByte_writeBytes_in hin]
  simp only [bytesLE_eq_map, List.getElem_map, List.getElem_range, Nat.div_div_eq_div_mul, pow_add]

theorem any_record_setQueue {c : Cluster} {role : BitVec 2} {r : Ready} :
    ((c.setQueue role [r]).ready.toList.any fun q => q.any fun x => x.record == r.record) = true :=
  List.any_eq_true.2 ⟨[r], Vector.mem_toList_iff.2 (Vector.mem_set (hi := role.isLt) ..), by simp⟩

/-- Where the ready queues of its cluster are empty, a record is enqueued by two writes to its own doublewords and stands alone on a queue. -/
theorem enqueue_alone (hpcl : pcl < 288) (ho : o + 0x28 ≤ 2 ^ 22) (hempty : ∀ q, (s.cluster pcl).queue q = [])
    (hup : s.bankUp (pcl / 24, 1, pcl % 24) = true) : ∃ v c, s.enqueue (spadCell pcl o) launch =
      ((s.store none (spadCell pcl o + 0x18) (bytesLE 8 v)).store none (spadCell pcl o + 0x20) (bytesLE 8 0)).setCluster pcl c ∧
      c.carves = (s.cluster pcl).carves ∧ c.ready.toList.any (fun q => q.any fun r => r.record == spadCell pcl o) = true := by
  have hcl : recPcl (spadCell pcl o) = pcl := recPcl_spadCell hpcl (by omega)
  have hqueue (q : BitVec 2) : ((s.cluster pcl).ready.map (cutAfter (spadCell pcl o)))[q.toNat]'q.isLt = [] := by
    rw [Vector.getElem_map, show (s.cluster pcl).ready[q.toNat]'q.isLt = [] from hempty q]
    rfl
  have hwrite {u : State} (hu : u.pkg = s.pkg) (k : Nat) (hk : k < 0x28) (v : Dword) :
      u.recWrite (spadCell pcl o) k v = u.store none (spadCell pcl o + k) (bytesLE 8 v.toNat) := by
    refine hwStore_of_powered (b := (pcl / 24, 1, pcl % 24)) ?_ ?_
    · rw [spadCell_add]
      exact bankOf_spad hpcl (by omega)
    · rw [← hup]
      unfold State.bankUp State.bankOff State.bankWaking State.power
      rw [hu]
  unfold State.enqueue
  dsimp only
  rw [hcl]
  simp only [Cluster.queue, hqueue, List.getLast?_nil, List.any_nil, Bool.false_eq_true, if_false, List.nil_append]
  rw [hwrite (u := s) rfl 0x18 (by decide), hwrite (u := s.store none (spadCell pcl o + 0x18) _) rfl 0x20 (by decide)]
  exact ⟨_, _, rfl, rfl, any_record_setQueue⟩
end

/-- The memory with a record of 64 bytes written, and its CTRL and WKEY as the enqueue leaves them (R90, R92). -/
def recordWritten (mem : Memory) (a r ctrl : Nat) : Memory :=
  writeBytes (writeBytes (writeBytes mem a (bytesLE 64 r)) (a + 0x18) (bytesLE 8 ctrl)) (a + 0x20) (bytesLE 8 0)

theorem readByte_recordWritten_out {mem : Memory} {a r ctrl c : Nat} (h : c < a ∨ a + 64 ≤ c) :
    readByte (recordWritten mem a r ctrl) c = readByte mem c := by
  unfold recordWritten
  rw [readByte_writeBytes_out _ _ _ _ (by rw [length_bytesLE]; omega), readByte_writeBytes_out _ _ _ _ (by rw [length_bytesLE]; omega),
    readByte_writeBytes_out _ _ _ _ (by rw [length_bytesLE]; omega)]

/-- The other doublewords are those of the record. -/
theorem load64_recordWritten {s : State} {mem : Memory} {a r ctrl o : Nat} {x : Dword} (hmem : s.mem = recordWritten mem a r ctrl)
    (hout : o + 8 ≤ 0x18 ∨ 0x28 ≤ o) (hin : o + 8 ≤ 64) (hx : r / 256 ^ o % 256 ^ 8 = x.toNat) : s.load64 (a + o) = x := by
  have hread : readLE s.mem (a + o) 8 = readLE (writeBytes mem a (bytesLE 64 r)) (a + o) 8 := by
    rw [hmem]
    refine readLE_congr fun i hi => ?_
    unfold recordWritten
    rw [readByte_writeBytes_out _ _ _ _ (by rw [length_bytesLE]; omega), readByte_writeBytes_out _ _ _ _ (by rw [length_bytesLE]; omega)]
  rw [State.load64, State.loadLE, hread, readLE_writeBytes_part hin, hx, BitVec.ofNat_toNat, BitVec.setWidth_eq]

/-- The first baton's record begins with the launch's PC and ends with its ARG (R79, R89). -/
theorem firstRecord_pc (r : BitVec 512) : (firstRecord r).toNat / 256 ^ 0 % 256 ^ 8 = (recPc r).toNat := by
  have := (recPc r).isLt
  unfold firstRecord
  dsimp only
  rw [toNat_append_eq_add]
  omega

theorem firstRecord_arg (r : BitVec 512) : (firstRecord r).toNat / 256 ^ 0x38 % 256 ^ 8 = (r.extractLsb' 448 64).toNat := by
  have harg := (r.extractLsb' 448 64).isLt
  have hframe := (r.extractLsb' 384 64).isLt
  have hpc := (recPc r).isLt
  unfold firstRecord
  dsimp only
  generalize hctrl : ctrlWord _ _ _ _ _ _ _ _ _ = ctrl
  have hctrlLt := ctrl.isLt
  simp only [toNat_append_eq_add]
  simp only [BitVec.toNat_ofNat] at *
  omega

/-! ## Placement (R88, R89) -/
section
variable {s : State} {n pcl : Nat} {l : Launch}

theorem nextPlace_head {rest : List Nat} (hl : s.launchOf n = some l) (hpick : s.pickCluster l = some pcl) :
    s.nextPlace (n :: rest) = some (n, l, pcl) := by
  rw [State.nextPlace, hl]
  simp only [hpick]

theorem freeRun_nil {kib fuel : Nat} (h : kib ≤ 3071) : freeRun [] kib (fuel + 1) 0 = some 0 := by
  rw [freeRun, if_neg (by omega)]
  rfl

theorem exec_launchPlace_early {t0 : Nat} (hat : s.starter.placedAt = some t0) (h : s.swcAt bDie < t0 + 16) : exec .launchPlace s = .next s := by
  refine congrArg Host.Outcome.next (if_pos ?_)
  rw [hat]
  simp [h]

/-- The Starter with a launch placed: the launch runs, and the cluster's word has the reservation and a slot less. -/
def State.placedStarter (s : State) (n : Nat) (l : Launch) (pcl : Nat) : State :=
  let kib := max (recSpill l.record) 1
  let w := s.resource pcl
  let word : Dword := w.extractLsb' 19 45 ++ BitVec.ofNat 12 (resSpill w - kib) ++ BitVec.ofNat 7 (resSlots w - 1)
  let s' := s.setStarter { s.starter with placement := s.starter.placement.filter (· != n), placedAt := some (s.swcAt bDie),
                                          resources := kset pcl word s.starter.resources }
  s'.setLaunch n { l with state := .running, placed := some pcl }

/-- The carve-out of a launch alone on a cluster: the lowest KiB of the area. -/
def firstCarve (l : Launch) : Carve :=
  let fin := carveLow + max (recSpill l.record) 1 * 1024
  { base := carveLow, fin := fin, low := carveLow + 64, high := fin, xovf := 0, small := 0, large := 0 }

/-- What placement on a cluster without reservations does, in its turn at the scratchpad. -/
def State.placeOn (s : State) (n : Nat) (l : Launch) (pcl : Nat) : State :=
  (((s.placedStarter n l pcl).setCarve pcl n (firstCarve l)).storeLE none (spadCell pcl 0) 64 (firstRecord l.record).toNat).enqueue (spadCell pcl 0) n

theorem launchPlace_alone (hup : s.starterUp = true) (hat : s.starter.placedAt = none) (hqueue : s.starter.placement = [n])
    (hl : s.launchOf n = some l) (hpick : s.pickCluster l = some pcl) (hcarves : (s.cluster pcl).carves = []) (hspill : recSpill l.record ≤ 3071) :
    s.launchPlace = if s.granted (placeKey pcl) [spadCell pcl 0] then (s.placeOn n l pcl).unstallAt (pcl / 24) (placeKey pcl)
      else s.stallKey (placeKey pcl) 0 [spadCell pcl 0] := by
  have hnext : s.nextPlace s.starter.placement = some (n, l, pcl) := by
    rw [hqueue, nextPlace_head hl hpick]
  have hreserved : s.reserved pcl = [] := by
    rw [State.reserved, hcarves]
    rfl
  have hrun : freeRun (s.reserved pcl) (max (recSpill l.record) 1) ((s.reserved pcl).length + 1) 0 = some 0 := by
    rw [hreserved]
    exact freeRun_nil (by omega)
  refine (if_neg ?_).trans ?_
  · rw [hup, hat]
    exact Bool.false_ne_true
  · rw [hnext]
    dsimp only
    rw [State.inTurn, hrun]
    rfl

/-- A bank that is not powered wakes where an access asks for it. -/
theorem bankWaking_startWake {b : Nat × Nat × Nat} (h : s.bankUp b = false) : (s.startWake b).bankWaking b = true := by
  unfold State.startWake
  split
  · rw [State.bankWaking, power_setPower]
    simp
  · next hnot =>
    cases hwaking : s.bankWaking b with
    | true => rfl
    | false =>
      have hoff : s.bankOff b = true := by simpa [State.bankUp, hwaking] using h
      exact absurd (by rw [hoff, hwaking]; rfl) hnot

theorem bankWaking_stallKey {b : Nat × Nat × Nat} {key cell : Nat} {stamp : Dword} (hbank : bankOf cell = some b) (h : s.bankUp b = false) :
    (s.stallKey key stamp [cell]).bankWaking b = true := by
  have hstall : s.stallKey key stamp [cell] = (s.startWake b).setPower b.1
      { (s.startWake b).power b.1 with waiters := addWaiter ((s.startWake b).power b.1).waiters (b.2.1, b.2.2, key, stamp) } := by
    rw [State.stallKey, List.filterMap_cons_some hbank]
    exact if_neg (by simp [h])
  rw [hstall, State.bankWaking, power_setPower]
  exact bankWaking_startWake h

theorem granted_one {b : Nat × Nat × Nat} {key cell : Nat} (hbank : bankOf cell = some b) (hwaiters : (s.power b.1).waiters = []) :
    s.granted key [cell] = s.bankUp b := by
  rw [State.granted, List.filterMap_cons_some hbank, List.filterMap_nil, List.all_cons, List.all_nil, bankTurn_of_no_waiters _ _ _ hwaiters]
  simp

section
variable (hup : s.starterUp = true) (hqueue : s.starter.placement = [n]) (hl : s.launchOf n = some l)
  (hpick : s.pickCluster l = some pcl) (hpcl : pcl < 288) (hcarves : (s.cluster pcl).carves = [])
  (hspill : recSpill l.record ≤ 3071) (hat : s.starter.placedAt = none)
include hup hqueue hl hpick hcarves hspill hat

theorem exec_launchPlace_wakes {b : Nat × Nat × Nat} (hbank : bankOf (spadCell pcl 0) = some b) (hoff : s.bankUp b = false) :
    ∃ t, exec .launchPlace s = .next t ∧ t.bankWaking b = true ∧ t.starter = s.starter ∧ t.mem = s.mem := by
  have hwaits : s.granted (placeKey pcl) [spadCell pcl 0] = false := by
    rw [State.granted, List.filterMap_cons_some hbank, List.all_cons, hoff]
    rfl
  have hplace := launchPlace_alone hup hat hqueue hl hpick hcarves hspill
  rw [hwaits, if_neg Bool.false_ne_true] at hplace
  obtain ⟨hmem, -, hstarter⟩ := stallKey_frame s (placeKey pcl) 0 [spadCell pcl 0]
  exact ⟨_, congrArg Host.Outcome.next hplace, bankWaking_stallKey hbank hoff, hstarter, hmem⟩

include hpcl

theorem exec_launchPlace_places (hempty : ∀ q, (s.cluster pcl).queue q = []) (hwaiters : (s.power (pcl / 24)).waiters = [])
    (hbanks : ∀ b, bankOf (spadCell pcl 0) = some b → s.bankUp b = true) : ∃ t, exec .launchPlace s = .next t ∧ t.starter.placement = [] ∧
      t.launchOf n = some { l with state := .running, placed := some pcl } ∧ t.isReady (spadCell pcl 0) = true ∧
      t.load64 (spadCell pcl 0) = recPc l.record ∧ t.load64 (spadCell pcl 0 + 0x38) = l.record.extractLsb' 448 64 ∧
      s.memSameBut t (spadCell pcl 0) 64 ∧ ∃ c, kfind (t.cluster pcl).carves n = some c ∧ c.base = 0x400000 ∧
        c.fin = 0x400000 + max (recSpill l.record) 1 * 1024 := by
  have hbank := bankOf_spad (o := 0) hpcl (by decide)
  have hgranted : s.granted (placeKey pcl) [spadCell pcl 0] = true := (granted_one hbank hwaiters).trans (hbanks _ hbank)
  let u := ((s.placedStarter n l pcl).setCarve pcl n (firstCarve l)).storeLE none (spadCell pcl 0) 64 (firstRecord l.record).toNat
  have hcluster : u.cluster pcl = { s.cluster pcl with carves := kset n (firstCarve l) (s.cluster pcl).carves } := kget_kset_same _ _ _ _
  obtain ⟨v, c, henqueue, hc, hready⟩ := enqueue_alone (s := u) (launch := n) (o := 0) hpcl (by decide) (fun q => by rw [hcluster]; exact hempty q)
    (hbanks _ hbank)
  let w := ((u.store none (spadCell pcl 0 + 0x18) (bytesLE 8 v)).store none (spadCell pcl 0 + 0x20) (bytesLE 8 0)).setCluster pcl c
  have hplace : s.launchPlace = w := by
    rw [launchPlace_alone hup hat hqueue hl hpick hcarves hspill, hgranted, if_pos rfl, State.placeOn, henqueue]
    exact unstallAt_of_no_waiters w _ _ hwaiters
  have hmem : w.mem = recordWritten s.mem (spadCell pcl 0) (firstRecord l.record).toNat v := rfl
  have hcl : w.cluster pcl = c := kget_kset_same _ _ _ _
  have hpc : w.load64 (spadCell pcl 0 + 0) = recPc l.record :=
    load64_recordWritten hmem (.inl (by decide)) (by decide) (firstRecord_pc l.record)
  rw [Nat.add_zero] at hpc
  have hfirst : s.starter.placement.filter (· != n) = [] := by
    rw [hqueue]
    exact List.filter_cons_of_neg (by simp)
  refine ⟨w, congrArg Host.Outcome.next hplace, hfirst, kfind_kset_same _ _ _, ?_, hpc,
    load64_recordWritten hmem (.inr (by decide)) (by decide) (firstRecord_arg l.record), ?_, firstCarve l, ?_, rfl, rfl⟩
  · rw [State.isReady, recPcl_spadCell hpcl (by decide), hcl]
    exact hready
  · intro a ha
    rw [hmem, readByte_recordWritten_out ha]
  · rw [hcl, hc, hcluster]
    exact kfind_kset_same _ _ _
end
end

/-! ## Graph definitions (R83, R84) -/
section
variable {s : State} {g : GraphCopy} {v : Dword} {n o off code a : Nat} {r : GraphCopy × State} {x : GraphVer}

/-- One line of a graph image asked for, at an offset from the image's address. -/
def grdefLine (r : GraphCopy × State) (base : GraphCopy) (o : Nat) : GraphCopy × State :=
  if !isGlobal (base.addr + o) then ({ r.1 with failed := true }, r.2)
  else
    let (t, u) := r.2.newTag .grdef
    ({ r.1 with parts := r.1.parts ++ [(t, o)] }, u.send (u.starterPkt .read base.track (base.addr + o) 64 t []))

theorem grdefAsk_succ : s.grdefAsk g off (n + 1) = grdefLine (s.grdefAsk g off n) g (off + 64 * n) := by
  rw [State.grdefAsk, List.range_succ, List.foldl_append]
  rfl

theorem grdefLine_of_not_global (h : addrClass (g.addr + o) ≠ .global) : grdefLine r g o = ({ r.1 with failed := true }, r.2) :=
  if_pos (by simp [isGlobal, h])

/-- The request for a line. -/
def State.lineRead (s : State) (g : GraphCopy) (o : Nat) : State :=
  (s.newTag .grdef).2.send ((s.newTag .grdef).2.starterPkt .read g.track (g.addr + o) 64 s.nextTag [])

theorem grdefLine_of_global (h : addrClass (g.addr + o) = .global) :
    grdefLine r g o = ({ r.1 with parts := r.1.parts ++ [(r.2.nextTag, o)] }, r.2.lineRead g o) :=
  if_neg (by simp [isGlobal, h])

theorem lineRead_frame : (s.lineRead g o).slots = s.slots ∧ (s.lineRead g o).starter = s.starter ∧
    (s.lineRead g o).owners = kset s.nextTag .grdef s.owners := by
  rw [show s.lineRead g o = _ from onWire_send]
  exact ⟨rfl, rfl, rfl⟩

/-- A line's home that can be reached receives the READ. -/
theorem lineRead_inFlight {dest : Nat × Nat} (ha : g.addr + o = a) (hdest : dest = s.routeTo bDie g.track a) (hpkg : dest.2 = 0)
    (hep : isEp dest.1 = true) (hup : s.dieUp (epDie dest.1) = true) (hlink : s.linkUp bDie (epDie dest.1) = true) :
    (s.lineRead g o).inFlight fun q =>
      q.ty = .read ∧ q.va = a ∧ q.track = g.track ∧ q.dst = dest.1 ∧ q.master = 5 ∧ q.tag = s.nextTag ∧ q.elems = [(a, 64)] := by
  subst ha
  subst hdest
  have hdie : epDie starterEp = bDie := by decide
  have haccept : s.lineRead g o = _ := send_accepts (s.newTag .grdef).2 (epDie starterEp)
    ((s.newTag .grdef).2.starterPkt .read g.track (g.addr + o) 64 s.nextTag []) hpkg hep hup (by rw [hdie]; exact hlink)
  rw [haccept]
  exact accept_inFlight _ _ _ _ _ ⟨rfl, rfl, rfl, rfl, rfl, rfl, rfl⟩

theorem grdefLine_frame : (grdefLine r g o).2.slots = r.2.slots ∧ (grdefLine r g o).2.starter = r.2.starter := by
  unfold grdefLine
  split
  · exact ⟨rfl, rfl⟩
  · exact ⟨lineRead_frame.1, lineRead_frame.2.1⟩

/-- Asking for lines changes neither slots nor the Starter. -/
theorem grdefAsk_frame : (s.grdefAsk g off n).2.slots = s.slots ∧ (s.grdefAsk g off n).2.starter = s.starter := by
  induction n with
  | zero => exact ⟨rfl, rfl⟩
  | succ n ih =>
    rw [grdefAsk_succ]
    exact ⟨grdefLine_frame.1.trans ih.1, grdefLine_frame.2.trans ih.2⟩

/-- Where every line's address is global, each line is asked for, in order. -/
theorem grdefAsk_global (h : ∀ i < n, addrClass (g.addr + (off + 64 * i)) = .global) : ∃ ps,
    (s.grdefAsk g off n).1 = { g with parts := g.parts ++ ps } ∧ ps.map Prod.snd = (List.range n).map fun i => off + 64 * i := by
  induction n with
  | zero => exact ⟨[], by rw [List.append_nil]; rfl, rfl⟩
  | succ n ih =>
    obtain ⟨ps, hask, hps⟩ := ih fun i hi => h i (Nat.lt_succ_of_lt hi)
    refine ⟨ps ++ [((s.grdefAsk g off n).2.nextTag, off + 64 * n)], ?_, ?_⟩
    · rw [grdefAsk_succ, grdefLine_of_global (h n (Nat.lt_succ_self n)), hask, ← List.append_assoc]
    · rw [List.map_append, hps, List.range_succ, List.map_append]
      rfl

/-- A copy that goes on changes nothing else of what its requests have left. -/
theorem setCopying_frame : (s.setCopying r).slots = r.2.slots ∧ (s.setCopying r).owners = r.2.owners ∧ (s.setCopying r).net = r.2.net ∧
    (s.setCopying r).starter.copying = some r.1 := ⟨rfl, rfl, rfl, rfl⟩

/-- A copy in progress shows in GRSTAT. -/
theorem setCopying_busy : (s.setCopying r).grBusy = true := by
  show (s.starter.grstat ||| 16#64).getLsbD 4 = true
  rw [BitVec.getLsbD_or]
  simp

theorem exec_grdef_busy (h : s.grBusy = true) : exec (.grdef v) s = .next s := congrArg Host.Outcome.next (if_pos h)

/-- The copy that GRDEF starts (R84). -/
def State.grdefCopy (s : State) (v : Dword) (parts : List (Nat × Nat)) (failed : Bool) : GraphCopy :=
  { gnum := (v.extractLsb' 48 10).toNat, addr := (v.extractLsb' 6 42).toNat * 64, track := s.pkg.grtrk.extractLsb' 0 16,
    parts := parts, got := [], failed := failed, body := false }

theorem exec_grdef_free (h : s.grBusy = false) :
    exec (.grdef v) s = .next (s.setCopying (grdefLine (s.grdefCopy v [] false, s) (s.grdefCopy v [] false) 0)) :=
  congrArg Host.Outcome.next (if_neg (by simp [h]))

theorem exec_grdef_unreadable (h : s.grBusy = false) (ha : a = (v.extractLsb' 6 42).toNat * 64) (hclass : addrClass a ≠ .global) :
    Gives s (.grdef v) fun t => t.grBusy = true ∧ t.mem = s.mem ∧ t.starter.copying = some (s.grdefCopy v [] true) := by
  subst ha
  have hexec := exec_grdef_free (v := v) h
  rw [grdefLine_of_not_global (g := s.grdefCopy v [] false) (o := 0) hclass] at hexec
  exact ⟨_, hexec, rfl, setCopying_busy, rfl, rfl⟩

/-- The header is asked for by one READ, which goes to the home of the image where that can be reached. -/
theorem exec_grdef_reads {dest : Nat × Nat} (h : s.grBusy = false) (ha : a = (v.extractLsb' 6 42).toNat * 64)
    (hdest : dest = s.routeTo bDie (s.pkg.grtrk.extractLsb' 0 16) a) (hclass : addrClass a = .global) : Gives s (.grdef v) fun t =>
      t.grBusy = true ∧ t.mem = s.mem ∧ t.starter.copying = some (s.grdefCopy v [(s.nextTag, 0)] false) ∧
      kfind t.owners s.nextTag = some .grdef ∧ (dest.2 = 0 → isEp dest.1 = true → s.dieUp (epDie dest.1) = true →
        s.linkUp bDie (epDie dest.1) = true → t.inFlight fun q => q.ty = .read ∧ q.va = a ∧ q.track = s.pkg.grtrk.extractLsb' 0 16 ∧
          q.dst = dest.1 ∧ q.master = 5 ∧ q.tag = s.nextTag ∧ q.elems = [(a, 64)]) := by
  let g := s.grdefCopy v [] false
  have hbase : g.addr + 0 = a := ha.symm
  have hexec : exec (.grdef v) s = .next (s.setCopying (s.grdefCopy v [(s.nextTag, 0)] false, s.lineRead g 0)) := by
    rw [exec_grdef_free h, grdefLine_of_global (g := g) (by rw [hbase]; exact hclass)]
    rfl
  obtain ⟨hslots, -, howners⟩ := lineRead_frame (s := s) (g := g) (o := 0)
  obtain ⟨hslots', howners', hnet, hcopying⟩ := setCopying_frame (s := s) (r := (s.grdefCopy v [(s.nextTag, 0)] false, s.lineRead g 0))
  refine ⟨_, hexec, hslots'.trans hslots, setCopying_busy, mem_send, hcopying, ?_, fun hpkg hep hup hlink => ?_⟩
  · rw [howners', howners]
    exact kfind_kset_same _ _ _
  · rw [State.inFlight, hnet]
    exact lineRead_inFlight hbase hdest hpkg hep hup hlink

theorem exec_grdefCopyDone_idle (h : s.starter.copying = none) : exec .grdefCopyDone s = .next s := by
  refine congrArg Host.Outcome.next ?_
  rw [State.grdefDone, h]

theorem exec_grdefCopyDone_waiting (hcopy : s.starter.copying = some g) (h : g.parts ≠ []) : exec .grdefCopyDone s = .next s := by
  refine congrArg Host.Outcome.next ?_
  rw [State.grdefDone, hcopy]
  exact if_pos h

/-- The code of a result stands in the low half of GRSTAT (R84). -/
theorem grstat_grResult {version : Option Nat} (h : code < 2 ^ 32) : (s.grResult version code).starter.grstat.toNat % 2 ^ 32 = code := by
  unfold State.grResult
  dsimp only [State.setStarter]
  rw [toNat_append_eq_add, BitVec.toNat_ofNat]
  omega

/-- An event that ends a copy with a result. -/
theorem gives_grResult {version : Option Nat} (h : code < 2 ^ 32) (hexec : exec .grdefCopyDone s = .next (s.grResult version code)) :
    Gives s .grdefCopyDone fun t => t.starter.copying = none ∧ t.starter.grstat.toNat % 2 ^ 32 = code ∧ t.mem = s.mem :=
  ⟨_, hexec, rfl, rfl, grstat_grResult h, rfl⟩

/-- The header of an image as the bytes that have come give it (R83). -/
def GraphCopy.header (g : GraphCopy) : BitVec 512 := BitVec.ofNat 512 (natLE (g.bytes.take 64))

/-- The number of nodes that the header gives. -/
def GraphCopy.count (g : GraphCopy) : Nat := (g.header.extractLsb' 0 9).toNat

/-- The header alone has come, and the number of nodes is one that R83 allows: the body is still to be asked for. -/
def GraphCopy.more (g : GraphCopy) : Prop := g.body = false ∧ 1 ≤ g.count ∧ g.count ≤ 256

/-- The version of a graph that is current, 0 for a graph without one. -/
def Starter.version (st : Starter) (gnum : Nat) : Nat := match st.current gnum with | some x => x.version | none => 0

/-- The graph version that a whole image makes, where R83 allows it. -/
def Starter.made (st : Starter) (g : GraphCopy) : Option GraphVer :=
  graphOf g.gnum (st.version g.gnum + 1) g.track g.header ((g.bytes.drop 64).take (96 * g.count))

/-- The state with a version added to the graph store as the current one of its graph. -/
def State.installed (s : State) (gnum : Nat) (x : GraphVer) : State :=
  s.setStarter { s.starter with graphs := (s.starter.graphs.map fun y => if y.gnum == gnum then { y with current := false } else y) ++ [x] }

section
variable (hcopy : s.starter.copying = some g) (hparts : g.parts = [])
include hcopy hparts

/-- What the end of the requests of a copy comes to (R84; log entries 135 and 136). -/
theorem grdefDone_eq : s.grdefDone = if g.failed then s.grResult none 3
    else if !g.body && decide (1 ≤ g.count) && decide (g.count ≤ 256) then
      s.setCopying (s.grdefAsk { g with body := true } 64 ((96 * g.count + 63) / 64))
    else match s.starter.made g with
      | none => s.grResult none 1
      | some x => if 128 ≤ s.starter.graphs.length then s.grResult none 2 else ((s.installed g.gnum x).grResult (some x.version) 0).freeVersions := by
  rw [State.grdefDone, hcopy]
  exact if_neg (not_not_intro hparts)

theorem exec_grdefCopyDone_failed (h : g.failed = true) : exec .grdefCopyDone s = .next (s.grResult none 3) :=
  congrArg Host.Outcome.next ((grdefDone_eq hcopy hparts).trans (if_pos h))

variable (hsound : g.failed = false)
include hsound

/-- The body of the image is asked for. -/
theorem exec_grdefCopyDone_more (hmore : g.more) (hglobal : ∀ i < (96 * g.count + 63) / 64, addrClass (g.addr + 64 + 64 * i) = .global) :
    Gives s .grdefCopyDone fun t => t.mem = s.mem ∧ ∃ x, t.starter.copying = some x ∧ x.body = true ∧ x.failed = false ∧ x.got = g.got ∧
      x.parts.map Prod.snd = (List.range ((96 * g.count + 63) / 64)).map fun i => 64 + 64 * i := by
  obtain ⟨hbody, hlow, hhigh⟩ := hmore
  have hdone : s.grdefDone = s.setCopying (s.grdefAsk { g with body := true } 64 ((96 * g.count + 63) / 64)) := by
    rw [grdefDone_eq hcopy hparts, if_neg (by rw [hsound]; exact Bool.false_ne_true), if_pos (by simp [hbody, hlow, hhigh])]
  obtain ⟨ps, hask, hps⟩ := grdefAsk_global (s := s) (g := { g with body := true }) (off := 64) fun i hi => by
    rw [← Nat.add_assoc]
    exact hglobal i hi
  refine ⟨_, congrArg Host.Outcome.next hdone, grdefAsk_frame.1, mem_grdefAsk, _, rfl, ?_⟩
  rw [hask]
  refine ⟨rfl, hsound, rfl, ?_⟩
  show (g.parts ++ ps).map Prod.snd = _
  rw [hparts, List.nil_append, hps]

variable (hwhole : ¬g.more)
include hwhole

theorem grdefDone_whole : s.grdefDone = match s.starter.made g with
    | none => s.grResult none 1
    | some x => if 128 ≤ s.starter.graphs.length then s.grResult none 2 else ((s.installed g.gnum x).grResult (some x.version) 0).freeVersions := by
  rw [grdefDone_eq hcopy hparts, if_neg (by rw [hsound]; exact Bool.false_ne_true), if_neg]
  simpa [GraphCopy.more] using hwhole

theorem exec_grdefCopyDone_bad (h : s.starter.made g = none) : exec .grdefCopyDone s = .next (s.grResult none 1) := by
  refine congrArg Host.Outcome.next ?_
  rw [grdefDone_whole hcopy hparts hsound hwhole, h]

theorem exec_grdefCopyDone_full (h : s.starter.made g ≠ none) (hfull : 128 ≤ s.starter.graphs.length) :
    exec .grdefCopyDone s = .next (s.grResult none 2) := by
  obtain ⟨x, hx⟩ := Option.ne_none_iff_exists'.1 h
  refine congrArg Host.Outcome.next ?_
  rw [grdefDone_whole hcopy hparts hsound hwhole, hx]
  exact if_pos hfull

theorem exec_grdefCopyDone_installs (h : s.starter.made g = some x) (hroom : s.starter.graphs.length < 128) :
    exec .grdefCopyDone s = .next ((s.installed g.gnum x).grResult (some x.version) 0).freeVersions := by
  refine congrArg Host.Outcome.next ?_
  rw [grdefDone_whole hcopy hparts hsound hwhole, h]
  exact if_neg (Nat.not_le.2 hroom)
end

theorem graphOf_some {gnum version : Nat} {tk : BitVec 16} {header : BitVec 512} {body : List Byte} (h : graphOf gnum version tk header body = some x) :
    x.gnum = gnum ∧ x.current = true := by
  unfold graphOf at h
  dsimp only at h
  split at h
  · cases h
  · obtain rfl := Option.some.inj h
    exact ⟨rfl, rfl⟩

theorem made_some {st : Starter} (h : st.made g = some x) : x.gnum = g.gnum ∧ x.current = true := graphOf_some h

/-- The version that has been installed is the current one of its graph, and stays as the versions without a use go. -/
theorem current_installed (hgnum : x.gnum = g.gnum) (hcur : x.current = true) :
    ((s.installed g.gnum x).grResult (some x.version) 0).freeVersions.starter.current g.gnum = some x := by
  have hold : ∀ y ∈ s.starter.graphs.map (fun y => if y.gnum == g.gnum then { y with current := false } else y),
      (y.gnum == g.gnum && y.current) = false := by
    intro y hy
    obtain ⟨y₀, -, rfl⟩ := List.mem_map.1 hy
    split
    next => exact Bool.and_false _
    next hne => rw [Bool.eq_false_iff.2 hne, Bool.false_and]
  show List.find? _ (List.filter _ (_ ++ [x])) = some x
  rw [List.find?_filter, List.find?_append, List.find?_eq_none.2 fun y hy => by simp [hold y hy]]
  simp [hgnum, hcur]

theorem freeVersions_frame : s.freeVersions.slots = s.slots ∧ s.freeVersions.starter.copying = s.starter.copying ∧
    s.freeVersions.starter.grstat = s.starter.grstat := ⟨rfl, rfl, rfl⟩

theorem grResult_frame {version : Option Nat} : (s.grResult version code).slots = s.slots ∧ (s.grResult version code).starter.copying = none :=
  ⟨rfl, rfl⟩

/-- A copy that ends with its graph installed: code 0, and the version is current. -/
theorem gives_installed (h : s.starter.made g = some x)
    (hexec : exec .grdefCopyDone s = .next ((s.installed g.gnum x).grResult (some x.version) 0).freeVersions) :
    (Gives s .grdefCopyDone fun t => t.starter.copying = none ∧ t.starter.grstat.toNat % 2 ^ 32 = 0 ∧ t.mem = s.mem) ∧
      Gives s .grdefCopyDone fun t => t.starter.current g.gnum = some x := by
  obtain ⟨hgnum, hcur⟩ := made_some h
  obtain ⟨hslots, hcopying, hgrstat⟩ := freeVersions_frame (s := (s.installed g.gnum x).grResult (some x.version) 0)
  obtain ⟨hslots', hcopying'⟩ := grResult_frame (s := s.installed g.gnum x) (code := 0) (version := some x.version)
  refine ⟨⟨_, hexec, hslots.trans hslots', hcopying.trans hcopying', ?_, ?_⟩, _, hexec, hslots.trans hslots', current_installed hgnum hcur⟩
  · rw [hgrstat, grstat_grResult (by decide)]
  · rw [mem_freeVersions, mem_grResult]
    rfl
end

/-! ## The obligation -/

/-- Settles O50: an equation of each event, from which its clauses are read off. -/
theorem starterEvents : Obligations.StarterEvents := by
  intro s rec' v n pcl core energy die off len pid full l p st now gives drops takes ends up write whole
  have hdrops {i : Instr} (h : exec i s = .next s.dropIntake) : drops i := ⟨_, h, rfl, rfl, rfl⟩
  have hdown (h : ¬up) : s.starterUp = false := Bool.eq_false_iff.2 h
  refine ⟨exec_intakeWrite_unready, fun hready => ⟨fun h => ?_, fun x rest hqueue hlen hwaits => ?_, fun hwhole hup hempty hposted => ?_,
    fun hwhole hup hempty hposted => exec_takes hup hempty hposted (exec_intakeWrite_whole hready hwhole)⟩,
    fun h => hdrops (exec_intakecommit_drops (h.imp_right (Or.imp_right hdown))),
    fun h hcore hup hempty hposted => exec_takes hup hempty hposted (exec_intakecommit_own h hcore),
    fun h => exec_launchAdmit_idle (h.imp_left hdown),
    fun hup hrun hhead hl hkind hnode => ⟨exec_launchAdmit_uncovered hup hrun hhead hl hkind hnode,
      exec_launchAdmit_covered hup hrun hhead hl hkind hnode⟩,
    fun hl hnode hframe => ⟨fun hqueue hwtime hlate => gives_finishLaunch hl hnode hframe (exec_admissionDeadline_passed hl hqueue hwtime hlate),
      exec_admissionDeadline_early hl,
      fun t0 hstate hplace hdue => gives_finishLaunch hl hnode hframe (exec_placementTimeout_due hl hstate hplace hdue),
      fun t0 hstate => exec_placementTimeout_early hl hstate⟩,
    fun hup hqueue hl hpick hpcl hcarves hempty hspill => ⟨fun t0 => exec_launchPlace_early,
      fun b hat => exec_launchPlace_wakes hup hqueue hl hpick hcarves hspill hat,
      fun hat hwaiters hbanks => exec_launchPlace_places hup hqueue hl hpick hpcl hcarves hspill hat hempty hwaiters hbanks⟩,
    exec_resourceReport_no_cluster, exec_resourceReport_first, exec_write_report, exec_energyMeasure_down,
    fun m l' c c' hup hdie hne hl hl' hrun hrun' => exec_energyMeasure_shares hup hdie hne hl hl' hrun hrun', exec_grdef_busy,
    fun hfree => ⟨exec_grdef_unreadable hfree rfl, exec_grdef_reads hfree rfl rfl⟩,
    exec_grdefCopyDone_idle, fun g => exec_grdefCopyDone_waiting, fun g hcopy hparts => ?_⟩
  case refine_1 =>
    refine hdrops (exec_intakeWrite_drops hready (h.imp_right fun hup => .inl (hdown hup)) fun _ _ _ => h.imp_right fun hup => .inl (hdown hup))
  case refine_2 =>
    refine hdrops (exec_intakeWrite_drops hready (.inr (.inr hlen)) fun y ys hys => .inr (.inr ?_))
    obtain ⟨rfl, -⟩ := List.cons.inj (hqueue.symm.trans hys)
    exact hwaits
  case refine_3 =>
    exact ⟨_, (exec_intakeWrite_whole (w := ⟨off, len, full, rec'⟩) hready hwhole).trans
      (congrArg Host.Outcome.next (takeIntake_waits hup hempty hposted)), rfl, rfl, rfl⟩
  case refine_4 =>
    intro code header n more
    refine ⟨fun hfailed => gives_grResult (by decide) (exec_grdefCopyDone_failed hcopy hparts hfailed),
      fun hsound hmore => exec_grdefCopyDone_more hcopy hparts hsound hmore, fun hsound hwhole => ?_⟩
    intro made
    refine ⟨fun hbad => ?_, fun hmade hfull => ?_, fun x hx hroom hnone => ?_⟩
    · exact gives_grResult (by decide) (exec_grdefCopyDone_bad hcopy hparts hsound hwhole hbad)
    · exact gives_grResult (by decide) (exec_grdefCopyDone_full hcopy hparts hsound hwhole hmade hfull)
    · exact gives_installed hx (exec_grdefCopyDone_installs hcopy hparts hsound hwhole hx hroom)

end Sys2Proof.Machine
end

section
/-! PROOF of O22. What an arrival, a withdrawal and a join do to a hurdle, one lemma a case (R100). -/
namespace Sys2Proof.Machine

/-- The member's BMAP bit is set: it has arrived in this generation (R100). -/
def Hurdle.hasArrived (h : Hurdle) (m : Nat) : Prop := h.bmap = true ∧ m < 64 ∧ h.mask.getLsbD m = true

/-- MASK with the member's bit, where BMAP counts members. -/
def Hurdle.marked (h : Hurdle) (m : Nat) : BitVec 64 :=
  if h.bmap = true ∧ m < 64 then h.mask ||| 1#64 <<< m else h.mask

theorem Hurdle.hasArrived_iff (h : Hurdle) (m : Nat) :
    (h.bmap && decide (m < 64) && h.mask.getLsbD m) = true ↔ h.hasArrived m := by
  simp [Hurdle.hasArrived, and_assoc]

/-- A second arrival of a member only sets DUP. -/
theorem Hurdle.arrive_of_hasArrived {h : Hurdle} {m : Nat} (hd : h.hasArrived m) :
    h.arrive m 0 = ({ h with err := h.err ||| 1#32 <<< 16 }, false) := by
  have hbit : (h.mode.getLsbD 1 && decide (m < 64) && h.mask.getLsbD m) = true := (h.hasArrived_iff m).mpr hd
  simp only [Hurdle.arrive, Hurdle.bmap, hbit, BitVec.ofNat_eq_ofNat, BitVec.or_zero, if_true]

/-- An arrival with no status marks the member; then ARR is compared with EXP. -/
theorem Hurdle.arrive_of_not_hasArrived {h : Hurdle} {m : Nat} (hd : ¬ h.hasArrived m) :
    h.arrive m 0 = if h.exp ≤ h.arr then ({ h with mask := h.marked m, err := h.err ||| 1#32 <<< 17 }, false)
      else ({ h with mask := h.marked m, arr := h.arr + 1 }, h.arr + 1 == h.exp) := by
  by_cases hm : h.bmap = true ∧ m < 64
  · have hmark : (h.mode.getLsbD 1 && decide (m < 64)) = true := by simpa [Hurdle.bmap] using hm
    have hbit : h.mask.getLsbD m = false := by simpa [Hurdle.hasArrived, hm] using hd
    simp only [show h.marked m = _ from if_pos hm, Hurdle.arrive, Hurdle.bmap, hbit, hmark, BitVec.ofNat_eq_ofNat,
      BitVec.or_zero, Bool.and_false, Bool.false_eq_true, if_false, if_true]
  · have hmark : (h.mode.getLsbD 1 && decide (m < 64)) = false := by simpa [Hurdle.bmap] using hm
    simp only [show h.marked m = _ from if_neg hm, Hurdle.arrive, Hurdle.bmap, hmark, BitVec.ofNat_eq_ofNat,
      BitVec.or_zero, Bool.false_and, Bool.false_eq_true, if_false]

/-- ARR raised below EXP meets it exactly at the number one more. -/
theorem succ_beq_iff {a e : BitVec 32} (hlt : a.toNat < e.toNat) :
    (a + 1 == e) = decide (a.toNat + 1 = e.toNat) := by
  rw [Bool.eq_iff_iff, beq_iff_eq, decide_eq_true_iff]
  bv_omega

/-- A withdrawal at EXP 0 only sets OVER. -/
theorem Hurdle.withdraw_of_exp_zero {h : Hurdle} (m : Nat) (h0 : h.exp = 0) :
    h.withdraw m = ({ h with err := h.err ||| 1#32 <<< 17 }, false) := if_pos h0

/-- A withdrawal of a member that has arrived takes its arrival back. -/
theorem Hurdle.withdraw_of_hasArrived {h : Hurdle} {m : Nat} (h0 : h.exp ≠ 0) (hd : h.hasArrived m) :
    h.withdraw m = ({ h with exp := h.exp - 1, mask := h.mask &&& ~~~(1#64 <<< m), arr := h.arr - 1 },
      !(h.arr == h.exp) && h.arr - 1 == h.exp - 1) := by
  have hbit : (h.mode.getLsbD 1 && decide (m < 64) && h.mask.getLsbD m) = true := (h.hasArrived_iff m).mpr hd
  simp only [Hurdle.withdraw, Hurdle.bmap, if_neg h0, hbit, if_true]

/-- Another withdrawal lowers EXP alone. -/
theorem Hurdle.withdraw_of_not_hasArrived {h : Hurdle} {m : Nat} (h0 : h.exp ≠ 0) (hd : ¬ h.hasArrived m) :
    h.withdraw m = ({ h with exp := h.exp - 1 }, !(h.arr == h.exp) && h.arr == h.exp - 1) := by
  have hbit : (h.mode.getLsbD 1 && decide (m < 64) && h.mask.getLsbD m) = false :=
    Bool.eq_false_iff.mpr (mt (h.hasArrived_iff m).mp hd)
  simp only [Hurdle.withdraw, Hurdle.bmap, if_neg h0, hbit, Bool.false_eq_true, if_false]

/-- A withdrawal above EXP 0: EXP falls, GEN and ERR stay, and it completes where ARR meets EXP for the first time. -/
theorem Hurdle.withdraw_of_exp_ne_zero {h : Hurdle} (m : Nat) (h0 : h.exp ≠ 0) :
    (h.withdraw m).1.exp = h.exp - 1 ∧ (h.withdraw m).1.gen = h.gen ∧ (h.withdraw m).1.err = h.err ∧
      ((h.withdraw m).2 = true ↔ h.arr ≠ h.exp ∧ (h.withdraw m).1.arr = (h.withdraw m).1.exp) := by
  by_cases hd : h.hasArrived m
  · rw [Hurdle.withdraw_of_hasArrived h0 hd]
    simp
  · rw [Hurdle.withdraw_of_not_hasArrived h0 hd]
    simp

/-- Settles O22: an arrival and a withdrawal, split on the member's BMAP bit and on ARR or EXP. -/
theorem hurdleRules : Obligations.HurdleRules := by
  unfold Obligations.HurdleRules
  intro h m
  refine ⟨Hurdle.arrive_of_hasArrived, fun hd hle => ?full, fun hd hlt => ?counts,
    Hurdle.withdraw_of_exp_zero m, fun h0 => ?lowers, ?join, fun _ _ _ => rfl⟩
  case full => exact (Hurdle.arrive_of_not_hasArrived hd).trans (if_pos hle)
  case counts =>
    have hgt : ¬ h.exp ≤ h.arr := Nat.not_le.mpr hlt
    have harr : h.arr + 1 = BitVec.ofNat 32 (h.arr.toNat + 1) := by bv_omega
    rw [← succ_beq_iff hlt, ← harr]
    exact (Hurdle.arrive_of_not_hasArrived hd).trans (if_neg hgt)
  case lowers =>
    obtain ⟨hexp, hgen, herr, hdone⟩ := Hurdle.withdraw_of_exp_ne_zero m h0
    have hpred : (h.exp - 1).toNat = h.exp.toNat - 1 := by bv_omega
    refine ⟨by rw [hexp, hpred], hgen, herr, fun hd => ?_, fun hd => ?_, hdone⟩
    · rw [Hurdle.withdraw_of_hasArrived h0 hd]
      exact ⟨rfl, rfl⟩
    · rw [Hurdle.withdraw_of_not_hasArrived h0 hd]
      exact ⟨rfl, rfl⟩
  case join =>
    have hall : h.exp = BitVec.allOnes 32 ↔ h.exp.toNat = 2 ^ 32 - 1 := by
      rw [← BitVec.toNat_inj, BitVec.toNat_allOnes]
    simp only [Hurdle.join, hall]

end Sys2Proof.Machine
end

section
/-! PROOF of O24. LAP.END, DOM.RD, WAIT.UNTIL and WAIT.PROMISE of a baton alone: each is one branch of its meaning, ended by the lemmas of how an
instruction ends. -/
namespace Sys2Proof.Machine

variable {s : State} {rd rs1 : Reg} {v : Dword} {level : BitVec 2}

/-! ## Ends of instructions -/

/-- What `finX` does outside an active gang after the focus slot has been changed to another of the same baton. -/
theorem finX_setMe_alone {t : Slot} (h : s.alone) (hb : t.xbaton = s.me.xbaton) (rd : Reg) (v : Dword) (len : Nat) :
    (s.setMe t).finX rd v len = s.ended (t.wrote rd v (t.pc + BitVec.ofNat 64 len)) := by
  have hx : (t.setX rd v).xbaton = t.xbaton := by unfold Slot.setX; split <;> rfl
  have hp : (t.setX rd v).pc = t.pc := by unfold Slot.setX; split <;> rfl
  unfold State.finX State.fin State.setX
  rw [me_setMe, setMe_setMe, me_setMe, focus_setMe, complete_alone s _ _ h (hx.trans hb), hp, wrote_eq_setX]

/-- The phase of a baton in a slot changes in its slot. -/
theorem setPhase_focus (h : s.findSlot s.myRecord = some s.focus) (level : Nat) :
    s.setPhase s.myRecord (level + 1) true = s.setMe { s.me with phases := s.me.phases ||| 1#4 <<< level } := by
  unfold State.setPhase
  rw [h]
  rfl

/-! ## The lap hurdles (R97, R229) -/

/-- The address of the lap hurdle of level `l` + 1, one of 1 to 3, as HD.ARRIVE takes it. -/
def State.lapAddress (s : State) (l : Nat) : Nat :=
  if l = 0 then 0x6FFF00 else if l = 1 then 0xF800000000 + s.myDie * 2 ^ 27 + 0x2FFF20 else 0xF8002FFF40

theorem recOff_spadCell {pcl o : Nat} (ho : o < 2 ^ 22) : recOff (spadCell pcl o) = o := by
  unfold recOff spadCell
  omega

theorem lapHurdle_one (s : State) : s.lapHurdle 1 = .near (spadCell s.myPcl 0x2FFF00) := rfl
theorem lapHurdle_two (s : State) : s.lapHurdle 2 = .far (spadCell (s.myDie * 24) 0x2FFF20) := rfl
theorem lapHurdle_three (s : State) : s.lapHurdle 3 = .far (spadCell 0 0x2FFF40) := rfl

theorem spadCell_first (d o : Nat) : spadCell (d * 24) o = 0xF800000000 + d * 2 ^ 27 + o := by
  unfold spadCell
  omega

theorem lapHurdle_value (s : State) {l : Nat} (hl : l < 3) :
    (s.lapHurdle (l + 1)).value = BitVec.ofNat 64 (s.lapAddress l) := by
  obtain rfl | rfl | rfl : l = 0 ∨ l = 1 ∨ l = 2 := by omega
  · rw [lapHurdle_one, HdRef.value, recLocal, recOff_spadCell (by norm_num), spadBase, State.lapAddress, if_pos rfl]
  · rw [lapHurdle_two, HdRef.value, spadCell_first, State.lapAddress, if_neg (by norm_num), if_pos rfl]
  · rw [lapHurdle_three, HdRef.value, State.lapAddress, if_neg (by norm_num), if_neg (by norm_num)]
    simp [spadCell]

theorem lapAddress_mod_four (s : State) (l : Nat) : s.lapAddress l % 4 = 0 := by
  unfold State.lapAddress
  split
  · rfl
  · split <;> omega

/-- VALID and the phase in the low bits of an aligned address are added to it. -/
theorem or_valid_phase {a : Nat} (ha : a % 4 = 0) (b : Bool) :
    BitVec.ofNat 64 a ||| boolX b ||| 2 ||| 0 = wrap64 (a + 2 + (if b then 1 else 0)) := by
  have hlow : ∀ c : BitVec 64, c.toNat < 4 → BitVec.ofNat 64 a ||| c = BitVec.ofNat 64 a + c := by
    intro c hc
    apply BitVec.eq_of_toNat_eq
    have hmul : a % 2 ^ 64 = 2 ^ 2 * (a % 2 ^ 64 / 4) := by omega
    rw [BitVec.toNat_or, BitVec.toNat_add, BitVec.toNat_ofNat, hmul, ← Nat.two_pow_add_eq_or_of_lt hc]
    exact (Nat.mod_eq_of_lt (by omega)).symm
  rw [BitVec.or_assoc, BitVec.or_assoc, hlow _ (by cases b <;> decide)]
  have hwrap : wrap64 (a + 2 + (if b then 1 else 0)) = BitVec.ofNat 64 (a + (if b then 3 else 2)) := by
    unfold wrap64
    rw [← BitVec.ofInt_natCast]
    cases b <;> push_cast <;> congr 1
  rw [hwrap, BitVec.ofNat_add]
  cases b <;> rfl

/-! ## LAP.END and DOM.RD -/

theorem exec_lapEnd_invalid (hv : ¬ dmrValid (s.dmr s.myCid s.me.group (level.toNat + 1)) = true) (ht : s.canTrap) :
    exec (.lapEnd rd level) s = .next (s.trapped 30 0) := by
  show execLapEnd rd level s = _
  have hd : (!dmrValid (s.dmr s.myCid s.me.group (levelOf level))) = true := by simpa [levelOf] using hv
  unfold execLapEnd
  dsimp only
  rw [if_pos hd, trap_alone s 30 0 ht (by decide)]
  rfl

/-- LAP.END at a valid level, by the phase and the copy commands. -/
theorem execLapEnd_valid (hv : dmrValid (s.dmr s.myCid s.me.group (level.toNat + 1)) = true) :
    exec (.lapEnd rd level) s = .next (
      if s.me.phases.getLsbD level.toNat = false then (s.setPhase s.myRecord (level.toNat + 1) true).finX rd 0 4
      else if s.me.lapCopies.any (fun c => c.level == level.toNat + 1 && c.status.isNone) then
        s.park (.lapCopies rd (level.toNat + 1)) 2 (s.lapHurdle (level.toNat + 1)).value 0 4
      else s.whenReleased level.toNat fun s => s.lapArrive rd (level.toNat + 1)) := by
  show execLapEnd rd level s = _
  unfold execLapEnd
  simp only [levelOf, hv, Slot.exchange, Nat.add_sub_cancel, Bool.not_true, Bool.false_eq_true, if_false, Bool.not_eq_true']

theorem exec_domRd_invalid (hv : ¬ dmrValid (s.dmr s.myCid s.me.group (level.toNat + 1)) = true) (ha : s.alone) :
    exec (.domRd rd level) s = .next (s.result rd 0 4) := by
  show execDomRd rd level s = _
  have hd : (!dmrValid (s.dmr s.myCid s.me.group (levelOf level))) = true := by simpa [levelOf] using hv
  unfold execDomRd
  dsimp only
  rw [if_pos hd, finX_alone s _ _ _ ha]

theorem exec_domRd_valid (hv : dmrValid (s.dmr s.myCid s.me.group (level.toNat + 1)) = true) (hl : level.toNat < 3) (ha : s.alone) :
    exec (.domRd rd level) s =
      .next (s.result rd (wrap64 (s.lapAddress level.toNat + 2 + (if s.me.phases.getLsbD level.toNat then 1 else 0))) 4) := by
  show execDomRd rd level s = _
  have h4 : level.toNat + 1 ≠ 4 := by omega
  unfold execDomRd
  simp only [levelOf, hv, Slot.exchange, Nat.add_sub_cancel, Bool.not_true, Bool.false_eq_true, if_false, h4,
    lapHurdle_value s hl, finX_alone s _ _ _ ha]
  rw [or_valid_phase (lapAddress_mod_four s _)]

/-! ## WAIT.UNTIL and WAIT.PROMISE -/

theorem exec_waitUntil : exec (.waitUntil rd rs1) s = .next (
    if (s.x rs1).toNat ≤ s.swcAt s.myDie then s.finX rd (BitVec.ofNat 64 (s.swcAt s.myDie)) 4
    else s.park (.time rd) 3 0 (s.x rs1) 4) := rfl

/-- A WAIT.PROMISE on a handle that is no longer tracked is an acquire of PACKAGE scope or above (R154, R179). -/
theorem exec_waitPromise_untracked (hn : s.tracked s.myPcl (s.x rs1) = none) (ha : (s.applyLog s.myDie).alone) :
    exec (.waitPromise rs1) s = .next ((s.applyLog s.myDie).passed 4) := by
  show execWaitPromise rs1 s = _
  unfold execWaitPromise
  dsimp only
  rw [hn]
  exact congrArg Host.Outcome.next (fin_alone _ _ ha)

theorem promiseCheck_within {e : CpEntry} {now : Nat} (hc : e.complete = false) (hle : now ≤ e.promise) :
    promiseCheck e now = .wait := by
  simp [promiseCheck, hc, hle]

theorem exec_waitPromise_within {e : CpEntry} (hs : s.tracked s.myPcl (s.x rs1) = some e) (hc : e.complete = false)
    (hle : s.swcAt s.myDie ≤ e.promise) :
    exec (.waitPromise rs1) s = .next (s.parks (.promise (s.x rs1)) 4 (s.x rs1) (BitVec.ofNat 64 e.promise) 4) := by
  show execWaitPromise rs1 s = _
  unfold execWaitPromise
  dsimp only
  rw [hs]
  dsimp only
  rw [State.mySwc, promiseCheck_within hc hle]
  rfl
end Sys2Proof.Machine
end

section
namespace Sys2Proof.Machine
/-- Settles O24, a lemma for each instruction's branch. -/
theorem lapsDomainsTimeAndPromises : Obligations.LapsDomainsTimeAndPromises := by
  unfold Obligations.LapsDomainsTimeAndPromises
  intro s rd rs1 level ha
  refine ⟨fun hv ht => exec_lapEnd_invalid hv ht, fun hv => exec_domRd_invalid hv ha, fun hv hrun hfind => ?run,
    fun hv hphase hopen => ?exchange, fun hv hl => ?domain, fun hle => ?due, fun hlt => ?early,
    fun hn hlog => exec_waitPromise_untracked hn hlog, fun e hs hc hle => exec_waitPromise_within hs hc hle⟩
  case run =>
    rw [execLapEnd_valid hv, if_pos hrun, setPhase_focus hfind, finX_setMe_alone ha (by rfl)]
    rfl
  case exchange =>
    rw [execLapEnd_valid hv, if_neg (by simp [hphase]), if_pos hopen]
    rfl
  case domain =>
    rw [exec_domRd_valid hv hl ha]
    unfold State.lapAddress
    split
    · rfl
    · split <;> push_cast <;> rfl
  case due => rw [exec_waitUntil, if_pos hle, finX_alone s _ _ _ ha]
  case early =>
    rw [exec_waitUntil, if_neg (Nat.not_le.mpr hlt)]
    rfl

end Sys2Proof.Machine
end

section
/-! PROOF of O17. Gangs: what GANG.LEAD makes of a set of cores, the two outcomes of a member's issue in a round, and the words of what a gang may not
execute. -/
namespace Sys2Proof.Machine

variable {s : State} {rd : Reg} {n : BitVec 3} {key i : Nat} {g : Gang}

/-! ## Outside a gang -/

theorem unlessGanged_alone (h : s.alone) (w : Word32) (f : State → State) : s.unlessGanged w f = f s := by
  unfold State.unlessGanged
  rw [show s.ganged = false from h]
  exact if_neg Bool.false_ne_true

theorem exec_gangLead_alone (h : s.alone) :
    exec (.gangLead rd n) s = .next (s.leadGang s.focus rd n.toNat s.formBy) :=
  congrArg Host.Outcome.next (unlessGanged_alone h _ _)

/-- A second slot on a core in a gang waits. -/
theorem leadGang_waits (h : (s.gangAt s.myCid).isSome = true) (log2 : Nat) (till : Dword) :
    s.leadGang s.focus rd log2 till = s.parks (.gang rd log2 s.myCid true) 11 (BitVec.ofNat 64 s.myCid) till 4 :=
  if_pos h

/-- A set that meets another gang: the instruction counts, and GANG_DISBAND strikes at the following one. -/
theorem leadGang_overlaps (h : s.gangAt s.myCid = none) {log2 : Nat} (ho : s.overlaps (gangSet s.myCid log2) = true) (till : Dword) :
    s.leadGang s.focus rd log2 till =
      (s.retire s.myCid).deliver s.focus 27 (BitVec.allOnes 64) 0 (s.me.pc + 4) false := by
  have hnone : ¬ (s.gangAt (keyCid s.focus)).isSome = true := by simp [show s.gangAt (keyCid s.focus) = none from h]
  exact (if_neg hnone).trans (if_pos ho)

theorem deliver_disband (hbusy : s.me.busy = false) (hvec : s.me.csr.xutvec ≠ 0) (v pcAt : Dword) :
    s.deliver s.focus 27 v 0 pcAt false = s.setMe { s.me with
      csr := { s.me.csr with xuepc := pcAt &&& ~~~1#64, xutval := v, xucause := 1#64 <<< 62 ||| 27 }
      pc := s.me.csr.xutvec } := by
  have hme : s.slotAt s.focus = s.me := rfl
  have hcause : xucauseWord false 0 27 = 1#64 <<< 62 ||| 27 := by decide
  unfold State.deliver State.trapTarget
  rw [hme, hcause]
  simp only [hbusy, Bool.false_eq_true, if_false, show ¬ ((27 : Nat) = 26) by decide, false_and, hvec]
  rfl

/-! ## Forming a gang -/

/-- A table with one key set, where the others give nothing. -/
theorem filterMap_kset_of_none {α β : Type} {f : Nat × α → Option β} {j : Nat} {x : α} {y : β} {m : KMap α}
    (hm : ∀ p ∈ m, f p = none) (hx : f (j, x) = some y) : (kset j x m).filterMap f = [y] := by
  have hnone : ∀ l : KMap α, (∀ p ∈ l, f p = none) → l.filterMap f = [] := fun l hl => List.filterMap_eq_nil_iff.mpr hl
  induction m with
  | nil => simp [kset, hx]
  | cons p r ih =>
    obtain ⟨k, v⟩ := p
    have hr : ∀ p ∈ r, f p = none := fun p hp => hm p (List.mem_cons_of_mem _ hp)
    unfold kset
    split
    · rw [List.filterMap_cons, hx, hnone _ hm]
    · split
      · rw [List.filterMap_cons, hx, hnone _ hr]
      · rw [List.filterMap_cons, hm _ (List.mem_cons_self ..), ih hr]

/-- Where no baton waits, a slot that parks is the one that does. -/
theorem waiting_parkSlot (h : s.waiting = []) (k : Nat) (w : Wait) (reason : Nat) (wkey wtime : Dword) (len : Nat) :
    (s.parkSlot k w reason wkey wtime len).waiting = [(slotRecord k (s.slotAt k), w)] := by
  obtain ⟨hslots, haway⟩ := List.append_eq_nil_iff.mp h
  rw [List.filterMap_eq_nil_iff] at hslots
  have hpark := filterMap_kset_of_none (j := k) (x := (s.parkSlot k w reason wkey wtime len).slotAt k)
    (y := (slotRecord k (s.slotAt k), w)) hslots (by simp [State.parkSlot, slotRecord])
  unfold State.waiting
  rw [show (s.parkSlot k w reason wkey wtime len).clusters = s.clusters from rfl, haway, List.append_nil, ← hpark]
  simp [State.parkSlot, State.setSlotAt, State.slotAt]

theorem anyGangOf_setGang (hmem : some i ∈ g.members) : ((s.setGang key g).anyGangOf i).isSome = true := by
  unfold State.anyGangOf
  rw [List.isSome_findSome?, List.any_eq_true]
  refine ⟨(key, g), mem_kset_self _ _ _, ?_⟩
  simpa [List.findIdx?_isSome] using hmem

/-- A gang whose leader alone waits takes no joiner. -/
theorem absorbJoiners_leader {w : Wait} (hw : s.waiting = [(i, w)]) (hmem : some i ∈ g.members) :
    (s.setGang key g).absorbJoiners key = s.setGang key g := by
  have hany := anyGangOf_setGang (s := s) (key := key) hmem
  unfold State.absorbJoiners
  rw [show (s.setGang key g).waiting = _ from hw, List.foldl_cons, List.foldl_nil]
  dsimp only
  split
  next hgang =>
    rw [if_neg]
    simp [Option.isNone_eq_false_iff.mpr hany]
  next => rfl

theorem gangIndex_lt (cid : Nat) {log2 : Nat} (h1 : 1 ≤ log2) (h3 : log2 ≤ 3) : gangIndex cid log2 < 2 ^ log2 := by
  have hcore : cidCore cid < 4 := by
    unfold cidCore
    omega
  unfold gangIndex
  obtain rfl | rfl | rfl : log2 = 1 ∨ log2 = 2 ∨ log2 = 3 := by omega
  · exact Nat.mod_lt _ (by decide)
  · exact hcore
  · simp only [Nat.reduceEqDiff, if_false, Nat.reducePow]
    omega

/-- The gang of a size that a baton alone begins to form: its leader is its one member, until the deadline. -/
def State.ledGang (s : State) (log2 : Nat) (till : Dword) : Gang :=
  { log2 := log2, track := s.me.track,
    members := (List.replicate (2 ^ log2) none).set (gangIndex s.myCid log2) (some s.myRecord), cids := gangSet s.myCid log2,
    leader := gangIndex s.myCid log2, active := false, deadline := till.toNat, code := [], issued := [], nextPc := 0,
    ending := false, wide := 0 }

theorem myRecord_mem_ledGang {log2 : Nat} (h1 : 1 ≤ log2) (h3 : log2 ≤ 3) (till : Dword) :
    some s.myRecord ∈ (s.ledGang log2 till).members :=
  List.mem_set (by simpa using gangIndex_lt s.myCid h1 h3) _

/-- A set of cores that are in no gang begins to form one. -/
theorem leadGang_forms (h : s.gangAt s.myCid = none) {log2 : Nat} (ho : s.overlaps (gangSet s.myCid log2) = false)
    (hw : s.waiting = []) (h1 : 1 ≤ log2) (h3 : log2 ≤ 3) (till : Dword) :
    s.leadGang s.focus rd log2 till =
      (s.parks (.gang rd log2 s.myCid false) 11 (BitVec.ofNat 64 s.myCid) till 4).setGang s.myRecord (s.ledGang log2 till) := by
  have hnone : ¬ (s.gangAt (keyCid s.focus)).isSome = true := by simp [show s.gangAt (keyCid s.focus) = none from h]
  have hmeets : ¬ s.overlaps (gangSet (keyCid s.focus) log2) = true := Bool.eq_false_iff.mp ho
  exact ((if_neg hnone).trans (if_neg hmeets)).trans
    (absorbJoiners_leader (waiting_parkSlot hw _ _ _ _ _ _) (myRecord_mem_ledGang h1 h3 till))

/-! ## GANG.JOIN and GANG.END outside a gang -/

theorem exec_gangJoin_waits (h : s.alone) (hj : s.joinable s.myCid n.toNat s.me.track = none) :
    exec (.gangJoin rd n) s = .next (s.parks (.gang rd n.toNat s.myCid false) 11 0 s.formBy 4) := by
  show execGangJoin rd n s = _
  unfold execGangJoin
  rw [unlessGanged_alone h]
  dsimp only
  rw [hj]
  rfl

theorem exec_gangEnd_alone (h : s.alone) : exec .gangEnd s = .next (s.passed 4) := by
  have hgang : s.myGang = none := by
    simpa [State.alone, State.ganged, Option.isSome_eq_false_iff] using h
  show execGangEnd s = _
  unfold execGangEnd
  rw [hgang]
  exact congrArg Host.Outcome.next (fin_alone s 4 h)

/-! ## The rounds of an active gang (R107) -/

/-- A member's round with the outcome of another issue (R107). -/
def Gang.withIssue (g : Gang) (i : Nat) (d : MemberDone) (next : Dword) : Gang :=
  { g with issued := (g.issued.filter fun p => p.1 != i) ++ [(i, d)], nextPc := if i = g.leader then next else g.nextPc }

theorem setX_xbaton (t : Slot) (r : Reg) (v : Dword) : (t.setX r v).xbaton = t.xbaton := by
  unfold Slot.setX
  split <;> rfl

theorem setX_pc (t : Slot) (r : Reg) (v : Dword) : (t.setX r v).pc = t.pc := by
  unfold Slot.setX
  split <;> rfl

theorem xWritten_of_me {t : State} {v : Dword} (h : t.me = s.me.setX rd v) : s.xWritten t rd v := by
  intro q
  have hx := getX_wrote s.me rd q v s.me.pc
  rw [wrote_eq_setX] at hx
  unfold State.x
  rw [h]
  exact hx

/-- A result of a member's instruction goes to its own rd; the pc waits for the round. -/
theorem finX_ganged (hg : s.myGang = some (key, g, i)) (v : Dword) (len : Nat) :
    s.finX rd v len =
      ((s.setX rd v).retire s.myCid).gangRound key (g.withIssue i .completed (s.me.pc + BitVec.ofNat 64 len)) := by
  have hgang : (s.setX rd v).gangOf (slotRecord s.focus (s.me.setX rd v)) = some (key, g, i) := by
    rw [slotRecord_congr _ _ _ (setX_xbaton s.me rd v)]
    exact hg
  have hme : ((s.setX rd v).retire s.myCid).slotAt s.focus = s.me.setX rd v := me_setMe s _
  have hpc : (s.setX rd v).me.pc = s.me.pc := by rw [State.setX, me_setMe, setX_pc]
  show (s.setX rd v).complete s.focus ((s.setX rd v).me.pc + BitVec.ofNat 64 len) = _
  unfold State.complete
  dsimp only
  rw [show keyCid s.focus = s.myCid from rfl, hme, gangOf_congr (s.setX rd v) ((s.setX rd v).retire s.myCid) _ rfl, hgang, hpc]
  rfl

/-- While a member has still to issue, the gang only records. -/
theorem gangRound_open (h : g.issued.length < g.members.length) : s.gangRound key g = s.setGang key g := if_pos h

/-- The last of a round in which none has trapped: every resident member goes to the leader's next pc. -/
theorem gangRound_last (hlen : g.issued.length = g.members.length) (htrap : lowestTrap g.issued = none) (hend : g.ending = false) :
    s.gangRound key g = ((s.gangSlots g).foldl (fun s m => s.setSlotAt m.2 { s.slotAt m.2 with pc := g.nextPc }) s).setGang key
      { g with issued := [], code := [], wide := 0 } := by
  unfold State.gangRound
  rw [if_neg (by omega), htrap]
  dsimp only
  rw [if_neg (by simp [hend])]

theorem lowestTrap_of_completed {l : List (Nat × MemberDone)} (h : ∀ p ∈ l, p.2 = .completed) : lowestTrap l = none := by
  unfold lowestTrap
  induction l with
  | nil => rfl
  | cons p r ih =>
    rw [List.foldl_cons, h p (List.mem_cons_self ..)]
    exact ih fun q hq => h q (List.mem_cons_of_mem _ hq)

/-- Slots that are sent to a pc, one by one, all stand there. -/
theorem pc_foldl_setPc (next : Dword) (l : List (Nat × Nat)) (s : State) {k : Nat} (hk : k ∈ l.map Prod.snd ∨ (s.slotAt k).pc = next) :
    ((l.foldl (fun s m => s.setSlotAt m.2 { s.slotAt m.2 with pc := next }) s).slotAt k).pc = next := by
  induction l generalizing s with
  | nil => exact hk.resolve_left (by simp)
  | cons m r ih =>
    refine ih _ ?_
    by_cases heq : k = m.2
    · exact .inr (by rw [heq, slotAt_setSlotAt])
    · rw [slotAt_setSlotAt_other _ _ _ _ heq]
      exact hk.imp_left fun hmem => by simpa [heq] using hmem

/-- What a member's issue with a result does, while the round stays open and where it ends the round. -/
theorem member_issues {ins : Instr} {v : Dword} (hg : s.myGang = some (key, g, i))
    (hexec : exec ins s = .next (s.finX rd v 4)) :
    let before := g.issued.filter fun p => p.1 != i
    (before.length + 1 < g.members.length → ∃ t, exec ins s = .next t ∧ s.xWritten t rd v ∧
      t.me.pc = s.me.pc ∧ ∃ g', kfind t.gangs key = some g' ∧ g'.issued = before ++ [(i, .completed)]) ∧
    (before.length + 1 = g.members.length → g.ending = false → (∀ p ∈ before, p.2 = .completed) → ∃ t, exec ins s = .next t ∧
      (∃ g', kfind t.gangs key = some g' ∧ g'.issued = []) ∧
      ∀ m ∈ (s.setX rd v).gangSlots g, (t.slotAt m.2).pc = if i = g.leader then s.me.pc + 4 else g.nextPc) := by
  have hlen : (g.withIssue i .completed (s.me.pc + 4)).issued.length = (g.issued.filter fun p => p.1 != i).length + 1 :=
    List.length_append
  have hround := finX_ganged (rd := rd) hg v 4
  rw [show BitVec.ofNat 64 4 = 4 from rfl] at hround
  rw [hround] at hexec
  refine ⟨fun hopen => ?_, fun hlast hend hdone => ?_⟩
  · rw [gangRound_open (hlen.trans_lt hopen)] at hexec
    have hme : (((s.setX rd v).retire s.myCid).setGang key (g.withIssue i .completed (s.me.pc + 4))).me = s.me.setX rd v := me_setMe s _
    exact ⟨_, hexec, xWritten_of_me hme, by rw [hme, setX_pc], _, kfind_kset_same _ _ _, rfl⟩
  · have hnone : lowestTrap (g.withIssue i .completed (s.me.pc + 4)).issued = none := by
      refine lowestTrap_of_completed fun p hp => ?_
      rcases List.mem_append.mp hp with hp | hp
      · exact hdone p hp
      · rw [List.mem_singleton.mp hp]
    rw [gangRound_last (hlen.trans hlast) hnone hend] at hexec
    refine ⟨_, hexec, ⟨_, kfind_kset_same _ _ _, rfl⟩, fun m hm => ?_⟩
    exact pc_foldl_setPc _ _ _ (.inl (List.mem_map_of_mem hm))

/-! ## What a member may not execute (R217) -/

/-- An instruction word of the model's own layout is that of its fields (R196). -/
theorem xrWord_eq_append (op4 : BitVec 4) (opt3 : BitVec 3) (rs2 rs1 : Reg) (f3 : BitVec 3) (rd : Reg) (op : BitVec 7) :
    xrWord op4.toNat opt3.toNat rs2.toNat rs1.toNat f3.toNat rd.toNat op.toNat = op4 ++ opt3 ++ rs2 ++ rs1 ++ f3 ++ rd ++ op := by
  apply BitVec.eq_of_toNat_eq
  have h4 := op4.isLt
  have h3 := opt3.isLt
  have hrs2 := rs2.isLt
  have hrs1 := rs1.isLt
  have hf3 := f3.isLt
  have hrd := rd.isLt
  have hop := op.isLt
  unfold xrWord
  simp only [toNat_append_eq_add, BitVec.toNat_ofNat]
  omega

theorem unlessGanged_member (hg : s.myGang = some (key, g, i)) (w : Word32) (f : State → State) :
    s.unlessGanged w f = s.memberDone key g i (.trapped 2 (zext64 w) 0) 0 := by
  have hganged : s.ganged = true := by rw [State.ganged, hg]; rfl
  have hof : s.gangOf (slotRecord s.focus (s.slotAt s.focus)) = some (key, g, i) := hg
  unfold State.unlessGanged
  rw [if_pos hganged, State.illegal, State.trap, State.trapSlot, hof]

/-- An instruction that a gang may not execute, of the word with which it answers. -/
theorem traps_member {ins : Instr} {f : State → State} (hg : s.myGang = some (key, g, i)) (op4 : BitVec 4) (opt3 : BitVec 3)
    (rs2 rs1 : Reg) (f3 : BitVec 3) (rd : Reg)
    (hexec : exec ins s = .next (s.unlessGanged (xrWord op4.toNat opt3.toNat rs2.toNat rs1.toNat f3.toNat rd.toNat custom0) f))
    (hword : encode ins = .word (op4 ++ opt3 ++ rs2 ++ rs1 ++ f3 ++ rd ++ 11#7)) :
    ∀ w, encode ins = .word w → exec ins s = .next (s.memberDone key g i (.trapped 2 (zext64 w) 0) 0) := by
  intro w hw
  have heq : w = op4 ++ opt3 ++ rs2 ++ rs1 ++ f3 ++ rd ++ 11#7 := (Encoding.word.inj (hword.symm.trans hw)).symm
  rw [hexec, unlessGanged_member hg, heq, ← xrWord_eq_append]
  rfl

end Sys2Proof.Machine
end

section
namespace Sys2Proof.Machine
/-- Settles O17: a baton alone, a member's issue in a round, and a member's forbidden instructions, each by its own lemma. -/
theorem gangs : Obligations.Gangs := by
  unfold Obligations.Gangs
  refine ⟨fun s rd n ha => ?outside, fun s rd rs1 rs2 imm up key g i hg => ?issues, fun s rd rs1 rs2 n key g i hg => ?forbidden⟩
  case outside =>
    refine ⟨fun hgang => ?waits, fun hfree hmeets htrap => ?overlaps, fun hfree hmeets hw h1 h3 => ?forms,
      exec_gangJoin_waits ha, exec_gangEnd_alone ha⟩
    case waits => rw [exec_gangLead_alone ha, leadGang_waits hgang, State.formBy, State.mySwc]
    case overlaps =>
      obtain ⟨-, hbusy, hvec⟩ := htrap
      rw [exec_gangLead_alone ha, leadGang_overlaps hfree hmeets]
      exact congrArg Host.Outcome.next (deliver_disband (s := s.retire s.myCid) hbusy hvec _ _)
    case forms =>
      rw [exec_gangLead_alone ha, leadGang_forms hfree hmeets hw h1 h3]
      exact ⟨_, rfl, me_setMe s _, _, kfind_kset_same _ _ _, rfl, rfl, rfl, rfl, rfl⟩
  case issues =>
    have hlui : exec (.lui rd up) s = .next (s.finX rd (wrap64 (up.toInt * 4096)) 4) := by
      rw [← upper_eq]
      rfl
    exact ⟨member_issues hg rfl, member_issues hg rfl, member_issues hg hlui⟩
  case forbidden =>
    exact ⟨traps_member hg 0 n 0 0 6 rd rfl rfl, traps_member hg 1 n 0 0 6 rd rfl rfl, traps_member hg 2 0 0 0 0 0 rfl rfl,
      traps_member hg 3 0 0 rs1 0 0 rfl rfl, traps_member hg 4 0 rs2 rs1 0 rd rfl rfl, traps_member hg 0 0 0 0 7 0 rfl rfl,
      traps_member hg 1 0 rs2 rs1 7 0 rfl rfl, traps_member hg 2 0 rs2 rs1 7 0 rfl rfl⟩

end Sys2Proof.Machine
end

section
/-!
PROOF of the refutation of O51. The clause of eviction speaks of every CID. A cluster of a die far beyond the package has an address for its scratchpad
that lies in the SRAM of die 0; its victim waits for that bank behind a baton of die 0, and the clause, which asks only whether an access waits at the
victim's own die, says that the event changes nothing. Of the clusters that exist the clause is proved.
-/
namespace Sys2Proof.Machine

/-! ## The clause of eviction as it holds -/
section
variable {s t : State} {cid slot d k key r : Nat} {w : Wait}

theorem clusters_applyLog : (s.applyLog d).clusters = s.clusters := by
  refine List.foldlRecOn (motive := fun t : State => t.clusters = s.clusters) _ _ rfl fun t ht p _ => ?_
  rw [← ht]
  unfold State.applyOne
  dsimp only
  split
  · unfold State.applyRecord
    split <;> rfl
  · rfl

theorem clusters_unstallAt : (s.unstallAt d key).clusters = s.clusters := by
  unfold State.unstallAt
  dsimp only
  split
  · refine List.foldlRecOn (motive := fun t : State => t.clusters = s.clusters) _ _ rfl fun t ht g _ => ?_
    rw [← ht]
    unfold State.gateHeldNow
    split <;> rfl
  · rfl

theorem findAway_congr (h : t.clusters = s.clusters) : t.findAway r = s.findAway r := by
  unfold State.findAway State.cluster
  rw [h]

theorem findAway_setAway {a : Away} : (s.setAway r a).findAway r = some a := by
  rw [State.findAway, State.setAway, cluster_setCluster]
  exact kfind_kset_same _ _ _

/-- A baton put out of its slot with a deadline's wait keeps that wait, armed. -/
theorem findAway_putAway {rd : Reg} {u : Slot} {scales : KMap (BitVec 32)} (hw : u.wait = .time rd) :
    (s.putAway k u false false scales).findAway (slotRecord k u) = some (u.toAway (slotRecord k u) false false scales) := by
  have harmed : (u.toAway (slotRecord k u) false false scales).satisfied = false := by
    unfold Slot.toAway
    rw [hw]
    rfl
  unfold State.putAway
  dsimp only
  rw [harmed, hw, Bool.false_and, if_neg Bool.false_ne_true]
  exact findAway_setAway

/-- The scratchpad of a cluster that exists is granted where it is powered and no access waits at its die. -/
theorem granted_spad (hcore : isCore (keyCid k) = true) (hup : ∀ b, bankOf (spadCell (keyPcl k) 0) = some b → s.bankUp b = true)
    (hwait : (s.power (keyDie k)).waiters = []) : s.granted k [spadCell (keyPcl k) 0] = true := by
  have hdie : keyPcl k < 288 ∧ keyPcl k / 24 = keyDie k := by
    unfold isCore isCDie at hcore
    simp only [Bool.and_eq_true, decide_eq_true_eq] at hcore
    obtain ⟨⟨hd, hrow⟩, hcol⟩ := hcore
    have hpcl : keyPcl k = keyDie k * 24 + (cidRow (keyCid k) / 4 * 6 + cidCol (keyCid k) / 4) := rfl
    have hd' : keyDie k < 12 := hd
    omega
  have hbank := bankOf_spad (pcl := keyPcl k) (o := 0) hdie.1 (by decide)
  rw [granted_one hbank (by rw [hdie.2]; exact hwait)]
  exact hup _ hbank

/-- The save of a victim that does not own the matrix context and whose frame no page bars. -/
theorem saving_of_free {f : State → State} {rd : Reg} (hg : s.granted k [spadCell (keyPcl k) 0] = true)
    (howner : ((s.core (keyCid k)).owner == some (keySlot k)) = false) (hw : (s.slotAt k).wait = .time rd)
    (hask : kfind (s.cluster (recPcl (slotRecord k (s.slotAt k)))).asks (slotRecord k (s.slotAt k)) = none)
    (hbar : ∀ a v, s.allocFrame (keyPcl k) (s.slotAt k).launch (s.slotAt k).track false = some (a, v) →
      s.frameBar (recPcl (slotRecord k (s.slotAt k))) (s.slotAt k).track .write a (frameBytes false) = none) :
    s.saving k f = (f s).unstallAt (keyDie k) k := by
  rw [State.saving, State.onSpad, inTurn_granted _ _ _ _ _ _ hg]
  dsimp only
  rw [howner, hw]
  split
  next hrestore => exact absurd hrestore Wait.noConfusion
  · rfl
  next halloc _ =>
    unfold State.withFrame
    dsimp only
    rw [hbar _ _ halloc, hask]

/-- The eviction of a victim of a cluster that exists: without a frame it stays parked, and saved it is out of any slot with its wait armed. -/
theorem exec_batonEvict {rd : Reg} (hk : k = slotKey cid slot) (hslot : slot < 4) (hcore : isCore (keyCid k) = true)
    (hneeded : s.evictNeeded (cidPcl cid) = true) (hvictim : s.victim (cidPcl cid) = some k)
    (howner : (s.core (keyCid k)).owner ≠ some (keySlot k)) (hsave : s.canSave k = true) (hparked : s.parkedAlone k r (.time rd))
    (hup : ∀ b, bankOf (spadCell (keyPcl k) 0) = some b → s.bankUp b = true) (hwait : (s.power (keyDie k)).waiters = [])
    (hask : kfind (s.cluster (recPcl r)).asks r = none)
    (hbar : ∀ a v, s.allocFrame (keyPcl k) (s.slotAt k).launch (s.slotAt k).track false = some (a, v) →
      s.frameBar (recPcl r) (s.slotAt k).track .write a (frameBytes false) = none) :
    (s.saveFrame k 0 = none → exec (.batonEvict cid slot) s = .next s) ∧
    (s.saveFrame k 0 ≠ none → ∃ t, exec (.batonEvict cid slot) s = .next t ∧ ∃ a, t.findAway r = some a ∧ a.wait = .time rd ∧
      a.wtime = (s.slotAt k).wtime ∧ a.waitLen = (s.slotAt k).waitLen ∧ a.launch = (s.slotAt k).launch ∧ a.satisfied = false ∧
      a.preempted = false) := by
  obtain ⟨-, hrecord, -, hw, -⟩ := hparked
  have hfree : ((s.core (keyCid k)).owner == some (keySlot k)) = false := beq_eq_false_iff_ne.mpr howner
  have hsettle : s.settle k = s := if_neg howner
  have hsaving := saving_of_free (f := fun s => (s.saveOut k 0 false).getD s) (granted_spad hcore hup hwait) hfree hw
    (by rw [hrecord]; exact hask) (by rw [hrecord]; exact hbar)
  have hexec : exec (.batonEvict cid slot) s = .next (((s.saveOut k 0 false).getD s).unstallAt (keyDie k) k) := by
    refine congrArg Host.Outcome.next (?_ : s.evict cid (slot % 4) = _)
    unfold State.evict
    dsimp only
    rw [Nat.mod_eq_of_lt hslot, ← hk, if_pos (by simp [hneeded, hvictim]), hsettle, if_pos hsave, hsaving]
  refine ⟨fun hnone => ?stays, fun hsome => ?saved⟩
  case stays =>
    have hout : s.saveOut k 0 false = none := by rw [State.saveOut, hnone]; rfl
    rw [hexec, hout, Option.getD_none, unstallAt_of_no_waiters s _ _ hwait]
  case saved =>
    obtain ⟨v, hv⟩ := Option.ne_none_iff_exists'.mp hsome
    have hout : s.saveOut k 0 false = some ((v.putAway k (s.slotAt k) false false (s.slotAt k).scales).applyLog (keyDie k)) := by
      unfold State.saveOut
      dsimp only
      rw [hv, hfree]
      rfl
    rw [hout, Option.getD_some] at hexec
    refine ⟨_, hexec, (s.slotAt k).toAway (slotRecord k (s.slotAt k)) false false (s.slotAt k).scales, ?_, hw, rfl, rfl, rfl, ?_, rfl⟩
    · rw [findAway_congr clusters_unstallAt, findAway_congr clusters_applyLog, ← hrecord]
      exact findAway_putAway hw
    · rw [Slot.toAway, hw]
      rfl
end

/-! ## The counterexample -/

/-- A die that no package has, for whose first cluster `spadCell` gives the first byte of the SRAM of die 0. -/
def ghostDie : Nat := 2 ^ 37 - 7936
/-- Its first cluster, that cluster's first core, and the first slot of that core. -/
def ghostPcl : Nat := ghostDie * 24
/-- See `ghostPcl`. -/
def ghostCid : Nat := coreOf ghostPcl 0
/-- See `ghostPcl`. -/
def ghostKey : Nat := slotKey ghostCid 0

/-- A baton parked on WAIT.UNTIL with its deadline far off. -/
def ghostVictim : Slot :=
  { Slot.empty with mode := .parked, wait := .time 1, wtime := 9999, xbaton := BitVec.ofNat 64 spadBase }
/-- A baton that runs. -/
def ghostRunner : Slot := { Slot.empty with mode := .running, xbaton := BitVec.ofNat 64 (spadBase + 64) }

/-- The cluster full, the victim in its first slot and a baton READY; a baton of die 0 waits for the first bank of its SRAM. -/
def ghostState : State :=
  { State.reset with
    slots := (0, ghostRunner) :: (List.range 16).flatMap fun m => (List.range 4).map fun i =>
      (slotKey (coreOf ghostPcl m) i, if m = 0 ∧ i = 0 then ghostVictim else ghostRunner)
    clusters := [(ghostPcl, { Cluster.init with ready := Vector.replicate 4 [{ record := 0, order := 0, launch := 0 }] })]
    pkg := { Pkg.init with power := [(0, { Power.init with waiters := [(0, 0, 0, 0)] })] } }

theorem ghostState_cluster : cidPcl ghostCid = ghostPcl ∧ keyPcl ghostKey = ghostPcl ∧ keyCid ghostKey = ghostCid := by decide

theorem ghostState_bank : bankOf (spadCell ghostPcl 0) = some (0, 0, 0) := by decide +kernel

theorem ghostState_evictNeeded : ghostState.evictNeeded ghostPcl = true := by decide +kernel

theorem ghostState_victim : ghostState.victim ghostPcl = some ghostKey := by decide +kernel

theorem ghostState_parked : ghostState.parkedAlone ghostKey (spadCell ghostPcl 0) (.time 1) := by decide +kernel

theorem ghostState_canSave : (ghostState.core ghostCid).owner = none ∧ ghostState.canSave ghostKey = true := by decide +kernel

theorem ghostState_waiters : (ghostState.power (keyDie ghostKey)).waiters = [] ∧ ghostState.bankUp (0, 0, 0) = true := by decide +kernel

/-- The cluster has no carve-out, so the victim gets no frame. -/
theorem ghostState_allocFrame (launch : Nat) (tk : BitVec 16) : ghostState.allocFrame ghostPcl launch tk false = none := by
  have hcarve : ghostState.carve ghostPcl launch = Carve.none := by
    have hcarves : (ghostState.cluster ghostPcl).carves = [] := by decide +kernel
    rw [State.carve, hcarves]
    rfl
  unfold State.allocFrame
  rw [hcarve]
  simp [Carve.none, frameBytes]

theorem ghostState_saveFrame : ghostState.saveFrame ghostKey 0 = none :=
  Option.isNone_iff_eq_none.mp (by decide +kernel)

/-- The victim's access has to wait for the baton of die 0. -/
theorem ghostState_not_granted : ghostState.granted ghostKey [spadCell ghostPcl 0] = false := by decide +kernel

/-- The event makes the victim wait for that bank. -/
theorem ghostState_evict : ghostState.evict ghostCid 0 = ghostState.stallKey ghostKey 0 [spadCell ghostPcl 0] := by
  obtain ⟨hcluster, hpcl, hcid⟩ := ghostState_cluster
  obtain ⟨howner, hsave⟩ := ghostState_canSave
  have hsettle : ghostState.settle ghostKey = ghostState := by
    unfold State.settle
    dsimp only
    rw [hcid, howner]
    exact if_neg (Option.some_ne_none _).symm
  have hchosen : (ghostState.evictNeeded (cidPcl ghostCid) && ghostState.victim (cidPcl ghostCid) == some (slotKey ghostCid 0)) = true := by
    rw [hcluster, ghostState_evictNeeded, ghostState_victim]
    exact beq_self_eq_true _
  unfold State.evict
  dsimp only
  rw [if_pos hchosen, show slotKey ghostCid 0 = ghostKey from rfl, hsettle, if_pos hsave, State.saving, State.onSpad, hpcl,
    inTurn_waits _ _ _ _ _ _ ghostState_not_granted]
  rfl

theorem ghostState_stalled : ((ghostState.stallKey ghostKey 0 [spadCell ghostPcl 0]).power 0).waiters = [(0, 0, 0, 0), (0, 0, ghostKey, 0)] := by
  decide +kernel

/-- Refutes O51: the victim of a full cluster of a die that no package has waits for a bank of die 0, whose queue the clause of eviction does not speak
of, and the event changes the state. -/
theorem not_schedulerEvents : ¬ Obligations.SchedulerEvents := by
  unfold Obligations.SchedulerEvents
  intro h
  obtain ⟨hcluster, hpcl, hcid⟩ := ghostState_cluster
  obtain ⟨howner, hsave⟩ := ghostState_canSave
  obtain ⟨hwaiters, hup⟩ := ghostState_waiters
  obtain ⟨-, -, -, -, -, -, -, -, hevict, -⟩ := h ghostState ghostCid 0 0 (spadCell ghostPcl 0) (by decide)
  obtain ⟨hstays, -⟩ := hevict 1 (by rw [hcluster]; exact ghostState_evictNeeded) (by rw [hcluster]; exact ghostState_victim)
    (by rw [show slotKey ghostCid 0 = ghostKey from rfl, hcid, howner]; exact (Option.some_ne_none _).symm) hsave ghostState_parked
    (fun b hb => by
      rw [show slotKey ghostCid 0 = ghostKey from rfl, hpcl, ghostState_bank] at hb
      rwa [← Option.some.inj hb])
    hwaiters (by decide +kernel)
    (fun a v ha => by
      rw [show slotKey ghostCid 0 = ghostKey from rfl, hpcl, ghostState_allocFrame] at ha
      exact absurd ha (Option.some_ne_none _).symm)
  have hsame : ghostState.stallKey ghostKey 0 [spadCell ghostPcl 0] = ghostState :=
    ghostState_evict.symm.trans (Host.Outcome.next.inj (hstays ghostState_saveFrame))
  have hlonger := ghostState_stalled
  rw [hsame] at hlonger
  exact absurd hlonger (by decide +kernel)
end Sys2Proof.Machine
end


section
/-! PROOF of O52, the Pacer (R104). A quad whose queues have nothing to bind moves its round robins at most; where one queue alone has an entry that can
bind, the first free lane group takes it. -/
namespace Sys2Proof.Machine

/-! ## Round robins -/
section
variable {s : State} {q i : Nat} {ok : Nat → Bool} {r : Robin}

theorem robinNext_queue : (s.robinNext q r).queue = (r.queue + 1) % 4 := rfl

theorem offer_none (hok : ∀ j < 4, ok j = false) (n : Nat) (hr : r.queue < 4) :
    (s.offer q ok n r).1 = none ∧ (s.offer q ok n r).2.queue < 4 := by
  induction n generalizing r with
  | zero => exact ⟨rfl, hr⟩
  | succ n ih =>
    rw [State.offer, hok _ hr, if_neg Bool.false_ne_true]
    exact ih (Nat.mod_lt _ (by decide))

/-- Offers find the one queue that can bind, as soon as the pointer reaches it. -/
theorem offer_one (hok : ∀ j < 4, j ≠ i → ok j = false) (hi : ok i = true) (hi4 : i < 4) {n d : Nat} (hr : r.queue < 4)
    (hd : (r.queue + d) % 4 = i) (hdn : d < n) : (s.offer q ok n r).1 = some i ∧ (s.offer q ok n r).2.queue < 4 := by
  induction n generalizing r d with
  | zero => omega
  | succ n ih =>
    rw [State.offer]
    by_cases hri : r.queue = i
    · rw [hri, hi, if_pos rfl]
      exact ⟨rfl, hr⟩
    · rw [hok _ hr hri, if_neg Bool.false_ne_true]
      obtain ⟨d', rfl⟩ : ∃ d', d = d' + 1 := ⟨d - 1, by omega⟩
      refine ih (d := d') (Nat.mod_lt _ (by decide)) ?_ (by omega)
      rw [robinNext_queue]
      omega

/-- The pointer with its first credit taken. -/
theorem opportunity_queue (s : State) (q : Nat) (r : Robin) :
    (if r.credit.isNone then { r with credit := some (s.robinCredit q r.queue) } else r).queue = r.queue := by
  split <;> rfl

theorem opportunity_none (hok : ∀ j < 4, ok j = false) (hr : r.queue < 4) :
    (s.opportunity q ok r).1 = none ∧ (s.opportunity q ok r).2.queue < 4 :=
  offer_none hok 4 ((opportunity_queue s q r).trans_lt hr)

theorem opportunity_one (hok : ∀ j < 4, j ≠ i → ok j = false) (hi : ok i = true) (hi4 : i < 4) (hr : r.queue < 4) :
    (s.opportunity q ok r).1 = some i ∧ (s.opportunity q ok r).2.queue < 4 := by
  refine offer_one hok hi hi4 (d := (i + 4 - r.queue) % 4) ((opportunity_queue s q r).trans_lt hr) ?_ (Nat.mod_lt _ (by decide))
  rw [opportunity_queue]
  omega

theorem spend_queue (hr : r.queue < 4) : (s.spend q r).queue < 4 := by
  unfold State.spend
  dsimp only
  split
  · exact Nat.mod_lt _ (by decide)
  · exact hr
end

/-! ## A quad with nothing to bind -/
section
variable {s t : State} {q g i : Nat} {cores : KMap Core}

/-- `t` is `s` but for the table of quads and for its cores, which are `cores`; the round robins of quad `q` stand on queues of it. -/
def State.Paced (s : State) (q : Nat) (cores : KMap Core) (t : State) : Prop :=
  t = { s with quads := t.quads, cores := cores } ∧ (t.quad q).lanes.queue < 4 ∧ (t.quad q).matrix.queue < 4

/-- No queue of a quad has an entry that has not bound. -/
def nothingToBind (cores : KMap Core) (q : Nat) : Prop := ∀ j < 4, ∀ e ∈ (kget Core.init cores (quadCid q j)).dq, e.bound = true

theorem paced_setQuad {x : Quad} (h : s.Paced q cores t) (hl : x.lanes.queue < 4) (hm : x.matrix.queue < 4) :
    s.Paced q cores (t.setQuad q x) := by
  obtain ⟨heq, -, -⟩ := h
  refine ⟨?_, ?_, ?_⟩
  · rw [heq]
    rfl
  · rwa [quad_setQuad]
  · rwa [quad_setQuad]

theorem head_of_all_bound {c : Core} (h : ∀ e ∈ c.dq, e.bound = true) : c.head = none := by
  have hnone : c.dq.findIdx? (fun e => !e.bound) = none := by
    rw [List.findIdx?_eq_none_iff]
    exact fun e he => by rw [h e he]; rfl
  unfold Core.head
  rw [hnone]

theorem matrixHead_of_all_bound {c : Core} (h : ∀ e ∈ c.dq, e.bound = true) : c.matrixHead = none := by
  unfold Core.matrixHead
  split
  next e r heq =>
    split
    · rw [h e (heq ▸ List.mem_cons_self ..)]
      rfl
    · rfl
  · rfl

theorem core_paced (h : s.Paced q cores t) (cid : Nat) : t.core cid = kget Core.init cores cid := by
  obtain ⟨heq, -, -⟩ := h
  rw [heq]
  rfl

theorem laneHead_none (h : s.Paced q cores t) (hb : nothingToBind cores q) : ∀ j < 4, t.laneHead q j = false := fun j hj => by
  unfold State.laneHead
  rw [core_paced h, head_of_all_bound (hb j hj)]

theorem arrayHead_of_matrixHead (hm : (t.core (quadCid q i)).matrixHead = none) : t.arrayHead q i = false := by
  unfold State.arrayHead
  dsimp only
  rw [hm]

/-- A lane group with nothing to bind moves the round robin at most. -/
theorem paced_bindLane (h : s.Paced q cores t) (hb : nothingToBind cores q) (g : Nat) : s.Paced q cores (t.bindLane q g) := by
  obtain ⟨heq, hl, hm⟩ := id h
  obtain ⟨hnone, hq⟩ := opportunity_none (s := t) (q := q) (laneHead_none h hb) hl
  unfold State.bindLane
  dsimp only
  split
  · exact h
  · split
    next r hr =>
      rw [hr] at hq
      exact paced_setQuad h hq hm
    next hr =>
      rw [hr] at hnone
      exact absurd hnone (Option.some_ne_none _)

/-- A matrix array with no entry at the very head of a queue moves its round robin at most. -/
theorem paced_bindArray (h : s.Paced q cores t) (hb : ∀ j < 4, (kget Core.init cores (quadCid q j)).matrixHead = none) :
    s.Paced q cores (t.bindArray q) := by
  obtain ⟨heq, hl, hm⟩ := id h
  obtain ⟨hnone, hq⟩ := opportunity_none (s := t) (q := q) (ok := t.arrayHead q) (r := (t.quad q).matrix)
    (fun j hj => arrayHead_of_matrixHead (by rw [core_paced h]; exact hb j hj)) hm
  unfold State.bindArray
  dsimp only
  split
  · exact h
  · split
    next r hr =>
      rw [hr] at hq
      exact paced_setQuad h hl hq
    next hr =>
      rw [hr] at hnone
      exact absurd hnone (Option.some_ne_none _)

theorem paced_foldl_bindLane (l : List Nat) (h : s.Paced q cores t) (hb : nothingToBind cores q) :
    s.Paced q cores (l.foldl (fun s g => s.bindLane q g) t) :=
  List.foldlRecOn (motive := s.Paced q cores) _ _ h fun _ ht g _ => paced_bindLane ht hb g

/-! ## What comes before the lane groups -/

theorem pullReplay_of_empty {cid slot : Nat} (h : (s.slotAt (slotKey cid slot)).replay = []) (n : Nat) : s.pullReplay cid slot n = s := by
  cases n with
  | zero => rfl
  | succ n =>
    unfold State.pullReplay
    dsimp only
    rw [h]

theorem pullReplays_of_empty {cid : Nat} (h : ∀ m < 4, (s.slotAt (slotKey cid m)).replay = []) : s.pullReplays cid = s :=
  List.foldlRecOn (motive := (· = s)) _ _ rfl fun _ ht m hm => by
    rw [ht]
    exact pullReplay_of_empty (h m (List.mem_range.mp hm)) 8

theorem beginFree_of_matrixHead {cid : Nat} (h : (s.core cid).matrixHead = none) : s.beginFree cid = s := by
  unfold State.beginFree
  dsimp only
  rw [h]

/-- With no replay list and no matrix entry at the head of a queue, the quad's cycle is that of its lane groups and its array. -/
theorem pacerBind_eq (hreplay : ∀ j < 4, ∀ m < 4, (s.slotAt (slotKey (quadCid q j) m)).replay = [])
    (hm : ∀ j < 4, (s.core (quadCid q j)).matrixHead = none) :
    s.pacerBind q = ((List.range 4).foldl (fun s g => s.bindLane q g) s).bindArray q := by
  have hfirst : (List.range 4).foldl (fun s i => (s.pullReplays (quadCid q i)).beginFree (quadCid q i)) s = s :=
    List.foldlRecOn (motive := (· = s)) _ _ rfl fun _ ht j hj => by
      have hj4 := List.mem_range.mp hj
      rw [ht, pullReplays_of_empty (hreplay j hj4), beginFree_of_matrixHead (hm j hj4)]
  unfold State.pacerBind
  rw [hfirst]

/-! ## One vector entry -/

theorem quadCid_injective {a b : Nat} (ha : a < 4) (hb : b < 4) (h : quadCid q a = quadCid q b) : a = b := by
  unfold quadCid coreOf mkCid at h
  dsimp only at h
  omega

/-- The cores with the one entry of a queue bound. -/
def State.boundCores (s : State) (cid : Nat) (e : DqEntry) (doneAt : Nat) : KMap Core :=
  kset cid ((s.core cid).setDq 0 { e with bound := true, doneAt := doneAt }) s.cores

theorem dq_boundCores {cid d : Nat} {e : DqEntry} (h : (s.core cid).dq = [e]) :
    (kget Core.init (s.boundCores cid e d) cid).dq = [{ e with bound := true, doneAt := d }] := by
  rw [State.boundCores, kget_kset_same, Core.setDq, h]
  rfl

theorem nothingToBind_boundCores {d : Nat} {e : DqEntry} (hi : i < 4) (hone : (s.core (quadCid q i)).dq = [e])
    (hrest : ∀ j < 4, j ≠ i → (s.core (quadCid q j)).dq = []) : nothingToBind (s.boundCores (quadCid q i) e d) q := by
  intro j hj x hx
  by_cases hji : j = i
  · rw [hji, dq_boundCores hone, List.mem_singleton] at hx
    rw [hx]
  · have hother : kget Core.init (s.boundCores (quadCid q i) e d) (quadCid q j) = s.core (quadCid q j) :=
      kget_kset_other _ _ _ _ _ fun h => hji (quadCid_injective hj hi h)
    rw [hother, hrest j hj hji] at hx
    exact absurd hx (List.not_mem_nil)

theorem head_of_one {c : Core} {e : DqEntry} (h : c.dq = [e]) (hb : e.bound = false) : c.head = some (0, e) := by
  simp [Core.head, h, hb]

theorem matrixHead_vector {c : Core} {e : DqEntry} {occ lat wide : Nat} {outs : List Nat} (h : c.dq = [e])
    (hk : e.kind = .vector occ lat outs wide) : c.matrixHead = none := by
  unfold Core.matrixHead
  rw [h]
  dsimp only
  rw [hk]

section
variable {e : DqEntry} {occ lat : Nat} {outs : List Nat}

/-- The die whose clock a quad reads. -/
def State.quadNow (s : State) (q : Nat) : Nat := s.swcAt (q / 4 / 24)

theorem bindLane_busy (h : s.quadNow q < vcGet (s.quad q).laneBusy g) : s.bindLane q g = s := if_pos h

/-- A free lane group takes the one vector entry of its quad. -/
theorem bindLane_one (hl : (s.quad q).lanes.queue < 4) (hm : (s.quad q).matrix.queue < 4) (hi : i < 4)
    (hone : (s.core (quadCid q i)).dq = [e]) (hrest : ∀ j < 4, j ≠ i → (s.core (quadCid q j)).dq = [])
    (hk : e.kind = .vector occ lat outs 0) (hb : e.bound = false) (hfree : vcGet (s.quad q).laneBusy g ≤ s.quadNow q) :
    s.Paced q (s.boundCores (quadCid q i) e (s.quadNow q + lat)) (s.bindLane q g) := by
  have hhead := head_of_one hone hb
  have hthis : s.laneHead q i = true := by
    unfold State.laneHead
    rw [hhead]
    simp [DqEntry.isMatrix, DqEntry.op, hk]
  have hothers : ∀ j < 4, j ≠ i → s.laneHead q j = false := fun j hj hji => by
    unfold State.laneHead
    rw [head_of_all_bound (by simp [hrest j hj hji])]
  obtain ⟨hfound, hq⟩ := opportunity_one (s := s) (q := q) hothers hthis hi hl
  unfold State.bindLane
  dsimp only
  rw [if_neg (show ¬ s.swcAt (q / 4 / 24) < vcGet (s.quad q).laneBusy g from Nat.not_lt.mpr hfree)]
  split
  next hr =>
    rw [hr] at hfound
    exact absurd hfound.symm (Option.some_ne_none _)
  next j r hr =>
    rw [hr] at hfound hq
    obtain rfl : j = i := Option.some.inj hfound
    rw [hhead]
    dsimp only
    split
    next hkind =>
      cases hk.symm.trans hkind
      exact ⟨rfl, by rw [quad_setQuad]; exact spend_queue hq, by rw [quad_setQuad]; exact hm⟩
    next hkind => exact absurd hk (hkind _ _ _ _)

/-- Of the lane groups in order, the first free one takes it. -/
theorem foldl_bindLane_one (hl : (s.quad q).lanes.queue < 4) (hm : (s.quad q).matrix.queue < 4) (hi : i < 4)
    (hone : (s.core (quadCid q i)).dq = [e]) (hrest : ∀ j < 4, j ≠ i → (s.core (quadCid q j)).dq = [])
    (hk : e.kind = .vector occ lat outs 0) (hb : e.bound = false) {l : List Nat}
    (hfree : ∃ g ∈ l, vcGet (s.quad q).laneBusy g ≤ s.quadNow q) :
    s.Paced q (s.boundCores (quadCid q i) e (s.quadNow q + lat)) (l.foldl (fun s g => s.bindLane q g) s) := by
  induction l with
  | nil =>
    obtain ⟨g, hg, -⟩ := hfree
    exact absurd hg (List.not_mem_nil)
  | cons g l ih =>
    rw [List.foldl_cons]
    by_cases hbusy : s.quadNow q < vcGet (s.quad q).laneBusy g
    · rw [bindLane_busy hbusy]
      obtain ⟨g', hg', hle⟩ := hfree
      rcases List.mem_cons.mp hg' with rfl | hg'
      · omega
      · exact ih ⟨g', hg', hle⟩
    · exact paced_foldl_bindLane l (bindLane_one hl hm hi hone hrest hk hb (Nat.not_lt.mp hbusy))
        (nothingToBind_boundCores hi hone hrest)
end
end

/-! ## PACER_BIND -/
section
variable {s : State} {q i : Nat}

/-- Empty queues bind nothing. -/
theorem pacerBind_empty (hl : (s.quad q).lanes.queue < 4) (hm : (s.quad q).matrix.queue < 4)
    (hreplay : ∀ j < 4, ∀ m < 4, (s.slotAt (slotKey (quadCid q j) m)).replay = [])
    (hempty : ∀ j < 4, (s.core (quadCid q j)).dq = []) : s.Paced q s.cores (s.pacerBind q) := by
  have hnothing : nothingToBind s.cores q := fun j hj e he =>
    absurd (show e ∈ (s.core (quadCid q j)).dq from he) (by rw [hempty j hj]; exact List.not_mem_nil)
  have hheads : ∀ j < 4, (s.core (quadCid q j)).matrixHead = none := fun j hj => matrixHead_of_all_bound (hnothing j hj)
  rw [pacerBind_eq hreplay hheads]
  exact paced_bindArray (paced_foldl_bindLane _ ⟨rfl, hl, hm⟩ hnothing) hheads

/-- A vector entry alone in its quad binds when a lane group is free. -/
theorem pacerBind_one {e : DqEntry} {occ lat : Nat} {outs : List Nat} (hl : (s.quad q).lanes.queue < 4)
    (hm : (s.quad q).matrix.queue < 4) (hreplay : ∀ j < 4, ∀ m < 4, (s.slotAt (slotKey (quadCid q j) m)).replay = [])
    (hi : i < 4) (hone : (s.core (quadCid q i)).dq = [e]) (hrest : ∀ j < 4, j ≠ i → (s.core (quadCid q j)).dq = [])
    (hk : e.kind = .vector occ lat outs 0) (hb : e.bound = false)
    (hfree : ∃ g < 4, vcGet (s.quad q).laneBusy g ≤ s.quadNow q) :
    s.Paced q (s.boundCores (quadCid q i) e (s.quadNow q + lat)) (s.pacerBind q) := by
  obtain ⟨g, hg, hle⟩ := hfree
  have hheads : ∀ j < 4, (s.core (quadCid q j)).matrixHead = none := fun j hj => by
    by_cases hji : j = i
    · exact matrixHead_vector (by rw [hji]; exact hone) hk
    · exact matrixHead_of_all_bound (by simp [hrest j hj hji])
  have hnothing := nothingToBind_boundCores (d := s.quadNow q + lat) hi hone hrest
  rw [pacerBind_eq hreplay hheads]
  exact paced_bindArray (foldl_bindLane_one hl hm hi hone hrest hk hb ⟨g, List.mem_range.mpr hg, hle⟩)
    fun j hj => matrixHead_of_all_bound (hnothing j hj)
end
end Sys2Proof.Machine
end

section
/-! PROOF of O52, the copy engines and the cycle controller (R280, R282, R285, R304). Where no baton waits, an event that notes something with a baton
leaves it so that none waits, and wakes nobody. -/
namespace Sys2Proof.Machine

/-! ## Tables -/

theorem kget_eq_or_mem {α : Type} (d : α) (m : KMap α) (k : Nat) : kget d m k = d ∨ (k, kget d m k) ∈ m := by
  induction m with
  | nil => exact .inl rfl
  | cons p r ih =>
    obtain ⟨j, v⟩ := p
    unfold kget
    split
    next h => exact .inr (h ▸ List.mem_cons_self ..)
    next => exact ih.imp_right (List.mem_cons_of_mem _)

theorem mem_of_kfind {α : Type} {m : KMap α} {k : Nat} {x : α} (h : kfind m k = some x) : (k, x) ∈ m := by
  induction m with
  | nil => exact absurd h.symm (Option.some_ne_none _)
  | cons p r ih =>
    obtain ⟨j, v⟩ := p
    unfold kfind at h
    split at h
    next hk =>
      obtain rfl := Option.some.inj h
      exact hk ▸ List.mem_cons_self ..
    next => exact List.mem_cons_of_mem _ (ih h)

/-- The first key that meets a test stays so, where its value is replaced by one with the same answer. -/
theorem kfirst_kset_same {α : Type} {p : Nat → α → Bool} {m : KMap α} {k : Nat} {d x : α} (h : kfirst p m = some k)
    (hx : p k x = p k (kget d m k)) : kfirst p (kset k x m) = some k := by
  unfold kfirst at *
  induction m with
  | nil => exact absurd h.symm (Option.some_ne_none _)
  | cons q r ih =>
    obtain ⟨j, v⟩ := q
    rw [List.find?_cons] at h
    unfold kset
    split
    next =>
      rw [List.find?_cons]
      split
      · rfl
      · rwa [List.find?_cons]
    next =>
      split
      next heq =>
        subst heq
        rw [kget, if_pos rfl] at hx
        rw [List.find?_cons]
        dsimp only at h ⊢
        rw [hx]
        split at h
        next => rfl
        next => exact h
      next hne =>
        rw [kget, if_neg hne] at hx
        split at h
        · exact absurd (Option.some.inj h) (Ne.symm hne)
        next hno =>
          rw [List.find?_cons]
          dsimp only
          rw [hno]
          exact ih h hx

/-! ## Waits and slots -/
section
variable {s : State} {k r tag : Nat} {t : Slot} {a : Away}

theorem waiting_eq_nil_iff : s.waiting = [] ↔
    (∀ p ∈ s.slots, p.2.mode ≠ .parked) ∧ ∀ c ∈ s.clusters, ∀ a ∈ c.2.away, a.2.satisfied = true := by
  unfold State.waiting
  rw [List.append_eq_nil_iff, List.filterMap_eq_nil_iff, List.flatMap_eq_nil_iff]
  simp only [List.filterMap_eq_nil_iff]
  constructor
  · rintro ⟨hslots, haway⟩
    exact ⟨fun p hp => by simpa using hslots p hp, fun c hc a ha => by simpa using haway c hc a ha⟩
  · rintro ⟨hslots, haway⟩
    exact ⟨fun p hp => if_neg (hslots p hp), fun c hc a ha => if_pos (haway c hc a ha)⟩

theorem mode_slotAt_of_none_waits (h : s.waiting = []) (k : Nat) : (s.slotAt k).mode ≠ .parked := by
  obtain ⟨hslots, -⟩ := waiting_eq_nil_iff.mp h
  rcases kget_eq_or_mem Slot.empty s.slots k with hempty | hmem
  · rw [State.slotAt, hempty]
    exact SlotMode.noConfusion
  · exact hslots _ hmem

/-- No baton waits after a change of a slot that leaves its mode. -/
theorem waiting_setSlotAt (h : s.waiting = []) (ht : t.mode = (s.slotAt k).mode) : (s.setSlotAt k t).waiting = [] := by
  obtain ⟨hslots, haway⟩ := waiting_eq_nil_iff.mp h
  refine waiting_eq_nil_iff.mpr ⟨fun p hp => ?_, haway⟩
  rcases mem_kset _ _ _ _ hp with rfl | hp
  · exact ht ▸ mode_slotAt_of_none_waits h k
  · exact hslots p hp

theorem waiting_setCluster {pcl : Nat} {c : Cluster} (h : s.waiting = []) (hc : ∀ a ∈ c.away, a.2.satisfied = true) :
    (s.setCluster pcl c).waiting = [] := by
  obtain ⟨hslots, haway⟩ := waiting_eq_nil_iff.mp h
  refine waiting_eq_nil_iff.mpr ⟨hslots, fun x hx a ha => ?_⟩
  rcases mem_kset _ _ _ _ hx with rfl | hx
  · exact hc a ha
  · exact haway x hx a ha

theorem satisfied_of_none_waits (h : s.waiting = []) (pcl : Nat) : ∀ a ∈ (s.cluster pcl).away, a.2.satisfied = true := by
  obtain ⟨-, haway⟩ := waiting_eq_nil_iff.mp h
  intro a ha
  rcases kget_eq_or_mem Cluster.init s.clusters pcl with hinit | hmem
  · rw [State.cluster, hinit] at ha
    exact absurd ha List.not_mem_nil
  · exact haway _ hmem _ ha

theorem satisfied_findAway (h : s.waiting = []) (ha : s.findAway r = some a) : a.satisfied = true :=
  satisfied_of_none_waits h _ _ (mem_of_kfind ha)

/-- No baton waits after a change of an entry out of any slot that leaves its wait satisfied. -/
theorem waiting_setAway {b : Away} (h : s.waiting = []) (hb : b.satisfied = true) : (s.setAway r b).waiting = [] := by
  refine waiting_setCluster h fun x hx => ?_
  rcases mem_kset _ _ _ _ hx with rfl | hx
  · exact hb
  · exact satisfied_of_none_waits h _ x hx

theorem waiting_dropPosted (h : s.waiting = []) : (s.dropPosted r tag).waiting = [] := by
  unfold State.dropPosted
  split
  · exact waiting_setSlotAt h rfl
  · split
    next a ha => exact waiting_setAway h (satisfied_findAway (a := a) h ha)
    · exact h

theorem findSlot_setSlotAt (h : s.findSlot r = some k) (hmode : t.mode = (s.slotAt k).mode) (hbaton : t.xbaton = (s.slotAt k).xbaton) :
    (s.setSlotAt k t).findSlot r = some k :=
  kfirst_kset_same h (d := Slot.empty) (by
    rw [hmode, slotRecord_congr k _ t hbaton]
    rfl)
end

/-! ## Copy commands (R280, R282) -/
section
variable {s : State} {pcl i k r : Nat} {e : CpEntry}

theorem waiting_setEntry (h : s.waiting = []) : (s.setEntry pcl i e).waiting = [] :=
  waiting_setCluster h (satisfied_of_none_waits h pcl)

theorem waiting_noteLapCopy {handle status : Nat} (h : s.waiting = []) : (s.noteLapCopy r handle status).waiting = [] := by
  unfold State.noteLapCopy
  dsimp only
  split
  · exact waiting_setSlotAt h rfl
  · split
    next a ha => exact waiting_setAway h (satisfied_findAway (a := a) h ha)
    · exact h

theorem wakePromise_of_none_waits {handle : Dword} (h : s.waiting = []) : s.wakePromise pcl handle = s := by
  unfold State.wakePromise
  rw [h]
  rfl

/-- Noting a copy with a baton in a slot changes that slot alone. -/
theorem noteLapCopy_of_findSlot {handle status : Nat} (h : s.findSlot r = some k) :
    ∃ t, s.noteLapCopy r handle status = s.setSlotAt k t := by
  unfold State.noteLapCopy
  rw [h]
  exact ⟨_, rfl⟩

/-- A command of a baton in a slot that nothing waits for completes in its entry, and its baton's slot notes it. -/
theorem completeEntry_of_none_waits (h : s.waiting = []) (hd : e.dropped = false) (hr : s.findSlot e.baton = some k) :
    ∃ t, s.completeEntry pcl i e =
      (s.setEntry pcl i { e with complete := true, completeAt := s.swcAt (pcl / 24), arriving := false }).setSlotAt k t := by
  unfold State.completeEntry
  dsimp only
  rw [if_neg (by simp [hd]), wakePromise_of_none_waits (waiting_noteLapCopy (waiting_setEntry h))]
  exact noteLapCopy_of_findSlot hr

theorem copyComplete_again (hk : kfind (s.cluster pcl).engine i = some e) (hc : e.complete = true) : s.copyComplete pcl i = s := by
  unfold State.copyComplete
  rw [hk]
  exact if_pos (by simp [hc])

/-- A command without an arrival whose pieces have ended completes with its status. -/
theorem copyComplete_of_pieces_ended (hk : kfind (s.cluster pcl).engine i = some e) (hc : e.complete = false) (ha : e.arriving = false)
    (hp : piecesEnded e = true) (hm : e.kind ≠ .mcast) (hh : e.hurdle = none) :
    s.copyComplete pcl i = s.completeEntry pcl i { e with status := if e.cancelled then 6 else e.status } := by
  unfold State.copyComplete
  rw [hk]
  dsimp only
  rw [if_neg (by simp [hc, ha, hp]), if_neg hm, if_neg hm, hh]
  dsimp only
  rw [ite_self]

theorem lapseEntry_due (hk : kfind (s.cluster pcl).engine i = some e) (hc : e.complete = true)
    (hle : e.completeAt + 65536 ≤ s.swcAt (pcl / 24)) : s.lapseEntry pcl i = s.freeEntry pcl i := by
  unfold State.lapseEntry
  rw [hk]
  exact if_pos (by simp [hc, hle])

theorem lapseEntry_early (hk : kfind (s.cluster pcl).engine i = some e) (hlt : s.swcAt (pcl / 24) < e.completeAt + 65536) :
    s.lapseEntry pcl i = s := by
  unfold State.lapseEntry
  rw [hk]
  exact if_neg (by simp [Nat.not_le.mpr hlt])

theorem kfind_freeEntry : kfind ((s.freeEntry pcl i).cluster pcl).engine i = none := by
  rw [State.freeEntry, cluster_setCluster]
  exact kfind_kdel_same

theorem kfind_setEntry : kfind ((s.setEntry pcl i e).cluster pcl).engine i = some e := by
  rw [State.setEntry, cluster_setCluster]
  exact kfind_kset_same _ _ _

/-- What the events of a command do (R280, R282). -/
theorem copyCommand_events (hk : kfind (s.cluster pcl).engine i = some e) :
    (e.complete = true → exec (.copyComplete pcl i) s = .next s) ∧
    (e.complete = false → e.arriving = false → piecesEnded e = true → e.kind ≠ .mcast → e.hurdle = none → e.dropped = false → s.waiting = [] →
      e.baton = r → s.findSlot r = some k → ∃ t, exec (.copyComplete pcl i) s = .next t ∧ t.mem = s.mem ∧
        ∃ e', kfind (t.cluster pcl).engine i = some e' ∧ e'.complete = true ∧
        e'.completeAt = s.swcAt (pcl / 24) ∧ e'.handle = e.handle ∧ e'.status = if e.cancelled then 6 else e.status) ∧
    (e.complete = true → e.completeAt + 65536 ≤ s.swcAt (pcl / 24) → s.waiting = [] → ∃ t, exec (.handleEntryLapse pcl i) s = .next t ∧
      t.mem = s.mem ∧ kfind (t.cluster pcl).engine i = none) ∧
    (s.swcAt (pcl / 24) < e.completeAt + 65536 → exec (.handleEntryLapse pcl i) s = .next s) := by
  refine ⟨fun hc => congrArg Host.Outcome.next (copyComplete_again hk hc), fun hc ha hp hm hh hd hw hr hslot => ?completes,
    fun hc hle _ => ?lapses, fun hlt => congrArg Host.Outcome.next (lapseEntry_early hk hlt)⟩
  case completes =>
    subst hr
    obtain ⟨t, ht⟩ := completeEntry_of_none_waits (pcl := pcl) (i := i)
      (e := { e with status := if e.cancelled then 6 else e.status }) hw hd hslot
    have hexec : exec (.copyComplete pcl i) s = .next _ :=
      congrArg Host.Outcome.next ((copyComplete_of_pieces_ended hk hc ha hp hm hh).trans ht)
    exact ⟨_, hexec, rfl, _, kfind_setEntry, rfl, rfl, rfl, rfl⟩
  case lapses =>
    exact ⟨_, congrArg Host.Outcome.next (lapseEntry_due hk hc hle), rfl, kfind_freeEntry⟩
end

/-! ## Feeds (R285) -/
section
variable {s : State} {cid i : Nat} {b : Bool} {e : CpEntry} {rest : List (Nat × CpEntry)} {panel : BitVec 32768}

theorem feedPanel_none (h : s.feedsTo (cidPcl cid) cid b = []) : s.feedPanel cid b = s := by
  unfold State.feedPanel
  dsimp only
  rw [h]
  rfl

theorem panels_port_setPort (c : Core) (p : Port) : ((c.setPort b p).port b).panels = p.panels := by
  cases b <;> rfl

/-- The oldest feed into a port with room delivers its next panel. -/
theorem feedPanel_delivers (hf : s.feedsTo (cidPcl cid) cid b = (i, e) :: rest) (hover : feedOver e = false) (hcancel : e.cancelled = false)
    (harr : e.arriving = false) (hgath : e.gathering = false) (hflight : e.flight = []) (hroom : ((s.core cid).port b).panels.length < 8)
    (hwait : (s.power (cidPcl cid / 24)).waiters = []) (hpanel : s.assemble (cidPcl cid) i e (feedDelivered e) = .ok panel) :
    s.feedPanel cid b = (s.setCore cid ((s.core cid).setPort b (((s.core cid).port b).push panel))).setEntry (cidPcl cid) i
      { e with moved := e.moved + 4096, reads := [] } := by
  unfold State.feedPanel
  dsimp only
  rw [hf, List.head?_cons]
  dsimp only
  rw [if_neg (by simp [hover, hcancel, harr, hgath, hflight, hroom]), hpanel]
  exact unstallAt_of_no_waiters _ _ _ hwait
end

/-! ## The cycle controller (R304) -/
section
variable {s : State} {q : CycReq} {rest : List CycReq} {c : CycRec} {k n : Nat}

theorem wakeCycle_of_none_waits (h : s.waiting = []) : s.wakeCycle n = s := by
  unfold State.wakeCycle
  rw [h]
  rfl

/-- The controller's queue without its oldest request. -/
def State.cycRest (s : State) (rest : List CycReq) : State := { s with cyc := { s.cyc with queue := rest } }

theorem cycRequest_cons (h : s.cyc.queue = q :: rest) : s.cycRequest = (s.cycRest rest).cycTakeReq q := by
  unfold State.cycRequest
  rw [h]
  rfl

theorem dropPosted_frame (r tag : Nat) : ∃ slots clusters, s.dropPosted r tag = { s with slots := slots, clusters := clusters } := by
  unfold State.dropPosted
  split
  · exact ⟨_, _, rfl⟩
  · split
    · exact ⟨_, _, rfl⟩
    · exact ⟨_, _, rfl⟩

/-- The state once a posted request has been taken from the queue and answered for. -/
def State.cycTaken (s : State) (q : CycReq) (rest : List CycReq) : State :=
  ((s.cycRest rest).dropTag q.tag).dropPosted q.record q.tag

theorem cycTaken_frame (q : CycReq) (rest : List CycReq) : ∃ slots clusters,
    s.cycTaken q rest = { s with cyc := { s.cyc with queue := rest }, owners := kdel q.tag s.owners, slots := slots, clusters := clusters } :=
  dropPosted_frame _ _

theorem cycNamed_cycTaken (h : Dword) (tk : BitVec 16) : (s.cycTaken q rest).cycNamed h tk = s.cycNamed h tk := by
  obtain ⟨slots, clusters, heq⟩ := cycTaken_frame (s := s) q rest
  rw [heq]
  rfl

theorem waiting_cycTaken (h : s.waiting = []) : (s.cycTaken q rest).waiting = [] :=
  waiting_dropPosted (s := (s.cycRest rest).dropTag q.tag) h

/-- A request that its record admits is applied. -/
theorem cycRequest_applies {c' : CycRec} (h : s.cyc.queue = q :: rest) (hw : s.waiting = [])
    (hc : s.cycNamed q.handle q.track = some c) (ha : c.apply q = some c') :
    s.cycRequest = (s.cycTaken q rest).setCyc (cycNum q.handle) c' := by
  have hnamed : ((s.cycTaken q rest).cycNamed q.handle q.track).bind (fun r => r.apply q) = some c' := by
    rw [cycNamed_cycTaken, hc]
    exact ha
  rw [cycRequest_cons h]
  unfold State.cycTakeReq
  dsimp only
  rw [show ((s.cycRest rest).dropTag q.tag).dropPosted q.record q.tag = s.cycTaken q rest from rfl, hnamed]
  exact wakeCycle_of_none_waits (waiting_cycTaken hw)

/-- A request that its record refuses is left with its baton as a posted CYCLE_STATE (R138). -/
theorem cycRequest_refuses (h : s.cyc.queue = q :: rest)
    (hc : (s.cycNamed q.handle q.track).bind (fun c => c.apply q) = none) (howner : kfind s.owners q.tag = some (.posted q.record)) :
    s.cycRequest = (s.cycTaken q rest).addDeferred q.record
      { cause := 29, value := BitVec.ofNat 64 (cycNum q.handle), status := 0, posted := true, sync := false, at' := none } := by
  have hnamed : ((s.cycTaken q rest).cycNamed q.handle q.track).bind (fun r => r.apply q) = none := by
    rw [cycNamed_cycTaken, hc]
  have hlive : (kfind (s.cycRest rest).owners q.tag == some (.posted q.record)) = true := by
    rw [show (s.cycRest rest).owners = s.owners from rfl, howner]
    exact beq_self_eq_true _
  rw [cycRequest_cons h]
  unfold State.cycTakeReq
  dsimp only
  rw [show ((s.cycRest rest).dropTag q.tag).dropPosted q.record q.tag = s.cycTaken q rest from rfl, hnamed]
  exact if_pos hlive

/-- A fault deferred to the baton of a request that has been taken joins those of its slot. -/
theorem deferred_addDeferred_cycTaken {d : Deferred} (hr : s.findSlot q.record = some k) :
    (((s.cycTaken q rest).addDeferred q.record d).slotAt k).deferred = (s.slotAt k).deferred ++ [d] := by
  have hfind : ((s.cycRest rest).dropTag q.tag).findSlot q.record = some k := hr
  have htaken : s.cycTaken q rest = ((s.cycRest rest).dropTag q.tag).setSlotAt k
      { s.slotAt k with posted := (s.slotAt k).posted.filter fun p => p.tag != q.tag } := by
    unfold State.cycTaken State.dropPosted
    rw [hfind]
    rfl
  have hstill : (s.cycTaken q rest).findSlot q.record = some k := by
    rw [htaken]
    exact findSlot_setSlotAt hfind rfl rfl
  unfold State.addDeferred
  rw [hstill]
  dsimp only
  rw [slotAt_setSlotAt, htaken, slotAt_setSlotAt]

theorem addDeferred_frame (r : Nat) (d : Deferred) : ∃ slots clusters, s.addDeferred r d = { s with slots := slots, clusters := clusters } := by
  unfold State.addDeferred
  split
  · exact ⟨_, _, rfl⟩
  · split
    · exact ⟨_, _, rfl⟩
    · exact ⟨_, _, rfl⟩

/-- What CYCLE_CONTROLLER_REQUEST does with its oldest request (R304). -/
theorem cycleControllerRequest_takes (h : s.cyc.queue = q :: rest) (hw : s.waiting = []) :
    (∀ c c', s.cycNamed q.handle q.track = some c → c.apply q = some c' → ∃ t, exec .cycleControllerRequest s = .next t ∧ t.mem = s.mem ∧
      t.cycRec (cycNum q.handle) = c' ∧ t.cyc.queue = rest) ∧
    ((s.cycNamed q.handle q.track).bind (fun c => c.apply q) = none → s.findSlot q.record = some k →
      kfind s.owners q.tag = some (.posted q.record) → ∃ t, exec .cycleControllerRequest s = .next t ∧ t.mem = s.mem ∧ t.cyc.queue = rest ∧
      (t.slotAt k).deferred = (s.slotAt k).deferred ++
        [{ cause := 29, value := BitVec.ofNat 64 (cycNum q.handle), status := 0, posted := true, sync := false, at' := none }]) := by
  obtain ⟨slots, clusters, htaken⟩ := cycTaken_frame (s := s) q rest
  refine ⟨fun c c' hc ha => ?applied, fun hrefused hslot howner => ?refused⟩
  case applied =>
    refine ⟨_, congrArg Host.Outcome.next (cycRequest_applies h hw hc ha), ?_, kget_kset_same _ _ _ _, ?_⟩
    · rw [htaken]
      rfl
    · rw [htaken]
      rfl
  case refused =>
    obtain ⟨slots', clusters', hadded⟩ := addDeferred_frame (s := s.cycTaken q rest) q.record
      { cause := 29, value := BitVec.ofNat 64 (cycNum q.handle), status := 0, posted := true, sync := false, at' := none }
    refine ⟨_, congrArg Host.Outcome.next (cycRequest_refuses h hrefused howner), ?_, ?_, deferred_addDeferred_cycTaken hslot⟩
    · rw [hadded, htaken]
    · rw [hadded, htaken]
end
end Sys2Proof.Machine
end

section
/-! PROOF of O52, the Relay (R121, R122, R129, R130). On the state where one run is open, a node that ends leaves the run in the table while another of its
nodes has still to end. -/
namespace Sys2Proof.Machine

/-! ## A node that ends -/
section
variable {s : State} {run r : Run} {node : RunNode} {k n status : Nat}

/-- Node `n` of a list has ended, with `status` where that is a failure. -/
def EndedAt (l : List RunNode) (n status : Nat) : Prop := ∃ m, l[n]? = some m ∧ m.phase = .ended ∧ (status ≠ 0 → m.status = status)

theorem EndedAt.set {l : List RunNode} {j : Nat} {x x' : RunNode} (h : EndedAt l n status) (hx : l[j]? = some x)
    (hphase : x'.phase = x.phase) (hstatus : x'.status = if x.kind == .arrive || x.status != 0 then x.status else status) :
    EndedAt (l.set j x') n status := by
  obtain ⟨m, hm, hended, hst⟩ := h
  by_cases hjn : j = n
  · subst hjn
    obtain rfl : x = m := Option.some.inj (hx.symm.trans hm)
    obtain ⟨hlt, -⟩ := List.getElem?_eq_some_iff.mp hm
    refine ⟨x', List.getElem?_set_self hlt, hphase.trans hended, fun h0 => ?_⟩
    rw [hstatus, hst h0, ite_self]
  · exact ⟨m, (List.getElem?_set_ne hjn).trans hm, hended, hst⟩

theorem endedAt_endNode (h : run.nodes[n]? = some node) (status : Nat) : EndedAt (run.endNode n status).nodes n status := by
  obtain ⟨hlt, -⟩ := List.getElem?_eq_some_iff.mp h
  unfold Run.endNode
  rw [h]
  refine List.foldlRecOn (motive := fun l => EndedAt l n status) _ _ ⟨_, List.getElem?_set_self hlt, rfl, fun _ => rfl⟩ fun l hl j _ => ?_
  split
  · exact hl
  next x hx => exact hl.set hx rfl rfl

theorem slot_endNode : (run.endNode n status).slot = run.slot := by
  unfold Run.endNode
  split <;> rfl
end

/-! ## The table of runs -/
section
variable {s : State} {run r : Run} {node : RunNode} {k n status : Nat}

theorem kfind_runs (h : s.relay.runs = [(k, run)]) : kfind s.relay.runs k = some run := by
  rw [h]
  exact if_pos rfl

theorem completeRuns_of_not_over (h : s.relay.runs = [(k, run)]) (ho : run.over = false) (fuel : Nat) :
    s.completeRuns run.slot fuel = s := by
  cases fuel with
  | zero => rfl
  | succ fuel =>
    have hopen : (s.relay.runsOf run.slot).head? = some (k, run) := by simp [Relay.runsOf, h]
    unfold State.completeRuns
    rw [hopen]
    split
    next hr _ =>
      cases Option.some.inj hr
      exact if_pos (by rw [ho]; rfl)
    · rfl

/-- The state with a run whose node has ended. -/
def State.nodeDone (s : State) (k : Nat) (r : Run) : State := (s.setRun k (s.restart r)).completeRuns r.slot 64

/-- A run of which another node has still to end stays in the table. -/
theorem nodeDone_eq (h : s.relay.runs = [(k, run)]) (ho : r.over = false) : s.nodeDone k r = s.setRun k (s.restart r) :=
  completeRuns_of_not_over (k := k) (s := s.setRun k (s.restart r)) (run := s.restart r)
    (by simp [State.setRun, State.setRelay, h, kset]) ho 64

/-- What is so once a node of the one run has ended. -/
theorem nodeDone_endNode (h : s.relay.runs = [(k, run)]) (hn : run.nodes[n]? = some node) (ho : (run.endNode n status).over = false) :
    (s.nodeDone k (run.endNode n status)).mem = s.mem ∧ (s.nodeDone k (run.endNode n status)).slots = s.slots ∧
      ∃ y, kfind (s.nodeDone k (run.endNode n status)).relay.runs k = some y ∧ EndedAt y.nodes n status := by
  rw [nodeDone_eq h ho]
  exact ⟨rfl, rfl, _, kfind_kset_same _ _ _, endedAt_endNode hn status⟩

theorem onRelay_up (hup : s.relayUp = true) (f : State → State) : s.onRelay xDie f = f s := if_pos ⟨rfl, hup⟩
/-- What a Relay's event does while the Relay is up. -/
theorem next_onRelay (hup : s.relayUp = true) {f : State → State} {t : State} (ht : f s = t) : (.next (s.onRelay xDie f) : Res) = .next t :=
  congrArg Host.Outcome.next ((onRelay_up hup f).trans ht)
theorem onRelay_other {d : Nat} (hd : d ≠ xDie) (f : State → State) : s.onRelay d f = s := if_neg fun h => hd h.1
end

/-! ## NODE_START (R122) -/
section
variable {s : State} {run : Run} {node : RunNode} {m : RunMember} {k n a : Nat}

/-- The one open run is among those on which the sequencer works (R115). -/
theorem active_runs (h : s.relay.runs = [(k, run)]) :
    ((s.relay.runs.findIdx? fun p => p.1 == k).any fun j => decide (j < 32)) = true := by
  have hfirst : (s.relay.runs.findIdx? fun p => p.1 == k) = some 0 := by
    rw [h, List.findIdx?_cons]
    exact if_pos (beq_self_eq_true k)
  rw [hfirst]
  rfl

theorem nodeStart_waits (h : s.relay.runs = [(k, run)]) (hn : run.nodes[n]? = some node) (hw : node.phase ≠ .idle ∨ 0 < node.counter) :
    s.nodeStart k n = s := by
  unfold State.nodeStart
  rw [kfind_runs h]
  dsimp only
  rw [hn]
  exact if_pos (hw.imp_right .inr)

theorem nodeStart_elsewhere (h : s.relay.runs = [(k, run)]) (hn : run.nodes[n]? = some node) (hseq : s.sequencedHere run node = false)
    (hended : run.ended = none) : s.nodeStart k n = s := by
  unfold State.nodeStart
  rw [kfind_runs h]
  dsimp only
  rw [hn]
  dsimp only
  rw [if_pos (c := (!s.sequencedHere run node) = true) (by simp [hseq]), if_neg (c := run.ended.isSome = true) (by simp [hended])]
  exact ite_self _

section
variable (h : s.relay.runs = [(k, run)]) (hn : run.nodes[n]? = some node) (hidle : node.phase = .idle) (hcount : node.counter = 0)
  (hseq : s.sequencedHere run node = true) (hended : run.ended = none)
include h hn hidle hcount hseq hended

/-- A node of no member ends NOT_MAPPED. -/
theorem nodeStart_no_member (hm : run.members[node.member]? = none) (hst : node.status = 0) :
    s.nodeStart k n = s.nodeDone k (run.endNode n 3) := by
  unfold State.nodeStart
  rw [kfind_runs h]
  dsimp only
  rw [hn]
  dsimp only
  rw [if_neg (by simp [hidle, hcount, active_runs h]), hseq, hm, hended, if_neg (by simp)]
  dsimp only
  rw [if_neg (by simp), if_neg (by simp [hst])]
  rfl

/-- A nop ends with the status that has come to it. -/
theorem nodeStart_nop (hm : run.members[node.member]? = some m) (hin : m.withdrawn = false) (hkind : node.kind = .nop) :
    s.nodeStart k n = s.nodeDone k (run.endNode n node.status) := by
  unfold State.nodeStart
  rw [kfind_runs h]
  dsimp only
  rw [hn]
  dsimp only
  rw [if_neg (by simp [hidle, hcount, active_runs h]), hseq, hm, hended, if_neg (by simp)]
  dsimp only
  rw [if_neg (by simp [hin]), if_pos (.inl hkind), if_neg (by simp)]
  rfl

/-- The one run with a node begun, and the chunks of which a contribution has been loaded. -/
def Run.withBegun (run : Run) (n : Nat) (node : RunNode) (loaded : List Nat) : Run :=
  { run with loaded := loaded, nodes := run.nodes.set n { node with phase := .begun } }

/-- A load of a member that has joined begins, and its first piece goes out. -/
theorem nodeStart_load (hm : run.members[node.member]? = some m) (hin : m.withdrawn = false) (hkind : node.kind = .load)
    (hst : node.status = 0) (hcustom : run.hdr.kind = 0) (hjoined : m.joined = true) (hrank : rctState (s.rct xDie m.rank) = 1)
    (hbase : run.baseOk node = true) : ∃ loaded, s.nodeStart k n = (s.setRun k (run.withBegun n node loaded)).nodePiece k n := by
  unfold State.nodeStart
  rw [kfind_runs h]
  dsimp only
  rw [hn]
  dsimp only
  rw [if_neg (by simp [hidle, hcount, active_runs h]), if_neg (by simp [hseq]), hm]
  dsimp only
  rw [if_neg (by simp [hin]), if_neg (by simp [hkind, hst, hended]), if_neg (by simp [hcustom]), if_neg (by simp [hjoined]),
    if_neg (by simp [hrank]), if_neg (by simp [hkind]), if_neg (by simp [hrank]), if_neg (by simp [hbase])]
  exact ⟨_, rfl⟩
end
end

/-! ## Pieces of a load (R121) -/
section
variable {s : State} {run r : Run} {node : RunNode} {k n a : Nat}

/-- The length of the first piece of a load at a global address: at most 64 bytes within a 4 KiB page. -/
def firstPiece (node : RunNode) (a : Nat) : Nat := min (min 64 node.bytes) (4096 - a % 4096)

/-- The first piece of a load at a global address of this package goes out. -/
theorem nodePiece_first (hr : kfind s.relay.runs k = some r) (hn : r.nodes[n]? = some node) (hbegun : node.phase = .begun)
    (htag : node.tag = 0) (hpos : node.pos = 0) (hraw : node.raw = []) (hbytes : 0 < node.bytes) (hkind : node.kind = .load)
    (hrank : rctState (s.memberEntry r node) = 1) (hplace : r.placeOf node 0 = .global a) (hhere : (s.routeTo xDie r.track a).2 = 0) :
    s.nodePiece k n = ((s.newTag (.node k n)).2.setRun k { r with nodes := r.nodes.set n { node with tag := s.nextTag } }).send
      (s.chunkPkt r node (.global a) (firstPiece node a) [] s.nextTag) := by
  have hfrom : node.pos + node.raw.length = 0 := by rw [hpos, hraw]; rfl
  have hforeign : (s.newTag (.node k n)).2.foreign ((s.newTag (.node k n)).2.chunkPkt r node (.global a)
      (min (min 64 node.bytes) (4096 - a % 4096)) [] (s.newTag (.node k n)).1).dstPkg = false := by
    show s.foreign (s.routeTo xDie r.track a).2 = false
    rw [hhere]
    rfl
  unfold State.nodePiece
  rw [hr]
  dsimp only
  rw [hn]
  dsimp only
  rw [hfrom, if_neg (by simp [hbegun, htag, hkind, hbytes.ne']), if_neg (by simp [hrank]), if_neg (by simp [hrank]), hplace]
  dsimp only
  rw [Nat.sub_zero, if_neg (c := node.kind = .store) (by simp [hkind])]
  simp only [hforeign, Bool.false_and, Bool.or_false, Bool.false_eq_true, if_false]
  rfl

/-- A request of the Relay to a home of this package that can be reached is in flight. -/
theorem send_relay {p : Pkt} (hsrc : p.src = relayEp) (hhere : p.dstPkg = 0) (hep : isEp p.dst = true) (hup : s.dieUp (epDie p.dst) = true)
    (hlink : s.linkUp xDie (epDie p.dst) = true) : s.send p = s.accept xDie (epDie p.dst) p := by
  have hdie : epDie relayEp = xDie := by decide
  rw [State.send, hsrc, hdie]
  exact send_accepts s xDie p hhere hep hup hlink

/-- A load at a global address of this package that begins has its first piece read. -/
theorem nodeStart_load_reads {run : Run} {m : RunMember} (h : s.relay.runs = [(k, run)]) (hn : run.nodes[n]? = some node)
    (hidle : node.phase = .idle) (hcount : node.counter = 0) (hkind : node.kind = .load) (hst : node.status = 0) (hended : run.ended = none)
    (hcustom : run.hdr.kind = 0) (hpos : node.pos = 0) (hraw : node.raw = []) (htag : node.tag = 0) (hbytes : 0 < node.bytes)
    (hseq : s.sequencedHere run node = true) (hm : run.members[node.member]? = some m) (hin : m.withdrawn = false)
    (hjoined : m.joined = true) (hrank : rctState (s.rct xDie m.rank) = 1) (hbase : run.baseOk node = true)
    (hplace : run.placeOf node 0 = .global a) (hhere : (s.routeTo xDie run.track a).2 = 0) (hep : isEp (s.routeTo xDie run.track a).1 = true)
    (hup : s.dieUp (epDie (s.routeTo xDie run.track a).1) = true)
    (hlink : s.linkUp xDie (epDie (s.routeTo xDie run.track a).1) = true) :
    ∃ t, s.nodeStart k n = t ∧ t.mem = s.mem ∧ kfind t.owners s.nextTag = some (.node k n) ∧ t.inFlight fun p => p.ty = .read ∧ p.op = .read ∧
      p.va = a ∧ p.dst = (s.routeTo xDie run.track a).1 ∧ p.tag = s.nextTag ∧ p.elems = [(a, firstPiece node a)] := by
  obtain ⟨loaded, hbegins⟩ := nodeStart_load h hn hidle hcount hseq hended hm hin hkind hst hcustom hjoined hrank hbase
  obtain ⟨hlt, -⟩ := List.getElem?_eq_some_iff.mp hn
  have hentry : (s.setRun k (run.withBegun n node loaded)).memberEntry (run.withBegun n node loaded) { node with phase := .begun } =
      s.rct xDie m.rank := by
    show (match run.members[node.member]? with | some m => s.rct xDie m.rank | none => 0) = _
    rw [hm]
  have hpiece := nodePiece_first (s := s.setRun k (run.withBegun n node loaded)) (k := k) (kfind_kset_same _ _ _)
    (List.getElem?_set_self hlt) rfl htag hpos hraw hbytes hkind (by rw [hentry]; exact hrank) hplace hhere
  rw [send_relay rfl hhere hep hup hlink] at hpiece
  refine ⟨_, hbegins.trans hpiece, rfl, kfind_kset_same _ _ _, accept_inFlight _ _ _ _ _ ⟨?_, ?_, rfl, rfl, rfl, rfl⟩⟩
  · exact if_neg (by simp [hkind])
  · exact if_neg (by simp [hkind])
end

/-! ## NODE_END and STALL_TIMEOUT (R122, R130) -/
section
variable {s : State} {run : Run} {node : RunNode} {k n : Nat}

/-- A begun node with nothing left ends with its status. -/
theorem nodeEnd_of_moved (h : s.relay.runs = [(k, run)]) (hn : run.nodes[n]? = some node) (hbegun : node.phase = .begun) (htag : node.tag = 0)
    (hleft : node.bytes ≤ node.pos) : s.nodeEnd k n = s.nodeDone k (run.endNode n node.status) := by
  unfold State.nodeEnd
  rw [kfind_runs h]
  dsimp only
  rw [hn]
  dsimp only
  rw [if_pos ⟨hbegun, htag, .inr hleft⟩, State.endNode, kfind_runs h, State.nodeDone, slot_endNode]

theorem stallTimeout_expires (h : s.relay.runs = [(k, run)]) (hended : run.ended = none) (hover : run.over = false)
    (hpause : s.runPaused run = false) (hstall : run.stall ≤ run.elapsed s.relayNow) :
    s.stallTimeout k = s.setRun k { run with ended := some 8 } := by
  unfold State.stallTimeout
  rw [kfind_runs h]
  dsimp only
  rw [if_pos (by simp [hpause, hstall]), State.endRun, kfind_runs h]
  exact if_neg (by simp [hended, hover])

theorem stallTimeout_stands (h : s.relay.runs = [(k, run)]) (hno : s.runPaused run = true ∨ run.elapsed s.relayNow < run.stall) :
    s.stallTimeout k = s := by
  unfold State.stallTimeout
  rw [kfind_runs h]
  refine if_neg fun hgo => ?_
  rw [Bool.and_eq_true, Bool.not_eq_true', decide_eq_true_eq] at hgo
  obtain ⟨hpause, hstall⟩ := hgo
  rcases hno with hp | hlt
  · exact Bool.false_ne_true (hpause.symm.trans hp)
  · omega
end

/-! ## Pauses (R129) -/
section
variable {s : State} {p : Pause} {i : Nat}

theorem pauseLimit_due (hp : s.relay.pauses[i]? = some p) (hle : p.started + p.limit ≤ s.relayNow) : s.pauseLimit i = s.unpause p.rank := by
  unfold State.pauseLimit
  rw [hp]
  exact if_pos hle

theorem pauseLimit_early (hp : s.relay.pauses[i]? = some p) (hlt : s.relayNow < p.started + p.limit) : s.pauseLimit i = s := by
  unfold State.pauseLimit
  rw [hp]
  exact if_neg (Nat.not_le.mpr hlt)

theorem pauses_unpause (rank : Nat) : ∀ q ∈ (s.unpause rank).relay.pauses, q.rank ≠ rank := fun q hq => by
  have hmem : q ∈ s.relay.pauses.filter fun p => p.rank != rank := hq
  simpa using (List.mem_filter.mp hmem).2

/-- The runs once those with a member whose pause has lasted their RSVREL have released their reservations. -/
def State.releasedRuns (s : State) (p : Pause) : KMap Run :=
  kmap (fun _ (r : Run) => if r.has p.rank ∧ p.started + r.rsvrel ≤ s.relayNow then { r with reserved := false } else r) s.relay.runs

theorem reservationRelease_eq (hp : s.relay.pauses[i]? = some p) :
    s.reservationRelease i = s.setRelay { s.relay with runs := s.releasedRuns p } := by
  unfold State.reservationRelease
  rw [hp]
  rfl

theorem reserved_releasedRuns {y : Nat × Run} (hy : y ∈ s.releasedRuns p) (hmem : ∃ m ∈ y.2.members, m.rank = p.rank ∧ m.withdrawn = false)
    (hle : p.started + y.2.rsvrel ≤ s.relayNow) : y.2.reserved = false := by
  obtain ⟨x, -, rfl⟩ := List.mem_map.mp hy
  dsimp only at hmem hle ⊢
  by_cases hrel : x.2.has p.rank ∧ p.started + x.2.rsvrel ≤ s.relayNow
  · rw [if_pos hrel]
  · rw [if_neg hrel] at hmem hle
    obtain ⟨m, hm, hrank, hin⟩ := hmem
    exact absurd ⟨List.any_eq_true.mpr ⟨m, hm, by simp [hrank, hin]⟩, hle⟩ hrel
end

/-! ## The Relay goes down (R130) -/
section
variable {s : State}

/-- With no run open and no baton waiting, the Relay that goes down only loses its pauses. -/
theorem relayDown_idle (hruns : s.relay.runs = []) (hw : s.waiting = []) :
    ∃ plans, s.relayDown = (s.setRelay { s.relay with runs := [], pauses := [], plans := plans }).setReady 51 false := by
  unfold State.relayDown
  dsimp only
  rw [hruns, List.foldl_nil, ite_self]
  exact ⟨_, congrArg (List.foldl _ _) hw⟩
end
end Sys2Proof.Machine
end

section
/-! PROOF of O52, the obligation: what each event comes to, by the lemmas above. -/
namespace Sys2Proof.Machine

/-- What PACER_BIND does, of a quad with sound round robins. -/
theorem pacerBind_events {s : State} {q i : Nat} (hl : (s.quad q).lanes.queue < 4) (hm : (s.quad q).matrix.queue < 4)
    (hreplay : ∀ j < 4, ∀ m < 4, (s.slotAt (slotKey (quadCid q j) m)).replay = []) :
    ((∀ j < 4, (s.core (quadCid q j)).dq = []) → ∃ t, exec (.pacerBind q) s = .next t ∧ t.mem = s.mem ∧ t.cores = s.cores ∧ t.slots = s.slots) ∧
    (∀ e occ lat outs, i < 4 → (∀ j < 4, j ≠ i → (s.core (quadCid q j)).dq = []) → (s.core (quadCid q i)).dq = [e] →
      e.kind = .vector occ lat outs 0 → e.bound = false → (∃ g < 4, vcGet (s.quad q).laneBusy g ≤ s.quadNow q) →
      ∃ t, exec (.pacerBind q) s = .next t ∧ t.mem = s.mem ∧
        (t.core (quadCid q i)).dq = [{ e with bound := true, doneAt := s.quadNow q + lat }] ∧ t.slots = s.slots) := by
  refine ⟨fun hempty => ?empty, fun e occ lat outs hi hrest hone hk hb hfree => ?one⟩
  case empty =>
    obtain ⟨heq, -, -⟩ := pacerBind_empty hl hm hreplay hempty
    exact ⟨_, rfl, by rw [heq], by rw [heq], by rw [heq]⟩
  case one =>
    have hpaced := pacerBind_one hl hm hreplay hi hone hrest hk hb hfree
    obtain ⟨heq, -, -⟩ := id hpaced
    exact ⟨_, rfl, by rw [heq], by rw [core_paced hpaced, dq_boundCores hone], by rw [heq]⟩

/-- What FEED_PANEL does with a panel that is there. -/
theorem feedPanel_event {s : State} {cid i : Nat} {b : Bool} {e : CpEntry} {rest : List (Nat × CpEntry)} {panel : BitVec 32768}
    (hf : s.feedsTo (cidPcl cid) cid b = (i, e) :: rest) (hover : feedOver e = false) (hcancel : e.cancelled = false)
    (harr : e.arriving = false) (hgath : e.gathering = false) (hflight : e.flight = []) (hroom : ((s.core cid).port b).panels.length < 8)
    (hwait : (s.power (cidPcl cid / 24)).waiters = []) (hpanel : s.assemble (cidPcl cid) i e (feedDelivered e) = .ok panel) :
    ∃ t, exec (.feedPanel cid b) s = .next t ∧ t.mem = s.mem ∧
      ((t.core cid).port b).panels = ((s.core cid).port b).panels ++ [panel] ∧
      kfind (t.cluster (cidPcl cid)).engine i = some { e with moved := e.moved + 4096, reads := [] } ∧ t.slots = s.slots := by
  have hexec : exec (.feedPanel cid b) s = .next _ :=
    congrArg Host.Outcome.next (feedPanel_delivers hf hover hcancel harr hgath hflight hroom hwait hpanel)
  refine ⟨_, hexec, rfl, ?_, kfind_setEntry, rfl⟩
  show (((s.setCore cid ((s.core cid).setPort b (((s.core cid).port b).push panel))).core cid).port b).panels = _
  rw [core_setCore, panels_port_setPort]
  rfl

/-- Settles O52: the Pacer, the copy engines, the feeds, the controller and the Relay, each by what its event makes of the state. -/
theorem pacerEngineAndRelayEvents : Obligations.PacerEngineAndRelayEvents := by
  unfold Obligations.PacerEngineAndRelayEvents
  intro s quad i cid pcl k n r b run node
  refine ⟨fun ⟨hl, hm⟩ hreplay => (pacerBind_events (i := 0) hl hm hreplay).1, fun e occ lat outs ⟨hl, hm⟩ hreplay =>
      (pacerBind_events hl hm hreplay).2 e occ lat outs,
    fun e hk => copyCommand_events hk, fun hnone => congrArg Host.Outcome.next (feedPanel_none hnone),
    fun e rest panel => feedPanel_event, fun hempty => ?idle, fun q rest hq hw => cycleControllerRequest_takes hq hw,
    fun d hd => ?elsewhere, fun hup hruns hn => ?runs, fun p hup hp => ?pauses, fun hup hruns hw => ?down⟩
  case idle =>
    refine congrArg Host.Outcome.next (?_ : s.cycRequest = s)
    unfold State.cycRequest
    rw [hempty]
  case elsewhere =>
    have hsame (f : State → State) : (.next (s.onRelay d f) : Res) = .next s := congrArg Host.Outcome.next (onRelay_other hd f)
    exact ⟨hsame _, hsame _, hsame _, hsame _, hsame _, hsame _⟩
  case runs =>
    refine ⟨fun hp => next_onRelay hup (nodeStart_waits hruns hn (.inl hp)), fun hc => next_onRelay hup (nodeStart_waits hruns hn (.inr hc)),
      fun hseq hended => next_onRelay hup (nodeStart_elsewhere hruns hn hseq hended),
      fun m hidle hcount hkind hended hseq hm hin hover => ?nop, fun hidle hcount hst hended hseq hm hover => ?noMember,
      fun m a hidle hcount hkind hst hended hcustom hpos hraw htag hbytes hseq hm hin hjoined hrank hbase hplace hhere hep hdie hlink => ?load,
      fun hbegun htag hleft hover => ?ends, fun hended hover hpause hstall => ?stalls, fun hno => next_onRelay hup (stallTimeout_stands hruns hno)⟩
    case nop =>
      obtain ⟨hmem, hslots, y, hy, m, hm', hphase, -⟩ := nodeDone_endNode hruns hn hover
      exact ⟨_, next_onRelay hup (nodeStart_nop hruns hn hidle hcount hseq hended hm hin hkind), hmem, ⟨y, hy, m, hm', hphase⟩, hslots⟩
    case noMember =>
      obtain ⟨hmem, hslots, y, hy, m, hm', hphase, hstatus⟩ := nodeDone_endNode hruns hn hover
      exact ⟨_, next_onRelay hup (nodeStart_no_member hruns hn hidle hcount hseq hended hm hst), hmem, ⟨y, hy, m, hm', hphase⟩, hslots, y, hy, m, hm',
        hstatus (by decide)⟩
    case load =>
      obtain ⟨t, ht, hmem, howner, hflight⟩ := nodeStart_load_reads hruns hn hidle hcount hkind hst hended hcustom hpos hraw htag hbytes hseq
        hm hin hjoined hrank hbase hplace hhere hep hdie hlink
      exact ⟨t, next_onRelay hup ht, hmem, howner, hflight⟩
    case ends =>
      obtain ⟨hmem, hslots, y, hy, m, hm', hphase, -⟩ := nodeDone_endNode hruns hn hover
      exact ⟨_, next_onRelay hup (nodeEnd_of_moved hruns hn hbegun htag hleft), hmem, ⟨y, hy, m, hm', hphase⟩, hslots⟩
    case stalls =>
      exact ⟨_, next_onRelay hup (stallTimeout_expires hruns hended hover hpause hstall), rfl, kfind_kset_same _ _ _⟩
  case pauses =>
    refine ⟨fun hle => ⟨_, next_onRelay hup (pauseLimit_due hp hle), mem_unpause, pauses_unpause p.rank⟩,
      fun hlt => next_onRelay hup (pauseLimit_early hp hlt), ⟨_, next_onRelay hup (reservationRelease_eq hp), rfl, rfl, rfl, fun y hy hmem hle => ?_⟩⟩
    exact reserved_releasedRuns hy hmem hle
  case down =>
    obtain ⟨plans, hdown⟩ := relayDown_idle hruns hw
    refine ⟨_, next_onRelay hup hdown, rfl, ?_, rfl, rfl⟩
    exact readyBit_setReady_same (by decide)

end Sys2Proof.Machine
end

section
/-!
PROOF of O58. The timer registers of the Relay (R116). A run keeps in its own record the limits under which it was opened, so that a write of RLYTIM0 or
RLYTIM1 changes the register alone, and opening a run reads the registers once.
-/
namespace Sys2Proof.Machine

/-! ## The registers -/
section
variable {s : State} {v : Dword}

theorem mgmtRead_rlytim0 : s.mgmtRead 0x3000 = s.pkg.rlytim0 := rfl

theorem mgmtRead_rlytim1 : s.mgmtRead 0x3008 = s.pkg.rlytim1 := rfl

theorem exec_registerWrite_rlytim0 : exec (.registerWrite 0x3000 v) s =
    .next { s with pkg := { s.pkg with rlytim0 := timerField (v.extractLsb' 32 32) ++ timerField (v.extractLsb' 0 32) } } := rfl

theorem exec_registerWrite_rlytim1 : exec (.registerWrite 0x3008 v) s =
    .next { s with pkg := { s.pkg with rlytim1 := 0#32 ++ timerField (v.extractLsb' 0 32) } } := rfl
end

/-! ## A run that is opened -/
section
variable {s : State} {slot : Nat} {p : Plan}

theorem microCycles_of_pos {us : Nat} (h : 0 < us) : microCycles us = us * 1600 := by
  rw [microCycles, Nat.max_eq_right h]

theorem toNat_lowWord (v : Dword) : (v.extractLsb' 0 32).toNat = v.toNat % 2 ^ 32 := by
  rw [BitVec.extractLsb'_toNat, Nat.shiftRight_zero]

theorem toNat_highWord (v : Dword) : (v.extractLsb' 32 32).toNat = v.toNat / 2 ^ 32 := by
  have hv := v.isLt
  rw [BitVec.extractLsb'_toNat, Nat.shiftRight_eq_div_pow, Nat.mod_eq_of_lt (by omega)]

/-- A run is opened with the limits that the registers hold. -/
theorem kfind_openRun_new : ∃ r, kfind (s.openRun slot p).2.relay.runs (s.openRun slot p).1 = some r ∧
    r.pauseLim = microCycles (s.pkg.rlytim0.toNat / 2 ^ 32) ∧ r.stall = microCycles (s.pkg.rlytim0.toNat % 2 ^ 32) ∧
    r.rsvrel = microCycles (s.pkg.rlytim1.toNat % 2 ^ 32) :=
  ⟨_, kfind_kset_same _ _ _, congrArg microCycles (toNat_highWord _), congrArg microCycles (toNat_lowWord _),
    congrArg microCycles (toNat_lowWord _)⟩

/-- The runs that are already open stay as they are. -/
theorem kfind_openRun_other {k : Nat} (h : k ≠ (s.openRun slot p).1) :
    kfind (s.openRun slot p).2.relay.runs k = kfind s.relay.runs k :=
  kfind_kset_other _ _ _ _ h
end

/-- Settles O58: the reset values, the two writes, and the run that is opened, whose limits are those of registers that hold no zero field. -/
theorem relayTimers : Obligations.RelayTimers := by
  refine ⟨by decide, by decide, fun s v => ⟨⟨_, exec_registerWrite_rlytim0, rfl, rfl, rlytim0_fields v⟩,
    ⟨_, exec_registerWrite_rlytim1, rfl, rfl, toNat_rlytim1 v⟩⟩, fun s slot p hrsvrel hpause hstall hreserved => ?_⟩
  rw [mgmtRead_rlytim0] at hpause hstall ⊢
  rw [mgmtRead_rlytim1] at hrsvrel hreserved ⊢
  obtain ⟨r, hr, hpauseLim, hstallLim, hrsvrelLim⟩ := kfind_openRun_new (s := s) (slot := slot) (p := p)
  rw [microCycles_of_pos hpause] at hpauseLim
  rw [microCycles_of_pos hstall] at hstallLim
  rw [Nat.mod_eq_of_lt hreserved, microCycles_of_pos hrsvrel] at hrsvrelLim
  exact ⟨r, hr, hpauseLim, hstallLim, hrsvrelLim, fun k hk => kfind_openRun_other hk⟩

end Sys2Proof.Machine
end

section
/-!
SUPPORT. How an instruction of a baton that runs alone ends where it may trap, and the values of words under a mask: what the proofs of the scalar
floating point, of the CSRs and of the environment share.
-/
namespace Sys2Proof.Machine

variable {s : State}

/-! ## Traps of a baton alone (R137 to R139) -/

/-- Outside an active gang an instruction that is illegal traps with its word (R139, R200). -/
theorem illegal_alone (h : s.canTrap) (w : Word32) : s.illegal w = s.trapped 2 (zext64 w) :=
  trap_alone s 2 (zext64 w) h (by decide)

theorem myGang_of_alone (h : s.alone) : s.myGang = none := by
  simpa [State.alone, State.ganged, Option.isSome_eq_false_iff] using h

/-- Where no handler runs and the vector is set a trap is taken; otherwise the baton ends, aborted (R138). -/
theorem trap_alone_cases (h : s.alone) {c : Nat} (hc : c ≠ 26) (v : Dword) :
    s.trap c v = if s.me.busy = false ∧ s.me.csr.xutvec ≠ 0 then s.trapped (BitVec.ofNat 8 c) v else s.endBaton s.focus true := by
  have hgang : s.gangOf (slotRecord s.focus s.me) = none := myGang_of_alone h
  have hdeliver : s.trap c v = s.deliver s.focus c v 0 s.me.pc false := by
    unfold State.trap State.trapSlot
    dsimp only
    rw [show s.slotAt s.focus = s.me from rfl, hgang]
  have htarget : s.trapTarget s.focus c = s.me.csr.xutvec := if_neg fun hf => hc hf.1
  split
  next htake => exact trap_alone s c v ⟨h, htake.1, htake.2⟩ hc
  next hend =>
    rw [hdeliver, State.deliver, htarget]
    cases hbusy : s.me.busy with
    | true => exact if_pos hbusy
    | false =>
      have hvec : s.me.csr.xutvec = 0 := by simpa [hbusy] using hend
      exact (if_neg (Bool.eq_false_iff.mp hbusy)).trans (if_pos hvec)

/-- The slot of a baton alone changes, and it is the same baton. -/
theorem setMe_alone (h : s.alone) {t : Slot} (hb : t.xbaton = s.me.xbaton) : (s.setMe t).alone := by
  unfold State.alone State.ganged State.myGang at *
  rw [gangOf_congr s (s.setMe t) _ (gangs_setMe s t), focus_setMe, me_setMe, slotRecord_congr _ _ _ hb]
  exact h

theorem me_ended (s : State) (t : Slot) : (s.ended t).me = t := kget_kset_same _ _ _ _

/-! ## Words under a mask -/

/-- The bits of one field, in place. -/
theorem toNat_and_field (v : Dword) {mask : Dword} (lo len : Nat) (h : mask.toNat = (2 ^ len - 1) * 2 ^ lo) :
    (v &&& mask).toNat = v.toNat / 2 ^ lo % 2 ^ len * 2 ^ lo := by
  have hdiv : (v.toNat &&& mask.toNat) / 2 ^ lo = v.toNat / 2 ^ lo % 2 ^ len := by
    rw [Nat.and_div_two_pow, h, Nat.mul_div_cancel _ (Nat.two_pow_pos lo), Nat.and_two_pow_sub_one_eq_mod]
  have hmod : (v.toNat &&& mask.toNat) % 2 ^ lo = 0 := by
    rw [Nat.and_mod_two_pow, h, Nat.mul_mod_left, Nat.and_zero]
  rw [BitVec.toNat_and, ← Nat.div_add_mod (v.toNat &&& mask.toNat) (2 ^ lo), hdiv, hmod, Nat.add_zero, Nat.mul_comm]

/-- The bits of two fields that do not meet add up. -/
theorem toNat_and_or (v : Dword) {a b : Dword} (h : a &&& b = 0#64) : (v &&& (a ||| b)).toNat = (v &&& a).toNat + (v &&& b).toNat := by
  have hdisjoint : (v &&& a) &&& (v &&& b) = 0#64 := by
    rw [BitVec.and_comm v a, BitVec.and_comm v b, BitVec.and_assoc, ← BitVec.and_assoc v, BitVec.and_comm v b, BitVec.and_assoc,
      ← BitVec.and_assoc a, h, BitVec.zero_and]
  rw [BitVec.and_or_distrib_left, ← BitVec.add_eq_or_of_and_eq_zero _ _ hdisjoint, BitVec.toNat_add_of_and_eq_zero hdisjoint]

theorem extractLsb'_zero_eq_ofNat (v : Dword) (n : Nat) : v.extractLsb' 0 n = BitVec.ofNat n v.toNat :=
  BitVec.eq_of_toNat_eq (by rw [BitVec.extractLsb'_toNat, Nat.shiftRight_zero, BitVec.toNat_ofNat])

end Sys2Proof.Machine
end

section
/-!
PROOF of O9. Scalar floating-point arithmetic (R191, R192): every instruction is one operation in the mode of its field, so that its two outcomes are
proved once, for the operation.
-/
namespace Sys2Proof.Machine

variable {s : State} {rd : Reg} {rm : BitVec 3} {i : Instr} {f : RMode → FRes}

theorem f_eq_operand (s : State) (r : Reg) : s.f r = s.operand r := by
  rw [State.f, State.operand, lowW_toNat]

theorem f32X_eq_inX (bits : Nat) : f32X bits = inX bits := by
  refine signExtend_eq_wrap32 _ _ ?_
  exact (BitVec.ofInt_natCast 32 bits).symm

/-- A floating-point result accrues its exceptions and is written to rd. -/
theorem finF_alone (h : s.alone) (rd : Reg) (r : FRes) : s.finF rd r = s.floatResult rd (inX r.bits) r.flags := by
  rw [State.finF, State.accrue, finX_setMe_alone h (by rfl), f32X_eq_inX, Slot.accrue, flagBits_eq]
  rfl

/-- An instruction that is one operation in the mode of its rm field: it completes in a legal mode, and is illegal in another. -/
theorem floatOperation_outcomes
    (hexec : exec i s = .next (s.withMode rm (encode i) fun m => s.finF rd (f m))) :
    (∀ m, s.alone → roundingMode rm s.me.csr.frm = some m → exec i s = .next (s.floatResult rd (inX (f m).bits) (f m).flags)) ∧
    (∀ w, s.canTrap → roundingMode rm s.me.csr.frm = none → encode i = .word w → exec i s = .next (s.trapped 2 (zext64 w))) := by
  rw [hexec]
  unfold State.withMode
  rw [rmodeOf_eq]
  constructor
  · intro m halone hmode
    rw [hmode]
    exact congrArg Host.Outcome.next (finF_alone halone rd (f m))
  · intro w htrap hmode hword
    rw [hmode, hword]
    exact congrArg Host.Outcome.next (illegal_alone htrap w)

/-- Settles O9: each instruction is its operation on the operands, in the mode of its field. -/
theorem floatArithmeticResults : Obligations.FloatArithmeticResults := by
  unfold Obligations.FloatArithmeticResults
  intro s rd rs1 rs2 rs3 rm
  simp only [← f_eq_operand]
  exact ⟨floatOperation_outcomes rfl, floatOperation_outcomes rfl, floatOperation_outcomes rfl, floatOperation_outcomes rfl,
    floatOperation_outcomes rfl, floatOperation_outcomes rfl, floatOperation_outcomes rfl, floatOperation_outcomes rfl,
    floatOperation_outcomes rfl⟩

end Sys2Proof.Machine
end

section
/-!
PROOF of O12 and O13. The CSRs (R135, R136): an access that is refused, a read, and a write of a CSR that the slot alone holds are each proved once for
the operation that the six Zicsr instructions share; then the values to which R136, R137 and R267 to R269 adjust what is written.
-/
namespace Sys2Proof.Machine

/-! ## Absent and read-only CSRs -/

theorem csrExists_iff (csr : BitVec 12) : csrExists csr.toNat = true ↔ csr ∈ csrAddresses := by
  have haddresses : csrExists csr.toNat = (csrAddresses.map BitVec.toNat).contains csr.toNat := rfl
  rw [haddresses, List.contains_iff_mem, List.mem_map]
  exact ⟨fun ⟨a, ha, heq⟩ => BitVec.eq_of_toNat_eq heq ▸ ha, fun h => ⟨csr, h, rfl⟩⟩

theorem csrReadOnly_of_mem {csr : BitVec 12} (h : csr ∈ csrReadOnlyAddresses) : csrReadOnly csr.toNat = true := by
  have hall : csrReadOnlyAddresses.all (fun a => csrReadOnly a.toNat) = true := rfl
  exact List.all_eq_true.mp hall csr h

/-! ## The operation of the Zicsr instructions -/

section
variable {s : State} {e : Encoding} {i : Instr} {rd : Reg} {csr : BitVec 12} {writes : Bool} {f : Dword → Dword}

/-- An absent CSR, and a write of a read-only one, are illegal. -/
theorem csrOp_refused (h : csr ∉ csrAddresses ∨ csr ∈ csrReadOnlyAddresses ∧ writes = true) (w : Word32) :
    s.csrOp (.word w) rd csr writes f = s.illegal w := by
  have hrefused : (!csrExists csr.toNat || (writes && csrReadOnly csr.toNat)) = true := by
    rcases h with habsent | ⟨hreadOnly, hwrites⟩
    · simp [Bool.eq_false_iff.mpr fun he => habsent ((csrExists_iff csr).mp he)]
    · simp [csrReadOnly_of_mem hreadOnly, hwrites]
  exact if_pos hrefused

/-- An instruction that is refused, of a baton alone that can take a trap. -/
theorem exec_csr_refused (hexec : exec i s = .next (s.csrOp (encode i) rd csr writes f)) (htrap : s.canTrap)
    (h : csr ∉ csrAddresses ∨ csr ∈ csrReadOnlyAddresses ∧ writes = true) :
    ∀ w, encode i = .word w → exec i s = .next (s.trapped 2 (zext64 w)) := by
  intro w hword
  rw [hexec, hword, csrOp_refused h, illegal_alone htrap]

/-- A read of a CSR. -/
theorem csrOp_read (h : csr ∈ csrAddresses) : s.csrOp e rd csr false f = s.finX rd (s.csrRead csr.toNat) 4 := by
  have hallowed : ¬(!csrExists csr.toNat || (false && csrReadOnly csr.toNat)) = true := by simp [(csrExists_iff csr).mpr h]
  exact if_neg hallowed

/-- A write of a CSR. -/
theorem csrOp_write (h : csr ∈ csrAddresses) (hrw : csrReadOnly csr.toNat = false) :
    s.csrOp e rd csr true f = (s.csrWrite csr.toNat (f (s.csrRead csr.toNat))).finX rd (s.csrRead csr.toNat) 4 := by
  have hallowed : ¬(!csrExists csr.toNat || (true && csrReadOnly csr.toNat)) = true := by simp [(csrExists_iff csr).mpr h, hrw]
  exact if_neg hallowed
end

/-- Settles O13: CSRRW and CSRRWI always write, the others where their field is not zero. -/
theorem csrRefusals : Obligations.CsrRefusals := by
  unfold Obligations.CsrRefusals
  intro s rd r csr htrap
  dsimp only
  refine ⟨fun hwrite => ?write, fun hchange => ?change⟩
  case write =>
    have h := hwrite.imp_right fun hreadOnly => And.intro hreadOnly (rfl : true = true)
    exact ⟨exec_csr_refused rfl htrap h, exec_csr_refused rfl htrap h⟩
  case change =>
    have h := hchange.imp_right fun hreadOnly => And.intro hreadOnly.1 (bne_iff_ne.mpr hreadOnly.2)
    exact ⟨exec_csr_refused rfl htrap h, exec_csr_refused rfl htrap h, exec_csr_refused rfl htrap h, exec_csr_refused rfl htrap h⟩

/-! ## Reads -/

/-- The table of R136 is what the model reads at every address but that of MMPROG. -/
theorem csrTable_eq_map (s : State) :
    s.csrTable = (csrAddresses.filter (· ≠ 0x814#12)).map fun a => (a, s.csrRead a.toNat) := rfl

theorem mem_csrTable {s : State} {csr : BitVec 12} {v : Dword} (h : (csr, v) ∈ s.csrTable) :
    csr ∈ csrAddresses ∧ v = s.csrRead csr.toNat := by
  rw [csrTable_eq_map, List.mem_map] at h
  obtain ⟨a, ha, heq⟩ := h
  obtain ⟨rfl, rfl⟩ := Prod.mk.inj heq
  exact ⟨List.mem_of_mem_filter ha, rfl⟩

/-! ## Writes -/

/-- The RW CSRs that the slot alone holds: those of R136 but MMPROG, whose counts are the ports' (R269), and XOVF, which is the launch's (R146). -/
abbrev IsPlainCsr (csr : BitVec 12) : Prop :=
  csr ∈ csrAddresses ∧ csrReadOnly csr.toNat = false ∧ csr.toNat ≠ 0x814 ∧ csr.toNat ≠ 0x822

section
variable {s : State} {e : Encoding} {i : Instr} {rd rs1 : Reg} {csr : BitVec 12} {writes : Bool} {f : Dword → Dword}

theorem csrWrite_plain (h : IsPlainCsr csr) (v : Dword) :
    s.csrWrite csr.toNat v = s.setMe { s.me with csr := csrPut s.me.csr csr.toNat v } := by
  obtain ⟨-, -, hmmprog, hxovf⟩ := h
  unfold State.csrWrite
  rw [if_neg fun hc => hmmprog hc.1, if_neg hxovf]
  exact if_neg hmmprog

/-- A write of such a CSR changes it, and rd takes the old value. -/
theorem exec_csr_plain (hexec : exec i s = .next (s.csrOp e rd csr writes f)) (halone : s.alone) (hplain : IsPlainCsr csr)
    (hwrites : writes = true) {c : SlotCsrs} (hc : csrPut s.me.csr csr.toNat (f (s.csrRead csr.toNat)) = c) :
    exec i s = .next (s.csrResult rd (s.csrRead csr.toNat) c) := by
  rw [hexec, hwrites, csrOp_write hplain.1 hplain.2.1, csrWrite_plain hplain, hc, finX_setMe_alone halone (by rfl)]
  rfl
end

/-! ## The values that CSRs take (R136, R137, R267 to R269) -/

theorem csrXutvec_eq (v : Dword) : csrXutvec v = BitVec.ofNat 64 (v.toNat % 2 ^ 56 / 2 * 2) := by
  have hfield : (csrXutvec v).toNat = _ := toNat_and_field v 1 55 rfl
  apply BitVec.eq_of_toNat_eq
  rw [hfield, BitVec.toNat_ofNat]
  omega

theorem csrXuepc_eq (v : Dword) : csrXuepc v = BitVec.ofNat 64 (v.toNat / 2 * 2) := by
  have hfield : (csrXuepc v).toNat = _ := toNat_and_field v 1 63 rfl
  apply BitVec.eq_of_toNat_eq
  rw [hfield, BitVec.toNat_ofNat]
  omega

theorem csrXucause_eq (v : Dword) : csrXucause v = BitVec.ofNat 64 (v.toNat / 2 ^ 61 % 4 * 2 ^ 61 + v.toNat % 4096) := by
  have hfields : (csrXucause v).toNat = _ := toNat_and_or v (a := 0x6000000000000000) (b := 0xFFF) (by decide)
  apply BitVec.eq_of_toNat_eq
  rw [hfields, toNat_and_field v 61 2 rfl, toNat_and_field v 0 12 rfl, BitVec.toNat_ofNat]
  omega

theorem csrMsc_eq (v : Dword) : csrMsc v = BitVec.ofNat 64 (v.toNat % 2 ^ 18 / 2 * 2) := by
  have hfield : (csrMsc v).toNat = _ := toNat_and_field v 1 17 rfl
  apply BitVec.eq_of_toNat_eq
  rw [hfield, BitVec.toNat_ofNat]
  omega

theorem csrMmprog_eq (v : Dword) :
    csrMmprog v = wrap64 (v.toNat / 2 ^ 58 * 2 ^ 58 + v.toNat / 2 ^ 32 % 2 ^ 16 * 2 ^ 32 + v.toNat % 2 ^ 24) := by
  have hfields : (csrMmprog v).toNat = _ := toNat_and_or v (a := 0xFC00FFFF00000000) (b := 0xFFFFFF) (by decide)
  have hupper : (v &&& 0xFC00FFFF00000000).toNat = _ := toNat_and_or v (a := 0xFC00000000000000) (b := 0xFFFF00000000) (by decide)
  have hnat : wrap64 (v.toNat / 2 ^ 58 * 2 ^ 58 + v.toNat / 2 ^ 32 % 2 ^ 16 * 2 ^ 32 + v.toNat % 2 ^ 24) =
      BitVec.ofNat 64 (v.toNat / 2 ^ 58 * 2 ^ 58 + v.toNat / 2 ^ 32 % 2 ^ 16 * 2 ^ 32 + v.toNat % 2 ^ 24) := by
    rw [wrap64, ← BitVec.ofInt_natCast]
    push_cast
    rfl
  apply BitVec.eq_of_toNat_eq
  rw [hnat, hfields, hupper, toNat_and_field v 58 6 rfl, toNat_and_field v 32 16 rfl, toNat_and_field v 0 24 rfl, BitVec.toNat_ofNat]
  omega

theorem xovf_eq (v : Dword) : v &&& ~~~0x3F#64 = BitVec.ofNat 64 (v.toNat / 64 * 64) := by
  apply BitVec.eq_of_toNat_eq
  rw [toNat_and_field v 6 58 rfl, BitVec.toNat_ofNat]
  omega

theorem clamp_eq {lo hi : Nat} (h : lo ≤ hi) (n : Nat) : max lo (min hi n) = if n < lo then lo else if hi < n then hi else n := by
  split_ifs <;> omega

theorem csrXage_eq (v : Dword) : csrXage v = if v.toNat < 8 then 8 else if 4096 < v.toNat then 4096 else BitVec.ofNat 13 v.toNat := by
  rw [csrXage, clamp_eq (by decide), apply_ite (BitVec.ofNat 13), apply_ite (BitVec.ofNat 13)]
  rfl

theorem csrXshare_eq (v : Dword) : csrXshare v = if v.toNat < 1 then 1 else if 15 < v.toNat then 15 else BitVec.ofNat 4 v.toNat := by
  rw [csrXshare, clamp_eq (by decide), apply_ite (BitVec.ofNat 4), apply_ite (BitVec.ofNat 4)]
  rfl

theorem csrMfmt_eq (old v : Dword) :
    csrMfmt old v = BitVec.ofNat 64 (v.toNat / 8 % 2 * 8 + (if v.toNat % 8 ≤ 4 then v.toNat % 8 else old.toNat % 8)) := by
  have hlow : ∀ u : Dword, (u.extractLsb' 0 3).toNat = u.toNat % 8 := fun u => by
    rw [BitVec.extractLsb'_toNat, Nat.shiftRight_zero]
  have hinfinity : (v.extractLsb' 3 1).toNat = v.toNat / 8 % 2 := by
    rw [BitVec.extractLsb'_toNat, Nat.shiftRight_eq_div_pow]
  have hlegal : v.extractLsb' 0 3 ≤ 4#3 ↔ v.toNat % 8 ≤ 4 := by
    rw [BitVec.le_def, hlow]
    rfl
  apply BitVec.eq_of_toNat_eq
  unfold csrMfmt
  simp only [toNat_append_eq_add, hlegal, apply_ite BitVec.toNat, hlow, hinfinity, BitVec.toNat_ofNat]
  split <;> omega

theorem csrMklen_eq (v : Dword) : csrMklen v = BitVec.ofNat 64 (min v.toNat 65536) := by
  have hlegal : v ≤ 65536#64 ↔ v.toNat ≤ 65536 := BitVec.le_def
  unfold csrMklen
  split
  next hle => rw [Nat.min_eq_left (hlegal.mp hle), BitVec.ofNat_toNat, BitVec.setWidth_eq]
  next hgt => rw [Nat.min_eq_right (by rw [hlegal] at hgt; omega)]

theorem csrMgrp_eq (old : BitVec 8) (v : Dword) :
    csrMgrp old v = if v.toNat = 32 then 32 else if v.toNat = 64 then 64 else if v.toNat = 128 then 128 else old := by
  have his : ∀ n : Nat, n < 2 ^ 64 → (v.toNat = n ↔ v = BitVec.ofNat 64 n) := fun n hn => by
    rw [← BitVec.toNat_inj, BitVec.toNat_ofNat, Nat.mod_eq_of_lt hn]
  simp only [his 32 (by decide), his 64 (by decide), his 128 (by decide)]
  unfold csrMgrp
  split
  next hlegal => obtain rfl | rfl | rfl := hlegal <;> rfl
  next hother =>
    obtain ⟨h32 : v ≠ 32#64, h64 : v ≠ 64#64, h128 : v ≠ 128#64⟩ := (not_or.mp hother).imp_right not_or.mp
    rw [if_neg h32, if_neg h64, if_neg h128]

theorem extractLsb'_five_eq_ofNat (v : Dword) : v.extractLsb' 5 3 = BitVec.ofNat 3 (v.toNat / 32) :=
  BitVec.eq_of_toNat_eq (by rw [BitVec.extractLsb'_toNat, Nat.shiftRight_eq_div_pow, BitVec.toNat_ofNat])

theorem zext64_eq_wrap64 (u : Reg) : zext64 u = wrap64 u.toNat := by
  rw [← zeroExtend_ofNat 5 u.toNat u.isLt, BitVec.ofNat_toNat, BitVec.setWidth_eq]

/-! ## XOVF and MMPROG -/

section
variable {s : State} {rd rs1 : Reg}

/-- XOVF is that of the launch on the cluster (R146). -/
theorem exec_csrrw_xovf (h : s.alone) :
    exec (.csrrw rd rs1 0x822) s = .next ((s.setCarve s.myPcl s.me.launch { s.carve s.myPcl s.me.launch with
      xovf := s.x rs1 &&& ~~~0x3F#64 }).result rd (s.carve s.myPcl s.me.launch).xovf 4) := by
  show Host.Outcome.next (s.csrOp _ rd 0x822 true _) = _
  rw [csrOp_write (by decide) rfl]
  exact congrArg Host.Outcome.next (finX_alone _ _ _ _ (alone_congr s _ rfl rfl rfl h))

theorem carve_setCarve (pcl launch : Nat) (c : Carve) : (s.setCarve pcl launch c).carve pcl launch = c := by
  unfold State.carve State.setCarve
  rw [cluster_setCluster]
  exact kget_kset_same _ _ _ _

/-- A write to MMPROG while an MM.TILE of the slot is stalled is ignored (R266). -/
theorem exec_csrrw_mmprog_stalled (h : s.alone) (hstalled : ((s.core s.myCid).stalledPort (keySlot s.focus)).isSome = true) :
    exec (.csrrw rd rs1 0x814) s = .next (s.result rd ((s.core s.myCid).mmprog (keySlot s.focus) s.me.csr.mmprog) 4) := by
  have hwrite : s.csrWrite 0x814 (s.x rs1) = s := if_pos ⟨rfl, hstalled⟩
  show Host.Outcome.next (s.csrOp _ rd 0x814 true _) = _
  rw [csrOp_write (by decide) rfl]
  exact congrArg Host.Outcome.next ((congrArg (State.finX · rd _ 4) hwrite).trans (finX_alone s _ _ _ h))

/-- A core that is set to what it is counts its instruction all the same. -/
theorem setCore_self_ended (s : State) (t : Slot) : (s.setCore s.myCid (s.core s.myCid)).ended t = s.ended t := by
  have hcore : (s.setCore s.myCid (s.core s.myCid)).core s.myCid = s.core s.myCid := core_setCore s _ _
  unfold State.ended
  rw [show (s.setCore s.myCid (s.core s.myCid)).myCid = s.myCid from rfl, hcore, cores_setCore, kset_kset]
  rfl

/-- Outside the matrix context MMPROG is the slot's own (R269). -/
theorem exec_csrrw_mmprog_free (h : s.alone) (howner : (s.core s.myCid).owner ≠ some (keySlot s.focus))
    (hfree : (s.core s.myCid).stalledPort (keySlot s.focus) = none) :
    exec (.csrrw rd rs1 0x814) s =
      .next (s.csrResult rd s.me.csr.mmprog { s.me.csr with mmprog := csrMmprog (s.x rs1) }) := by
  have hread : s.csrRead 0x814 = s.me.csr.mmprog := if_neg howner
  have hexp : (s.core s.myCid).putExp (keySlot s.focus) (s.x rs1) = s.core s.myCid := if_neg howner
  have hwrite : s.csrWrite 0x814 (s.x rs1) =
      (s.setCore s.myCid (s.core s.myCid)).setMe { s.me with csr := { s.me.csr with mmprog := csrMmprog (s.x rs1) } } := by
    have hstalled : ¬((0x814 : Nat) = 0x814 ∧ ((s.core s.myCid).stalledPort (keySlot s.focus)).isSome = true) := by simp [hfree]
    unfold State.csrWrite
    rw [if_neg hstalled]
    show (s.setMe _).setCore s.myCid ((s.core s.myCid).putExp (keySlot s.focus) (s.x rs1)) = _
    rw [hexp]
    rfl
  show Host.Outcome.next (s.csrOp _ rd 0x814 true _) = _
  rw [csrOp_write (by decide) rfl]
  show Host.Outcome.next ((s.csrWrite 0x814 (s.x rs1)).finX rd (s.csrRead 0x814) 4) = _
  have hself : (s.setCore s.myCid (s.core s.myCid)).alone := alone_congr s _ rfl rfl rfl h
  rw [hread, hwrite, finX_setMe_alone hself (by rfl), setCore_self_ended]
  rfl
end

/-- Settles O12: reads by the table, writes of the slot's own CSRs by the value that each takes, and XOVF and MMPROG apart. -/
theorem csrReadsAndWrites : Obligations.CsrReadsAndWrites := by
  unfold Obligations.CsrReadsAndWrites
  refine ⟨fun s rd csr v halone hmem => ?reads, fun s rd rs1 u halone hrs1 hu => ?writes⟩
  case reads =>
    obtain ⟨hexists, rfl⟩ := mem_csrTable hmem
    have hread : ∀ (e : Encoding) (f : Dword → Dword),
        Host.Outcome.next (s.csrOp e rd csr false f) = (.next (s.result rd (s.csrRead csr.toNat) 4) : Res) := fun e f => by
      rw [csrOp_read hexists, finX_alone s _ _ _ halone]
    exact ⟨hread _ _, hread _ _, hread _ _, hread _ _⟩
  case writes =>
    have hx := bne_iff_ne.mpr hrs1
    have huimm := bne_iff_ne.mpr hu
    dsimp only
    rw [← zext64_eq_wrap64, ← csrMmprog_eq, ← xovf_eq]
    have hxutval : IsPlainCsr 0x803 := by decide
    have hput : ∀ {csr : BitVec 12} {c : SlotCsrs}, IsPlainCsr csr → csrPut s.me.csr csr.toNat (s.x rs1) = c →
        exec (.csrrw rd rs1 csr) s = .next (s.csrResult rd (s.csrRead csr.toNat) c) := fun hplain hc =>
      exec_csr_plain rfl halone hplain rfl hc
    refine ⟨hput hxutval rfl, exec_csr_plain rfl halone hxutval hx rfl, exec_csr_plain rfl halone hxutval hx rfl,
      exec_csr_plain rfl halone hxutval rfl rfl, exec_csr_plain rfl halone hxutval huimm rfl,
      exec_csr_plain rfl halone hxutval huimm rfl,
      hput (csr := 0x001) (by decide) (by rw [← extractLsb'_zero_eq_ofNat]; rfl),
      hput (csr := 0x002) (by decide) (by rw [← extractLsb'_zero_eq_ofNat]; rfl),
      hput (csr := 0x003) (by decide) (by rw [← extractLsb'_zero_eq_ofNat, ← extractLsb'_five_eq_ofNat]; rfl),
      hput (csr := 0x800) (by decide) (by rw [← csrXutvec_eq]; rfl),
      hput (csr := 0x801) (by decide) (by rw [← csrXuepc_eq]; rfl),
      hput (csr := 0x802) (by decide) (by rw [← csrXucause_eq]; rfl),
      hput (csr := 0x804) (by decide) rfl,
      hput (csr := 0x805) (by decide) (by rw [← extractLsb'_zero_eq_ofNat]; rfl),
      hput (csr := 0x806) (by decide) (by rw [← extractLsb'_zero_eq_ofNat]; rfl),
      hput (csr := 0x808) (by decide) (by rw [← csrXage_eq]; rfl),
      hput (csr := 0x809) (by decide) (by rw [← csrXshare_eq]; rfl),
      hput (csr := 0x810) (by decide) (by rw [← csrMfmt_eq]; rfl),
      hput (csr := 0x811) (by decide) (by rw [← csrMsc_eq]; rfl),
      hput (csr := 0x812) (by decide) (by rw [← csrMsc_eq]; rfl),
      hput (csr := 0x813) (by decide) (by rw [← csrMklen_eq]; rfl),
      hput (csr := 0x815) (by decide) (by rw [← csrMgrp_eq]; rfl),
      ⟨_, exec_csrrw_xovf halone, rfl, ?_, me_ended _ _⟩, exec_csrrw_mmprog_stalled halone, exec_csrrw_mmprog_free halone⟩
    exact congrArg Carve.xovf (carve_setCarve _ _ _)

end Sys2Proof.Machine
end

section
/-!
PROOF of O15 and O16. ECALL, BAT.EXIT, traps and the return from them, of a baton that runs alone (R137 to R141, R222, R239).
-/
namespace Sys2Proof.Machine

variable {s : State}

/-! ## ECALL and BAT.EXIT -/

theorem leaderSlot_alone (h : s.alone) : s.leaderSlot = s.me := by
  unfold State.leaderSlot
  rw [myGang_of_alone h]

/-- A baton ends once its queue entries and its posted stores are done, and waits until then (R222). -/
theorem exitBaton_eq (s : State) : s.exitBaton =
    if s.storesDone = true ∧ s.queueIdle = true then (s.retire s.myCid).endBaton s.focus false else s := by
  unfold State.exitBaton
  simp only [Bool.and_eq_true, and_comm]

theorem exec_batExit_alone (h : s.alone) : exec .batExit s = .next s.exitBaton :=
  congrArg Host.Outcome.next (unlessGanged_alone h _ _)

/-- ECALL by its function number in a7 (R141). -/
theorem exec_ecall_alone (h : s.alone) : exec .ecall s = .next (
    if s.x 17 = 0 then s.exitBaton
    else if s.storesDone = false then s
    else s.result 10 (if s.x 17 = 1 then 0x10000 else wrap64 (-1)) 4) := by
  show execEcall s = _
  unfold execEcall
  simp only [leaderSlot_alone h, unlessGanged_alone h, finX_alone s _ _ _ h, Bool.not_eq_true', apply_ite (fun v => s.result 10 v 4)]
  rfl

/-- Settles O15, by the cases of the function number and of what the baton waits for. -/
theorem environmentCallsAndExits : Obligations.EnvironmentCallsAndExits := by
  unfold Obligations.EnvironmentCallsAndExits
  intro s halone
  dsimp only
  rw [exec_batExit_alone halone, exec_ecall_alone halone, exitBaton_eq]
  refine ⟨fun hends => ?ends, fun hwaits => ?waits, fun hstores => ?stores, fun hdone hversion => ?version, fun hdone h0 h1 => ?other⟩
  case ends => exact ⟨by rw [if_pos hends], fun h0 => by rw [if_pos h0, if_pos hends]⟩
  case waits => exact ⟨by rw [if_neg hwaits], fun h0 => by rw [if_pos h0, if_neg hwaits]⟩
  case stores =>
    have hwaits : ¬(s.storesDone = true ∧ s.queueIdle = true) := by simp [hstores]
    rw [if_neg hwaits, if_pos hstores, ite_self]
  case version =>
    have h0 : s.x 17 ≠ 0 := by rw [hversion]; decide
    rw [if_neg h0, if_neg (by simp [hdone]), if_pos hversion]
  case other => rw [if_neg h0, if_neg (by simp [hdone]), if_neg h1]

/-! ## XURET (R239) -/

theorem exec_xuret_alone (h : s.alone) : exec .xuret s = .next (s.ended s.me.xuret) := by
  show execXuret s = _
  unfold execXuret
  rw [unlessGanged_alone h]
  exact congrArg Host.Outcome.next (complete_alone s _ _ h rfl)

theorem xuret_not_busy (t : Slot) : t.xuret.busy = false := by
  show (t.csr.xucause &&& ~~~(1#64 <<< 62)).getLsbD 62 = false
  simp

theorem clearBitZero_of_even {v : Dword} (h : v.getLsbD 0 = false) : v &&& ~~~1#64 = v := by
  have heven : v.toNat % 2 = 0 := by simpa [BitVec.getLsbD, Nat.testBit_zero] using h
  apply BitVec.eq_of_toNat_eq
  rw [toNat_and_field v 1 63 rfl]
  omega

/-- Settles O16: the two ways of a trap, XURET by the lemma of its end, and XURET after a trap from the saved pc. -/
theorem trapsAndReturn : Obligations.TrapsAndReturn := by
  unfold Obligations.TrapsAndReturn
  refine ⟨fun s w halone => ?traps, fun s halone => ⟨exec_xuret_alone halone, fun hbusy hvec heven w => ?returns⟩⟩
  case traps =>
    have htrap : ∀ {c : Nat}, c ≠ 26 → ∀ v, Host.Outcome.next (s.trap c v) = (.next _ : Res) := fun hc v =>
      congrArg Host.Outcome.next (trap_alone_cases halone hc v)
    exact ⟨htrap (by decide) _, htrap (by decide) _, htrap (by decide) _⟩
  case returns =>
    have hillegal : exec (.illegalInstruction w) s = .next (s.trapped 2 (zext64 w)) :=
      congrArg Host.Outcome.next (illegal_alone ⟨halone, hbusy, hvec⟩ w)
    refine ⟨_, _, hillegal, exec_xuret_alone (setMe_alone halone rfl), ?_, ?_, ?_, rfl⟩
    · rw [me_ended, State.trapped, me_setMe]
      exact clearBitZero_of_even heven
    · rw [me_ended]
      exact xuret_not_busy _
    · rw [me_ended, State.trapped, me_setMe]
      rfl

end Sys2Proof.Machine
end

section
/-!
SUPPORT. FP32 patterns and the numbers that they stand for (R158 to R160): a pattern read by its exponent and fraction, the order of values as the order of
numbers, and what a NaN operand makes of each operation.
-/
namespace Sys2Proof.Machine

/-! ## Patterns (R158) -/

theorem lowNat_lt (a : Dword) : lowNat a < 2 ^ 32 := Nat.mod_lt _ (by decide)

/-- A pattern of FP32 by its exponent and fraction. -/
theorem fdecode_f32 (x : Nat) :
    fdecode .f32 x =
      if x / 2 ^ 23 % 2 ^ 8 = 255 then (if x % 2 ^ 23 = 0 then .inf (x.testBit 31) else .nan !(x % 2 ^ 23).testBit 22)
      else if x / 2 ^ 23 % 2 ^ 8 = 0 then .fin (x.testBit 31) (x % 2 ^ 23) (-149)
      else .fin (x.testBit 31) (x % 2 ^ 23 + 2 ^ 23) (((x / 2 ^ 23 % 2 ^ 8 : Nat) : Int) - 150) := by
  have hexp : ((x / 2 ^ 23 % 2 ^ 8 : Nat) : Int) - 127 - 23 = ((x / 2 ^ 23 % 2 ^ 8 : Nat) : Int) - 150 := by omega
  rw [← hexp]
  rfl

theorem testBit_sign {x : Nat} (h : x < 2 ^ 32) : x.testBit 31 = decide (2 ^ 31 ≤ x) := by
  rw [Nat.testBit_eq_decide_div_mod_eq, decide_eq_decide]
  omega

/-! ## Numbers -/

theorem num_fin (n : Bool) (m : Nat) (e : Int) : (FVal.fin n m e).num = some ((signed n m : ℚ) * 2 ^ e) := by
  cases n <;> simp [FVal.num, signed]

theorem num_eq_some {a : FVal} {p : ℚ} (h : a.num = some p) : ∃ n m e, a = .fin n m e ∧ p = (signed n m : ℚ) * 2 ^ e := by
  cases a with
  | nan _ => cases h
  | inf _ => cases h
  | fin n m e => exact ⟨n, m, e, rfl, Option.some.inj (h.symm.trans (num_fin n m e))⟩

/-- A significand at a lower exponent stands for the same number. -/
theorem alignTo_cast (i : Int) {e e0 : Int} (h : e0 ≤ e) : (alignTo i e e0 : ℚ) * 2 ^ e0 = i * 2 ^ e := by
  obtain ⟨k, rfl⟩ := Int.le.dest h
  rw [alignTo, show (e0 + (k : Int) - e0).toNat = k by omega, zpow_add₀ two_ne_zero]
  push_cast
  rw [zpow_natCast]
  ring

/-- The order of values is that of the numbers. -/
theorem ltV_of_num {a b : FVal} {p q : ℚ} (ha : a.num = some p) (hb : b.num = some q) : ltV a b = decide (p < q) := by
  obtain ⟨n, s, e, rfl, rfl⟩ := num_eq_some ha
  obtain ⟨m, t, g, rfl, rfl⟩ := num_eq_some hb
  rw [← alignTo_cast _ (min_le_left e g), ← alignTo_cast _ (min_le_right e g)]
  have hpos : (0 : ℚ) < 2 ^ min e g := zpow_pos two_pos _
  simp only [mul_lt_mul_iff_left₀ hpos, Int.cast_lt]
  rfl

theorem isNan_of_num {a : FVal} {p : ℚ} (h : a.num = some p) : isNan a = false := by
  obtain ⟨n, m, e, rfl, -⟩ := num_eq_some h
  rfl

theorem isSnan_of_num {a : FVal} {p : ℚ} (h : a.num = some p) : isSnan a = false := by
  obtain ⟨n, m, e, rfl, -⟩ := num_eq_some h
  rfl

theorem eqV_of_num {a b : FVal} {p q : ℚ} (ha : a.num = some p) (hb : b.num = some q) : eqV a b = decide (p = q) := by
  rw [eqV, isNan_of_num ha, isNan_of_num hb, ltV_of_num ha hb, ltV_of_num hb ha]
  rcases lt_trichotomy p q with h | rfl | h
  · simp [h, h.ne]
  · simp
  · simp [h, h.ne']

/-! ## NaN operands (R159) -/

@[simp] theorem isNan_negV (a : FVal) : isNan (negV a) = isNan a := by cases a <;> rfl
@[simp] theorem isSnan_negV (a : FVal) : isSnan (negV a) = isSnan a := by cases a <;> rfl

theorem exists_eq_nan {a : FVal} (h : isNan a = true) : ∃ t, a = .nan t := by
  cases a with
  | nan t => exact ⟨t, rfl⟩
  | inf _ => cases h
  | fin _ _ _ => cases h

section
variable {f : Fmt} {m : RMode} {a b c : FVal}

theorem addV_nan (h : isNan a = true ∨ isNan b = true) : addV f m a b = fPropagate f (isSnan a || isSnan b) := by
  rcases h with h | h <;> obtain ⟨t, rfl⟩ := exists_eq_nan h
  · rfl
  · cases a <;> rfl

theorem mulExact_nan (h : isNan a = true ∨ isNan b = true) : mulExact a b = .nan (isSnan a || isSnan b) := by
  rcases h with h | h <;> obtain ⟨t, rfl⟩ := exists_eq_nan h
  · rfl
  · cases a <;> rfl

theorem mulV_nan (h : isNan a = true ∨ isNan b = true) : mulV f m a b = fPropagate f (isSnan a || isSnan b) := by
  rw [mulV, mulExact_nan h, roundV]

theorem fmaV_nan (h : isNan a = true ∨ isNan b = true) :
    fmaV f m a b c = fPropagate f (isSnan a || isSnan b || isSnan c) := by
  unfold fmaV
  rw [mulExact_nan h]

theorem divV_nan (h : isNan a = true ∨ isNan b = true) : divV f m a b = fPropagate f (isSnan a || isSnan b) := by
  rcases h with h | h <;> obtain ⟨t, rfl⟩ := exists_eq_nan h
  · rfl
  · cases a <;> rfl

theorem sqrtV_nan (h : isNan a = true) : sqrtV f m a = fPropagate f (isSnan a) := by
  obtain ⟨t, rfl⟩ := exists_eq_nan h
  rfl
end

end Sys2Proof.Machine
end

section
/-!
PROOF of O10. NaN operands, sign injection, comparisons, minimum and maximum, and classes (R159, R191, R192).
-/
namespace Sys2Proof.Machine

variable {s : State} {rd rs1 rs2 : Reg}

/-! ## NaN operands -/

/-- An instruction whose result is the canonical NaN of a NaN operand. -/
theorem gives_canonicalNaN {i : Instr} {r : FRes} {snan nv : Bool} (hexec : exec i s = .next (s.floatResult rd (inX r.bits) r.flags))
    (hrd : rd ≠ 0) (hr : r = fPropagate .f32 nv) (hnv : snan = true → nv = true) :
    ∃ t, exec i s = .next t ∧ t.x rd = 0x7FC00000 ∧ (snan = true → t.me.csr.fflags.getLsbD 4 = true) ∧ t.me.pc = s.me.pc + 4 := by
  subst hr
  refine ⟨_, hexec, ?_, fun hs => ?_, ?_⟩
  · rw [State.x, State.floatResult, me_ended, getX_wrote, if_pos ⟨rfl, hrd⟩]
    exact (rfl : inX 0x7FC00000 = 0x7FC00000)
  · rw [State.floatResult, me_ended, hnv hs]
    show (s.me.csr.fflags ||| 16#5).getLsbD 4 = true
    simp
  · rw [State.floatResult, me_ended]
    rfl

theorem scalarMinMax_nans {x y : Nat} (greater : Bool) (hx : isNan (fdecode .f32 x) = true) (hy : isNan (fdecode .f32 y) = true) :
    scalarMinMax greater x y = fPropagate .f32 (isSnan (fdecode .f32 x) || isSnan (fdecode .f32 y)) := by
  simp only [scalarMinMax, hx, hy, Bool.and_self, if_true]
  rfl

/-! ## Minimum and maximum -/

/-- Of two patterns of different numbers the one with the lesser, or the greater. -/
theorem scalarMinMax_of_num {x y : Nat} {p q : ℚ} (greater : Bool) (hx : (fdecode .f32 x).num = some p)
    (hy : (fdecode .f32 y).num = some q) (hne : p ≠ q) :
    scalarMinMax greater x y = ⟨if p < q then (if greater then y else x) else if greater then x else y, {}⟩ := by
  have hless : ∀ {a b : FVal} {p q : ℚ}, a.num = some p → b.num = some q → p ≠ q → ltTotal a b = decide (p < q) := fun ha hb hne => by
    rw [ltTotal, eqV_of_num ha hb, ltV_of_num ha hb]
    simp [hne]
  simp only [scalarMinMax, minmaxBits, isNan_of_num hx, isNan_of_num hy, isSnan_of_num hx, isSnan_of_num hy, hless hx hy hne,
    hless hy hx hne.symm, Bool.or_self, Bool.and_self, Bool.false_eq_true, if_false]
  cases greater <;> rcases lt_or_gt_of_ne hne with h | h <;> simp [h, h.not_gt]

/-! ## Signs -/

theorem lowW_sign (a : Dword) : (lowW a).getLsbD 31 = decide (2 ^ 31 ≤ lowNat a) := by
  rw [BitVec.getLsbD, lowW_toNat, testBit_sign (lowNat_lt a)]

theorem toNat_sign {x : Nat} (h : x < 2 ^ 32) : (decide (2 ^ 31 ≤ x)).toNat = x / 2 ^ 31 := by
  by_cases hneg : 2 ^ 31 ≤ x
  · rw [decide_eq_true hneg, Bool.toNat_true]
    omega
  · rw [decide_eq_false hneg, Bool.toNat_false]
    omega

theorem toNat_not (a : Bool) : (!a).toNat = 1 - a.toNat := by cases a <;> rfl

theorem toNat_bne (a b : Bool) : (a != b).toNat = (a.toNat + b.toNat) % 2 := by cases a <;> cases b <;> rfl

/-- Sign injection, by the sign that it makes. -/
theorem finSign_alone (h : s.alone) (rd rs1 rs2 : Reg) (f : Bool → Bool → Bool) :
    s.finSign rd rs1 rs2 f = s.result rd (inX (lowNat (s.x rs1) % 2 ^ 31 +
      (f (decide (2 ^ 31 ≤ lowNat (s.x rs1))) (decide (2 ^ 31 ≤ lowNat (s.x rs2)))).toNat * 2 ^ 31)) 4 := by
  rw [State.finSign, finX_alone _ _ _ _ h, lowW_sign, lowW_sign]
  refine congrArg (fun v => s.result rd v 4) (signExtend_eq_wrap32 _ _ (BitVec.eq_of_toNat_eq ?_))
  have hb := Bool.toNat_lt (f (decide (2 ^ 31 ≤ lowNat (s.x rs1))) (decide (2 ^ 31 ≤ lowNat (s.x rs2))))
  rw [BitVec.ofInt_natCast, BitVec.toNat_ofNat, toNat_append_eq_add, BitVec.extractLsb'_toNat, lowW_toNat, BitVec.toNat_ofBool,
    Nat.shiftRight_zero]
  omega

/-! ## Classes -/

/-- The bit of FCLASS.S that a pattern sets. -/
def classOf (x : Nat) : Nat :=
  if x / 2 ^ 23 % 2 ^ 8 = 255 then
    (if x % 2 ^ 23 = 0 then (if decide (2 ^ 31 ≤ x) then 0 else 7) else if 2 ^ 22 ≤ x % 2 ^ 23 then 9 else 8)
  else if x / 2 ^ 23 % 2 ^ 8 = 0 then
    (if x % 2 ^ 23 = 0 then (if decide (2 ^ 31 ≤ x) then 3 else 4) else if decide (2 ^ 31 ≤ x) then 2 else 5)
  else if decide (2 ^ 31 ≤ x) then 1 else 6

theorem fclass_eq {x : Nat} (h : x < 2 ^ 32) : fclass x = 2 ^ classOf x := by
  have hquiet : (x % 2 ^ 23).testBit 22 = decide (2 ^ 22 ≤ x % 2 ^ 23) := by
    rw [Nat.testBit_eq_decide_div_mod_eq, decide_eq_decide]
    omega
  have hfrac : x % 2 ^ 23 < 2 ^ 23 := Nat.mod_lt _ (by decide)
  unfold fclass classOf
  rw [fdecode_f32, testBit_sign h, hquiet]
  by_cases hinf : x / 2 ^ 23 % 2 ^ 8 = 255
  · simp only [if_pos hinf]
    by_cases hz : x % 2 ^ 23 = 0
    · simp only [if_pos hz]
      split <;> rfl
    · simp only [if_neg hz]
      by_cases hq : 2 ^ 22 ≤ x % 2 ^ 23
      · simp only [hq, if_true]; rfl
      · simp only [hq, if_false]; rfl
  · simp only [if_neg hinf]
    by_cases hsub : x / 2 ^ 23 % 2 ^ 8 = 0
    · simp only [if_pos hsub, hfrac, if_true]
      split
      · split <;> rfl
      · split <;> rfl
    · have hnorm : x % 2 ^ 23 + 2 ^ 23 ≠ 0 ∧ ¬ x % 2 ^ 23 + 2 ^ 23 < 2 ^ 23 := by omega
      simp only [if_neg hsub, hnorm, if_false]
      split <;> rfl

/-- FMIN.S and FMAX.S outside an active gang. -/
theorem exec_minMax_alone {i : Instr} {greater : Bool} (h : s.alone)
    (hexec : exec i s = .next (s.finF rd (scalarMinMax greater (lowW (s.x rs1)).toNat (lowW (s.x rs2)).toNat))) :
    exec i s = .next (s.floatResult rd (inX (scalarMinMax greater (lowNat (s.x rs1)) (lowNat (s.x rs2))).bits)
      (scalarMinMax greater (lowNat (s.x rs1)) (lowNat (s.x rs2))).flags) := by
  rw [hexec, finF_alone h, lowW_toNat, lowW_toNat]

/-- A comparison accrues no exception where it is valid. -/
theorem finCmp_alone (h : s.alone) (rd : Reg) (p : Prop) [Decidable p] :
    s.finCmp rd (decide p) false = s.floatResult rd (truth p) {} := by
  rw [State.finCmp, State.accrue, finX_setMe_alone h (by rfl), Slot.accrue, flagBits_eq]
  unfold State.floatResult boolX truth
  simp only [decide_eq_true_eq]
  rfl

/-- Settles O10: NaN operands, then signs, classes, and comparisons of numbers. -/
theorem floatNaNsSignsAndComparisons : Obligations.FloatNaNsSignsAndComparisons := by
  unfold Obligations.FloatNaNsSignsAndComparisons
  refine ⟨fun s rd rs1 rs2 rs3 rm m halone hmode hrd => ?nans, fun s rd rs1 rs2 halone => ?numbers⟩
  case nans =>
    obtain ⟨hadd, hsub, hmul, hdiv, hsqrt, hfmadd, hfmsub, hfnmsub, hfnmadd⟩ := floatArithmeticResults s rd rs1 rs2 rs3 rm
    dsimp only
    refine ⟨fun ha => ?one, fun hab => ?two, fun ha hb => ?minmax⟩
    case one => exact gives_canonicalNaN (hsqrt.1 m halone hmode) hrd (sqrtV_nan ha) id
    case two =>
      have hneg : isNan (negV (s.operand rs1)) = true ∨ isNan (s.operand rs2) = true := hab.imp_left (isNan_negV _).trans
      have hneg' : isNan (s.operand rs1) = true ∨ isNan (negV (s.operand rs2)) = true := hab.imp_right (isNan_negV _).trans
      have hfma : ∀ {a b : Bool}, a = true → (a || b) = true := fun h => by rw [h, Bool.true_or]
      refine ⟨gives_canonicalNaN (hadd.1 m halone hmode) hrd (addV_nan hab) id, gives_canonicalNaN (hsub.1 m halone hmode) hrd (addV_nan hneg') ?_,
        gives_canonicalNaN (hmul.1 m halone hmode) hrd (mulV_nan hab) id, gives_canonicalNaN (hdiv.1 m halone hmode) hrd (divV_nan hab) id,
        gives_canonicalNaN (hfmadd.1 m halone hmode) hrd (fmaV_nan hab) hfma, gives_canonicalNaN (hfmsub.1 m halone hmode) hrd (fmaV_nan hab) hfma,
        gives_canonicalNaN (hfnmsub.1 m halone hmode) hrd (fmaV_nan hneg) ?_, gives_canonicalNaN (hfnmadd.1 m halone hmode) hrd (fmaV_nan hneg) ?_⟩
      all_goals rw [isSnan_negV]
      · exact id
      · exact hfma
      · exact hfma
    case minmax =>
      exact ⟨gives_canonicalNaN (exec_minMax_alone halone rfl) hrd (scalarMinMax_nans false ha hb) id,
        gives_canonicalNaN (exec_minMax_alone halone rfl) hrd (scalarMinMax_nans true ha hb) id⟩
  case numbers =>
    have hx := lowNat_lt (s.x rs1)
    have hy := lowNat_lt (s.x rs2)
    have hsign : ∀ f, Host.Outcome.next (s.finSign rd rs1 rs2 f) = (.next _ : Res) := fun f =>
      congrArg Host.Outcome.next (finSign_alone halone rd rs1 rs2 f)
    refine ⟨(hsign _).trans ?sgnj, (hsign _).trans ?sgnjn, (hsign _).trans ?sgnjx, ?fclass, fun p q hp hq => ?comparisons⟩
    case sgnj => rw [toNat_sign hy]
    case sgnjn => rw [toNat_not, toNat_sign hy]
    case sgnjx => rw [toNat_bne, toNat_sign hx, toNat_sign hy]
    case fclass =>
      have hvalue : BitVec.ofNat 64 (fclass (lowW (s.x rs1)).toNat) = wrap64 (2 ^ classOf (lowNat (s.x rs1))) := by
        rw [lowW_toNat, fclass_eq hx, wrap64, ← BitVec.ofInt_natCast]
        push_cast
        rfl
      exact congrArg Host.Outcome.next ((finX_alone s rd _ 4 halone).trans (by rw [hvalue]; rfl))
    case comparisons =>
      have hle : (ltV (s.operand rs1) (s.operand rs2) || eqV (s.operand rs1) (s.operand rs2)) = decide (p ≤ q) := by
        rw [ltV_of_num hp hq, eqV_of_num hp hq, ← Bool.decide_or, decide_eq_decide, le_iff_lt_or_eq]
      have hfinCmp : ∀ {v nv : Bool} (P : Prop) [Decidable P], v = decide P → nv = false →
          Host.Outcome.next (s.finCmp rd v nv) = (.next (s.floatResult rd (truth P) {}) : Res) := fun P _ hv hnv => by
        rw [hv, hnv, finCmp_alone halone]
      have hminmax := fun greater hne => scalarMinMax_of_num greater hp hq hne
      have hf := f_eq_operand s
      refine ⟨hfinCmp _ ?_ ?_, hfinCmp _ ?_ ?_, hfinCmp _ ?_ ?_, fun hne => ⟨?_, ?_⟩⟩
      · rw [hf, hf, eqV_of_num hp hq]
      · rw [hf, hf, isSnan_of_num hp, isSnan_of_num hq, Bool.or_self]
      · rw [hf, hf, ltV_of_num hp hq]
      · rw [hf, hf, isNan_of_num hp, isNan_of_num hq, Bool.or_self]
      · rw [hf, hf, hle]
      · rw [hf, hf, isNan_of_num hp, isNan_of_num hq, Bool.or_self]
      · rw [exec_minMax_alone halone rfl, hminmax false hne]
        rfl
      · rw [exec_minMax_alone halone rfl, hminmax true hne]
        rfl

end Sys2Proof.Machine
end

section
/-!
SUPPORT. The size of what one rounding gives (R160): every result is a pattern of its format, and in FP32 the sum of two positive numbers is a positive
number or infinity.
-/
namespace Sys2Proof.Machine

/-! ## Every result is a pattern of its format -/

section
variable {f : Fmt} {mode : RMode} {neg : Bool}

theorem fmtInf_lt (f : Fmt) : fmtInf f < 2 ^ (f.ebits + f.mbits) := by
  rw [fmtInf, Nat.pow_add]
  exact Nat.mul_lt_mul_of_pos_right (Nat.sub_one_lt (Nat.two_pow_pos _).ne') (Nat.two_pow_pos _)

theorem fmtSign_add_lt {b : Nat} (h : b < 2 ^ (f.ebits + f.mbits)) : fmtSign f neg + b < 2 ^ fmtWidth f := by
  have hsign : fmtSign f neg ≤ 2 ^ (f.ebits + f.mbits) := by
    unfold fmtSign
    split
    · exact le_rfl
    · exact Nat.zero_le _
  rw [fmtWidth, Nat.add_assoc, Nat.pow_add]
  omega

theorem overflowBits_lt : overflowBits f mode neg < 2 ^ fmtWidth f := by
  have hinf := fmtInf_lt f
  refine fmtSign_add_lt ?_
  cases mode <;> cases neg <;> simp only [Bool.false_eq_true, if_false, if_true] <;> omega

theorem fmtNaN_lt (hf : 0 < f.mbits) : fmtNaN f < 2 ^ fmtWidth f := by
  have hhalf : 2 ^ (f.mbits - 1) < 2 ^ f.mbits := Nat.pow_lt_pow_right one_lt_two (by omega)
  have hexp : 2 ^ f.ebits * 2 ^ f.mbits = (2 ^ f.ebits - 1) * 2 ^ f.mbits + 2 ^ f.mbits := by
    rw [← Nat.succ_mul, Nat.succ_eq_add_one, Nat.sub_add_cancel (Nat.two_pow_pos _)]
  rw [fmtWidth, fmtNaN, fmtInf, Nat.add_assoc, Nat.pow_add, Nat.pow_add]
  omega

theorem packRound_lt {q : Int} {fl : Nat} {r : Rest} {tiny : Bool} : (packRound f mode neg q fl r tiny).bits < 2 ^ fmtWidth f := by
  unfold packRound
  dsimp only
  split
  · exact overflowBits_lt
  · next h => exact fmtSign_add_lt ((not_le.mp h).trans (fmtInf_lt f))

theorem roundRat_lt {n d : Nat} : (roundRat f mode neg n d).bits < 2 ^ fmtWidth f := by
  unfold roundRat
  split
  · exact fmtSign_add_lt (b := 0) (Nat.two_pow_pos _)
  · exact packRound_lt

theorem roundDyadic_lt {i e : Int} {zneg : Bool} : (roundDyadic f mode i e zneg).bits < 2 ^ fmtWidth f := by
  unfold roundDyadic
  split
  · exact fmtSign_add_lt (b := 0) (Nat.two_pow_pos _)
  · exact roundRat_lt

variable (hf : 0 < f.mbits)
include hf

theorem addV_lt (a b : FVal) : (addV f mode a b).bits < 2 ^ fmtWidth f := by
  have hinf : ∀ n, (fInfinity f n).bits < 2 ^ fmtWidth f := fun n => fmtSign_add_lt (fmtInf_lt f)
  have hnan := fmtNaN_lt hf
  cases a with
  | nan s => exact hnan
  | inf n =>
    cases b with
    | nan s => exact hnan
    | inf m =>
      show (if n = m then fInfinity f n else fInvalid f).bits < _
      split
      · exact hinf n
      · exact hnan
    | fin m t g => exact hinf n
  | fin n s e =>
    cases b with
    | nan s => exact hnan
    | inf m => exact hinf m
    | fin m t g => exact roundDyadic_lt

theorem roundV_lt (a : FVal) : (roundV f mode a).bits < 2 ^ fmtWidth f := by
  cases a with
  | nan s => exact fmtNaN_lt hf
  | inf n => exact fmtSign_add_lt (fmtInf_lt f)
  | fin n s e => exact roundRat_lt

theorem mulV_lt (a b : FVal) : (mulV f mode a b).bits < 2 ^ fmtWidth f := roundV_lt hf _

theorem fmaV_lt (a b c : FVal) : (fmaV f mode a b c).bits < 2 ^ fmtWidth f := by
  unfold fmaV
  cases mulExact a b with
  | nan s => exact fmtNaN_lt hf
  | inf n => exact addV_lt hf _ _
  | fin n s e => exact addV_lt hf _ _
end

theorem fma32_lt (x y z : Nat) : fma32 x y z < 2 ^ 32 := fmaV_lt (f := .f32) (by decide) _ _ _

/-! ## Positive numbers of FP32 -/

/-- An FP32 pattern of a number above zero. -/
abbrev IsPositive (x : Nat) : Prop := 0 < x ∧ x < 0x7F800000

theorem fdecode_of_isPositive {x : Nat} (h : IsPositive x) : ∃ m e, fdecode .f32 x = .fin false m e ∧ 0 < m ∧ -149 ≤ e := by
  obtain ⟨hpos, hlt⟩ := h
  have hsign : x.testBit 31 = false := by rw [testBit_sign (by omega), decide_eq_false (by omega)]
  rw [fdecode_f32, hsign, if_neg (by omega)]
  split
  · exact ⟨_, _, rfl, by omega, le_rfl⟩
  · exact ⟨_, _, rfl, by omega, by omega⟩

theorem isPositive_of_fdecode {x m : Nat} {e : Int} (hx : x < 2 ^ 32) (h : fdecode .f32 x = .fin false m e) (hm : m ≠ 0) : IsPositive x := by
  rw [fdecode_f32, testBit_sign hx] at h
  split at h
  · split at h <;> cases h
  · next hfinite =>
    split at h
    · obtain ⟨hsign, rfl, -⟩ := FVal.fin.inj h
      have := of_decide_eq_false hsign
      omega
    · obtain ⟨hsign, -, -⟩ := FVal.fin.inj h
      have := of_decide_eq_false hsign
      omega

theorem isPositive_iff {x : Nat} (hx : x < 2 ^ 32) : IsPositive x ↔ ∃ m e, fdecode .f32 x = .fin false m e ∧ m ≠ 0 := by
  constructor
  · intro h
    obtain ⟨m, e, hd, hm, -⟩ := fdecode_of_isPositive h
    exact ⟨m, e, hd, hm.ne'⟩
  · rintro ⟨m, e, hd, hm⟩
    exact isPositive_of_fdecode hx hd hm

theorem le_roundUp (mode : RMode) (neg : Bool) (fl : Nat) (r : Rest) : fl ≤ roundUp mode neg fl r := by
  cases mode <;> cases r <;> grind [roundUp]

/-- A rounded magnitude is packed as it is, or overflows. -/
theorem packRound_cases (f : Fmt) (mode : RMode) (neg : Bool) (q : Int) (fl : Nat) (r : Rest) (tiny : Bool) {b : Nat}
    (hb : (q - (1 - (fmtBias f : Int) - f.mbits)).toNat * 2 ^ f.mbits + roundUp mode neg fl r = b) :
    (fmtInf f ≤ b ∧ (packRound f mode neg q fl r tiny).bits = overflowBits f mode neg) ∨
      (b < fmtInf f ∧ (packRound f mode neg q fl r tiny).bits = fmtSign f neg + b) := by
  subst hb
  unfold packRound
  dsimp only
  split
  next h => exact .inl ⟨h, rfl⟩
  next h => exact .inr ⟨not_le.mp h, rfl⟩

theorem fmtInf_f32 : fmtInf .f32 = 0x7F800000 := rfl

/-- The exponent field of a last place in FP32. -/
theorem expField_f32 (q : Int) : (q - (1 - (fmtBias .f32 : Int) - Fmt.f32.mbits)).toNat * 2 ^ Fmt.f32.mbits = (q + 149).toNat * 2 ^ 23 := by
  rw [show Fmt.f32.mbits = 23 from rfl, show fmtBias .f32 = 127 from rfl]
  congr 2

theorem scaleNum_pos {n : Nat} {k : Int} (hn : 0 < n) : 0 < scaleNum n k := by
  unfold scaleNum
  split
  · positivity
  · exact hn

theorem scaleDen_pos {d : Nat} {k : Int} (hd : 0 < d) : 0 < scaleDen d k := by
  unfold scaleDen
  split
  · exact hd
  · positivity

/-- A magnitude above zero is rounded at its quantum. -/
theorem roundRat_eq_packRound {f : Fmt} {mode : RMode} {neg : Bool} {n d : Nat} {q : Int} (hn : n ≠ 0) (hq : quantum f (floorLog2 n d) = q) :
    ∃ tiny, roundRat f mode neg n d =
      packRound f mode neg q (scaleNum n (-q) / scaleDen d (-q)) (restOf (scaleNum n (-q) % scaleDen d (-q)) (scaleDen d (-q))) tiny := by
  subst hq
  unfold roundRat
  rw [if_neg hn]
  exact ⟨_, rfl⟩

theorem quantum_f32 (k : Int) : quantum .f32 k = max (k - 23) (-149) := rfl

/-- A number of at least the least positive one does not round to zero. -/
theorem roundRat_f32_pos {n : Nat} {e : Int} (hn : 0 < n) (he : -149 ≤ e) :
    0 < (roundRat .f32 .rne false (scaleNum n e) (scaleDen 1 e)).bits ∧
      (roundRat .f32 .rne false (scaleNum n e) (scaleDen 1 e)).bits ≤ 0x7F800000 := by
  have hfloor : 0 < scaleNum (scaleNum n e) 149 / scaleDen (scaleDen 1 e) 149 := by
    refine Nat.div_pos ?_ (scaleDen_pos (scaleDen_pos one_pos))
    show scaleDen 1 e ≤ scaleNum n e * 2 ^ 149
    unfold scaleDen scaleNum
    split
    · exact Nat.mul_pos (by positivity) (by positivity)
    · exact Nat.mul_le_mul hn (Nat.pow_le_pow_right two_pos (by omega))
  obtain ⟨q, hq⟩ : ∃ q, quantum .f32 (floorLog2 (scaleNum n e) (scaleDen 1 e)) = q := ⟨_, rfl⟩
  obtain ⟨tiny, hround⟩ := roundRat_eq_packRound (mode := .rne) (neg := false) (scaleNum_pos hn).ne' hq
  rw [hround]
  rcases packRound_cases .f32 .rne false q _ _ tiny rfl with ⟨-, hbits⟩ | ⟨hlt, hbits⟩
  · rw [hbits]
    exact ⟨by decide, by decide⟩
  · rw [hbits, show fmtSign .f32 false = 0 from rfl, Nat.zero_add]
    refine ⟨?_, (hlt.trans_eq fmtInf_f32).le⟩
    rw [expField_f32]
    rw [quantum_f32] at hq
    rcases eq_or_lt_of_le (hq ▸ le_max_right _ _ : -149 ≤ q) with rfl | hgt
    · exact Nat.add_pos_right _ (hfloor.trans_le (le_roundUp _ _ _ _))
    · exact Nat.add_pos_left (Nat.mul_pos (by omega) (by decide)) _

theorem add32_pos {x y : Nat} (hx : IsPositive x) (hy : IsPositive y) : 0 < add32 x y ∧ add32 x y ≤ 0x7F800000 := by
  obtain ⟨s, e, hx, hs, he⟩ := fdecode_of_isPositive hx
  obtain ⟨t, g, hy, ht, hg⟩ := fdecode_of_isPositive hy
  have hsum : ∃ n : Nat, 0 < n ∧ alignTo (signed false s) e (min e g) + alignTo (signed false t) g (min e g) = n :=
    ⟨s * 2 ^ (e - min e g).toNat + t * 2 ^ (g - min e g).toNat, by positivity, by simp [alignTo, signed]⟩
  obtain ⟨n, hn, hsum⟩ := hsum
  rw [add32, hx, hy]
  unfold addV roundDyadic
  dsimp only
  rw [hsum, if_neg (by omega), decide_eq_false (by omega), Int.natAbs_natCast]
  exact roundRat_f32_pos hn (by omega)

end Sys2Proof.Machine
end

section
/-!
SUPPORT. Statistics triples (R171 to R173): the fields of a STAT128 value, what the update and the merge come to in each case, and that they keep triples
well-formed.
-/
namespace Sys2Proof.Machine

/-! ## The fields of a STAT128 value (R171) -/

/-- A well-formed triple: its fields are FP32 patterns, all +0 where it is empty, with a positive weight otherwise. -/
structure Stat.Sound (a : Stat) : Prop where
  mu_lt : a.mu < 2 ^ 32
  m2_lt : a.m2 < 2 ^ 32
  whenEmpty : a.empty = true → a.w = 0 ∧ a.mu = 0 ∧ a.m2 = 0
  whenFull : a.empty = false → IsPositive a.w

theorem Stat.Sound.w_lt {a : Stat} (h : a.Sound) : a.w < 2 ^ 32 := by
  cases hempty : a.empty with
  | true =>
    have := (h.whenEmpty hempty).1
    omega
  | false =>
    have := (h.whenFull hempty).2
    omega

theorem toNat_statTo {a : Stat} (h : a.Sound) : (statTo a).toNat =
    a.w * 2 ^ 96 + a.mu * 2 ^ 64 + a.m2 * 2 ^ 32 + a.wbad.toNat * 16 + a.wovf.toNat * 8 + a.inf.toNat * 4 + a.nan.toNat * 2 + a.empty.toNat := by
  have hw := h.w_lt
  have hmu := h.mu_lt
  have hm2 := h.m2_lt
  have := a.wbad.toNat_lt
  have := a.wovf.toNat_lt
  have := a.inf.toNat_lt
  have := a.nan.toNat_lt
  have := a.empty.toNat_lt
  rw [statTo, BitVec.toNat_ofNat, Nat.mod_eq_of_lt]
  omega

theorem statOf_statTo {a : Stat} (h : a.Sound) : statOf (statTo a) = a := by
  have hvalue := toNat_statTo h
  have hw := h.w_lt
  have hmu := h.mu_lt
  have hm2 := h.m2_lt
  have hbad := a.wbad.toNat_lt
  have hovf := a.wovf.toNat_lt
  have hinf := a.inf.toNat_lt
  have hnan := a.nan.toNat_lt
  have hempty := a.empty.toNat_lt
  generalize statTo a = v at hvalue
  have hfield : ∀ {lo n : Nat}, v.toNat / 2 ^ lo % 2 ^ 32 = n → (v.extractLsb' lo 32).toNat = n := fun hn => by
    rw [BitVec.extractLsb'_toNat, Nat.shiftRight_eq_div_pow, hn]
  have htag : ∀ {k : Nat} {b : Bool}, v.toNat / 2 ^ k % 2 = b.toNat → v.getLsbD k = b := fun {k b} hb => by
    rw [BitVec.getLsbD, Nat.testBit_eq_decide_div_mod_eq, hb]
    cases b <;> rfl
  unfold statOf
  rw [hfield (lo := 96) (n := a.w), hfield (lo := 64) (n := a.mu), hfield (lo := 32) (n := a.m2), htag (k := 4) (b := a.wbad),
    htag (k := 3) (b := a.wovf), htag (k := 2) (b := a.inf), htag (k := 1) (b := a.nan), htag (k := 0) (b := a.empty)]
  all_goals omega

theorem statMalformed_eq_false_iff (v : Streg) : statMalformed v = false ↔ v.extractLsb' 5 27 = 0#27 ∧ (statOf v).Sound := by
  have hw : (statOf v).w < 2 ^ 32 := BitVec.isLt _
  have hmu : (statOf v).mu < 2 ^ 32 := BitVec.isLt _
  have hm2 : (statOf v).m2 < 2 ^ 32 := BitVec.isLt _
  have hsound : (statOf v).Sound ↔ ((statOf v).empty = true → (statOf v).w = 0 ∧ (statOf v).mu = 0 ∧ (statOf v).m2 = 0) ∧
      ((statOf v).empty = false → IsPositive (statOf v).w) :=
    ⟨fun h => ⟨h.whenEmpty, h.whenFull⟩, fun h => ⟨hmu, hm2, h.1, h.2⟩⟩
  rw [hsound, isPositive_iff hw, statMalformed]
  cases (statOf v).empty with
  | true => simp [and_assoc]
  | false => cases fdecode .f32 (statOf v).w <;> simp

theorem statMalformed_statTo {a : Stat} (h : a.Sound) : statMalformed (statTo a) = false := by
  refine (statMalformed_eq_false_iff _).mpr ⟨BitVec.eq_of_toNat_eq ?_, (statOf_statTo h).symm ▸ h⟩
  have hbad := a.wbad.toNat_lt
  have hovf := a.wovf.toNat_lt
  have hinf := a.inf.toNat_lt
  have hnan := a.nan.toNat_lt
  have hempty := a.empty.toNat_lt
  rw [BitVec.extractLsb'_toNat, Nat.shiftRight_eq_div_pow, toNat_statTo h]
  show _ = 0
  omega

/-! ## Values by sign -/

theorem num_cases (a : FVal) : isNan a = true ∨ (∃ n, a = .inf n) ∨ ∃ p, a.num = some p := by
  cases a with
  | nan _ => exact .inl rfl
  | inf n => exact .inr (.inl ⟨n, rfl⟩)
  | fin n m e => exact .inr (.inr ⟨_, rfl⟩)

theorem signed_pow_pos_iff (n : Bool) (m : Nat) (e : Int) : (0 : ℚ) < signed n m * 2 ^ e ↔ n = false ∧ m ≠ 0 := by
  rw [mul_pos_iff_of_pos_right (zpow_pos two_pos e), Int.cast_pos]
  cases n <;> simp [signed, Nat.pos_iff_ne_zero]

theorem signed_pow_eq_zero_iff (n : Bool) (m : Nat) (e : Int) : (signed n m * 2 ^ e : ℚ) = 0 ↔ m = 0 := by
  rw [mul_eq_zero, or_iff_left (zpow_pos two_pos e).ne', Int.cast_eq_zero]
  cases n <;> simp [signed]

theorem signed_pow_neg_iff (n : Bool) (m : Nat) (e : Int) : (signed n m * 2 ^ e : ℚ) < 0 ↔ n = true ∧ m ≠ 0 := by
  rw [← not_le, le_iff_lt_or_eq, eq_comm, signed_pow_pos_iff, signed_pow_eq_zero_iff]
  cases n <;> simp

theorem isPositive_of_num {x : Nat} {p : ℚ} (hx : x < 2 ^ 32) (h : (fdecode .f32 x).num = some p) (hp : 0 < p) : IsPositive x := by
  obtain ⟨n, m, e, hd, rfl⟩ := num_eq_some h
  obtain ⟨rfl, hm⟩ := (signed_pow_pos_iff n m e).mp hp
  exact isPositive_of_fdecode hx hd hm

theorem fdecode_f32_inf {x : Nat} (h : x % 2 ^ 31 = 0x7F800000) : fdecode .f32 x = .inf (x.testBit 31) := by
  rw [fdecode_f32, if_pos (by omega), if_pos (by omega)]

/-! ## The update (R172) -/

section
variable {a : Stat} {x w : Nat} {p q : ℚ}

theorem statUpd_nan (hx : isNan (fdecode .f32 x) = true) : statUpd a x w = { a with nan := true } := by
  obtain ⟨t, ht⟩ := exists_eq_nan hx
  unfold statUpd
  rw [ht]

theorem statUpd_inf {n : Bool} (hx : fdecode .f32 x = .inf n) : statUpd a x w = { a with inf := true } := by
  unfold statUpd
  rw [hx]

theorem statUpd_weightNone (hx : (fdecode .f32 x).num = some p) (hw : (fdecode .f32 w).num = none) :
    statUpd a x w = { a with wbad := true } := by
  obtain ⟨n, m, e, hxv, -⟩ := num_eq_some hx
  unfold statUpd
  rw [hxv]
  cases hd : fdecode .f32 w with
  | nan _ => rfl
  | inf _ => rfl
  | fin n m e => rw [hd, num_fin] at hw; cases hw

theorem statUpd_weightNegative (hx : (fdecode .f32 x).num = some p) (hw : (fdecode .f32 w).num = some q) (hq : q < 0) :
    statUpd a x w = { a with wbad := true } := by
  obtain ⟨n, m, e, hxv, -⟩ := num_eq_some hx
  obtain ⟨k, t, g, hwv, rfl⟩ := num_eq_some hw
  obtain ⟨hk, ht⟩ := (signed_pow_neg_iff k t g).mp hq
  unfold statUpd
  rw [hxv, hwv]
  exact (if_neg ht).trans (if_pos hk)

theorem statUpd_weightZero (hx : (fdecode .f32 x).num = some p) (hw : (fdecode .f32 w).num = some q) (hq : q = 0) :
    statUpd a x w = a := by
  obtain ⟨n, m, e, hxv, -⟩ := num_eq_some hx
  obtain ⟨k, t, g, hwv, rfl⟩ := num_eq_some hw
  unfold statUpd
  rw [hxv, hwv]
  exact if_pos ((signed_pow_eq_zero_iff k t g).mp hq)

/-- The first number of a triple is its mean. -/
theorem statUpd_first (hx : (fdecode .f32 x).num = some p) (hw : (fdecode .f32 w).num = some q) (hq : 0 < q) (hempty : a.empty = true) :
    statUpd a x w = { a with w := w, mu := x, m2 := 0, empty := false } := by
  obtain ⟨n, m, e, hxv, -⟩ := num_eq_some hx
  obtain ⟨k, t, g, hwv, rfl⟩ := num_eq_some hw
  obtain ⟨rfl, ht⟩ := (signed_pow_pos_iff k t g).mp hq
  unfold statUpd
  rw [hxv, hwv]
  exact (if_neg ht).trans ((if_neg Bool.false_ne_true).trans (if_pos hempty))

/-- A further number: the weights' sum overflows, or it is the new weight. -/
theorem statUpd_further (hx : (fdecode .f32 x).num = some p) (hw : (fdecode .f32 w).num = some q) (hq : 0 < q) (hfull : a.empty = false) :
    (add32 a.w w = fmtInf .f32 ∧ statUpd a x w = { a with wovf := true }) ∨
      (add32 a.w w ≠ fmtInf .f32 ∧ ∃ d g f m e, statUpd a x w = { a with m2 := fma32 g e a.m2, w := add32 a.w w, mu := fma32 f d m }) := by
  obtain ⟨n, m, e, hxv, -⟩ := num_eq_some hx
  obtain ⟨k, t, g, hwv, rfl⟩ := num_eq_some hw
  obtain ⟨rfl, ht⟩ := (signed_pow_pos_iff k t g).mp hq
  have hnot : ¬ a.empty = true := Bool.eq_false_iff.mp hfull
  unfold statUpd
  rw [hxv, hwv]
  dsimp only
  rw [if_neg ht, if_neg Bool.false_ne_true, if_neg hnot]
  split
  next hinf => exact .inl ⟨hinf, rfl⟩
  next hfinite => exact .inr ⟨hfinite, _, _, _, _, _, rfl⟩

/-- Every tag of `a` is set in `b`. -/
structure Stat.TagsIn (a b : Stat) : Prop where
  nan : a.nan = true → b.nan = true
  inf : a.inf = true → b.inf = true
  wovf : a.wovf = true → b.wovf = true
  wbad : a.wbad = true → b.wbad = true

/-- The sum of two positive weights that does not overflow is one. -/
theorem isPositive_add32 {x y : Nat} (hx : IsPositive x) (hy : IsPositive y) (h : add32 x y ≠ fmtInf .f32) : IsPositive (add32 x y) := by
  obtain ⟨hpos, hle⟩ := add32_pos hx hy
  exact ⟨hpos, lt_of_le_of_ne hle (fmtInf_f32 ▸ h)⟩

theorem statUpd_sound (h : a.Sound) (hx : x < 2 ^ 32) (hw : w < 2 ^ 32) : (statUpd a x w).Sound ∧ a.TagsIn (statUpd a x w) := by
  obtain ⟨hmu, hm2, hempty, hfull⟩ := h
  rcases num_cases (fdecode .f32 x) with hnan | ⟨n, hinf⟩ | ⟨p, hp⟩
  · rw [statUpd_nan hnan]
    exact ⟨⟨hmu, hm2, hempty, hfull⟩, ⟨fun _ => rfl, id, id, id⟩⟩
  · rw [statUpd_inf hinf]
    exact ⟨⟨hmu, hm2, hempty, hfull⟩, ⟨id, fun _ => rfl, id, id⟩⟩
  · cases hq : (fdecode .f32 w).num with
    | none =>
      rw [statUpd_weightNone hp hq]
      exact ⟨⟨hmu, hm2, hempty, hfull⟩, ⟨id, id, id, fun _ => rfl⟩⟩
    | some q =>
      rcases lt_trichotomy q 0 with hneg | hzero | hpos
      · rw [statUpd_weightNegative hp hq hneg]
        exact ⟨⟨hmu, hm2, hempty, hfull⟩, ⟨id, id, id, fun _ => rfl⟩⟩
      · rw [statUpd_weightZero hp hq hzero]
        exact ⟨⟨hmu, hm2, hempty, hfull⟩, ⟨id, id, id, id⟩⟩
      · have hweight := isPositive_of_num hw hq hpos
        cases he : a.empty with
        | true =>
          rw [statUpd_first hp hq hpos he]
          exact ⟨⟨hx, Nat.two_pow_pos 32, nofun, fun _ => hweight⟩, ⟨id, id, id, id⟩⟩
        | false =>
          have hold := hfull he
          rcases statUpd_further hp hq hpos he with ⟨-, hover⟩ | ⟨hfinite, d, g, f, m, e, hnext⟩
          · rw [hover]
            exact ⟨⟨hmu, hm2, hempty, hfull⟩, ⟨id, id, fun _ => rfl, id⟩⟩
          · rw [hnext]
            exact ⟨⟨fma32_lt _ _ _, fma32_lt _ _ _, fun hc => absurd (he.symm.trans hc) Bool.false_ne_true,
              fun _ => isPositive_add32 hold hweight hfinite⟩, ⟨id, id, id, id⟩⟩
end

/-! ## The merge (R173) -/

section
variable {a b : Stat}

theorem statMerge_leftEmpty (h : a.empty = true) : statMerge a b = statTags b a b := if_pos h

theorem statMerge_rightEmpty (ha : a.empty = false) (hb : b.empty = true) : statMerge a b = statTags a a b := by
  unfold statMerge
  rw [if_neg (Bool.eq_false_iff.mp ha), if_pos hb]

/-- Two triples of numbers: the weights' sum overflows, or it is the new weight. -/
theorem statMerge_full (ha : a.empty = false) (hb : b.empty = false) :
    (add32 a.w b.w = fmtInf .f32 ∧ statMerge a b = { statTags a a b with wovf := true }) ∨
      (add32 a.w b.w ≠ fmtInf .f32 ∧ ∃ f d q e, statMerge a b =
        statTags { a with w := add32 a.w b.w, mu := fma32 f d a.mu, m2 := fma32 q d e } a b) := by
  unfold statMerge
  rw [if_neg (Bool.eq_false_iff.mp ha), if_neg (Bool.eq_false_iff.mp hb)]
  dsimp only
  split
  next hinf => exact .inl ⟨hinf, rfl⟩
  next hfinite => exact .inr ⟨hfinite, _, _, _, _, rfl⟩

theorem statTags_sound {r : Stat} (h : r.Sound) : (statTags r a b).Sound := ⟨h.mu_lt, h.m2_lt, h.whenEmpty, h.whenFull⟩

theorem statMerge_sound (ha : a.Sound) (hb : b.Sound) :
    (statMerge a b).Sound ∧ (statMerge a b).nan = (a.nan || b.nan) ∧ ((a.wovf || b.wovf) = true → (statMerge a b).wovf = true) := by
  cases hea : a.empty with
  | true =>
    rw [statMerge_leftEmpty hea]
    exact ⟨statTags_sound hb, rfl, id⟩
  | false =>
    cases heb : b.empty with
    | true =>
      rw [statMerge_rightEmpty hea heb]
      exact ⟨statTags_sound ha, rfl, id⟩
    | false =>
      rcases statMerge_full hea heb with ⟨-, hover⟩ | ⟨hfinite, f, d, q, e, hmerged⟩
      · rw [hover]
        exact ⟨⟨ha.mu_lt, ha.m2_lt, ha.whenEmpty, ha.whenFull⟩, rfl, fun _ => rfl⟩
      · rw [hmerged]
        refine ⟨statTags_sound ⟨fma32_lt _ _ _, fma32_lt _ _ _, fun hc => absurd (hea.symm.trans hc) Bool.false_ne_true, fun _ => ?_⟩, rfl, id⟩
        exact isPositive_add32 (ha.whenFull hea) (hb.whenFull heb) hfinite
end

end Sys2Proof.Machine
end

section
/-!
SUPPORT. How a statistics instruction of a baton alone ends (R171, R294 to R300): with an st result, or by the trap of a malformed operand, and the words of
these instructions.
-/
namespace Sys2Proof.Machine

variable {s : State}

/-! ## Ends of instructions -/

/-- An instruction that has changed the focus slot to another of the same baton, and goes on. -/
theorem fin_setMe_alone {t : Slot} (h : s.alone) (hb : t.xbaton = s.me.xbaton) (len : Nat) :
    (s.setMe t).fin len = s.ended { t with pc := t.pc + BitVec.ofNat 64 len } := by
  unfold State.fin
  rw [me_setMe, focus_setMe, complete_alone s t _ h hb]

theorem setSt_fin_alone (h : s.alone) (std : BitVec 3) (v : Streg) :
    (s.setSt std v).fin 4 = s.ended { s.me.setSt std v with pc := s.me.pc + 4 } := by
  rw [State.setSt, fin_setMe_alone h (by rfl)]
  rfl

theorem finSt_alone (h : s.alone) (std : BitVec 3) (a : Stat) : s.finSt std a = s.ended { s.me.setSt std (statTo a) with pc := s.me.pc + 4 } :=
  setSt_fin_alone h std _

/-- A store of the focus slot that completes. -/
theorem store_fin_alone (h : s.alone) (c : Nat) (l : List Byte) (len : Nat) : (s.store (some s.focus) c l).fin len = s.storedTo c l len := by
  rw [fin_alone _ _ (store_alone s c _ h)]
  unfold State.passed State.movedTo State.ended State.storedTo
  rw [me_store]
  rfl

/-! ## Malformed operands (R171, R296) -/

section
variable {regs : List (BitVec 3)} {w : Word32} {f : State → State} {i : Instr}

theorem statChecked_sound (h : ∀ r ∈ regs, statMalformed (s.st r) = false) : s.statChecked regs w f = f s := by
  have hnone : ¬ (regs.any fun r => statMalformed (s.st r)) = true := by simpa using h
  exact if_neg hnone

theorem statChecked_malformed {r : BitVec 3} (hr : r ∈ regs) (h : statMalformed (s.st r) = true) : s.statChecked regs w f = s.trap 28 (zext64 w) := by
  have hany : (regs.any fun r => statMalformed (s.st r)) = true := List.any_eq_true.mpr ⟨r, hr, h⟩
  exact if_pos hany

/-- An instruction that checks st registers, one of which is malformed, traps with its own word. -/
theorem exec_statChecked_malformed {r : BitVec 3} (hexec : exec i s = .next (s.statChecked regs w f)) (hword : encode i = .word w)
    (hr : r ∈ regs) (h : statMalformed (s.st r) = true) (htrap : s.canTrap) :
    ∀ w, encode i = .word w → exec i s = .next (s.trapped 28 (zext64 w)) := by
  intro w' hw'
  obtain rfl : w = w' := Encoding.word.inj (hword.symm.trans hw')
  rw [hexec, statChecked_malformed hr h]
  exact congrArg Host.Outcome.next (trap_alone s 28 _ htrap (by decide))
end

/-! ## Words (R196, R294) -/

/-- A word is the one that its fields make, where it has their number. -/
theorem eq_xrWord {w : Word32} {op4 opt3 rs2 rs1 f3 rd op : Nat}
    (h : w.toNat = op4 * 2 ^ 28 + opt3 * 2 ^ 25 + rs2 * 2 ^ 20 + rs1 * 2 ^ 15 + f3 * 2 ^ 12 + rd * 2 ^ 7 + op) :
    w = xrWord op4 opt3 rs2 rs1 f3 rd op :=
  BitVec.eq_of_toNat_eq (by rw [xrWord, ← h, BitVec.toNat_ofNat, Nat.mod_eq_of_lt w.isLt])

section
variable (std st1 st2 drain : BitVec 3) (rd rs1 rs2 : Reg) (ty : BitVec 2)

theorem encode_statUpd : encode (.statUpd std rs1) = .word (xrWord 1 0 0 rs1.toNat 0 std.toNat custom3) :=
  congrArg Encoding.word (eq_xrWord (by simp only [toNat_append_eq_add, BitVec.toNat_ofNat, custom3]; omega))

theorem encode_statUpdw : encode (.statUpdw std rs1 rs2) = .word (xrWord 2 0 rs2.toNat rs1.toNat 0 std.toNat custom3) :=
  congrArg Encoding.word (eq_xrWord (by simp only [toNat_append_eq_add, BitVec.toNat_ofNat, custom3]; omega))

theorem encode_statMerge : encode (.statMerge std st1 st2) = .word (xrWord 3 0 st2.toNat st1.toNat 0 std.toNat custom3) :=
  congrArg Encoding.word (eq_xrWord (by simp only [toNat_append_eq_add, BitVec.toNat_ofNat, custom3]; omega))

theorem encode_statLd : encode (.statLd std rs1) = .word (xrWord 4 0 0 rs1.toNat 0 std.toNat custom3) :=
  congrArg Encoding.word (eq_xrWord (by simp only [toNat_append_eq_add, BitVec.toNat_ofNat, custom3]; omega))

theorem encode_vstatUpd : encode (.vstatUpd std rs1 ty) = .word (xrWord 0 ty.toNat 0 rs1.toNat 1 std.toNat custom3) :=
  congrArg Encoding.word (eq_xrWord (by simp only [toNat_append_eq_add, BitVec.toNat_ofNat, custom3]; omega))

theorem encode_vstatUpdw : encode (.vstatUpdw std rs1 rs2 ty) = .word (xrWord 1 ty.toNat rs2.toNat rs1.toNat 1 std.toNat custom3) :=
  congrArg Encoding.word (eq_xrWord (by simp only [toNat_append_eq_add, BitVec.toNat_ofNat, custom3]; omega))

theorem encode_statDrain : encode (.statDrain rd st1 rs2 drain) = .word (xrWord 2 drain.toNat rs2.toNat st1.toNat 1 rd.toNat custom3) :=
  congrArg Encoding.word (eq_xrWord (by simp only [toNat_append_eq_add, BitVec.toNat_ofNat, custom3]; omega))
end

end Sys2Proof.Machine
end

section
/-!
PROOF of O37. The scalar statistics instructions (R294, R296, R297), and that updates and merges keep triples well-formed (R172, R173).
-/
namespace Sys2Proof.Machine

variable {s : State} {std st1 st2 : BitVec 3} {rs1 rs2 : Reg} {c : Nat}

/-! ## Updates -/

/-- STAT.UPD and STAT.UPDW of a well-formed triple. -/
theorem exec_update {i : Instr} {w : Word32} {weight : State → Nat}
    (hexec : exec i s = .next (s.statChecked [std] w fun s => s.finSt std (statUpd (statOf (s.st std)) (s.f32 rs1) (weight s))))
    (h : s.alone) (hsound : statMalformed (s.st std) = false) :
    exec i s = .next (s.ended { s.me.setSt std (statTo (statUpd (statOf (s.st std)) (lowNat (s.x rs1)) (weight s))) with pc := s.me.pc + 4 }) := by
  rw [hexec, statChecked_sound fun r hr => List.mem_singleton.mp hr ▸ hsound, finSt_alone h, State.f32, lowW_toNat]

/-! ## Local accesses (R297) -/

theorem unstall_of_noBankWait {t : State} (h : s.noBankWait) (ht : t.power s.myDie = s.power s.myDie) : t.unstall s.focus = t :=
  unstallAt_of_no_waiters t _ _ ((congrArg Power.waiters ht).trans h)

theorem vAdmits_of_ownCell {op : MemOp} {a n : Nat} (ha : a % n = 0) (hc : s.ownCell op a = some c) : s.vAdmits op a n = true := by
  simp [State.vAdmits, ha, hc]

/-- STAT.LD of a local cell on a powered bank. -/
theorem exec_statLd_local (ha : (s.x rs1).toNat % 16 = 0) (hc : s.ownCell .read (s.x rs1).toNat = some c)
    (hg : s.granted s.focus [c] = true) :
    exec (.statLd std rs1) s = .next (
      if statMalformed (BitVec.ofNat 128 (memNat s.mem c 16)) then
        (s.trap 28 (zext64 (xrWord 4 0 0 rs1.toNat 0 std.toNat custom3))).unstall s.focus
      else ((s.setSt std (BitVec.ofNat 128 (memNat s.mem c 16))).fin 4).unstall s.focus) := by
  show execStatLd std rs1 s = _
  unfold execStatLd
  simp only [vAdmits_of_ownCell ha hc, hc, Bool.not_true, Bool.false_eq_true, if_false, State.onCells, hg, if_true, State.loadLE,
    readLE_eq_memNat, statLoaded]
  cases statMalformed (BitVec.ofNat 128 (memNat s.mem c 16)) <;> rfl

theorem exec_statSt_local (h : s.alone) (ha : (s.x rs1).toNat % 16 = 0) (hc : s.ownCell .write (s.x rs1).toNat = some c)
    (hg : s.granted s.focus [c] = true) (hquiet : s.noBankWait) :
    exec (.statSt rs1 st2) s = .next (s.storedTo c (bytesLE 16 (s.st st2).toNat) 4) := by
  show execStatSt rs1 st2 s = _
  unfold execStatSt
  simp only [vAdmits_of_ownCell ha hc, hc, Bool.not_true, Bool.false_eq_true, if_false, State.onCells, hg, if_true]
  rw [store_fin_alone h]
  exact congrArg Host.Outcome.next (unstall_of_noBankWait hquiet rfl)

theorem bytesLE_eq_fields (v : Streg) : bytesLE 16 v.toNat = (List.range 16).map fun i => v.extractLsb' (8 * i) 8 := by
  unfold bytesLE
  refine List.map_congr_left fun i _ => BitVec.eq_of_toNat_eq ?_
  rw [BitVec.extractLsb'_toNat, BitVec.toNat_ofNat, Nat.shiftRight_eq_div_pow]

/-- Settles O37: each instruction by its end, and the update and the merge by what they come to in each case. -/
theorem statisticsResults : Obligations.StatisticsResults := by
  unfold Obligations.StatisticsResults
  refine ⟨fun s std st1 st2 rs1 rs2 c => ?instructions, fun v u x w hv => ?kept⟩
  case instructions =>
    dsimp only
    have hcases : ∀ a x w, (isNan (fdecode .f32 x) = true → statUpd a x w = { a with nan := true }) ∧
        (x % 2 ^ 31 = 0x7F800000 → statUpd a x w = { a with inf := true }) ∧
        (∀ p, (fdecode .f32 x).num = some p →
          ((fdecode .f32 w).num = none → statUpd a x w = { a with wbad := true }) ∧
          (∀ q, (fdecode .f32 w).num = some q → (q = 0 → statUpd a x w = a) ∧ (q < 0 → statUpd a x w = { a with wbad := true }) ∧
            (0 < q → a.empty = true → statUpd a x w = { a with w := w, mu := x, m2 := 0, empty := false }))) := fun a x w =>
      ⟨statUpd_nan, fun h => statUpd_inf (fdecode_f32_inf h), fun p hp => ⟨statUpd_weightNone hp, fun q hq =>
        ⟨statUpd_weightZero hp hq, statUpd_weightNegative hp hq, statUpd_first hp hq⟩⟩⟩
    refine ⟨fun halone => ?init, ⟨fun halone hv => ⟨?upd, hcases _ _ _⟩, fun hbad htrap => ?updTraps⟩,
      ⟨fun halone hv => ⟨?updw, hcases _ _ _⟩, fun hbad htrap => ?updwTraps⟩,
      fun halone h1 h2 => ⟨?merge, statMerge_leftEmpty, statMerge_rightEmpty⟩, fun hbad htrap => ?mergeTraps,
      fun ha hg hquiet => ⟨fun hc => ⟨fun halone hv => ?ld, fun hbad htrap w hw => ?ldTraps⟩, fun halone hc => ?st⟩⟩
    case init => exact congrArg Host.Outcome.next (setSt_fin_alone halone std statEmpty)
    case upd =>
      have hupd := exec_update (i := .statUpd std rs1) (rs1 := rs1) (weight := fun _ => one32) rfl halone hv
      exact hupd
    case updw =>
      rw [← lowW_toNat (s.x rs2)]
      exact exec_update (weight := fun s => s.f32 rs2) rfl halone hv
    case updTraps => exact exec_statChecked_malformed rfl (encode_statUpd std rs1) (List.mem_singleton.mpr rfl) hbad htrap
    case updwTraps => exact exec_statChecked_malformed rfl (encode_statUpdw std rs1 rs2) (List.mem_singleton.mpr rfl) hbad htrap
    case merge =>
      have hboth : ∀ r ∈ [st1, st2], statMalformed (s.st r) = false := by simp [h1, h2]
      exact congrArg Host.Outcome.next ((statChecked_sound hboth).trans (finSt_alone halone std _))
    case mergeTraps =>
      rcases hbad with h1 | h2
      · exact exec_statChecked_malformed rfl (encode_statMerge std st1 st2) (by simp) h1 htrap
      · exact exec_statChecked_malformed rfl (encode_statMerge std st1 st2) (by simp) h2 htrap
    case ld =>
      rw [exec_statLd_local ha hc hg, if_neg (Bool.eq_false_iff.mp hv), setSt_fin_alone halone]
      exact congrArg Host.Outcome.next (unstall_of_noBankWait hquiet rfl)
    case ldTraps =>
      have hword := Encoding.word.inj ((encode_statLd std rs1).symm.trans hw)
      rw [exec_statLd_local ha hc hg, if_pos hbad, trap_alone s 28 _ htrap (by decide), hword]
      exact congrArg Host.Outcome.next (unstall_of_noBankWait hquiet rfl)
    case st => rw [exec_statSt_local halone ha hc hg hquiet, bytesLE_eq_fields]
  case kept =>
    have ha := ((statMalformed_eq_false_iff v).mp hv).2
    obtain ⟨hsound, htags⟩ := statUpd_sound ha x.isLt w.isLt
    refine ⟨statMalformed_statTo hsound, statOf_statTo hsound, htags.nan, htags.inf, htags.wovf, htags.wbad, fun hu => ?_⟩
    obtain ⟨hmerged, hnan, hwovf⟩ := statMerge_sound ha ((statMalformed_eq_false_iff u).mp hu).2
    exact ⟨statMalformed_statTo hmerged, statOf_statTo hmerged, hnan.trans, hwovf⟩

end Sys2Proof.Machine
end

section
/-!
SUPPORT. Elements of vector registers (R245): what is read of a register that holds the elements of a list.
-/
namespace Sys2Proof.Machine

theorem packNat_lt (w : Nat) (l : List Nat) : packNat w l < 2 ^ (w * l.length) := by
  induction l with
  | nil => exact Nat.one_pos
  | cons x r ih =>
    rw [packNat, List.length_cons, Nat.mul_succ, Nat.add_comm (w * r.length), Nat.pow_add]
    have hx : x % 2 ^ w < 2 ^ w := Nat.mod_lt _ (Nat.two_pow_pos w)
    calc x % 2 ^ w + 2 ^ w * packNat w r < 2 ^ w * (packNat w r + 1) := by rw [Nat.mul_succ]; omega
      _ ≤ 2 ^ w * 2 ^ (w * r.length) := Nat.mul_le_mul_left _ ih

theorem packNat_digit (w : Nat) (l : List Nat) (k : Nat) : packNat w l / 2 ^ (w * k) % 2 ^ w = l.getD k 0 % 2 ^ w := by
  induction l generalizing k with
  | nil => simp [packNat]
  | cons x r ih =>
    have hx : x % 2 ^ w < 2 ^ w := Nat.mod_lt _ (Nat.two_pow_pos w)
    cases k with
    | zero => simp [packNat]
    | succ k =>
      rw [packNat, Nat.mul_succ, Nat.add_comm (w * k), Nat.pow_add, ← Nat.div_div_eq_div_mul, Nat.add_mul_div_left _ _ (Nat.two_pow_pos w),
        Nat.div_eq_of_lt hx, Nat.zero_add, ih]
      rfl

theorem velem_vpack {w : Nat} {l : List Nat} (h : w * l.length ≤ 256) (k : Nat) : velem w (vpack w l) k = l.getD k 0 % 2 ^ w := by
  have hlt : packNat w l < 2 ^ 256 := (packNat_lt w l).trans_le (Nat.pow_le_pow_right two_pos h)
  rw [velem, vpack, BitVec.toNat_ofNat, Nat.mod_eq_of_lt hlt, packNat_digit]

theorem width_mul_count (t : VTy) : vtyWidth t * vtyCount t = 256 := by cases t <;> rfl

theorem velem_vmap1 (t : VTy) (g : Nat → Nat) (v : Vreg) {k : Nat} (hk : k < vtyCount t) :
    velem (vtyWidth t) (vmap1 t g v) k = g (velem (vtyWidth t) v k) % 2 ^ vtyWidth t := by
  have hlen : ((vlist t v).map g).length = vtyCount t := by simp [vlist, velems]
  rw [vmap1, velem_vpack (by rw [hlen, width_mul_count])]
  simp [vlist, velems, hk]

end Sys2Proof.Machine
end

section
/-!
SUPPORT. FP32 numbers that are widened to FP32 (R162): rounding changes no number of the format.
-/
namespace Sys2Proof.Machine

theorem scale_ratio (n : Nat) {d : Nat} (k : Int) : (scaleNum n k : ℚ) / scaleDen d k = n / d * 2 ^ k := by
  unfold scaleNum scaleDen
  rcases le_or_gt 0 k with h | h
  · rw [if_pos h, if_pos h]
    lift k to ℕ using h
    push_cast
    rw [Int.toNat_natCast, zpow_natCast]
    ring
  · rw [if_neg h.not_ge, if_neg h.not_ge]
    obtain ⟨j, rfl⟩ : ∃ j : ℕ, k = -j := ⟨(-k).toNat, by omega⟩
    push_cast
    rw [neg_neg, Int.toNat_natCast, zpow_neg, zpow_natCast]
    field_simp

theorem scale_ratio_dyadic (s : Nat) (e : Int) : (scaleNum s e : ℚ) / scaleDen 1 e = s * 2 ^ e := by
  rw [scale_ratio, Nat.cast_one, div_one]

theorem log2_mul_two_pow {s : Nat} (hs : s ≠ 0) (k : Nat) : (s * 2 ^ k).log2 = s.log2 + k := by
  have hpos := Nat.two_pow_pos k
  rw [Nat.log2_eq_iff (Nat.mul_ne_zero hs hpos.ne'), Nat.pow_add, Nat.add_right_comm, Nat.pow_add]
  exact ⟨Nat.mul_le_mul_right _ (Nat.log2_self_le hs), Nat.mul_lt_mul_of_pos_right Nat.lt_log2_self hpos⟩

theorem floorLog2_dyadic {s : Nat} (hs : s ≠ 0) (e : Int) : floorLog2 (scaleNum s e) (scaleDen 1 e) = s.log2 + e := by
  have hlogs : ((scaleNum s e).log2 : Int) - (scaleDen 1 e).log2 = s.log2 + e := by
    unfold scaleNum scaleDen
    split
    · rw [log2_mul_two_pow hs, show Nat.log2 1 = 0 from Nat.log2_two_pow (n := 0)]
      omega
    · rw [Nat.one_mul, Nat.log2_two_pow]
      omega
  unfold floorLog2
  dsimp only
  rw [hlogs]
  refine if_pos ?_
  have hden : (0 : ℚ) < scaleDen (scaleDen 1 e) (-(s.log2 + e)) := by exact_mod_cast scaleDen_pos (scaleDen_pos one_pos)
  have hone : (1 : ℚ) ≤ scaleNum (scaleNum s e) (-(s.log2 + e)) / scaleDen (scaleDen 1 e) (-(s.log2 + e)) := by
    rw [scale_ratio, scale_ratio_dyadic, mul_assoc, ← zpow_add₀ two_ne_zero, show e + -(s.log2 + e) = -(s.log2 : Int) by ring, zpow_neg,
      zpow_natCast, ← div_eq_mul_inv, one_le_div (by positivity)]
    exact_mod_cast Nat.log2_self_le hs
  exact_mod_cast (one_le_div hden).mp hone

/-- A number at its own quantum is packed as it is. -/
theorem roundRat_f32_exact {neg : Bool} {s : Nat} {e : Int} (hs : s ≠ 0) (hq : max ((s.log2 : Int) + e - 23) (-149) = e)
    (hfits : (e + 149).toNat * 2 ^ 23 + s < 0x7F800000) :
    (roundRat .f32 .rne neg (scaleNum s e) (scaleDen 1 e)).bits = fmtSign .f32 neg + ((e + 149).toNat * 2 ^ 23 + s) := by
  have hden := scaleDen_pos (k := -e) (scaleDen_pos (k := e) one_pos)
  have hnum : scaleNum (scaleNum s e) (-e) = s * scaleDen (scaleDen 1 e) (-e) := by
    have hratio : (scaleNum (scaleNum s e) (-e) : ℚ) / scaleDen (scaleDen 1 e) (-e) = s := by
      rw [scale_ratio, scale_ratio_dyadic, mul_assoc, ← zpow_add₀ two_ne_zero, add_neg_cancel, zpow_zero, mul_one]
    rw [div_eq_iff (by exact_mod_cast hden.ne')] at hratio
    exact_mod_cast hratio
  have hquantum : quantum .f32 (floorLog2 (scaleNum s e) (scaleDen 1 e)) = e := by rw [floorLog2_dyadic hs, quantum_f32, hq]
  obtain ⟨tiny, hround⟩ := roundRat_eq_packRound (mode := .rne) (neg := neg) (scaleNum_pos (Nat.pos_of_ne_zero hs)).ne' hquantum
  rw [hround, hnum, Nat.mul_div_cancel _ hden, Nat.mul_mod_left, show restOf 0 _ = .exact from rfl]
  have hmagnitude := congrArg (· + s) (expField_f32 e)
  rcases packRound_cases .f32 .rne neg e s .exact tiny hmagnitude with ⟨hover, -⟩ | ⟨-, hbits⟩
  · rw [fmtInf_f32] at hover
    exact absurd hfits hover.not_gt
  · exact hbits

theorem fmtSign_f32 {x : Nat} (hx : x < 2 ^ 32) : fmtSign .f32 (x.testBit 31) = x / 2 ^ 31 * 2 ^ 31 := by
  rw [testBit_sign hx, ← toNat_sign hx, fmtSign]
  cases decide (2 ^ 31 ≤ x) <;> rfl

/-- Widening changes no FP32 pattern but a NaN. -/
theorem toF32_f32 {x : Nat} (hx : x < 2 ^ 32) (h : isNan (fdecode .f32 x) = false) : toF32 .f32 x = x := by
  have hsign := fmtSign_f32 hx
  unfold toF32
  rw [fdecode_f32] at h ⊢
  by_cases hexp : x / 2 ^ 23 % 2 ^ 8 = 255
  · rw [if_pos hexp] at h ⊢
    by_cases hinf : x % 2 ^ 23 = 0
    · rw [if_pos hinf]
      show fmtSign .f32 (x.testBit 31) + fmtInf .f32 = x
      rw [fmtInf_f32]
      omega
    · rw [if_neg hinf] at h
      cases h
  · rw [if_neg hexp]
    by_cases hsub : x / 2 ^ 23 % 2 ^ 8 = 0
    · rw [if_pos hsub]
      by_cases hz : x % 2 ^ 23 = 0
      · have hzero : scaleNum 0 (-149) = 0 := if_neg (by decide)
        rw [hz, roundV, hzero, roundRat, if_pos rfl]
        dsimp only
        omega
      · have hlog : (x % 2 ^ 23).log2 < 23 := (Nat.log2_lt hz).mpr (Nat.mod_lt _ (by decide))
        have hexact := roundRat_f32_exact (neg := x.testBit 31) (e := -149) hz (by omega) (by omega)
        rw [show ((-149 : Int) + 149).toNat = 0 from rfl, Nat.zero_mul, Nat.zero_add] at hexact
        rw [roundV, hexact]
        omega
    · have hs : x % 2 ^ 23 + 2 ^ 23 ≠ 0 := by omega
      have hlog : (x % 2 ^ 23 + 2 ^ 23).log2 = 23 := (Nat.log2_eq_iff hs).mpr (by omega)
      rw [if_neg hsub, roundV, roundRat_f32_exact hs (by omega) (by omega)]
      omega

theorem toF32_f32_nan {x : Nat} (h : isNan (fdecode .f32 x) = true) : toF32 .f32 x = fmtNaN .f32 := by
  obtain ⟨t, ht⟩ := exists_eq_nan h
  unfold toF32
  rw [ht]
  rfl

end Sys2Proof.Machine
end

section
/-!
PROOF of O38. VSTAT.UPD, VSTAT.UPDW and VSTAT.NORM by their queue entries and their elements, and STAT.DRAIN by its options (R174, R295, R298 to R300).
-/
namespace Sys2Proof.Machine

/-! ## Updates by widened elements (R172, R298) -/

section
variable {a : Stat} {x w : Nat}

theorem statUpd_toF32_value (hx : x < 2 ^ 32) : statUpd a (toF32 .f32 x) w = statUpd a x w := by
  cases hnan : isNan (fdecode .f32 x) with
  | true =>
    rw [toF32_f32_nan hnan, statUpd_nan hnan]
    exact statUpd_nan (by decide)
  | false => rw [toF32_f32 hx hnan]

theorem statUpd_toF32_weight (hw : w < 2 ^ 32) : statUpd a x (toF32 .f32 w) = statUpd a x w := by
  cases hnan : isNan (fdecode .f32 w) with
  | true =>
    obtain ⟨t, ht⟩ := exists_eq_nan hnan
    have hnone : (fdecode .f32 w).num = none := by rw [ht]; rfl
    rw [toF32_f32_nan hnan]
    rcases num_cases (fdecode .f32 x) with hx | ⟨n, hx⟩ | ⟨p, hx⟩
    · rw [statUpd_nan hx, statUpd_nan hx]
    · rw [statUpd_inf hx, statUpd_inf hx]
    · rw [statUpd_weightNone hx hnone]
      exact statUpd_weightNone hx (by decide)
  | false => rw [toF32_f32 hw hnan]
end

/-- The updates by two rows of elements, one element after the other. -/
theorem statUpds_range (a : Stat) (x w : Nat → Nat) (n : Nat) :
    statUpds a ((List.range n).map x) ((List.range n).map w) = (List.range n).foldl (fun a k => statUpd a (x k) (w k)) a := by
  rw [statUpds, List.zip_map', List.foldl_map]

theorem widened_eq_map (t : VTy) (v : Vreg) :
    widened t v = (List.range (vtyCount t)).map fun k => toF32 (vtyFmt t) (velem (vtyWidth t) v k) := by
  rw [widened, vlist, velems, List.map_map]
  rfl

/-- The float type of a code: its format, its width, and its name in the statements. -/
theorem float_code {ty : BitVec 2} (h : ty.toNat < 3) :
    vtyFmt (vtyOfCode ty.toNat) = fmtOf (ty.setWidth 3) ∧ vtyWidth (vtyOfCode ty.toNat) = widthOf (ty.setWidth 3) ∧
      vtyWidth (vtyOfCode ty.toNat) = fmtWidth (vtyFmt (vtyOfCode ty.toNat)) ∧ 0 < (vtyFmt (vtyOfCode ty.toNat)).mbits := by
  revert ty; decide

/-- Element `k` of a register of a float type, widened to FP32; an FP32 element is taken as it is. -/
def wideElem (ty : BitVec 2) (v : Vreg) (k : Nat) : Nat :=
  if ty = 0 then velem (widthOf (ty.setWidth 3)) v k else toF32 (fmtOf (ty.setWidth 3)) (velem (widthOf (ty.setWidth 3)) v k)

section
variable {ty : BitVec 2} (hty : ty.toNat < 3)
include hty

/-- The model widens an FP32 element too, which changes a NaN alone. -/
theorem toF32_elem (v : Vreg) (k : Nat) :
    toF32 (vtyFmt (vtyOfCode ty.toNat)) (velem (vtyWidth (vtyOfCode ty.toNat)) v k) = wideElem ty v k ∨
      toF32 (vtyFmt (vtyOfCode ty.toNat)) (velem (vtyWidth (vtyOfCode ty.toNat)) v k) = toF32 .f32 (wideElem ty v k) ∧
        wideElem ty v k < 2 ^ 32 := by
  obtain ⟨hf, hw, -, -⟩ := float_code hty
  by_cases h : ty = 0
  · subst h
    exact .inr ⟨rfl, Nat.mod_lt _ (Nat.two_pow_pos 32)⟩
  · rw [hf, hw]
    exact .inl (if_neg h).symm

theorem statUpd_wide_value (a : Stat) (v : Vreg) (k w : Nat) :
    statUpd a (toF32 (vtyFmt (vtyOfCode ty.toNat)) (velem (vtyWidth (vtyOfCode ty.toNat)) v k)) w = statUpd a (wideElem ty v k) w := by
  rcases toF32_elem hty v k with h | ⟨h, hlt⟩
  · rw [h]
  · rw [h, statUpd_toF32_value hlt]

theorem statUpd_wide_weight (a : Stat) (v : Vreg) (k x : Nat) :
    statUpd a x (toF32 (vtyFmt (vtyOfCode ty.toNat)) (velem (vtyWidth (vtyOfCode ty.toNat)) v k)) = statUpd a x (wideElem ty v k) := by
  rcases toF32_elem hty v k with h | ⟨h, hlt⟩
  · rw [h]
  · rw [h, statUpd_toF32_weight hlt]

theorem vtyCount_float : vtyCount (vtyOfCode ty.toNat) = 256 / widthOf (ty.setWidth 3) := by
  rw [vtyCount, (float_code hty).2.1]

/-- The updates by the elements of a register, widened, with weights that act as `u`. -/
theorem statUpds_widened (a : Stat) (v : Vreg) {ws : List Nat} {w u : Nat → Nat}
    (hws : ws = (List.range (vtyCount (vtyOfCode ty.toNat))).map w) (hu : ∀ a x k, statUpd a x (w k) = statUpd a x (u k)) :
    statUpds a (widened (vtyOfCode ty.toNat) v) ws =
      (List.range (256 / widthOf (ty.setWidth 3))).foldl (fun a k => statUpd a (wideElem ty v k) (u k)) a := by
  rw [hws, widened_eq_map, statUpds_range, vtyCount_float hty]
  refine List.foldl_ext _ _ _ fun a k _ => ?_
  rw [statUpd_wide_value hty, hu]
end

/-! ## Queue entries (R104, R248) -/

section
variable {s : State} {occ lat wide : Nat} {outs : List Nat} {f : State → State}

/-- A state in which an entry of the focus slot has entered the queue of its core. -/
def State.entered (s : State) (k : DqKind) : State :=
  s.setCore s.myCid ((s.core s.myCid).enter (DqEntry.new (keySlot s.focus) k))

theorem enterVec_room (h : s.queueRoom) : s.enterVec occ lat outs wide f = f (s.entered (.vector occ lat outs wide)) :=
  if_neg (not_le.mpr h)

theorem enterVec_full (h : ¬s.queueRoom) : s.enterVec occ lat outs wide f = s := if_pos (not_lt.mp h)

theorem entered_alone (h : s.alone) (k : DqKind) : (s.entered k).alone := alone_congr s (s.entered k) rfl rfl rfl h

theorem entered_ended (s : State) (k : DqKind) (t : Slot) : (s.entered k).ended t = s.queuedEnded k t := by
  have hcore : (s.entered k).core s.myCid = (s.core s.myCid).enter (DqEntry.new (keySlot s.focus) k) := core_setCore s _ _
  unfold State.ended State.queuedEnded
  rw [show (s.entered k).myCid = s.myCid from rfl, hcore]
  simp only [State.entered, State.setCore, kset_kset]
  rfl

theorem vecOp_room (h : s.alone) (hroom : s.queueRoom) (vd : Reg) (occ lat : Nat) (v : Vreg) :
    s.vecOp vd occ lat v = s.vectorResult vd v occ lat := by
  rw [State.vecOp, enterVec_room hroom, State.vectorResult, ← entered_ended]
  rw [State.setV, fin_setMe_alone (entered_alone h _) (by rfl)]
  rfl

theorem vstat_room (h : s.alone) (hroom : s.queueRoom) {std : BitVec 3} (hv : statMalformed (s.st std) = false) (t : VTy) (xs ws : List Nat)
    (w : Word32) : s.vstat std t xs ws w = s.queuedEnded (.vector (6 * vtyCount t) (6 * vtyCount t + 4) [regOfSt std] 0)
      { s.me.setSt std (statTo (statUpds (statOf (s.st std)) xs ws)) with pc := s.me.pc + 4 } := by
  rw [State.vstat, statChecked_sound fun r hr => List.mem_singleton.mp hr ▸ hv, enterVec_room hroom, finSt_alone (entered_alone h _), entered_ended]
  rfl

theorem vstat_full (hroom : ¬s.queueRoom) {std : BitVec 3} (hv : statMalformed (s.st std) = false) (t : VTy) (xs ws : List Nat) (w : Word32) :
    s.vstat std t xs ws w = s := by
  rw [State.vstat, statChecked_sound fun r hr => List.mem_singleton.mp hr ▸ hv, enterVec_full hroom]
end

/-! ## Drains (R174, R299) -/

section
variable {a : Stat} {eps : Nat}

theorem statDrain_bad (h : a.nan = true ∨ a.inf = true ∨ a.wovf = true ∨ a.empty = true) (k : Nat) : statDrain a k eps = 0x7FC00000 := by
  have hbad : statBad a = true := by
    unfold statBad
    rcases h with h | h | h | h <;> simp [h]
  exact if_pos hbad

theorem statDrain_good (hnan : a.nan = false) (hinf : a.inf = false) (hwovf : a.wovf = false) (hempty : a.empty = false) :
    statDrain a 1 eps = a.mu ∧ statDrain a 2 eps = div32 a.m2 a.w ∧ statDrain a 3 eps = statVars a ∧ statDrain a 4 eps = statRstd a eps := by
  have hgood : ¬ statBad a = true := by simp [statBad, hnan, hinf, hwovf, hempty]
  exact ⟨if_neg hgood, if_neg hgood, if_neg hgood, if_neg hgood⟩

theorem signed_cast (n : Bool) (m : Nat) : (signed n m : ℚ) = (if n then -1 else 1) * m := by
  cases n <;> simp [signed]

/-- VARS of a weight of at most 1. -/
theorem statVars_of_le_one {p : ℚ} (hw : (fdecode .f32 a.w).num = some p) (hp : p ≤ 1) : statVars a = fmtNaN .f32 := by
  obtain ⟨n, m, e, hd, rfl⟩ := num_eq_some hw
  have hden : (0 : ℚ) < scaleDen 1 e := by exact_mod_cast scaleDen_pos one_pos
  have hnum : (signed n (scaleNum m e) : ℚ) = signed n m * 2 ^ e * scaleDen 1 e := by
    rw [signed_cast, signed_cast, mul_assoc _ (m : ℚ), ← scale_ratio_dyadic, mul_assoc, div_mul_cancel₀ _ hden.ne']
  have hle : (ratOf n m e).num ≤ (ratOf n m e).den := by
    have hcast : (signed n (scaleNum m e) : ℚ) ≤ scaleDen 1 e := by
      rw [hnum]
      exact mul_le_of_le_one_left hden.le hp
    exact_mod_cast hcast
  unfold statVars
  rw [hd]
  exact if_pos hle

/-- RSTD of a NaN eps. -/
theorem statRstd_of_nan (h : isNan (fdecode .f32 eps) = true) : statRstd a eps = fmtNaN .f32 := by
  obtain ⟨t, ht⟩ := exists_eq_nan h
  have hsum : ∀ x, (rsqrtV .f32 .rne (fdecode .f32 (add32 x eps))).bits = fmtNaN .f32 := fun x => by
    rw [add32, addV_nan (.inr h), fPropagate, show fdecode .f32 (fmtNaN .f32) = .nan false by decide]
    rfl
  unfold statRstd
  rw [ht]
  split
  next heps => cases heps
  next => rfl
  next => exact hsum _
end

section
variable {s : State} {std st1 drain : BitVec 3} {vd vs1 vs2 rd rs2 : Reg} {ty : BitVec 2} {pair : BitVec 4}

/-- The two halves of a pair of registers. -/
theorem setX_finX_alone (h : s.alone) (rd : Reg) (p q : Dword) :
    (s.setX rd p).finX (rd + 1) q 4 = s.ended ({ s.me.wrote rd p s.me.pc with pc := s.me.pc }.wrote (rd + 1) q (s.me.pc + 4)) := by
  have hx : s.me.setX rd p = { s.me.wrote rd p s.me.pc with pc := s.me.pc } := by
    rw [wrote_eq_setX]
    unfold Slot.setX
    split <;> rfl
  rw [State.setX, finX_setMe_alone h (by unfold Slot.setX; split <;> rfl), hx]
  rfl

theorem statX_eq_wrap32 (v : Nat) : statX v = wrap32 v := f32X_eq_inX v

theorem exec_statDrain_sound (hv : statMalformed (s.st st1) = false) :
    exec (.statDrain rd st1 rs2 drain) s = .next (
      if drain = 0 then (s.setX rd ((s.st st1).extractLsb' 64 64)).finX (rd + 1) ((s.st st1).extractLsb' 0 64) 4
      else if drain = 5 then (s.setX rd (wrap32 (statDrain (statOf (s.st st1)) 1 (lowNat (s.x rs2))))).finX (rd + 1)
        (wrap32 (statDrain (statOf (s.st st1)) 4 (lowNat (s.x rs2)))) 4
      else s.finX rd (wrap32 (statDrain (statOf (s.st st1)) drain.toNat (lowNat (s.x rs2)))) 4) := by
  have hcode : ∀ c : BitVec 3, drain.toNat = c.toNat ↔ drain = c := fun c => BitVec.toNat_inj
  show execStatDrain rd st1 rs2 drain s = _
  rw [execStatDrain, statChecked_sound fun r hr => List.mem_singleton.mp hr ▸ hv]
  simp only [State.f32, lowW_toNat, statX_eq_wrap32, ← hcode]
  rfl
end

/-- Settles O38: the vector forms by their queue entry and their elements, the drains by their options. -/
theorem statisticsVectorsAndDrains : Obligations.StatisticsVectorsAndDrains := by
  unfold Obligations.StatisticsVectorsAndDrains
  intro s std st1 vd vs1 vs2 rd rs2 ty drain pair
  dsimp only
  refine ⟨fun halone hroom hty hv => ⟨?upd, ?updw⟩, fun halone hroom hty => ?norm, fun halone hv => ?drain, statDrain_bad, ?good,
    fun hroom hv => ⟨?updFull, ?updwFull, ?normFull⟩, fun htrap hbad => ⟨?updTraps, ?updwTraps⟩, fun htrap hbad => ?drainTraps⟩
  case upd =>
    have hones : List.replicate (vtyCount (vtyOfCode ty.toNat)) one32 = (List.range (vtyCount (vtyOfCode ty.toNat))).map fun _ => one32 := by
      rw [List.map_const', List.length_range]
    refine (congrArg Host.Outcome.next (vstat_room halone hroom hv _ _ _ _)).trans ?_
    rw [statUpds_widened hty _ _ hones fun _ _ _ => rfl, vtyCount_float hty]
    rfl
  case updw =>
    refine (congrArg Host.Outcome.next (vstat_room halone hroom hv _ _ _ _)).trans ?_
    rw [statUpds_widened hty _ _ (widened_eq_map _ _) fun a x k => statUpd_wide_weight hty a _ k x, vtyCount_float hty]
    rfl
  case norm =>
    obtain ⟨hf, hw, hfits, hm⟩ := float_code hty
    refine ⟨_, congrArg Host.Outcome.next (vecOp_room halone hroom vd 1 5 _), fun k hk => ?_⟩
    rw [← hw] at hk ⊢
    rw [← hf]
    rw [velem_vmap1 _ _ _ hk, Nat.mod_eq_of_lt (hfits ▸ mulV_lt hm _ _), State.f32, State.f32, lowW_toNat, lowW_toNat]
    rfl
  case drain =>
    rw [exec_statDrain_sound hv]
    simp only [setX_finX_alone halone, finX_alone _ _ _ _ halone]
  case good =>
    intro hnan hinf hwovf hempty
    obtain ⟨hmean, hvarp, hvars, hrstd⟩ := statDrain_good (eps := lowNat (s.x rs2)) hnan hinf hwovf hempty
    exact ⟨hmean, hvarp, fun p hp hle => hvars.trans (statVars_of_le_one hp hle), fun heps => hrstd.trans (statRstd_of_nan heps)⟩
  case updFull => exact congrArg Host.Outcome.next (vstat_full hroom hv _ _ _ _)
  case updwFull => exact congrArg Host.Outcome.next (vstat_full hroom hv _ _ _ _)
  case normFull => exact congrArg Host.Outcome.next (enterVec_full hroom)
  case updTraps => exact exec_statChecked_malformed rfl (encode_vstatUpd std vs1 ty) (List.mem_singleton.mpr rfl) hbad htrap
  case updwTraps => exact exec_statChecked_malformed rfl (encode_vstatUpdw std vs1 vs2 ty) (List.mem_singleton.mpr rfl) hbad htrap
  case drainTraps => exact exec_statChecked_malformed rfl (encode_statDrain st1 drain rd rs2) (List.mem_singleton.mpr rfl) hbad htrap

end Sys2Proof.Machine
end

section
/-!
PROOF of O5. The accesses of a baton alone to a global address whose home it reaches: a load parks the slot and its READ is accepted, a store is posted
and its WRITE is accepted (R33, R92, R177).
-/
namespace Sys2Proof.Machine

section
variable {s t : State} {a n : Nat}

theorem isLocal_of_global (h : addrClass a = .global) : isLocal a = false := by
  rw [isLocal, h]

/-- The NI of the own die accepts a request to a home that it reaches (R30, R33). -/
theorem send_of_reaches {p : Pkt} (hr : s.reaches a) (hsrc : p.src = s.myCid) (hto : (p.dst, p.dstPkg) = s.routeTo s.myDie s.me.track a)
    (hpkg : t.pkg = s.pkg) (hlinks : t.links = s.links) : t.send p = t.accept s.myDie (epDie p.dst) p := by
  obtain ⟨hhere, hep, hup, hlink⟩ := hr
  rw [← hto] at hhere hep hup hlink
  have hdie : epDie s.myCid = s.myDie := rfl
  rw [State.send, hsrc, hdie]
  refine send_accepts t s.myDie p hhere hep ?_ ?_
  · rwa [State.dieUp, State.readyBit, hpkg]
  · rwa [State.linkUp, State.link, State.link, hlinks]

/-! ## Loads -/

/-- A load of a global address parks the slot and has its READ accepted. -/
theorem loadX_global (hglobal : addrClass a = .global) (hr : s.reaches a) (ha : a % n = 0) (rd : Reg) (sgn : Bool) (len : Nat) :
    s.loadX rd a n sgn false none len =
      ((s.newTag (.baton s.myRecord)).2.parks (.load s.nextTag rd n sgn false) 1 (tagKey s.nextTag) 0 len).accept s.myDie
        (epDie (s.routeTo s.myDie s.me.track a).1) (s.requestPkt .read a n s.nextTag) := by
  unfold State.loadX
  dsimp only
  rw [if_neg (not_not_intro ha), if_neg (ne_true_of_eq_false (isLocal_of_global hglobal)), if_pos hglobal]
  exact send_of_reaches hr rfl rfl rfl rfl

/-- What `Obligations.GlobalAccessesAskTheHome` says of a load. -/
theorem exec_load_global {i : Instr} {rd : Reg} {sgn : Bool} (hexec : exec i s = .next (s.loadX rd a n sgn false none 4))
    (hglobal : addrClass a = .global) (hr : s.reaches a) (ha : a % n = 0) :
    ∃ t, exec i s = .next t ∧ t.mem = s.mem ∧
      t.me = s.me.parkedFor (.load s.nextTag rd n sgn false) 1 (BitVec.ofNat 64 (s.nextTag % 2 ^ 16)) 0 4 (s.swcAt s.myDie) ∧
      t.inFlight fun p => p.ty = .read ∧ p.tag = s.nextTag ∧ p.elems = [(a, n)] ∧ p.track = s.me.track ∧ p.src = s.myCid := by
  rw [loadX_global hglobal hr ha] at hexec
  exact ⟨_, hexec, rfl, me_setMe _ _, accept_inFlight _ _ _ _ _ ⟨rfl, rfl, rfl, rfl, rfl⟩⟩

/-! ## Stores -/

/-- The WRITE of a store of the focus baton. -/
def State.writePkt (s : State) (a n : Nat) (v : Dword) : Pkt := { s.requestPkt .write a n s.nextTag with data := lowBytes v n }

/-- The state in which the NI of the own die has accepted the WRITE of a store of the focus baton. -/
def State.storeSent (s : State) (a n : Nat) (v : Dword) : State :=
  (s.newTag (.posted s.myRecord)).2.accept s.myDie (epDie (s.routeTo s.myDie s.me.track a).1) (s.writePkt a n v)

/-- The record of a posted store until it is answered (R177). -/
def State.postedStore (s : State) (a : Nat) : Posted :=
  let r := s.routeTo s.myDie s.me.track a
  { tag := s.nextTag, pkg := r.2, die := epDie r.1, store := true, rmw := false }

/-- A store to a global address is posted: its WRITE is accepted, the baton keeps its record and goes on. -/
theorem storeX_global (h : s.alone) (hglobal : addrClass a = .global) (hr : s.reaches a) (ha : a % n = 0) (v : Dword) (len : Nat) :
    s.storeX a n v none len =
      (s.storeSent a n v).ended { s.me with posted := s.me.posted ++ [s.postedStore a], pc := s.me.pc + BitVec.ofNat 64 len } := by
  have hpost : (s.post true fun s t => { s.requestPkt .write a n t with data := bytesLE n v.toNat }) =
      (s.storeSent a n v).setMe { s.me with posted := s.me.posted ++ [s.postedStore a] } := by
    rw [bytesLE_eq_lowBytes]
    exact send_of_reaches hr rfl rfl rfl rfl
  unfold State.storeX
  dsimp only
  rw [if_neg (not_not_intro ha), if_neg (ne_true_of_eq_false (isLocal_of_global hglobal)), if_pos hglobal, hpost]
  exact fin_setMe_alone (t := { s.me with posted := s.me.posted ++ [s.postedStore a] }) (alone_congr s (s.storeSent a n v) rfl rfl rfl h) rfl len

/-- What `Obligations.GlobalAccessesAskTheHome` says of a store. -/
theorem exec_store_global {i : Instr} {v : Dword} (hexec : exec i s = .next (s.storeX a n v none 4)) (h : s.alone)
    (hglobal : addrClass a = .global) (hr : s.reaches a) (ha : a % n = 0) :
    ∃ t, exec i s = .next t ∧ t.mem = s.mem ∧
      (∃ q, q.tag = s.nextTag ∧ q.store = true ∧ t.me = { s.me with pc := s.me.pc + 4, posted := s.me.posted ++ [q] }) ∧
      t.inFlight fun p => p.ty = .write ∧ p.tag = s.nextTag ∧ p.elems = [(a, n)] ∧ p.data = lowBytes v n ∧
        p.track = s.me.track ∧ p.src = s.myCid := by
  rw [storeX_global h hglobal hr ha] at hexec
  exact ⟨_, hexec, rfl, ⟨s.postedStore a, rfl, rfl, kget_kset_same _ _ _ _⟩, _, mem_kset_self _ _ _, rfl, rfl, rfl, rfl, rfl, rfl⟩
end

/-- Settles O5: a load and a store each by what its access comes to at a global address, for every width. -/
theorem globalAccessesAskTheHome : Obligations.GlobalAccessesAskTheHome := by
  unfold Obligations.GlobalAccessesAskTheHome
  intro s rd rs1 rs2 imm halone a hglobal hr
  dsimp only
  have hload {i : Instr} {n : Nat} {sgn : Bool} (hexec : exec i s = .next (s.loadX rd a n sgn false none 4)) (ha : a % n = 0) :=
    exec_load_global hexec hglobal hr ha
  have hstore {i : Instr} {n : Nat} (hexec : exec i s = .next (s.storeX a n (s.x rs2) none 4)) (ha : a % n = 0) :=
    exec_store_global hexec halone hglobal hr ha
  exact ⟨hload rfl, hload rfl, hload rfl, hload rfl, hload rfl, hload rfl, hload rfl, hstore rfl, hstore rfl, hstore rfl, hstore rfl⟩

end Sys2Proof.Machine
end

section
/-!
PROOF of O14. Fences and hints of a baton alone (R180, R192, R218, R235): a full fence waits or is an acquire, and WFI consumes a token or parks.
-/
namespace Sys2Proof.Machine

section
variable {s : State} {d scope : Nat}

/-- A die that applies its log changes the NIs alone: the placement map, the caches and the log of its own (R64, R65). -/
theorem applyLog_changes_nis : ∃ n, s.applyLog d = { s with nis := n } := by
  refine List.foldlRecOn (motive := fun t : State => ∃ n, t = { s with nis := n }) _ _ ⟨s.nis, rfl⟩ fun t ht p _ => ?_
  obtain ⟨n, rfl⟩ := ht
  unfold State.applyOne
  dsimp only
  split
  · unfold State.applyRecord
    split <;> exact ⟨_, rfl⟩
  · exact ⟨_, rfl⟩

/-- A die that applies its log changes no register of a baton. -/
theorem me_applyLog : (s.applyLog d).me = s.me := by
  obtain ⟨n, hn⟩ := applyLog_changes_nis (s := s) (d := d)
  rw [hn]
  rfl

/-! ## Fences -/

theorem fullFence_waits (h : s.released scope = false) : s.fullFence scope = s := by
  rw [State.fullFence, State.whenReleased, h]
  rfl

/-- A full fence that need not wait is an acquire: at PACKAGE scope and above the die applies its log (R65). -/
theorem fullFence_passes (h : s.released scope = true) (ha : (s.acquireLog s.myDie scope).alone) :
    s.fullFence scope = (s.acquireLog s.myDie scope).passed 4 := by
  rw [State.fullFence, State.whenReleased, h]
  exact fin_alone _ 4 ha

/-- What `Obligations.FencesAndHints` says of an instruction that is a full fence of a scope. -/
theorem exec_fullFence {i : Instr} (hexec : exec i s = .next (s.fullFence scope)) :
    (s.released scope = false → exec i s = .next s) ∧
      (s.released scope = true → (if 2 ≤ scope then s.applyLog s.myDie else s).alone →
        exec i s = .next ((if 2 ≤ scope then s.applyLog s.myDie else s).passed 4)) := by
  rw [hexec]
  exact ⟨fun h => congrArg Host.Outcome.next (fullFence_waits h), fun h ha => congrArg Host.Outcome.next (fullFence_passes h ha)⟩

variable {rd rs1 : Reg} {pred succ : BitVec 4}

theorem exec_fence_emptySet (ha : s.alone) (h : pred = 0 ∨ succ = 0) : exec (.fence rd rs1 pred succ) s = .next (s.passed 4) := by
  show Host.Outcome.next (s.stdFence pred succ) = _
  rw [State.stdFence, if_pos h, fin_alone s 4 ha]

theorem exec_fence_bothSets (hpred : pred ≠ 0) (hsucc : succ ≠ 0) :
    exec (.fence rd rs1 pred succ) s = .next (s.fullFence s.mscope) :=
  congrArg Host.Outcome.next (if_neg (not_or.mpr ⟨hpred, hsucc⟩))

/-! ## WFI -/

theorem exec_wfi_token (h : s.me.token = true) (ha : (s.applyLog s.myDie).alone) :
    exec .wfi s = .next ((s.applyLog s.myDie).ended { s.me with token := false, pc := s.me.pc + 4 }) := by
  show execWfi s = _
  have hbaton : s.me.xbaton = (s.applyLog s.myDie).me.xbaton := congrArg Slot.xbaton me_applyLog.symm
  rw [execWfi, if_pos h]
  exact congrArg Host.Outcome.next (fin_setMe_alone (t := { s.me with token := false }) ha hbaton 4)

theorem exec_wfi_parks (h : s.me.token = false) :
    exec .wfi s = .next (s.parks (.wake 0 (BitVec.allOnes 64)) 6 s.me.xbaton 0 4) :=
  congrArg Host.Outcome.next (if_neg (ne_true_of_eq_false h))
end

/-- Settles O14: the fences as full fences of their scope, the hints by what they leave unchanged, and WFI by its token. -/
theorem fencesAndHints : Obligations.FencesAndHints := by
  unfold Obligations.FencesAndHints
  intro s rd rs1 pred succ imm i scope halone
  have hpassed (len : Nat) : (.next (s.fin len) : Res) = .next (s.passed len) := congrArg Host.Outcome.next (fin_alone s len halone)
  exact ⟨exec_fence_emptySet halone, fun hpred hsucc => exec_fullFence (exec_fence_bothSets hpred hsucc), exec_fullFence rfl, exec_fullFence rfl,
    hpassed 4, hpassed 2, exec_wfi_token, exec_wfi_parks⟩

end Sys2Proof.Machine
end

section
/-!
PROOF of O56, O57 and O55. A word or halfword that is put together from fields gives each field back, so that every table of the decoder reads
back the encodings of its rows; and what the decoder's tables accept has one of the listed opcodes.
-/
namespace Sys2Proof

/-! ## Fields of a word that is put together -/

@[simp] theorem field_low {m n : Nat} (x : BitVec m) (y : BitVec n) (i k : Nat) (h : i + k ≤ n) :
    BitVec.extractLsb' (n := no_index (m + n)) i k (HAppend.hAppend (γ := BitVec (no_index (m + n))) x y) = y.extractLsb' i k :=
  extract_append_low x y i k h
@[simp] theorem field_high {m n : Nat} (x : BitVec m) (y : BitVec n) (i k : Nat) (h : n ≤ i) :
    BitVec.extractLsb' (n := no_index (m + n)) i k (HAppend.hAppend (γ := BitVec (no_index (m + n))) x y) = x.extractLsb' (i - n) k :=
  extract_append_high x y i k h
@[simp] theorem fields_join {n : Nat} (x : BitVec n) (i j k l : Nat) (h : j = i + k) :
    HAppend.hAppend (γ := BitVec (no_index (l + k))) (x.extractLsb' j l) (x.extractLsb' i k) = x.extractLsb' i (l + k) :=
  BitVec.extractLsb'_append_extractLsb'_eq_extractLsb' h
@[simp] theorem ofBool_beq_one (b : Bool) : (BitVec.ofBool b == 1#1) = b := by cases b <;> rfl

/-! ## What it means to be read back -/

/-- What the decoder makes of an encoding. -/
noncomputable def Encoding.read : Encoding → Except Reject Instr
  | .half h => decode16 h
  | .word w => decode32 w
  | .none => .error .truncated
/-- A well-formed instruction that has an encoding is read back from it. -/
def ReadsBack (i : Instr) : Prop := i.wellFormed = true → encode i ≠ .none → (encode i).read = .ok i

theorem checked_wellFormed {i : Instr} (h : i.wellFormed = true) : checked i = .ok i := if_pos h
theorem ReadsBack.of_none {i : Instr} (he : encode i = .none) : ReadsBack i := fun _ h => absurd he h
theorem ReadsBack.of_word {i : Instr} {w : Word32} (he : encode i = .word w) (hd : decode32 w = checked i) : ReadsBack i := by
  intro hwf _
  rw [he, ← checked_wellFormed hwf]
  exact hd
theorem ReadsBack.of_half {i : Instr} {h : BitVec 16} (he : encode i = .half h) (hd : i.wellFormed = true → decode16 h = checked i) :
    ReadsBack i := by
  intro hwf _
  rw [he, ← checked_wellFormed hwf]
  exact hd hwf

/-! ## The tables of R191 -/

theorem readsBack_decodeLui : ∀ rd imm, ReadsBack (.lui rd imm) := fun _ _ => .of_word rfl (by simp [decode32_55, decodeLui])
theorem readsBack_decodeAuipc : ∀ rd imm, ReadsBack (.auipc rd imm) := fun _ _ => .of_word rfl (by simp [decode32_23, decodeAuipc])
theorem readsBack_decodeJal : ∀ rd off, ReadsBack (.jal rd off) := fun _ _ => .of_word rfl (by simp [decode32_111, decodeJal, jalOff])
theorem readsBack_decodeJalr : ∀ rd rs1 imm, ReadsBack (.jalr rd rs1 imm) := fun _ _ _ => .of_word rfl (by simp [decode32_103, decodeJalr])
theorem readsBack_decodeBranch : ∀ rs1 rs2 off, ReadsBack (.beq rs1 rs2 off) ∧ ReadsBack (.bne rs1 rs2 off) ∧ ReadsBack (.blt rs1 rs2 off) ∧
    ReadsBack (.bge rs1 rs2 off) ∧ ReadsBack (.bltu rs1 rs2 off) ∧ ReadsBack (.bgeu rs1 rs2 off) := by
  refine fun _ _ _ => ⟨?_, ?_, ?_, ?_, ?_, ?_⟩ <;>
    exact .of_word rfl (by simp [decode32_99, decodeBranch, branchOff])
theorem readsBack_decodeLoad : ∀ rd rs1 imm, ReadsBack (.lb rd rs1 imm) ∧ ReadsBack (.lh rd rs1 imm) ∧ ReadsBack (.lw rd rs1 imm) ∧
    ReadsBack (.ld rd rs1 imm) ∧ ReadsBack (.lbu rd rs1 imm) ∧ ReadsBack (.lhu rd rs1 imm) ∧ ReadsBack (.lwu rd rs1 imm) := by
  refine fun _ _ _ => ⟨?_, ?_, ?_, ?_, ?_, ?_, ?_⟩ <;>
    exact .of_word rfl (by simp [decode32_3, decodeLoad])
theorem readsBack_decodeStore : ∀ rs1 rs2 imm, ReadsBack (.sb rs1 rs2 imm) ∧ ReadsBack (.sh rs1 rs2 imm) ∧ ReadsBack (.sw rs1 rs2 imm) ∧
    ReadsBack (.sd rs1 rs2 imm) := by
  refine fun _ _ _ => ⟨?_, ?_, ?_, ?_⟩ <;>
    exact .of_word rfl (by simp [decode32_35, decodeStore, storeImm])
theorem readsBack_decodeOpImm : (∀ rd rs1 imm, ReadsBack (.addi rd rs1 imm) ∧ ReadsBack (.slti rd rs1 imm) ∧ ReadsBack (.sltiu rd rs1 imm) ∧
    ReadsBack (.xori rd rs1 imm) ∧ ReadsBack (.ori rd rs1 imm) ∧ ReadsBack (.andi rd rs1 imm)) ∧ (∀ rd rs1 sh, ReadsBack (.slli rd rs1 sh) ∧
    ReadsBack (.srli rd rs1 sh) ∧ ReadsBack (.srai rd rs1 sh)) := by
  refine ⟨fun _ _ _ => ⟨?_, ?_, ?_, ?_, ?_, ?_⟩, fun _ _ _ => ⟨?_, ?_, ?_⟩⟩ <;>
    exact .of_word rfl (by simp [decode32_19, decodeOpImm])
theorem readsBack_decodeOpImm32 : (∀ rd rs1 imm, ReadsBack (.addiw rd rs1 imm)) ∧ (∀ rd rs1 sh, ReadsBack (.slliw rd rs1 sh) ∧
    ReadsBack (.srliw rd rs1 sh) ∧ ReadsBack (.sraiw rd rs1 sh)) := by
  refine ⟨fun _ _ _ => ?_, fun _ _ _ => ⟨?_, ?_, ?_⟩⟩ <;>
    exact .of_word rfl (by simp [decode32_27, decodeOpImm32])
theorem readsBack_decodeOp : ∀ rd rs1 rs2, ReadsBack (.add rd rs1 rs2) ∧ ReadsBack (.sll rd rs1 rs2) ∧ ReadsBack (.slt rd rs1 rs2) ∧
    ReadsBack (.sltu rd rs1 rs2) ∧ ReadsBack (.xor rd rs1 rs2) ∧ ReadsBack (.srl rd rs1 rs2) ∧ ReadsBack (.or rd rs1 rs2) ∧
    ReadsBack (.and rd rs1 rs2) ∧ ReadsBack (.sub rd rs1 rs2) ∧ ReadsBack (.sra rd rs1 rs2) ∧ ReadsBack (.mul rd rs1 rs2) ∧
    ReadsBack (.mulh rd rs1 rs2) ∧ ReadsBack (.mulhsu rd rs1 rs2) ∧ ReadsBack (.mulhu rd rs1 rs2) ∧ ReadsBack (.div rd rs1 rs2) ∧
    ReadsBack (.divu rd rs1 rs2) ∧ ReadsBack (.rem rd rs1 rs2) ∧ ReadsBack (.remu rd rs1 rs2) := by
  refine fun _ _ _ => ⟨?_, ?_, ?_, ?_, ?_, ?_, ?_, ?_, ?_, ?_, ?_, ?_, ?_, ?_, ?_, ?_, ?_, ?_⟩ <;>
    exact .of_word rfl (by simp [decode32_51, decodeOp])
theorem readsBack_decodeOp32 : ∀ rd rs1 rs2, ReadsBack (.addw rd rs1 rs2) ∧ ReadsBack (.sllw rd rs1 rs2) ∧ ReadsBack (.srlw rd rs1 rs2) ∧
    ReadsBack (.subw rd rs1 rs2) ∧ ReadsBack (.sraw rd rs1 rs2) ∧ ReadsBack (.mulw rd rs1 rs2) ∧ ReadsBack (.divw rd rs1 rs2) ∧
    ReadsBack (.divuw rd rs1 rs2) ∧ ReadsBack (.remw rd rs1 rs2) ∧ ReadsBack (.remuw rd rs1 rs2) := by
  refine fun _ _ _ => ⟨?_, ?_, ?_, ?_, ?_, ?_, ?_, ?_, ?_, ?_⟩ <;>
    exact .of_word rfl (by simp [decode32_59, decodeOp32])
theorem readsBack_decodeMiscMem : (∀ rd rs1 pred succ, ReadsBack (.fence rd rs1 pred succ) ∧ ReadsBack (.fenceTso rd rs1 pred succ)) ∧
    (∀ rd rs1 imm, ReadsBack (.fenceI rd rs1 imm)) := by
  refine ⟨fun _ _ _ _ => ⟨?_, ?_⟩, fun _ _ _ => ?_⟩ <;>
    exact .of_word rfl (by simp [decode32_15, decodeMiscMem])
theorem readsBack_decodeSystem : ReadsBack .ecall ∧ ReadsBack .ebreak ∧ ReadsBack .wfi ∧ (∀ rd rs1 csr, ReadsBack (.csrrw rd rs1 csr) ∧
    ReadsBack (.csrrs rd rs1 csr) ∧ ReadsBack (.csrrc rd rs1 csr)) ∧ (∀ rd csr uimm, ReadsBack (.csrrwi rd csr uimm) ∧
    ReadsBack (.csrrsi rd csr uimm) ∧ ReadsBack (.csrrci rd csr uimm)) := by
  refine ⟨?_, ?_, ?_, fun _ _ _ => ⟨?_, ?_, ?_⟩, fun _ _ _ => ⟨?_, ?_, ?_⟩⟩ <;>
    exact .of_word rfl (by simp [decode32_115, decodeSystem])
theorem readsBack_decodeAmo : (∀ rd rs1 aq rl dbl, ReadsBack (.lr rd rs1 aq rl dbl)) ∧ (∀ rd rs1 rs2 aq rl dbl,
    ReadsBack (.sc rd rs1 rs2 aq rl dbl) ∧ ReadsBack (.amoswap rd rs1 rs2 aq rl dbl) ∧ ReadsBack (.amoadd rd rs1 rs2 aq rl dbl) ∧
    ReadsBack (.amoxor rd rs1 rs2 aq rl dbl) ∧ ReadsBack (.amoand rd rs1 rs2 aq rl dbl) ∧ ReadsBack (.amoor rd rs1 rs2 aq rl dbl) ∧
    ReadsBack (.amomin rd rs1 rs2 aq rl dbl) ∧ ReadsBack (.amomax rd rs1 rs2 aq rl dbl) ∧ ReadsBack (.amominu rd rs1 rs2 aq rl dbl) ∧
    ReadsBack (.amomaxu rd rs1 rs2 aq rl dbl)) := by
  refine ⟨fun _ _ _ _ _ => ?_, fun _ _ _ _ _ _ => ⟨?_, ?_, ?_, ?_, ?_, ?_, ?_, ?_, ?_, ?_⟩⟩ <;>
    exact .of_word rfl (by simp [decode32_47, decodeAmo])
theorem readsBack_decodeOpFp : (∀ rd rs1 rs2 rm, ReadsBack (.faddS rd rs1 rs2 rm) ∧ ReadsBack (.fsubS rd rs1 rs2 rm) ∧
    ReadsBack (.fmulS rd rs1 rs2 rm) ∧ ReadsBack (.fdivS rd rs1 rs2 rm)) ∧ (∀ rd rs1 rm, ReadsBack (.fsqrtS rd rs1 rm) ∧
    ReadsBack (.fcvtWS rd rs1 rm) ∧ ReadsBack (.fcvtWuS rd rs1 rm) ∧ ReadsBack (.fcvtLS rd rs1 rm) ∧ ReadsBack (.fcvtLuS rd rs1 rm) ∧
    ReadsBack (.fcvtSW rd rs1 rm) ∧ ReadsBack (.fcvtSWu rd rs1 rm) ∧ ReadsBack (.fcvtSL rd rs1 rm) ∧ ReadsBack (.fcvtSLu rd rs1 rm)) ∧
    (∀ rd rs1 rs2, ReadsBack (.fsgnjS rd rs1 rs2) ∧ ReadsBack (.fsgnjnS rd rs1 rs2) ∧ ReadsBack (.fsgnjxS rd rs1 rs2) ∧
    ReadsBack (.fminS rd rs1 rs2) ∧ ReadsBack (.fmaxS rd rs1 rs2) ∧ ReadsBack (.fleS rd rs1 rs2) ∧ ReadsBack (.fltS rd rs1 rs2) ∧
    ReadsBack (.feqS rd rs1 rs2)) ∧ (∀ rd rs1, ReadsBack (.fclassS rd rs1)) := by
  refine ⟨fun _ _ _ _ => ⟨?_, ?_, ?_, ?_⟩, fun _ _ _ => ⟨?_, ?_, ?_, ?_, ?_, ?_, ?_, ?_, ?_⟩, fun _ _ _ => ⟨?_, ?_, ?_, ?_, ?_, ?_, ?_, ?_⟩,
    fun _ _ => ?_⟩ <;>
    exact .of_word rfl (by simp [decode32_83, decodeOpFp])
theorem readsBack_decodeFmadd : ∀ rd rs1 rs2 rs3 rm, ReadsBack (.fmaddS rd rs1 rs2 rs3 rm) :=
    fun _ _ _ _ _ => .of_word rfl (by simp [decode32_67, decodeFmadd])
theorem readsBack_decodeFmsub : ∀ rd rs1 rs2 rs3 rm, ReadsBack (.fmsubS rd rs1 rs2 rs3 rm) :=
    fun _ _ _ _ _ => .of_word rfl (by simp [decode32_71, decodeFmsub])
theorem readsBack_decodeFnmsub : ∀ rd rs1 rs2 rs3 rm, ReadsBack (.fnmsubS rd rs1 rs2 rs3 rm) :=
    fun _ _ _ _ _ => .of_word rfl (by simp [decode32_75, decodeFnmsub])
theorem readsBack_decodeFnmadd : ∀ rd rs1 rs2 rs3 rm, ReadsBack (.fnmaddS rd rs1 rs2 rs3 rm) :=
    fun _ _ _ _ _ => .of_word rfl (by simp [decode32_79, decodeFnmadd])
theorem ne_zero_of_field {n : Nat} {w : BitVec n} (i k : Nat) (h : w.extractLsb' i k ≠ 0#k) : w ≠ 0#n := by
  rintro rfl
  exact h BitVec.extractLsb'_zero
theorem readsBack_decodeQ0 : (∀ rd imm, ReadsBack (.cAddi4spn rd imm)) ∧ (∀ rd rs1 imm, ReadsBack (.cLw rd rs1 imm) ∧
    ReadsBack (.cLd rd rs1 imm) ∧ ReadsBack (.cSw rd rs1 imm) ∧ ReadsBack (.cSd rd rs1 imm)) := by
  refine ⟨fun _ imm => .of_half rfl fun h => ?_, fun _ _ _ => ⟨?_, ?_, ?_, ?_⟩⟩
  · have himm : imm ≠ 0#8 := bne_iff_ne.mp h
    rw [decode16, if_pos (by simp), decodeQ0, if_neg fun hw => himm ?_]
    · simp
    · simpa using congrArg (fun w : BitVec 16 => w.extractLsb' 7 4 ++ w.extractLsb' 11 2 ++ w.extractLsb' 5 1 ++ w.extractLsb' 6 1) hw
  all_goals
    refine .of_half rfl fun _ => ?_
    rw [decode16, if_pos (by simp), decodeQ0, if_neg (ne_zero_of_field 13 3 (by simp))]
    simp
theorem readsBack_decodeQ1 : (∀ rd imm, ReadsBack (.cAddi rd imm) ∧ ReadsBack (.cLui rd imm)) ∧
    (∀ rd imm, ReadsBack (.cAddiw rd imm) ∧ ReadsBack (.cLi rd imm)) ∧ (∀ imm, ReadsBack (.cNop imm) ∧ ReadsBack (.cAddi16sp imm)) ∧
    (∀ off, ReadsBack (.cJ off)) ∧ (∀ rs1 off, ReadsBack (.cBeqz rs1 off) ∧ ReadsBack (.cBnez rs1 off)) := by
  refine ⟨fun rd _ => ⟨.of_half rfl fun h => ?_, .of_half rfl fun h => ?_⟩, fun _ _ => ⟨?_, ?_⟩, fun _ => ⟨?_, ?_⟩, fun _ => ?_,
    fun _ _ => ⟨?_, ?_⟩⟩
  · have hrd : rd ≠ 0#5 := bne_iff_ne.mp h
    simp [decode16, decodeQ1, hrd]
  · have hrd : rd ≠ 2#5 := bne_iff_ne.mp (Bool.and_elim_left h)
    simp [decode16, decodeQ1, hrd]
  all_goals exact .of_half rfl fun _ => by simp [decode16, decodeQ1]
theorem readsBack_decodeQ1Arith : (∀ rd sh, ReadsBack (.cSrli rd sh) ∧ ReadsBack (.cSrai rd sh) ∧ ReadsBack (.cAndi rd sh)) ∧ (∀ rd rs2,
    ReadsBack (.cSub rd rs2) ∧ ReadsBack (.cXor rd rs2) ∧ ReadsBack (.cOr rd rs2) ∧ ReadsBack (.cAnd rd rs2) ∧ ReadsBack (.cSubw rd rs2) ∧
    ReadsBack (.cAddw rd rs2)) := by
  refine ⟨fun _ _ => ⟨?_, ?_, ?_⟩, fun _ _ => ⟨?_, ?_, ?_, ?_, ?_, ?_⟩⟩ <;>
    exact .of_half rfl fun _ => by simp [decode16, decodeQ1, decodeQ1Arith]
theorem readsBack_decodeQ2 : (∀ rs1, ReadsBack (.cJalr rs1)) ∧ (∀ rd rs2, ReadsBack (.cMv rd rs2) ∧ ReadsBack (.cAdd rd rs2)) ∧
    (∀ rs1, ReadsBack (.cJr rs1)) ∧ ReadsBack .cEbreak ∧ (∀ rd sh, ReadsBack (.cSlli rd sh) ∧ ReadsBack (.cLwsp rd sh) ∧
    ReadsBack (.cLdsp rd sh) ∧ ReadsBack (.cSwsp rd sh) ∧ ReadsBack (.cSdsp rd sh)) := by
  refine ⟨fun rs1 => .of_half rfl fun h => ?_, fun _ rs2 => ⟨.of_half rfl fun h => ?_, .of_half rfl fun h => ?_⟩, fun _ => ?_, ?_,
    fun _ _ => ⟨?_, ?_, ?_, ?_, ?_⟩⟩
  · have hrs1 : rs1 ≠ 0#5 := bne_iff_ne.mp h
    simp [decode16, decodeQ2, hrs1]
  iterate 2
    have hrs2 : rs2 ≠ 0#5 := bne_iff_ne.mp h
    simp [decode16, decodeQ2, hrs2]
  all_goals exact .of_half rfl fun _ => by simp [decode16, decodeQ2]

/-! ## The tables of the custom opcodes (R199) -/

theorem readsBack_decodeCustom0F0 : (∀ rd rs1, ReadsBack (.batSpawn rd rs1) ∧ ReadsBack (.batRole rd rs1)) ∧ (∀ rd rs1 rs2,
    ReadsBack (.batSend rd rs1 rs2) ∧ ReadsBack (.batSendR rd rs1 rs2) ∧ ReadsBack (.batPark rd rs1 rs2)) ∧ ReadsBack .batExit ∧ (∀ rs1,
    ReadsBack (.batYield rs1) ∧ ReadsBack (.batWake rs1)) ∧ (∀ rd sel, ReadsBack (.batSelf rd sel)) := by
  refine ⟨fun _ _ => ⟨?_, ?_⟩, fun _ _ _ => ⟨?_, ?_, ?_⟩, ?_, fun _ => ⟨?_, ?_⟩, fun _ _ => ?_⟩ <;>
    exact .of_word rfl (by simp [decode32_11, decodeCustom0, decodeCustom0F0])
theorem readsBack_decodeCustom0F1 : (∀ rd rs1 rs2 flags, ReadsBack (.hdInit rd rs1 rs2 flags)) ∧ (∀ rs1 rs2 scope,
    ReadsBack (.hdArrive rs1 rs2 scope) ∧ ReadsBack (.hdArriveR rs1 rs2 scope) ∧ ReadsBack (.hdWithdraw rs1 rs2 scope) ∧
    ReadsBack (.hdWithdrawR rs1 rs2 scope)) ∧ (∀ rd rs1 rs2, ReadsBack (.hdWait rd rs1 rs2)) ∧ (∀ rd rs1 rs2 scope,
    ReadsBack (.hdArrwait rd rs1 rs2 scope)) ∧ (∀ rd rs1, ReadsBack (.hdTest rd rs1)) ∧ (∀ rs1, ReadsBack (.hdJoin rs1) ∧
    ReadsBack (.hdJoinR rs1)) ∧ (∀ rd level, ReadsBack (.lapEnd rd level) ∧ ReadsBack (.domRd rd level)) := by
  refine ⟨fun _ _ _ _ => ?_, fun _ _ _ => ⟨?_, ?_, ?_, ?_⟩, fun _ _ _ => ?_, fun _ _ _ _ => ?_, fun _ _ => ?_, fun _ => ⟨?_, ?_⟩, fun _ _ =>
    ⟨?_, ?_⟩⟩ <;>
    exact .of_word rfl (by simp [decode32_11, decodeCustom0, decodeCustom0F1])
theorem readsBack_decodeCustom0F2 : (∀ rd rs1, ReadsBack (.waitUntil rd rs1)) ∧ (∀ rs1, ReadsBack (.waitPromise rs1)) := by
  refine ⟨fun _ _ => ?_, fun _ => ?_⟩ <;>
    exact .of_word rfl (by simp [decode32_11, decodeCustom0, decodeCustom0F2])
theorem readsBack_decodeCustom0F3 : (∀ rd rs1 rs2, ReadsBack (.msgSend rd rs1 rs2)) ∧ (∀ rd rs1 queue, ReadsBack (.msgRecv rd rs1 queue) ∧
    ReadsBack (.msgPoll rd rs1 queue)) ∧ (∀ rs1 rs2, ReadsBack (.rctSet rs1 rs2)) ∧ (∀ rs1, ReadsBack (.rctHold rs1) ∧
    ReadsBack (.rctRelease rs1)) := by
  refine ⟨fun _ _ _ => ?_, fun _ _ _ => ⟨?_, ?_⟩, fun _ _ => ?_, fun _ => ⟨?_, ?_⟩⟩ <;>
    exact .of_word rfl (by simp [decode32_11, decodeCustom0, decodeCustom0F3])
theorem readsBack_decodeCustom0F4 : ∀ rd rs1 scope width off, ReadsBack (.ldAq rd rs1 scope width off) :=
    fun _ _ _ _ _ => .of_word rfl (by simp [decode32_11, decodeCustom0, decodeCustom0F4])
theorem readsBack_decodeCustom0F5 : ∀ rs1 rs2 scope width off, ReadsBack (.stRl rs1 rs2 scope width off) :=
    fun _ _ _ _ _ => .of_word rfl (by simp [decode32_11, decodeCustom0, decodeCustom0F5])
theorem readsBack_decodeCustom0F6 : (∀ rd log2, ReadsBack (.gangLead rd log2) ∧ ReadsBack (.gangJoin rd log2)) ∧ ReadsBack .gangEnd ∧
    (∀ rd rs1, ReadsBack (.rrbSet rd rs1)) ∧ (∀ rd off, ReadsBack (.loopRot rd off)) := by
  refine ⟨fun _ _ => ⟨?_, ?_⟩, ?_, fun _ _ => ?_, fun _ _ => ?_⟩ <;>
    exact .of_word rfl (by simp [decode32_11, decodeCustom0, decodeCustom0F6])
theorem readsBack_decodeCustom0F7 : ReadsBack .xuret ∧ (∀ rs1 rs2, ReadsBack (.ctxSave rs1 rs2) ∧ ReadsBack (.ctxRestore rs1 rs2) ∧
    ReadsBack (.stamClaim rs1 rs2) ∧ ReadsBack (.ivlPost rs1 rs2) ∧ ReadsBack (.grLaunch rs1 rs2) ∧ ReadsBack (.grWait rs1 rs2)) ∧
    (∀ rd sel, ReadsBack (.stamRd rd sel)) ∧ (∀ rs1, ReadsBack (.ivlSync rs1)) ∧ (∀ scope, ReadsBack (.xfence scope)) := by
  refine ⟨?_, fun _ _ => ⟨?_, ?_, ?_, ?_, ?_, ?_⟩, fun _ _ => ?_, fun _ => ?_, fun _ => ?_⟩ <;>
    exact .of_word rfl (by simp [decode32_11, decodeCustom0, decodeCustom0F7])
theorem readsBack_decodeCustom1F0 : (∀ vd vs1 vs2 ty, ReadsBack (.vaddFloat vd vs1 vs2 ty) ∧ ReadsBack (.vsubFloat vd vs1 vs2 ty) ∧
    ReadsBack (.vmulFloat vd vs1 vs2 ty) ∧ ReadsBack (.vminFloat vd vs1 vs2 ty) ∧ ReadsBack (.vmaxFloat vd vs1 vs2 ty) ∧
    ReadsBack (.vdiv vd vs1 vs2 ty)) ∧ (∀ vd vs1 ty, ReadsBack (.vabsFloat vd vs1 ty) ∧ ReadsBack (.vnegFloat vd vs1 ty)) ∧ (∀ vd vs1 ty rm,
    ReadsBack (.vsqrt vd vs1 ty rm) ∧ ReadsBack (.vrsq vd vs1 ty rm)) := by
  refine ⟨fun _ _ _ _ => ⟨?_, ?_, ?_, ?_, ?_, ?_⟩, fun _ _ _ => ⟨?_, ?_⟩, fun _ _ _ _ => ⟨?_, ?_⟩⟩ <;>
    exact .of_word rfl (by simp [decode32_43, decodeCustom1, decodeCustom1F0])
theorem readsBack_decodeCustom1F1 : (∀ vd vs1 vs2 ty, ReadsBack (.vaddInt vd vs1 vs2 ty) ∧ ReadsBack (.vsubInt vd vs1 vs2 ty) ∧
    ReadsBack (.vmulInt vd vs1 vs2 ty) ∧ ReadsBack (.vminInt vd vs1 vs2 ty) ∧ ReadsBack (.vmaxInt vd vs1 vs2 ty) ∧
    ReadsBack (.vand vd vs1 vs2 ty) ∧ ReadsBack (.vor vd vs1 vs2 ty) ∧ ReadsBack (.vxor vd vs1 vs2 ty) ∧ ReadsBack (.vshl vd vs1 vs2 ty) ∧
    ReadsBack (.vshr vd vs1 vs2 ty) ∧ ReadsBack (.vsra vd vs1 vs2 ty)) ∧ (∀ vd vs1 ty, ReadsBack (.vabsInt vd vs1 ty) ∧
    ReadsBack (.vnegInt vd vs1 ty)) := by
  refine ⟨fun _ _ _ _ => ⟨?_, ?_, ?_, ?_, ?_, ?_, ?_, ?_, ?_, ?_, ?_⟩, fun _ _ _ => ⟨?_, ?_⟩⟩ <;>
    exact .of_word rfl (by simp [decode32_43, decodeCustom1, decodeCustom1F1])
theorem readsBack_decodeCustom1F2 : (∀ vd vs1 vs2 ty cond, ReadsBack (.vcmp vd vs1 vs2 ty cond)) ∧ (∀ vd vs1 vs2 ty,
    ReadsBack (.vsel vd vs1 vs2 ty)) := by
  refine ⟨fun _ _ _ _ _ => ?_, fun _ _ _ _ => ?_⟩ <;>
    exact .of_word rfl (by simp [decode32_43, decodeCustom1, decodeCustom1F2])
theorem readsBack_decodeCustom1F3 : (∀ vd vs1 ty rm dstTy, ReadsBack (.vcvt vd vs1 ty rm dstTy)) ∧ (∀ vd vs1 four,
    ReadsBack (.vqnt vd vs1 four)) ∧ (∀ vd vs1 four, ReadsBack (.vdqnt vd vs1 four)) := by
  refine ⟨fun _ _ _ _ _ => ?_, fun _ _ _ => ?_, fun _ _ _ => ?_⟩ <;>
    exact .of_word rfl (by simp [decode32_43, decodeCustom1, decodeCustom1F3])
theorem readsBack_decodeCustom1F4 : (∀ vd vs1 ty, ReadsBack (.vredsum vd vs1 ty) ∧ ReadsBack (.vredmax vd vs1 ty) ∧
    ReadsBack (.vsplat vd vs1 ty)) ∧ (∀ vd vs1 vs2 ty, ReadsBack (.vperm vd vs1 vs2 ty) ∧ ReadsBack (.vshuf vd vs1 vs2 ty) ∧
    ReadsBack (.vins vd vs1 vs2 ty) ∧ ReadsBack (.vext vd vs1 vs2 ty)) ∧ (∀ vd vs1 ty amount, ReadsBack (.vslide vd vs1 ty amount)) := by
  refine ⟨fun _ _ _ => ⟨?_, ?_, ?_⟩, fun _ _ _ _ => ⟨?_, ?_, ?_, ?_⟩, fun _ _ _ _ => ?_⟩ <;>
    exact .of_word rfl (by simp [decode32_43, decodeCustom1, decodeCustom1F4])
theorem readsBack_decodeCustom1F5 : (∀ vd rs1 ty, ReadsBack (.vld vd rs1 ty) ∧ ReadsBack (.vldb vd rs1 ty)) ∧ (∀ vd rs1 rs2 ty,
    ReadsBack (.vlds vd rs1 rs2 ty) ∧ ReadsBack (.vldx vd rs1 rs2 ty) ∧ ReadsBack (.vldq vd rs1 rs2 ty)) := by
  refine ⟨fun _ _ _ => ⟨?_, ?_⟩, fun _ _ _ _ => ⟨?_, ?_, ?_⟩⟩ <;>
    exact .of_word rfl (by simp [decode32_43, decodeCustom1, decodeCustom1F5])
theorem readsBack_decodeCustom1F6 : (∀ vs rs1 ty, ReadsBack (.vst vs rs1 ty)) ∧ (∀ vs rs1 rs2 ty, ReadsBack (.vsts vs rs1 rs2 ty) ∧
    ReadsBack (.vstx vs rs1 rs2 ty)) := by
  refine ⟨fun _ _ _ => ?_, fun _ _ _ _ => ⟨?_, ?_⟩⟩ <;>
    exact .of_word rfl (by simp [decode32_43, decodeCustom1, decodeCustom1F6])
theorem readsBack_decodeCustom1F7 : ∀ vd vs1 vs2 vs3, ReadsBack (.vfma vd vs1 vs2 vs3) ∧ ReadsBack (.vfms vd vs1 vs2 vs3) ∧
    ReadsBack (.vfnma vd vs1 vs2 vs3) ∧ ReadsBack (.vfnms vd vs1 vs2 vs3) := by
  refine fun _ _ _ _ => ⟨?_, ?_, ?_, ?_⟩ <;>
    exact .of_word rfl (by simp [decode32_43, decodeCustom1, decodeCustom1F7])
theorem readsBack_decodeCustom2F0 : (∀ acc pm init, ReadsBack (.mmTile acc pm init)) ∧ (∀ acc pm, ReadsBack (.mmZero acc pm)) ∧
    ReadsBack .mmWait := by
  refine ⟨fun _ _ _ => ?_, fun _ _ => ?_, ?_⟩ <;>
    exact .of_word rfl (by simp [decode32_91, decodeCustom2, decodeCustom2F0])
theorem readsBack_decodeCustom2F1 : (∀ rs1 rs2 acc pm clear fmt, ReadsBack (.mmDrain rs1 rs2 acc pm clear fmt)) ∧ (∀ rs1 rs2 acc pm fmt,
    ReadsBack (.mmLoad rs1 rs2 acc pm fmt)) ∧ (∀ rs1 rs2 pm pre, ReadsBack (.mmMset rs1 rs2 pm pre)) ∧ (∀ acc pm tp port,
    ReadsBack (.mmTostrm acc pm tp port)) := by
  refine ⟨fun _ _ _ _ _ _ => ?_, fun _ _ _ _ _ => ?_, fun _ _ _ _ => ?_, fun _ _ _ _ => ?_⟩ <;>
    exact .of_word rfl (by simp [decode32_91, decodeCustom2, decodeCustom2F1])
theorem readsBack_decodeCustom2F2 : (∀ rs1 port, ReadsBack (.stBind rs1 port) ∧ ReadsBack (.stStat rs1 port)) ∧ (∀ rs1 cnt port,
    ReadsBack (.stFill rs1 cnt port)) ∧ (∀ rd rs1 port, ReadsBack (.stSkip rd rs1 port)) ∧ (∀ port, ReadsBack (.stFlush port)) := by
  refine ⟨fun _ _ => ⟨?_, ?_⟩, fun _ _ _ => ?_, fun _ _ _ => ?_, fun _ => ?_⟩ <;>
    exact .of_word rfl (by simp [decode32_91, decodeCustom2, decodeCustom2F2])
theorem readsBack_decodeCustom2F3 : (∀ rd xg rs2, ReadsBack (.cpGet rd xg rs2) ∧ ReadsBack (.cpPut rd xg rs2) ∧
    ReadsBack (.cpXfer rd xg rs2) ∧ ReadsBack (.cpFeed rd xg rs2) ∧ ReadsBack (.cpFill rd xg rs2) ∧ ReadsBack (.cpGath rd xg rs2) ∧
    ReadsBack (.cpScat rd xg rs2) ∧ ReadsBack (.cpAtom rd xg rs2) ∧ ReadsBack (.cpStat rd xg rs2)) ∧ (∀ rd xg, ReadsBack (.cpMcast rd xg) ∧
    ReadsBack (.cpCancel rd xg)) := by
  refine ⟨fun _ _ _ => ⟨?_, ?_, ?_, ?_, ?_, ?_, ?_, ?_, ?_⟩, fun _ _ => ⟨?_, ?_⟩⟩ <;>
    exact .of_word rfl (by simp [decode32_91, decodeCustom2, decodeCustom2F3])
theorem readsBack_decodeCustom2F4 : (∀ rd rs1 rs2, ReadsBack (.bufMap rd rs1 rs2) ∧ ReadsBack (.bufShadow rd rs1 rs2)) ∧ (∀ rd rs1,
    ReadsBack (.bufUnmap rd rs1) ∧ ReadsBack (.bufPub rd rs1)) := by
  refine ⟨fun _ _ _ => ⟨?_, ?_⟩, fun _ _ => ⟨?_, ?_⟩⟩ <;>
    exact .of_word rfl (by simp [decode32_91, decodeCustom2, decodeCustom2F4])
theorem readsBack_decodeCustom3F0 : (∀ std, ReadsBack (.statInit std)) ∧ (∀ std rs1, ReadsBack (.statUpd std rs1) ∧
    ReadsBack (.statLd std rs1)) ∧ (∀ std rs1 rs2, ReadsBack (.statUpdw std rs1 rs2)) ∧ (∀ std st1 st2, ReadsBack (.statMerge std st1 st2))
    ∧ (∀ rs1 st2, ReadsBack (.statSt rs1 st2)) := by
  refine ⟨fun _ => ?_, fun _ _ => ⟨?_, ?_⟩, fun _ _ _ => ?_, fun _ _ _ => ?_, fun _ _ => ?_⟩ <;>
    exact .of_word rfl (by simp [decode32_123, decodeCustom3, decodeCustom3F0])
theorem readsBack_decodeCustom3F1 : (∀ std vs1 ty, ReadsBack (.vstatUpd std vs1 ty)) ∧ (∀ std vs1 vs2 ty,
    ReadsBack (.vstatUpdw std vs1 vs2 ty)) ∧ (∀ rd st1 rs2 drain, ReadsBack (.statDrain rd st1 rs2 drain)) ∧ (∀ vd vs1 ty pair,
    ReadsBack (.vstatNorm vd vs1 ty pair)) := by
  refine ⟨fun _ _ _ => ?_, fun _ _ _ _ => ?_, fun _ _ _ _ => ?_, fun _ _ _ _ => ?_⟩ <;>
    exact .of_word rfl (by simp [decode32_123, decodeCustom3, decodeCustom3F1])
theorem readsBack_decodeCustom3F2 : (∀ rd rs1, ReadsBack (.cycOpen rd rs1) ∧ ReadsBack (.cycIter rd rs1) ∧ ReadsBack (.cycPass rd rs1) ∧
    ReadsBack (.cycTake rd rs1) ∧ ReadsBack (.cycNext rd rs1) ∧ ReadsBack (.cycBwd rd rs1)) ∧ (∀ rd rs1 rs2,
    ReadsBack (.cycFreeze rd rs1 rs2)) ∧ (∀ rs1 st2, ReadsBack (.cycRes rs1 st2)) ∧ (∀ rd rs1 sel, ReadsBack (.cycStat rd rs1 sel)) ∧
    (∀ rs1, ReadsBack (.cycClose rs1) ∧ ReadsBack (.cycAbort rs1)) := by
  refine ⟨fun _ _ => ⟨?_, ?_, ?_, ?_, ?_, ?_⟩, fun _ _ _ => ?_, fun _ _ => ?_, fun _ _ _ => ?_, fun _ => ⟨?_, ?_⟩⟩ <;>
    exact .of_word rfl (by simp [decode32_123, decodeCustom3, decodeCustom3F2])
theorem readsBack_decodeCustom3F3 : (∀ rd rs1 rs2, ReadsBack (.clLoad rd rs1 rs2) ∧ ReadsBack (.clRun rd rs1 rs2) ∧
    ReadsBack (.clGrp rd rs1 rs2) ∧ ReadsBack (.clJoin rd rs1 rs2) ∧ ReadsBack (.clLeave rd rs1 rs2)) ∧ (∀ rd rs1,
    ReadsBack (.clWait rd rs1)) ∧ (∀ rs1, ReadsBack (.clCancel rs1) ∧ ReadsBack (.clPause rs1) ∧ ReadsBack (.clResume rs1)) := by
  refine ⟨fun _ _ _ => ⟨?_, ?_, ?_, ?_, ?_⟩, fun _ _ => ?_, fun _ => ⟨?_, ?_, ?_⟩⟩ <;>
    exact .of_word rfl (by simp [decode32_123, decodeCustom3, decodeCustom3F3])

/-! ## Every instruction -/

theorem readsBack (i : Instr) : ReadsBack i := by
  cases i
  case lui => simp only [readsBack_decodeLui]
  case auipc => simp only [readsBack_decodeAuipc]
  case jal => simp only [readsBack_decodeJal]
  case jalr => simp only [readsBack_decodeJalr]
  case beq | bne | blt | bge | bltu | bgeu => simp only [readsBack_decodeBranch]
  case lb | lh | lw | ld | lbu | lhu | lwu => simp only [readsBack_decodeLoad]
  case sb | sh | sw | sd => simp only [readsBack_decodeStore]
  case addi | slti | sltiu | xori | ori | andi | slli | srli | srai => simp only [readsBack_decodeOpImm]
  case addiw | slliw | srliw | sraiw => simp only [readsBack_decodeOpImm32]
  case add | sll | slt | sltu | xor | srl | or | and | sub | sra | mul | mulh | mulhsu | mulhu | div | divu | rem | remu =>
    simp only [readsBack_decodeOp]
  case addw | sllw | srlw | subw | sraw | mulw | divw | divuw | remw | remuw => simp only [readsBack_decodeOp32]
  case fence | fenceTso | fenceI => simp only [readsBack_decodeMiscMem]
  case ecall | ebreak | wfi | csrrw | csrrs | csrrc | csrrwi | csrrsi | csrrci => simp only [readsBack_decodeSystem]
  case lr | sc | amoswap | amoadd | amoxor | amoand | amoor | amomin | amomax | amominu | amomaxu => simp only [readsBack_decodeAmo]
  case faddS | fsubS | fmulS | fdivS | fsqrtS | fsgnjS | fsgnjnS | fsgnjxS | fminS | fmaxS | fleS | fltS | feqS | fcvtWS | fcvtWuS | fcvtLS |
    fcvtLuS | fcvtSW | fcvtSWu | fcvtSL | fcvtSLu | fclassS => simp only [readsBack_decodeOpFp]
  case fmaddS => simp only [readsBack_decodeFmadd]
  case fmsubS => simp only [readsBack_decodeFmsub]
  case fnmsubS => simp only [readsBack_decodeFnmsub]
  case fnmaddS => simp only [readsBack_decodeFnmadd]
  case cAddi4spn | cLw | cLd | cSw | cSd => simp only [readsBack_decodeQ0]
  case cAddi | cNop | cAddiw | cLi | cAddi16sp | cLui | cJ | cBeqz | cBnez => simp only [readsBack_decodeQ1]
  case cSrli | cSrai | cAndi | cSub | cXor | cOr | cAnd | cSubw | cAddw => simp only [readsBack_decodeQ1Arith]
  case cSlli | cLwsp | cLdsp | cJr | cMv | cEbreak | cJalr | cAdd | cSwsp | cSdsp => simp only [readsBack_decodeQ2]
  case batSpawn | batSend | batSendR | batExit | batYield | batPark | batWake | batRole | batSelf => simp only [readsBack_decodeCustom0F0]
  case hdInit | hdArrive | hdArriveR | hdWait | hdArrwait | hdTest | hdWithdraw | hdWithdrawR | hdJoin | hdJoinR | lapEnd | domRd =>
    simp only [readsBack_decodeCustom0F1]
  case waitUntil | waitPromise => simp only [readsBack_decodeCustom0F2]
  case msgSend | msgRecv | msgPoll | rctSet | rctHold | rctRelease => simp only [readsBack_decodeCustom0F3]
  case ldAq => simp only [readsBack_decodeCustom0F4]
  case stRl => simp only [readsBack_decodeCustom0F5]
  case gangLead | gangJoin | gangEnd | rrbSet | loopRot => simp only [readsBack_decodeCustom0F6]
  case xuret | ctxSave | ctxRestore | stamClaim | stamRd | ivlPost | ivlSync | grLaunch | grWait | xfence =>
    simp only [readsBack_decodeCustom0F7]
  case vaddFloat | vsubFloat | vmulFloat | vminFloat | vmaxFloat | vabsFloat | vnegFloat | vdiv | vsqrt | vrsq =>
    simp only [readsBack_decodeCustom1F0]
  case vaddInt | vsubInt | vmulInt | vminInt | vmaxInt | vabsInt | vnegInt | vand | vor | vxor | vshl | vshr | vsra =>
    simp only [readsBack_decodeCustom1F1]
  case vcmp | vsel => simp only [readsBack_decodeCustom1F2]
  case vcvt | vqnt | vdqnt => simp only [readsBack_decodeCustom1F3]
  case vredsum | vredmax | vperm | vshuf | vslide | vsplat | vins | vext => simp only [readsBack_decodeCustom1F4]
  case vld | vlds | vldx | vldb | vldq => simp only [readsBack_decodeCustom1F5]
  case vst | vsts | vstx => simp only [readsBack_decodeCustom1F6]
  case vfma | vfms | vfnma | vfnms => simp only [readsBack_decodeCustom1F7]
  case mmTile | mmZero | mmWait => simp only [readsBack_decodeCustom2F0]
  case mmDrain | mmLoad | mmMset | mmTostrm => simp only [readsBack_decodeCustom2F1]
  case stBind | stFill | stSkip | stStat | stFlush => simp only [readsBack_decodeCustom2F2]
  case cpGet | cpPut | cpXfer | cpFeed | cpMcast | cpFill | cpGath | cpScat | cpAtom | cpStat | cpCancel =>
    simp only [readsBack_decodeCustom2F3]
  case bufMap | bufUnmap | bufShadow | bufPub => simp only [readsBack_decodeCustom2F4]
  case statInit | statUpd | statUpdw | statMerge | statLd | statSt => simp only [readsBack_decodeCustom3F0]
  case vstatUpd | vstatUpdw | statDrain | vstatNorm => simp only [readsBack_decodeCustom3F1]
  case cycOpen | cycFreeze | cycIter | cycRes | cycPass | cycTake | cycNext | cycBwd | cycStat | cycClose | cycAbort =>
    simp only [readsBack_decodeCustom3F2]
  case clLoad | clRun | clWait | clCancel | clGrp | clJoin | clLeave | clPause | clResume => simp only [readsBack_decodeCustom3F3]
  all_goals exact .of_none rfl

/-! ## The opcodes of what is accepted (R195) -/

/-- The major opcodes of R191 and the custom opcodes. -/
def majorOpcodes : List Nat :=
  [0x37, 0x17, 0x6F, 0x67, 0x63, 0x03, 0x23, 0x13, 0x1B, 0x33, 0x3B, 0x0F, 0x73, 0x2F, 0x53, 0x43, 0x47, 0x4B, 0x4F, 0x0B, 0x2B, 0x5B, 0x7B]

/-- One test of the major opcode: it names a listed one, or what follows it reads the word. -/
theorem major_of_test {op n : BitVec 7} {x y : Except Reject Instr} {i : Instr} (h : (if op = n then x else y) = .ok i)
    (hn : n.toNat ∈ majorOpcodes) (hy : y = .ok i → op.toNat ∈ majorOpcodes) : op.toNat ∈ majorOpcodes := by
  split at h
  next e => exact e ▸ hn
  next => exact hy h

theorem major_of_decode32 {w : Word32} {i : Instr} (h : decode32 w = .ok i) : w.toNat % 128 ∈ majorOpcodes := by
  have hw : (w.extractLsb' 0 7).toNat = w.toNat % 128 := by simp
  rw [← hw]
  unfold decode32 at h
  iterate 23 refine major_of_test h (by decide) fun h => ?_
  split at h <;> contradiction

theorem low_of_decode32 {w : Word32} {i : Instr} (h : decode32 w = .ok i) : w.toNat % 4 = 3 := by
  have hlow : ∀ n ∈ majorOpcodes, n % 4 = 3 := by decide
  have := hlow _ (major_of_decode32 h)
  omega

theorem low_of_decode16 {w : BitVec 16} {i : Instr} (h : decode16 w = .ok i) : w.toNat % 4 ≠ 3 := by
  intro hlow
  have hw : w.extractLsb' 0 2 = 3#2 := BitVec.eq_of_toNat_eq ((low_two w).trans hlow)
  simp [decode16, hw] at h

theorem low_bits_eq (b : Byte) : b.extractLsb' 0 2 = 3#2 ↔ b.toNat % 4 = 3 := by
  rw [← low_two, ← BitVec.toNat_inj]
  rfl

theorem decode_short {b0 b1 : Byte} {l r : List Byte} {i : Instr} (hlow : b0.toNat % 4 ≠ 3) (h : decode (b0 :: b1 :: l) = .ok (i, r)) :
    r = l := by
  simp only [decode, low_bits_eq, hlow, if_false] at h
  split at h
  · cases h
    rfl
  · cases h

theorem decode_long {b0 b1 : Byte} {l r : List Byte} {i : Instr} (hlow : b0.toNat % 4 = 3) (h : decode (b0 :: b1 :: l) = .ok (i, r)) :
    ∃ b2 b3, l = b2 :: b3 :: r ∧ decode32 (BitVec.ofNat 32 (natLE [b0, b1, b2, b3])) = .ok i := by
  simp only [decode, low_bits_eq, hlow, if_true] at h
  split at h
  next b2 b3 r' =>
    split at h
    next hread =>
      cases h
      exact ⟨b2, b3, rfl, hread⟩
    next => cases h
  next => split at h <;> cases h

/-- The first byte of a word holds its major opcode. -/
theorem word_major (b0 b1 b2 b3 : Byte) : (BitVec.ofNat 32 (natLE [b0, b1, b2, b3])).toNat % 128 = b0.toNat % 128 := by
  simp only [BitVec.toNat_ofNat, natLE]
  omega

/-! ## The round trip -/

/-- What a table reads from an encoding, the decoder reads from the encoding's bytes. -/
theorem decode_bytes {e : Encoding} {i : Instr} (rest : List Byte) (h : e.read = .ok i) : decode (e.bytes ++ rest) = .ok (i, rest) := by
  cases e with
  | half w =>
    have hread : decode16 w = .ok i := h
    rw [Encoding.bytes, decode_half w rest (low_of_decode16 hread), hread]
  | word w =>
    have hread : decode32 w = .ok i := h
    rw [Encoding.bytes, decode_word w rest (low_of_decode32 hread), hread]
  | none => cases h

/-- A word that is the encoding of a well-formed instruction decodes to it. -/
theorem decode_of_encode {n w : Nat} {i : Instr} (rest : List Byte) (hbytes : (encode i).bytes = bytesLE n w) (hwf : i.wellFormed = true)
    (hencoded : encode i ≠ .none) : decode (bytesLE n w ++ rest) = .ok (i, rest) :=
  hbytes ▸ decode_bytes rest (readsBack i hwf hencoded)

end Sys2Proof

namespace Sys2Proof.Machine

/-! ## Fetches (R194, R195) -/

section
variable {s : State} {f : Nat} {h h2 : List Byte}

theorem fetch_half (hcode : s.codeAt f (s.slotAt f).pc.toNat = .bytes h) (hlow : natLE h % 4 ≠ 3) : s.fetch f = .code h := by
  simp [State.fetch, hcode, hlow]

theorem fetch_word (hcode : s.codeAt f (s.slotAt f).pc.toNat = .bytes h) (hlow : natLE h % 4 = 3)
    (hcode2 : s.codeAt f ((s.slotAt f).pc.toNat + 2) = .bytes h2) : s.fetch f = .code (h ++ h2) := by
  simp [State.fetch, hcode, hlow, hcode2]

/-- The start of a longer encoding is fetched whether or not what lies behind it can be (log entry 31). -/
theorem fetch_longer (hcode : s.codeAt f (s.slotAt f).pc.toNat = .bytes h) (hlong : natLE h % 32 = 31) :
    ∃ l, s.fetch f = .code l ∧ (l = h ∨ ∃ h2, l = h ++ h2) := by
  have hlow : natLE h % 4 = 3 := by omega
  cases hcode2 : s.codeAt f ((s.slotAt f).pc.toNat + 2) with
  | bytes h2 => exact ⟨_, fetch_word hcode hlow hcode2, .inr ⟨h2, rfl⟩⟩
  | fault | ask => exact ⟨h, by simp [State.fetch, hcode, hlow, hcode2, hlong], .inl rfl⟩
end

/-! ## The statements -/

/-- Settles O56: every table of the decoder reads back the encodings of its rows, and the bytes that follow are left. -/
theorem decodeEncodeRoundTrip : Obligations.DecodeEncodeRoundTrip :=
  fun i rest hwf hencoded => decode_bytes rest (readsBack i hwf hencoded)

/-- Settles O57: the length by the low bits of the first byte, the fetch by its halfwords, and the trap of what the decoder refuses. -/
theorem instructionLengths : Obligations.InstructionLengths := by
  refine ⟨fun b0 b1 l r i h => ⟨fun hlow => decode_short hlow h, fun hlow => ?_⟩, fun s f h h2 hcode => ?_, ?_⟩
  · obtain ⟨b2, b3, rfl, hread⟩ := decode_long hlow h
    have hmajor : b0.toNat % 128 ∈ majorOpcodes := word_major b0 b1 b2 b3 ▸ major_of_decode32 hread
    have hbits : ∀ n ∈ majorOpcodes, n / 4 % 8 ≠ 7 := by decide
    have := hbits _ hmajor
    exact ⟨rfl, by simp, by omega, hmajor⟩
  · exact ⟨fetch_half hcode, fetch_word hcode, fetch_longer hcode⟩
  · intro s k rest l e hagenda u f hrest hfault hcode hrefused
    exact (step_of_agenda_cons hagenda).trans (issue_of_decode_error (look_of_code hrest hfault hcode) hrefused)

/-- Settles O55: each word is the encoding of its instruction. -/
theorem decodesSpecWords : Obligations.DecodesSpecWords := by
  intro rest reads
  refine ⟨?_, ?_, ?_, ?_, ?_, ?_, ?_, ?_, ?_, ?_, ?_, ?_, ?_, ?_, ?_, ?_, ?_, ?_, ?_, ?_, ?_, ?_, ?_⟩ <;>
    exact decode_of_encode rest (by decide) rfl (by decide)

end Sys2Proof.Machine
end

section
/-!
PROOF of O1, O2 and O3. Every instruction here is one shared operation: a result in rd, a jump or a branch, so that its end outside an active gang is
proved once for the operation; what remains of each is the arithmetic of its result.
-/
namespace Sys2Proof.Machine

variable {s : State} {i : Instr} {rd : Reg} {v w : Dword} {len : Nat}

/-! ## Ends of a baton alone -/

/-- An instruction whose result is the value v, which is w. -/
theorem exec_result (h : s.alone) (hexec : exec i s = .next (s.finX rd v len)) (hv : v = w) : exec i s = .next (s.result rd w len) := by
  rw [hexec, finX_alone s rd v len h, hv]

/-- An instruction that jumps to v, of which n is the value. -/
theorem exec_jump {n : Int} (h : s.alone) (hexec : exec i s = .next (s.jump v)) (hv : v = wrap64 n) :
    exec i s = .next (s.movedTo (evenPart n)) := by
  rw [hexec, jump_alone s v h, hv, wrap64_even]

/-- An instruction that jumps to v, of which n is the value, and links. -/
theorem exec_jumpLink {n : Int} (h : s.alone) (hexec : exec i s = .next (s.jumpLink rd v len)) (hv : v = wrap64 n) :
    exec i s = .next (s.wroteX rd (s.me.pc + BitVec.ofNat 64 len) (evenPart n)) := by
  rw [hexec, State.jumpLink, setX_jump_alone s rd _ v h, hv, wrap64_even]
  rfl

/-- A conditional branch on b, which says whether p holds. -/
theorem exec_branch {n : Nat} {off : BitVec n} {b : Bool} {p : Prop} [Decidable p] (h : s.alone)
    (hexec : exec i s = .next (s.branchIf b (s.target off) len)) (hb : b = decide p) :
    exec i s = .next (if decide p then s.movedTo (evenPart (s.me.pc.toInt + 2 * off.toInt)) else s.movedTo (s.me.pc + BitVec.ofNat 64 len)) := by
  rw [hexec, State.branchIf, jump_alone s _ h, fin_alone s len h, target_eq, wrap64_even, hb]
  rfl

/-! ## Immediates and shift amounts -/

theorem dword_add_imm (a : Dword) (imm : BitVec 12) : a + sext64 imm = wrap64 (a.toInt + imm.toInt) := by
  rw [dword_add, sext64_toInt]

theorem simm6_toInt (imm : BitVec 6) : (simm6 imm).toInt = imm.toInt := BitVec.toInt_signExtend_of_le (by decide)

theorem lowW_zext64 (sh : Reg) : (lowW (zext64 sh)).toNat = sh.toNat := by
  rw [lowW_toNat, lowNat, zext64_toNat sh (by decide)]
  exact Nat.mod_eq_of_lt (Nat.lt_trans sh.isLt (by decide))

theorem upper_add (pc : Dword) (up : BitVec 20) : pc + sext64 (up ++ 0#12) = wrap64 (pc.toInt + up.toInt * 4096) := by
  rw [upper_eq, ← wrap64_add, ← eq_wrap64_toInt]

/-! ## Shifts -/

theorem dword_shl_amount (a : Dword) (sh : BitVec 6) : a <<< (zext64 sh).toNat = wrap64 (a.toNat * 2 ^ sh.toNat : Int) := by
  rw [zext64_toNat sh (by decide), dword_shl]
theorem dword_shr_amount (a : Dword) (sh : BitVec 6) : a >>> (zext64 sh).toNat = wrap64 (a.toNat / 2 ^ sh.toNat : Int) := by
  rw [zext64_toNat sh (by decide), dword_shr]
theorem dword_sar_amount (a : Dword) (sh : BitVec 6) : a.sshiftRight (zext64 sh).toNat = wrap64 (a.toInt / 2 ^ sh.toNat) := by
  rw [zext64_toNat sh (by decide), dword_sar]
theorem word_shl_reg (a b : Dword) : onW (fun a b => a <<< (b.toNat % 32)) a b = wrap32 (a.toNat * 2 ^ (b.toNat % 32) : Int) := by
  rw [onW, lowW_shamt, word_shl]
theorem word_shr_reg (a b : Dword) : onW (fun a b => a >>> (b.toNat % 32)) a b = wrap32 (lowNat a / 2 ^ (b.toNat % 32) : Int) := by
  rw [onW, lowW_shamt, word_shr]
theorem word_sar_reg (a b : Dword) : onW (fun a b => a.sshiftRight (b.toNat % 32)) a b = wrap32 (lowInt a / 2 ^ (b.toNat % 32)) := by
  rw [onW, lowW_shamt, word_sar]
theorem word_shl_amount (a : Dword) (sh : Reg) : onW (fun a b => a <<< b.toNat) a (zext64 sh) = wrap32 (a.toNat * 2 ^ sh.toNat : Int) := by
  rw [onW, lowW_zext64, word_shl]
theorem word_shr_amount (a : Dword) (sh : Reg) : onW (fun a b => a >>> b.toNat) a (zext64 sh) = wrap32 (lowNat a / 2 ^ sh.toNat : Int) := by
  rw [onW, lowW_zext64, word_shr]
theorem word_sar_amount (a : Dword) (sh : Reg) :
    onW (fun a b => a.sshiftRight b.toNat) a (zext64 sh) = wrap32 (lowInt a / 2 ^ sh.toNat) := by
  rw [onW, lowW_zext64, word_sar]

/-! ## Division -/

theorem dword_divS (a b : Dword) : divS a b = if b.toInt = 0 then wrap64 (-1) else wrap64 (a.toInt.tdiv b.toInt) := by
  simp only [divS_eq, toInt_eq_zero]
  rfl
theorem dword_divU (a b : Dword) : divU a b = if b.toNat = 0 then wrap64 (-1) else wrap64 (a.toNat / b.toNat : Int) := divU_eq a b
theorem word_divS (a b : Dword) :
    onW (fun a b => divS a b) a b = if lowInt b = 0 then wrap64 (-1) else wrap32 ((lowInt a).tdiv (lowInt b)) := by
  rw [onW, divS_eq, ← lowW_toInt, ← lowW_toInt]
  simp only [toInt_eq_zero]
  split
  · rfl
  · exact signExtend_eq_wrap32 _ _ rfl
theorem word_divU (a b : Dword) :
    onW (fun a b => divU a b) a b = if lowNat b = 0 then wrap64 (-1) else wrap32 (lowNat a / lowNat b : Int) := by
  rw [onW, divU_eq, lowW_toNat, lowW_toNat]
  split
  · rfl
  · exact signExtend_eq_wrap32 _ _ rfl
theorem word_remS (a b : Dword) : onW (fun a b => remS a b) a b = wrap32 ((lowInt a).tmod (lowInt b)) := by
  rw [onW, remS_eq, lowW_toInt, lowW_toInt]
  exact signExtend_eq_wrap32 _ _ rfl
theorem word_remU (a b : Dword) : onW (fun a b => remU a b) a b = wrap32 (lowNat a % lowNat b : Int) := by
  rw [onW, remU_eq, lowW_toNat, lowW_toNat]
  exact signExtend_eq_wrap32 _ _ rfl

/-! ## Conditions -/

theorem dword_not_slt (a b : Dword) : (!a.slt b) = decide (b.toInt ≤ a.toInt) := by simp only [BitVec.slt, ← decide_not, not_lt]
theorem dword_not_ult (a b : Dword) : (!a.ult b) = decide (b.toNat ≤ a.toNat) := by simp only [BitVec.ult, ← decide_not, not_lt]

/-- Settles O1: each instruction is a result, and its value is the arithmetic of its operation. -/
theorem integerResults : Obligations.IntegerResults := by
  unfold Obligations.IntegerResults
  refine ⟨fun s rd rs1 rs2 halone => ?registers, fun s rd rs1 sh5 imm sh up halone => ?immediates⟩
  case registers =>
    exact ⟨exec_result halone rfl (dword_add _ _), exec_result halone rfl (dword_sub _ _), exec_result halone rfl (dword_shl _ _),
      exec_result halone rfl (dword_shr _ _), exec_result halone rfl (dword_sar _ _), exec_result halone rfl (dword_slt _ _),
      exec_result halone rfl (dword_sltu _ _), exec_result halone rfl rfl, exec_result halone rfl rfl, exec_result halone rfl rfl,
      exec_result halone rfl (word_add _ _), exec_result halone rfl (word_sub _ _), exec_result halone rfl (word_shl_reg _ _),
      exec_result halone rfl (word_shr_reg _ _), exec_result halone rfl (word_sar_reg _ _)⟩
  case immediates =>
    have haddw : onW (fun a b => a + b) (s.x rs1) (sext64 imm) = wrap32 ((s.x rs1).toInt + imm.toInt) := by rw [word_add, sext64_toInt]
    have hslt : boolX ((s.x rs1).slt (sext64 imm)) = truth ((s.x rs1).toInt < imm.toInt) := by rw [dword_slt, sext64_toInt]
    exact ⟨exec_result halone rfl (dword_add_imm _ _), exec_result halone rfl hslt, exec_result halone rfl (dword_sltu _ _),
      exec_result halone rfl rfl, exec_result halone rfl rfl, exec_result halone rfl rfl, exec_result halone rfl (dword_shl_amount _ _),
      exec_result halone rfl (dword_shr_amount _ _), exec_result halone rfl (dword_sar_amount _ _), exec_result halone rfl haddw,
      exec_result halone rfl (word_shl_amount _ _), exec_result halone rfl (word_shr_amount _ _), exec_result halone rfl (word_sar_amount _ _),
      exec_result halone rfl (upper_eq up), exec_result halone rfl (upper_add _ up)⟩

/-- Settles O2: each instruction is a result, and its value is the arithmetic of its operation. -/
theorem multiplyAndDivideResults : Obligations.MultiplyAndDivideResults := by
  unfold Obligations.MultiplyAndDivideResults
  refine ⟨fun s rd rs1 rs2 halone => ?multiply, fun s rd rs1 rs2 halone => ?divide⟩
  case multiply =>
    exact ⟨exec_result halone rfl (dword_mul _ _), exec_result halone rfl rfl, exec_result halone rfl rfl, exec_result halone rfl rfl,
      exec_result halone rfl (word_mul _ _)⟩
  case divide =>
    exact ⟨exec_result halone rfl (dword_divS _ _), exec_result halone rfl (dword_divU _ _), exec_result halone rfl (remS_eq _ _),
      exec_result halone rfl (remU_eq _ _), exec_result halone rfl (word_divS _ _), exec_result halone rfl (word_divU _ _),
      exec_result halone rfl (word_remS _ _), exec_result halone rfl (word_remU _ _)⟩

/-- Settles O3: each instruction is a jump or a branch, with its target and its condition. -/
theorem jumpsAndBranches : Obligations.JumpsAndBranches := by
  unfold Obligations.JumpsAndBranches
  intro s rd rs1 rs2 off20 off imm halone
  dsimp only
  exact ⟨exec_jumpLink halone rfl (target_eq s off20), exec_jumpLink halone rfl (dword_add_imm _ imm), exec_branch halone rfl rfl,
    exec_branch halone rfl decide_not.symm, exec_branch halone rfl rfl, exec_branch halone rfl (dword_not_slt _ _),
    exec_branch halone rfl rfl, exec_branch halone rfl (dword_not_ult _ _)⟩

end Sys2Proof.Machine
end

section
/-!
PROOF of O4 and O6. The accesses of scalar loads, stores, LR, SC and the AMOs at a local address, and their traps at a misaligned one: each access
is proved once (R192, R193, R234), and each instruction is its access.
-/
namespace Sys2Proof.Machine

variable {s : State} {i : Instr} {rd : Reg} {v : Dword} {n c len : Nat}

/-! ## Loads and stores -/

theorem acquired_of_local {aq : Bool} {scope : Nat} (h : aq = true → scope < 2) : s.acquired aq scope = s := by
  unfold State.acquired State.acquireLog
  split
  next haq => exact if_neg (Nat.not_le.mpr (h haq))
  next => rfl

/-- A load that acquires at its scope, where it has one, and at its address a is granted or stalls. -/
theorem exec_load_local {u : State} {sgn : Bool} {acq : Option Nat} {a a' : Nat} (hn : n = 1 ∨ n = 2 ∨ n = 4 ∨ n = 8)
    (hexec : exec i s = .next (s.loadX rd a' n sgn false acq len)) (hu : u = s.acquired acq.isSome (acq.getD 0)) (haddr : a' = a)
    (h : u.alone) (ha : a % n = 0) (hc : u.ownCell .read a = some c) :
    exec i s = .next (if u.granted u.focus [c]
      then (u.result rd (wrap64 (if sgn then memInt u.mem c n else memNat u.mem c n)) len).unstall u.focus
      else u.stallOn u.focus [c]) := by
  subst haddr
  rw [hexec, loadX_local s u rd a' n sgn acq c len hn hu h ha hc]

/-- A store that its release scope, where it has one, lets pass. -/
theorem exec_store_local {rel : Option Nat} {a a' : Nat} (h : s.alone) (hexec : exec i s = .next (s.storeX a' n v rel len)) (haddr : a' = a)
    (hrel : ∀ r, rel = some r → s.released r = true) (ha : a % n = 0) (hc : s.ownCell .write a = some c)
    (hg : s.granted s.focus [c] = true) :
    exec i s = .next ((s.storedTo c (lowBytes v n) len).unstall s.focus) := by
  subst haddr
  rw [hexec, storeX_local s a' n v rel c len h ha hc hg hrel]

/-- A store whose release scope has unanswered stores. -/
theorem storeX_waits {a scope : Nat} (ha : a % n = 0) (hrel : s.released scope = false) : s.storeX a n v (some scope) len = s := by
  unfold State.storeX State.whenReleased
  simp only [ha, hrel, ne_eq, not_true_eq_false, if_false, Bool.false_eq_true]

theorem scopedBytes_cases (w : Nat) : scopedBytes w = 1 ∨ scopedBytes w = 2 ∨ scopedBytes w = 4 ∨ scopedBytes w = 8 := by
  have h : ∀ k < 4, 2 ^ k = 1 ∨ 2 ^ k = 2 ∨ 2 ^ k = 4 ∨ 2 ^ k = 8 := by decide
  exact h (w % 4) (Nat.mod_lt _ (by decide))

theorem scopedBytes_of_two_bits (w : BitVec 2) : scopedBytes w.toNat = 2 ^ w.toNat := by
  rw [scopedBytes, Nat.mod_eq_of_lt w.isLt]

/-- Settles O4: each load is granted or stalls at its cell, and each store writes its cell. -/
theorem localLoadsAndStores : Obligations.LocalLoadsAndStores := by
  unfold Obligations.LocalLoadsAndStores
  refine ⟨fun s rd rs1 imm c => ?loads, fun s rs1 rs2 imm c halone => ?stores⟩
  case loads =>
    exact ⟨exec_load_local (by decide) rfl rfl rfl, exec_load_local (by decide) rfl rfl rfl, exec_load_local (by decide) rfl rfl rfl,
      exec_load_local (by decide) rfl rfl rfl, exec_load_local (by decide) rfl rfl rfl, exec_load_local (by decide) rfl rfl rfl,
      exec_load_local (by decide) rfl rfl rfl,
      fun scope width off _ => exec_load_local (acq := some scope.toNat) (scopedBytes_cases width.toNat) rfl rfl rfl⟩
  case stores =>
    have hplain : ∀ r : Nat, none = some r → s.released r = true := fun _ h => nomatch h
    refine ⟨exec_store_local halone rfl rfl hplain, exec_store_local halone rfl rfl hplain, exec_store_local halone rfl rfl hplain,
      exec_store_local halone rfl rfl hplain, fun scope width off hreleased => ?_, fun scope width off hwaits ha => ?_⟩
    · rw [← scopedBytes_of_two_bits]
      exact exec_store_local halone rfl rfl fun r hr => Option.some.inj hr ▸ hreleased
    · rw [← scopedBytes_of_two_bits] at ha
      exact congrArg Host.Outcome.next (storeX_waits ha hwaits)

/-! ## Misaligned accesses -/

section
variable {a : Dword} {aq rl : Bool} (h : s.canTrap)
include h

theorem trap_address {k : Nat} (hk : k ≠ 26) (a : Dword) : s.trap k (BitVec.ofNat 64 a.toNat) = s.trapped (BitVec.ofNat 8 k) a := by
  rw [BitVec.ofNat_toNat, BitVec.setWidth_eq, trap_alone s k a h hk]

theorem exec_load_misaligned {sgn lr : Bool} {acq : Option Nat} (hexec : exec i s = .next (s.loadX rd a.toNat n sgn lr acq len))
    (ha : a.toNat % n ≠ 0) : exec i s = .next (s.trapped 5 a) := by
  rw [hexec, loadX_misaligned s rd _ n sgn lr acq len ha, trap_address h (by decide)]
  rfl

theorem exec_store_misaligned {rel : Option Nat} (hexec : exec i s = .next (s.storeX a.toNat n v rel len)) (ha : a.toNat % n ≠ 0) :
    exec i s = .next (s.trapped 7 a) := by
  rw [hexec, storeX_misaligned s _ n v rel len ha, trap_address h (by decide)]
  rfl

theorem exec_amo_misaligned {op : AmoOp} (hexec : exec i s = .next (s.amoX op rd a.toNat n v aq rl len)) (ha : a.toNat % n ≠ 0) :
    exec i s = .next (s.trapped 7 a) := by
  rw [hexec, amoX_misaligned s op rd _ n v aq rl len ha, trap_address h (by decide)]
  rfl
end

/-- LR with rl once its posted stores are answered is a load that reserves. -/
theorem exec_lr {rs1 : Reg} {aq rl dbl : Bool} (hrel : rl = true → s.released s.mscope = true) :
    exec (.lr rd rs1 aq rl dbl) s =
      .next (s.loadX rd (s.x rs1).toNat (amoBytes dbl) true true (if aq then some s.mscope else none) 4) := by
  cases rl with
  | false => rfl
  | true => exact congrArg Host.Outcome.next (if_pos (hrel rfl))

/-- Settles O6: each instruction is its access, and every access of its kind traps. -/
theorem misalignedAccessesTrap : Obligations.MisalignedAccessesTrap := by
  unfold Obligations.MisalignedAccessesTrap
  intro s rd rs1 rs2 imm aq dbl htrap
  dsimp only
  refine ⟨exec_load_misaligned htrap rfl, exec_load_misaligned htrap rfl, exec_load_misaligned htrap rfl, exec_load_misaligned htrap rfl,
    exec_load_misaligned htrap rfl, exec_store_misaligned htrap rfl, exec_store_misaligned htrap rfl, exec_store_misaligned htrap rfl,
    fun rl hrel => exec_load_misaligned htrap (exec_lr hrel), fun rl => exec_amo_misaligned htrap rfl, fun rl => exec_amo_misaligned htrap rfl,
    fun rl => exec_amo_misaligned htrap rfl, fun rl => exec_amo_misaligned htrap rfl, fun rl => exec_amo_misaligned htrap rfl,
    fun rl => exec_amo_misaligned htrap rfl, fun rl => exec_amo_misaligned htrap rfl, fun rl => exec_amo_misaligned htrap rfl,
    fun rl => exec_amo_misaligned htrap rfl, fun rl => exec_amo_misaligned htrap rfl,
    fun scope width off => exec_load_misaligned htrap rfl, fun scope width off => ?_⟩
  rw [← scopedBytes_of_two_bits]
  exact exec_store_misaligned htrap rfl

end Sys2Proof.Machine
end

section
/-!
PROOF of O7. LR, SC and the AMOs at a local address: what a read-modify-write stores is exact arithmetic on the two values that wraps to the width
(R191), and the access writes it and leaves every other byte (R193).
-/
namespace Sys2Proof.Machine

/-! ## The values -/

section
variable {w : Nat} (a b : BitVec w)

theorem amoApply_swap : amoApply .swap a b = BitVec.ofInt w b.toInt := BitVec.ofInt_toInt.symm

theorem amoApply_add : amoApply .add a b = BitVec.ofInt w (a.toInt + b.toInt) := by
  rw [BitVec.ofInt_add, BitVec.ofInt_toInt, BitVec.ofInt_toInt]
  rfl

/-- A bitwise operation on sign-extended values, and its result by its low bits. -/
theorem ofInt_toInt_signExtend (h : w ≤ 64) : BitVec.ofInt w (a.signExtend 64).toInt = a := by
  rw [BitVec.toInt_signExtend_of_le h, BitVec.ofInt_toInt]

theorem amoApply_xor (h : w ≤ 64) : amoApply .xor a b = BitVec.ofInt w (wrap64 a.toInt ^^^ wrap64 b.toInt).toInt := by
  rw [← sext64_eq, ← sext64_eq, ← BitVec.signExtend_xor, ofInt_toInt_signExtend _ h]
  rfl

theorem amoApply_and (h : w ≤ 64) : amoApply .and a b = BitVec.ofInt w (wrap64 a.toInt &&& wrap64 b.toInt).toInt := by
  rw [← sext64_eq, ← sext64_eq, ← BitVec.signExtend_and, ofInt_toInt_signExtend _ h]
  rfl

theorem amoApply_or (h : w ≤ 64) : amoApply .or a b = BitVec.ofInt w (wrap64 a.toInt ||| wrap64 b.toInt).toInt := by
  rw [← sext64_eq, ← sext64_eq, ← BitVec.signExtend_or, ofInt_toInt_signExtend _ h]
  rfl

theorem amoApply_min : amoApply .min a b = BitVec.ofInt w (min a.toInt b.toInt) := by
  simp only [amoApply, BitVec.slt, decide_eq_true_eq]
  split
  next h => rw [min_eq_left h.le, BitVec.ofInt_toInt]
  next h => rw [min_eq_right (not_lt.mp h), BitVec.ofInt_toInt]

theorem amoApply_max : amoApply .max a b = BitVec.ofInt w (max a.toInt b.toInt) := by
  simp only [amoApply, BitVec.slt, decide_eq_true_eq]
  split
  next h => rw [max_eq_right h.le, BitVec.ofInt_toInt]
  next h => rw [max_eq_left (not_lt.mp h), BitVec.ofInt_toInt]

theorem amoApply_minu : amoApply .minu a b = BitVec.ofInt w (min (a.toNat : Int) b.toNat) := by
  simp only [amoApply, BitVec.ult, decide_eq_true_eq]
  split
  next h => rw [min_eq_left (Int.ofNat_le.mpr h.le), BitVec.ofInt_natCast, BitVec.ofNat_toNat, BitVec.setWidth_eq]
  next h => rw [min_eq_right (Int.ofNat_le.mpr (not_lt.mp h)), BitVec.ofInt_natCast, BitVec.ofNat_toNat, BitVec.setWidth_eq]

theorem amoApply_maxu : amoApply .maxu a b = BitVec.ofInt w (max (a.toNat : Int) b.toNat) := by
  simp only [amoApply, BitVec.ult, decide_eq_true_eq]
  split
  next h => rw [max_eq_right (Int.ofNat_le.mpr h.le), BitVec.ofInt_natCast, BitVec.ofNat_toNat, BitVec.setWidth_eq]
  next h => rw [max_eq_left (Int.ofNat_le.mpr (not_lt.mp h)), BitVec.ofInt_natCast, BitVec.ofNat_toNat, BitVec.setWidth_eq]
end

/-- The value that an AMO stores, by its width. -/
theorem amoResult_eq (op : AmoOp) {n : Nat} (hn : n = 4 ∨ n = 8) (old src : Nat) :
    amoResult op n old src = (amoApply op (BitVec.ofNat (8 * n) old) (BitVec.ofNat (8 * n) src)).toNat := by
  rcases hn with rfl | rfl <;> rfl

/-- The low w bits of a register, as a signed number and as an unsigned one. -/
theorem toInt_ofNat_low {w : Nat} (x : Dword) (h : w ≤ 64) : (BitVec.ofNat w x.toNat).toInt = x.toInt.bmod (2 ^ w) := by
  have hlow := BitVec.toInt_signExtend (v := w) x
  rw [Nat.min_eq_left h, BitVec.signExtend_eq_setWidth_of_le x h] at hlow
  rw [BitVec.ofNat_toNat, hlow]

theorem ofNat_mod_two_pow (w v : Nat) : BitVec.ofNat w (v % 2 ^ w) = BitVec.ofNat w v :=
  BitVec.eq_of_toNat_eq (by rw [BitVec.toNat_ofNat, BitVec.toNat_ofNat, Nat.mod_mod])

theorem toNat_eq_emod {w : Nat} {a : BitVec w} {r : Int} (h : a = BitVec.ofInt w r) : (a.toNat : Int) = r % 2 ^ w := by
  rw [h, BitVec.toNat_ofInt, Int.toNat_of_nonneg (Int.emod_nonneg _ (by positivity))]
  push_cast
  rfl

theorem toNat_low_eq_emod {w : Nat} (x : Dword) (h : w ≤ 64) : ((x.toNat % 2 ^ w : Nat) : Int) = x.toInt.bmod (2 ^ w) % 2 ^ w := by
  rw [← toInt_ofNat_low x h, ← toNat_eq_emod BitVec.ofInt_toInt.symm, BitVec.toNat_ofNat]

theorem toInt_ofNat_memNat (m : Memory) (c n : Nat) : (BitVec.ofNat (8 * n) (memNat m c n)).toInt = memInt m c n := by
  rw [BitVec.toInt_eq_toNat_bmod, BitVec.toNat_ofNat, Nat.mod_eq_of_lt (memNat_lt m c n)]
  rfl

/-! ## The access -/

section
variable {s : State} {i : Instr} {rd rs1 rs2 : Reg} {aq rl dbl : Bool} {a n c len : Nat} {op : AmoOp} {src : Dword}

theorem memNat_writeBytes (m : Memory) (c n v : Nat) : memNat (writeBytes m c (bytesLE n v)) c n = v % 2 ^ (8 * n) := by
  rw [← readLE_eq_memNat, readLE_writeBytes, Nat.pow_mul]

theorem memSameBut_store (who : Option Nat) (v : Nat) : s.memSameBut (s.storeLE who c n v) c n := by
  intro k hk
  exact readByte_writeBytes_out _ _ _ _ (by rwa [length_bytesLE])

theorem xWritten_of_wrote {t : State} {u : Slot} {v npc : Dword} (ht : t.me = u.wrote rd v npc) (hu : u.x = s.me.x) : s.xWritten t rd v := by
  intro q
  rw [State.x, ht, getX_wrote, State.x, Slot.getX, Slot.getX, hu]
  rfl

/-- A result in rd, of a state whose focus slot is that of s but for its reservation. -/
theorem finX_of_me {t : State} {r : Option Nat} (ht : t.alone) (hme : t.me = { s.me with reserved := r }) (v : Dword) :
    (t.finX rd v 4).me.pc = s.me.pc + 4 ∧ (t.finX rd v 4).me.reserved = r ∧ s.xWritten (t.finX rd v 4) rd v ∧ (t.finX rd v 4).mem = t.mem := by
  have hfin : (t.finX rd v 4).me = Slot.wrote { s.me with reserved := r } rd v (s.me.pc + 4) := by
    rw [finX_alone t rd v 4 ht, ← hme, State.result, State.wroteX, me_ended, hme]
    rfl
  refine ⟨by rw [hfin]; rfl, by rw [hfin]; rfl, xWritten_of_wrote hfin rfl, ?_⟩
  rw [finX_alone t rd v 4 ht]
  rfl

/-- An access of LR, SC or an AMO that is performed at once at a local cell: it is aligned and admitted, its bank is granted and no access waits for a
bank, and neither the log nor posted stores hold it up. -/
structure State.atomicAt (s : State) (a n c : Nat) (aq rl : Bool) : Prop where
  alone : s.alone
  noWait : s.noBankWait
  width : n = 4 ∨ n = 8
  aligned : a % n = 0
  readCell : s.ownCell .read a = some c
  amoCell : s.ownCell .amo a = some c
  granted : s.granted s.focus [c] = true
  acquires : aq = true → s.mscope < 2
  releases : rl = true → s.released s.mscope = true

theorem State.atomicAt.bits_le (h : s.atomicAt a n c aq rl) : 8 * n ≤ 64 := by
  rcases h.width with rfl | rfl <;> decide

/-- The value that a load of the width leaves, sign-extended. -/
theorem State.atomicAt.loadValue_eq (h : s.atomicAt a n c aq rl) : loadValue n true (s.loadLE c n) = wrap64 (memInt s.mem c n) := by
  have hn : n = 1 ∨ n = 2 ∨ n = 4 ∨ n = 8 := .inr (.inr h.width)
  rw [State.loadLE, readLE_eq_memNat, loadValue_memNat _ _ _ true hn, if_pos rfl]

/-- A result after an access that leaves the banks: no wait is over by it. -/
theorem State.atomicAt.unstall_eq {t : State} (h : s.atomicAt a n c aq rl) (ht : t.alone) (hpower : t.power s.myDie = s.power s.myDie)
    (v : Dword) : (t.finX rd v 4).unstall s.focus = t.finX rd v 4 := by
  refine unstall_of_noBankWait h.noWait ?_
  rw [finX_alone t rd v 4 ht]
  exact hpower

theorem onCells_granted {cells : List Nat} (h : s.granted s.focus cells = true) (f : State → State) :
    s.onCells cells f = (f s).unstall s.focus :=
  if_pos h

/-- The read-modify-write of the cell. -/
theorem amoX_local (h : s.atomicAt a n c aq rl) :
    s.amoX op rd a n src aq rl len =
      ((s.amoCell (some s.focus) op c n (src.toNat % 2 ^ (8 * n))).2.finX rd
        (if op = .sc then BitVec.ofNat 64 (s.amoCell (some s.focus) op c n (src.toNat % 2 ^ (8 * n))).1
          else loadValue n true (s.amoCell (some s.focus) op c n (src.toNat % 2 ^ (8 * n))).1) len).unstall s.focus := by
  have hlocal := isLocal_of_localCell _ _ _ _ (localCell_of_ownCell _ _ _ _ h.amoCell)
  have hpass : ∀ f : State → State, (if rl then s.whenReleased s.mscope f else f s) = f s := by
    intro f
    split
    next hrl => exact if_pos (h.releases hrl)
    next => rfl
  unfold State.amoX
  dsimp only
  rw [if_neg (not_not_intro h.aligned), hpass, acquired_of_local h.acquires, if_pos hlocal, h.amoCell]
  exact onCells_granted h.granted _

theorem amoCell_stores (who : Option Nat) (v : Nat) (hsc : op ≠ .sc) (hlr : op ≠ .lr) :
    s.amoCell who op c n v = (s.loadLE c n, s.storeLE who c n (amoResult op n (s.loadLE c n) v)) := by
  cases op with
  | sc => exact absurd rfl hsc
  | lr => exact absurd rfl hlr
  | swap | add | xor | and | or | min | max | minu | maxu => rfl

/-- An AMO whose operation on the two values is r, reduced to the width. -/
theorem exec_amo_local {r : Int} (h : s.atomicAt a n c aq rl) (hexec : exec i s = .next (s.amoX op rd a n src aq rl 4)) (hsc : op ≠ .sc)
    (hlr : op ≠ .lr)
    (hr : amoApply op (BitVec.ofNat (8 * n) (memNat s.mem c n)) (BitVec.ofNat (8 * n) src.toNat) = BitVec.ofInt (8 * n) r) :
    ∃ t, exec i s = .next t ∧ s.xWritten t rd (wrap64 (memInt s.mem c n)) ∧ t.me.pc = s.me.pc + 4 ∧
      (memNat t.mem c n : Int) = r % 2 ^ (8 * n) ∧ s.memSameBut t c n := by
  have hstored := store_alone s c (bytesLE n (amoResult op n (s.loadLE c n) (src.toNat % 2 ^ (8 * n)))) h.alone
  rw [amoX_local h, amoCell_stores _ _ hsc hlr, if_neg hsc, h.loadValue_eq] at hexec
  obtain ⟨hpc, -, hx, hmem⟩ := finX_of_me (rd := rd) (s := s) hstored (me_store s c _) (wrap64 (memInt s.mem c n))
  refine ⟨_, hexec.trans (congrArg Host.Outcome.next (h.unstall_eq hstored rfl _)), hx, hpc, ?_, ?_⟩
  · rw [hmem, mem_store, memNat_writeBytes, State.loadLE, readLE_eq_memNat, amoResult_eq op h.width, ofNat_mod_two_pow,
      Nat.mod_eq_of_lt (BitVec.isLt _), toNat_eq_emod hr]
  · unfold State.memSameBut
    rw [hmem]
    exact memSameBut_store _ _

/-- LR reserves the 8 bytes that hold its cell. -/
theorem exec_lr_local (h : s.atomicAt (s.x rs1).toNat (amoBytes dbl) c aq rl) :
    ∃ t, exec (.lr rd rs1 aq rl dbl) s = .next t ∧ t.mem = s.mem ∧ t.me.pc = s.me.pc + 4 ∧ t.me.reserved = some (c / 8 * 8) ∧
      s.xWritten t rd (wrap64 (memInt s.mem c (amoBytes dbl))) := by
  have hacquired : s.acquired (if aq then some s.mscope else none).isSome ((if aq then some s.mscope else none).getD 0) = s := by
    cases aq with
    | false => rfl
    | true => exact acquired_of_local fun _ => h.acquires rfl
  have hlocal := isLocal_of_localCell _ _ _ _ (localCell_of_ownCell _ _ _ _ h.readCell)
  have hreserved : (s.reserve s.focus c).alone := setMe_alone (t := { s.me with reserved := some (c / 8 * 8) }) h.alone rfl
  have hexec := exec_lr (rd := rd) (rs1 := rs1) (aq := aq) (dbl := dbl) h.releases
  unfold State.loadX at hexec
  dsimp only at hexec
  rw [hacquired, if_neg (not_not_intro h.aligned), if_pos hlocal, h.readCell] at hexec
  obtain ⟨hpc, hres, hx, hmem⟩ := finX_of_me (rd := rd) (s := s) (r := some (c / 8 * 8)) hreserved (me_setMe s _)
    (wrap64 (memInt s.mem c (amoBytes dbl)))
  dsimp only at hexec
  rw [onCells_granted h.granted, if_pos rfl, h.loadValue_eq, h.unstall_eq hreserved rfl] at hexec
  exact ⟨_, hexec, hmem, hpc, hres, hx⟩

/-- SC stores where the slot holds the reservation of its cell, and gives it up in any case. -/
theorem exec_sc_local (h : s.atomicAt a n c aq rl) (hexec : exec i s = .next (s.amoX .sc rd a n src aq rl 4)) :
    ∃ t, exec i s = .next t ∧ t.me.pc = s.me.pc + 4 ∧ t.me.reserved = none ∧ s.memSameBut t c n ∧
      (if s.me.reserved = some (c / 8 * 8)
        then (memNat t.mem c n : Int) = src.toInt.bmod (2 ^ (8 * n)) % 2 ^ (8 * n) ∧ s.xWritten t rd 0
        else t.mem = s.mem ∧ s.xWritten t rd 1) := by
  have hgone : (s.setMe { s.me with reserved := none }).alone := setMe_alone h.alone rfl
  have hstored := store_alone _ c (bytesLE n (src.toNat % 2 ^ (8 * n))) hgone
  rw [amoX_local h, if_pos rfl] at hexec
  by_cases hheld : s.me.reserved = some (c / 8 * 8)
  · have hcell : s.amoCell (some s.focus) .sc c n (src.toNat % 2 ^ (8 * n)) =
        (0, (s.setMe { s.me with reserved := none }).storeLE (some s.focus) c n (src.toNat % 2 ^ (8 * n))) :=
      if_pos (beq_iff_eq.mpr hheld)
    rw [hcell] at hexec
    obtain ⟨hpc, hres, hx, hmem⟩ := finX_of_me (rd := rd) (s := s) hstored ((me_store _ c _).trans (me_setMe s _)) (BitVec.ofNat 64 0)
    refine ⟨_, hexec.trans (congrArg Host.Outcome.next (h.unstall_eq hstored rfl _)), hpc, hres, ?_, ?_⟩
    · unfold State.memSameBut
      rw [hmem]
      exact memSameBut_store _ _
    · rw [if_pos hheld, hmem, mem_store, memNat_writeBytes]
      refine ⟨?_, hx⟩
      rw [Nat.mod_mod, toNat_low_eq_emod src h.bits_le]
  · have hcell : s.amoCell (some s.focus) .sc c n (src.toNat % 2 ^ (8 * n)) = (1, s.setMe { s.me with reserved := none }) :=
      if_neg fun he => hheld (beq_iff_eq.mp he)
    rw [hcell] at hexec
    obtain ⟨hpc, hres, hx, hmem⟩ := finX_of_me (rd := rd) (s := s) hgone (me_setMe s _) (BitVec.ofNat 64 1)
    refine ⟨_, hexec.trans (congrArg Host.Outcome.next (h.unstall_eq hgone rfl _)), hpc, hres, ?_, ?_⟩
    · unfold State.memSameBut
      rw [hmem]
      exact fun _ _ => rfl
    · rw [if_neg hheld, hmem]
      exact ⟨rfl, hx⟩
end

/-- Settles O7: every AMO is one read-modify-write with the arithmetic of its operation, LR and SC keep and spend the reservation. -/
theorem atomicResults : Obligations.AtomicResults := by
  unfold Obligations.AtomicResults
  intro s rd rs1 rs2 aq rl dbl c halone
  dsimp only
  intro hwait ha hread hamo hg haq hrl
  have h : s.atomicAt (s.x rs1).toNat (amoBytes dbl) c aq rl :=
    ⟨halone, hwait, by cases dbl <;> simp [amoBytes], ha, hread, hamo, hg, haq, hrl⟩
  have hw : 8 * (if dbl then 8 else 4) ≤ 64 := h.bits_le
  have hold := toInt_ofNat_memNat s.mem c (if dbl then 8 else 4)
  have hsrc := toInt_ofNat_low (s.x rs2) hw
  have holdU : (BitVec.ofNat (8 * if dbl then 8 else 4) (memNat s.mem c (if dbl then 8 else 4))).toNat = memNat s.mem c (if dbl then 8 else 4) :=
    (BitVec.toNat_ofNat _ _).trans (Nat.mod_eq_of_lt (memNat_lt ..))
  have hsrcU := BitVec.toNat_ofNat (s.x rs2).toNat (8 * if dbl then 8 else 4)
  refine ⟨exec_amo_local h rfl (by decide) (by decide) ?swap, exec_amo_local h rfl (by decide) (by decide) ?add,
    exec_amo_local h rfl (by decide) (by decide) ?xor, exec_amo_local h rfl (by decide) (by decide) ?and,
    exec_amo_local h rfl (by decide) (by decide) ?or, exec_amo_local h rfl (by decide) (by decide) ?min,
    exec_amo_local h rfl (by decide) (by decide) ?max, exec_amo_local h rfl (by decide) (by decide) ?minu,
    exec_amo_local h rfl (by decide) (by decide) ?maxu, exec_lr_local h, exec_sc_local h rfl⟩
  case swap => rw [amoApply_swap, hsrc]
  case add => rw [amoApply_add, hold, hsrc]
  case xor => rw [amoApply_xor _ _ hw, hold, hsrc]
  case and => rw [amoApply_and _ _ hw, hold, hsrc]
  case or => rw [amoApply_or _ _ hw, hold, hsrc]
  case min => rw [amoApply_min, hold, hsrc]
  case max => rw [amoApply_max, hold, hsrc]
  case minu => rw [amoApply_minu, holdU, hsrcU]
  case maxu => rw [amoApply_maxu, holdU, hsrcU]

end Sys2Proof.Machine
end

section
/-!
PROOF of O8. A 16-bit instruction is the shared operation of the instruction it expands to, at length 2 (R190, R191): what remains is the arithmetic of
its short immediates and scaled offsets.
-/
namespace Sys2Proof.Machine

variable {s : State} {rd : Reg} {v : Dword} {n c : Nat}

/-! ## Short immediates -/

theorem dword_add_simm6 (a : Dword) (imm : BitVec 6) : a + simm6 imm = wrap64 (a.toInt + imm.toInt) := by
  rw [dword_add, simm6_toInt]

theorem word_add_simm6 (a : Dword) (imm : BitVec 6) : onW (fun a b => a + b) a (simm6 imm) = wrap32 (a.toInt + imm.toInt) := by
  rw [word_add, simm6_toInt]

theorem dword_add_simm6_shl (a : Dword) (imm : BitVec 6) (k : Nat) : a + simm6 imm <<< k = wrap64 (a.toInt + 2 ^ k * imm.toInt) := by
  rw [simm6_shl, ← wrap64_add, ← eq_wrap64_toInt]

theorem uimm_eq_wrap64 {m : Nat} (u : BitVec m) (hm : m ≤ 11) {k : Nat} (hk : k ≤ 3) : uimm u k = wrap64 ((2 ^ k * u.toNat : Nat) : Int) := by
  rw [wrap64, BitVec.ofInt_natCast, ← uimm_eq u hm k hk, BitVec.ofNat_toNat, BitVec.setWidth_eq]

theorem dword_add_uimm (a : Dword) (u : BitVec 8) : a + uimm u 2 = wrap64 (a.toInt + 4 * u.toNat) := by
  rw [uimm_eq_wrap64 u (by decide) (by decide), Nat.cast_mul]
  exact (congrArg (· + _) (eq_wrap64_toInt a)).trans (wrap64_add _ _)

/-- The address of a load or store with a scaled offset. -/
theorem scaled_address (b : Dword) {m : Nat} (u : BitVec m) (hm : m ≤ 11) {k : Nat} (hk : k ≤ 3) :
    (b + uimm u k).toNat = (b.toNat + 2 ^ k * u.toNat) % 2 ^ 64 := by
  rw [BitVec.toNat_add, uimm_eq u hm k hk]

/-! ## Loads and stores -/

variable {i : Instr} {b : Dword} {m k : Nat} {u : BitVec m}

theorem exec_load_scaled (h : s.alone) (hn : n = 1 ∨ n = 2 ∨ n = 4 ∨ n = 8) (hexec : exec i s = .next (s.loadX rd (b + uimm u k).toNat n true false none 2))
    (hm : m ≤ 11) (hk : k ≤ 3) (hc : s.ownCell .read ((b.toNat + 2 ^ k * u.toNat) % 2 ^ 64) = some c) (hg : s.granted s.focus [c] = true)
    (ha : (b.toNat + 2 ^ k * u.toNat) % 2 ^ 64 % n = 0) :
    exec i s = .next ((s.result rd (wrap64 (memInt s.mem c n)) 2).unstall s.focus) := by
  rw [exec_load_local hn hexec (u := s) rfl (scaled_address b u hm hk) h ha hc, if_pos hg, if_pos rfl]

theorem exec_store_scaled (h : s.alone) (hexec : exec i s = .next (s.storeX (b + uimm u k).toNat n v none 2)) (hm : m ≤ 11) (hk : k ≤ 3)
    (hc : s.ownCell .write ((b.toNat + 2 ^ k * u.toNat) % 2 ^ 64) = some c) (hg : s.granted s.focus [c] = true)
    (ha : (b.toNat + 2 ^ k * u.toNat) % 2 ^ 64 % n = 0) :
    exec i s = .next ((s.storedTo c (lowBytes v n) 2).unstall s.focus) :=
  exec_store_local h hexec (scaled_address b u hm hk) (fun _ hr => nomatch hr) ha hc hg

/-- Settles O8: each instruction is a result, a jump, a branch, a load or a store of length 2. -/
theorem compressedInstructions : Obligations.CompressedInstructions := by
  unfold Obligations.CompressedInstructions
  refine ⟨fun s rd rs2 rdc rsc i sh u8 halone => ?results, fun s rd rs1 rs2 r1 r2 u5 u6 off far c halone => ?others⟩
  case results =>
    exact ⟨exec_result halone rfl (dword_add_uimm _ _), exec_result halone rfl (dword_add_simm6 _ _),
      congrArg Host.Outcome.next (fin_alone s 2 halone), exec_result halone rfl (word_add_simm6 _ _), exec_result halone rfl (sext64_eq i),
      exec_result halone rfl (dword_add_simm6_shl _ _ 4), exec_result halone rfl (simm6_shl _ 12),
      exec_result halone rfl (dword_shr_amount _ _), exec_result halone rfl (dword_sar_amount _ _), exec_result halone rfl rfl,
      exec_result halone rfl (dword_sub _ _), exec_result halone rfl rfl, exec_result halone rfl rfl, exec_result halone rfl rfl,
      exec_result halone rfl (word_sub _ _), exec_result halone rfl (word_add _ _), exec_result halone rfl (dword_shl_amount _ _),
      exec_result halone rfl rfl, exec_result halone rfl (dword_add _ _)⟩
  case others =>
    have hwidth4 : 4 = 1 ∨ 4 = 2 ∨ 4 = 4 ∨ 4 = 8 := by decide
    have hwidth8 : 8 = 1 ∨ 8 = 2 ∨ 8 = 4 ∨ 8 = 8 := by decide
    exact ⟨exec_jump halone rfl (target_eq s far), exec_jump halone rfl (eq_wrap64_toInt _), exec_jumpLink halone rfl (eq_wrap64_toInt _),
      exec_branch halone rfl rfl, exec_branch halone rfl decide_not.symm,
      exec_load_scaled (u := u5) (k := 2) halone hwidth4 rfl (by decide) (by decide),
      exec_load_scaled (u := u5) (k := 3) halone hwidth8 rfl (by decide) (by decide),
      exec_store_scaled (u := u5) (k := 2) halone rfl (by decide) (by decide), exec_store_scaled (u := u5) (k := 3) halone rfl (by decide) (by decide),
      exec_load_scaled (u := u6) (k := 2) halone hwidth4 rfl (by decide) (by decide),
      exec_load_scaled (u := u6) (k := 3) halone hwidth8 rfl (by decide) (by decide),
      exec_store_scaled (u := u6) (k := 2) halone rfl (by decide) (by decide), exec_store_scaled (u := u6) (k := 3) halone rfl (by decide) (by decide)⟩

end Sys2Proof.Machine
end

section
/-!
PROOF of O11. A conversion to an integer is one rounding (R162): the floor of a magnitude and the place of what is left of it give the rounding of the
number in every mode. An integer of at most 24 bits has a significand of FP32, so that its conversion drops nothing.
-/
namespace Sys2Proof.Machine

/-! ## What is left above the floor -/

/-- The place of a fraction t in [0, 1). -/
def Rest.Holds (t : ℚ) : Rest → Prop
  | .exact => t = 0
  | .below => 0 < t ∧ t < 1 / 2
  | .half => t = 1 / 2
  | .above => 1 / 2 < t ∧ t < 1

theorem restOf_holds {r d : Nat} (h : r < d) : (restOf r d).Holds ((r : ℚ) / d) := by
  have hd : (0 : ℚ) < d := by exact_mod_cast Nat.zero_lt_of_lt h
  unfold restOf
  split
  next hr => subst hr; simp [Rest.Holds]
  next hr =>
    have hpos : (0 : ℚ) < r := by exact_mod_cast Nat.pos_of_ne_zero hr
    split
    next hlt =>
      refine ⟨by positivity, ?_⟩
      rw [div_lt_div_iff₀ hd two_pos, one_mul, mul_comm]
      exact_mod_cast hlt
    next hge =>
      split
      next heq =>
        show (r : ℚ) / d = 1 / 2
        rw [div_eq_div_iff hd.ne' two_ne_zero, one_mul, mul_comm]
        exact_mod_cast heq
      next hne =>
        refine ⟨?_, (div_lt_one hd).mpr (by exact_mod_cast h)⟩
        rw [div_lt_div_iff₀ two_pos hd, one_mul, mul_comm]
        exact_mod_cast (by omega : d < 2 * r)

section
variable {t : ℚ} (f : Nat)

theorem floor_add_fraction (h0 : 0 ≤ t) (h1 : t < 1) : ⌊(f : ℚ) + t⌋ = f := by
  rw [Int.floor_eq_iff]
  push_cast
  constructor <;> linarith

theorem ceil_add_fraction (h0 : 0 < t) (h1 : t ≤ 1) : ⌈(f : ℚ) + t⌉ = f + 1 := by
  rw [Int.ceil_eq_iff]
  push_cast
  constructor <;> linarith
end

theorem roundTo_intCast (m : RMode) (i : Int) : roundTo m (i : ℚ) = i := by
  cases m with
  | rne => simp [roundTo]
  | rtz => simp [roundTo]
  | rdn => simp [roundTo]
  | rup => simp [roundTo]
  | rmm =>
    have hup : ⌊(i : ℚ) + 1 / 2⌋ = i := by rw [Int.floor_eq_iff]; constructor <;> linarith
    have hdown : ⌈(i : ℚ) - 1 / 2⌉ = i := by rw [Int.ceil_eq_iff]; constructor <;> linarith
    rw [roundTo, hup, hdown, ite_self]

/-! ## Rounding to nearest -/

section
variable {v : ℚ} {k : Int}

theorem roundTo_rne_low (hfloor : ⌊v⌋ = k) (h : v - k < 1 / 2) : roundTo .rne v = k := by
  simp only [roundTo, hfloor, if_pos h]

theorem roundTo_rne_high (hfloor : ⌊v⌋ = k) (h : 1 / 2 < v - k) : roundTo .rne v = k + 1 := by
  simp only [roundTo, hfloor, if_neg h.not_gt, if_pos h]

theorem roundTo_rne_tie (hfloor : ⌊v⌋ = k) (h : v - k = 1 / 2) : roundTo .rne v = if k % 2 = 0 then k else k + 1 := by
  simp only [roundTo, hfloor, h, lt_irrefl, if_false]
end

/-! ## The rounding of a magnitude -/

section
variable {t : ℚ} {r : Rest} (f : Nat)

theorem Rest.Holds.bounds (h : r.Holds t) (hr : r ≠ .exact) : 0 < t ∧ t < 1 := by
  cases r with
  | exact => exact absurd rfl hr
  | below => exact ⟨h.1, by linarith [h.2]⟩
  | half =>
    obtain rfl : t = 1 / 2 := h
    norm_num
  | above => exact ⟨by linarith [h.1], h.2⟩

theorem roundUp_exact (m : RMode) (neg : Bool) : roundUp m neg f .exact = f := by cases m <;> rfl

/-- The directed modes do not look at the place of an inexact rest. -/
theorem roundUp_directed (neg : Bool) (hr : r ≠ .exact) :
    roundUp .rtz neg f r = f ∧ roundUp .rdn neg f r = (if neg then f + 1 else f) ∧ roundUp .rup neg f r = (if neg then f else f + 1) := by
  cases r with
  | exact => exact absurd rfl hr
  | below | half | above => exact ⟨rfl, rfl, rfl⟩

/-- Half a unit above a magnitude lies the integer that is nearest to it, ties away from zero. -/
theorem floor_add_half (neg : Bool) (h : r.Holds t) : ⌊(f : ℚ) + t + 1 / 2⌋ = roundUp .rmm neg f r := by
  have hnext : (f : ℚ) + t + 1 / 2 = (f + 1 : Nat) + (t - 1 / 2) := by push_cast; ring
  cases r with
  | exact =>
    obtain rfl : t = 0 := h
    rw [add_zero]
    exact floor_add_fraction f (by norm_num) (by norm_num)
  | below =>
    rw [add_assoc]
    exact floor_add_fraction f (by linarith [h.1]) (by linarith [h.2])
  | half =>
    obtain rfl : t = 1 / 2 := h
    rw [hnext]
    exact floor_add_fraction (f + 1) (by norm_num) (by norm_num)
  | above =>
    rw [hnext]
    exact floor_add_fraction (f + 1) (by linarith [h.1]) (by linarith [h.2])

/-- A magnitude with a plus sign. -/
theorem roundTo_add_fraction (m : RMode) (h : r.Holds t) : roundTo m ((f : ℚ) + t) = roundUp m false f r := by
  by_cases hr : r = .exact
  · subst hr
    obtain rfl : t = 0 := h
    rw [add_zero, roundUp_exact]
    exact roundTo_intCast m f
  obtain ⟨h0, h1⟩ := h.bounds hr
  obtain ⟨hrtz, hrdn, hrup⟩ := roundUp_directed f false hr
  have hfloor := floor_add_fraction f h0.le h1
  have hceil := ceil_add_fraction f h0 h1.le
  have hpos : ¬(f : ℚ) + t < 0 := not_lt.mpr (by positivity)
  cases m with
  | rtz => rw [hrtz]; exact (if_neg hpos).trans hfloor
  | rdn => rw [hrdn]; exact hfloor
  | rup => rw [hrup]; exact hceil
  | rne =>
    have hrest : (f : ℚ) + t - (f : Int) = t := by push_cast; ring
    cases r with
    | exact => exact absurd rfl hr
    | below => exact roundTo_rne_low hfloor (hrest.trans_lt h.2)
    | half =>
      rw [roundTo_rne_tie hfloor (hrest.trans h)]
      show _ = ((if f % 2 = 0 then f else f + 1 : Nat) : Int)
      split <;> split <;> omega
    | above => exact roundTo_rne_high hfloor (h.1.trans_eq hrest.symm)
  | rmm => exact (if_neg hpos).trans (floor_add_half f false h)

/-- A magnitude with a minus sign. -/
theorem roundTo_neg_add_fraction (m : RMode) (h : r.Holds t) : roundTo m (-((f : ℚ) + t)) = -(roundUp m true f r : Int) := by
  by_cases hr : r = .exact
  · subst hr
    obtain rfl : t = 0 := h
    rw [add_zero, roundUp_exact]
    exact_mod_cast roundTo_intCast m (-(f : Int))
  obtain ⟨h0, h1⟩ := h.bounds hr
  obtain ⟨hrtz, hrdn, hrup⟩ := roundUp_directed f true hr
  have hfloor : ⌊-((f : ℚ) + t)⌋ = -((f : Int) + 1) := by rw [Int.floor_neg, ceil_add_fraction f h0 h1.le]
  have hceil : ⌈-((f : ℚ) + t)⌉ = -(f : Int) := by rw [Int.ceil_neg, floor_add_fraction f h0.le h1]
  have hneg : -((f : ℚ) + t) < 0 := neg_lt_zero.mpr (by positivity)
  cases m with
  | rtz => rw [hrtz]; exact (if_pos hneg).trans hceil
  | rdn => rw [hrdn]; exact hfloor
  | rup => rw [hrup]; exact hceil
  | rne =>
    have hrest : -((f : ℚ) + t) - (-((f : Int) + 1) : Int) = 1 - t := by push_cast; ring
    cases r with
    | exact => exact absurd rfl hr
    | below =>
      rw [roundTo_rne_high hfloor (by linarith [h.2])]
      show -((f : Int) + 1) + 1 = -(f : Int)
      ring
    | half =>
      obtain rfl : t = 1 / 2 := h
      rw [roundTo_rne_tie hfloor (by linarith)]
      show _ = -((if f % 2 = 0 then f else f + 1 : Nat) : Int)
      split <;> split <;> omega
    | above => exact roundTo_rne_low hfloor (hrest.trans_lt (by linarith [h.1]))
  | rmm =>
    have hmode : roundTo .rmm (-((f : ℚ) + t)) = ⌈-((f : ℚ) + t) - 1 / 2⌉ := if_pos hneg
    rw [hmode, ← neg_add', Int.ceil_neg, floor_add_half f true h]
end

/-! ## Conversion to an integer -/

section
variable {a : FVal} {p : ℚ}

/-- A quotient by its floor and its rest. -/
theorem div_eq_floor_add (n : Nat) {d : Nat} (hd : 0 < d) : (n : ℚ) / d = (n / d : Nat) + ((n % d : Nat) : ℚ) / d := by
  have hne : (d : ℚ) ≠ 0 := by exact_mod_cast hd.ne'
  rw [div_eq_iff hne, add_mul, div_mul_cancel₀ _ hne]
  exact_mod_cast (Nat.div_add_mod' n d).symm

/-- The model rounds a finite value as the number that it is. -/
theorem toIntV_eq_roundTo (m : RMode) (neg : Bool) (s : Nat) (e : Int) : toIntV m neg s e = roundTo m (signed neg s * 2 ^ e) := by
  have hd := scaleDen_pos (k := e) one_pos
  have hrest := restOf_holds (Nat.mod_lt (scaleNum s e) hd)
  have hmagnitude := (scale_ratio_dyadic s e).symm.trans (div_eq_floor_add (scaleNum s e) hd)
  cases neg with
  | false =>
    show _ = roundTo m (((s : Int) : ℚ) * 2 ^ e)
    rw [Int.cast_natCast, hmagnitude, roundTo_add_fraction _ m hrest]
    rfl
  | true =>
    show _ = roundTo m (((-(s : Int) : Int) : ℚ) * 2 ^ e)
    rw [Int.cast_neg, Int.cast_natCast, neg_mul, hmagnitude, roundTo_neg_add_fraction _ m hrest]
    rfl

/-- Nothing is dropped exactly where the number is its own rounding. -/
theorem scale_exact_iff (m : RMode) (neg : Bool) (s : Nat) (e : Int) :
    scaleNum s e % scaleDen 1 e = 0 ↔ (roundTo m (signed neg s * 2 ^ e) : ℚ) = signed neg s * 2 ^ e := by
  have hd : (scaleDen 1 e : ℚ) ≠ 0 := by exact_mod_cast (scaleDen_pos one_pos).ne'
  have hvalue : (signed neg s * 2 ^ e : ℚ) * scaleDen 1 e = signed neg (scaleNum s e) := by
    rw [signed_cast, signed_cast, mul_assoc _ (s : ℚ), ← scale_ratio_dyadic, mul_assoc, div_mul_cancel₀ _ hd]
  constructor
  · intro h
    obtain ⟨k, hk⟩ := Nat.dvd_of_mod_eq_zero h
    have hint : (signed neg s * 2 ^ e : ℚ) = (signed neg k : Int) := by
      rw [← mul_right_cancel_iff_of_pos (lt_of_le_of_ne (Nat.cast_nonneg _) hd.symm), hvalue, hk, signed_cast, signed_cast]
      push_cast
      ring
    rw [hint, roundTo_intCast]
  · intro h
    rw [← h] at hvalue
    have hdvd : (scaleDen 1 e : Int) ∣ signed neg (scaleNum s e) := ⟨_, (by exact_mod_cast hvalue.symm.trans (mul_comm _ _))⟩
    refine Nat.mod_eq_zero_of_dvd (Int.natCast_dvd_natCast.mp ?_)
    cases neg with
    | false => exact hdvd
    | true => exact (Int.dvd_neg).mp hdvd

/-- The bounds of an integer type, and how a register holds a result of its width. -/
def intLow (sgn : Bool) (w : Nat) : Int := if sgn then -(2 ^ (w - 1)) else 0
def intHigh (sgn : Bool) (w : Nat) : Int := if sgn then 2 ^ (w - 1) - 1 else 2 ^ w - 1
def intX (w : Nat) (i : Int) : Dword := if w = 32 then (BitVec.ofInt 32 i).signExtend 64 else BitVec.ofInt 64 i

theorem fcvtInt_of_num (h : a.num = some p) (m : RMode) (sgn : Bool) (w : Nat) :
    fcvtInt m sgn w a =
      if roundTo m p < intLow sgn w then (intX w (intLow sgn w), { nv := true })
      else if intHigh sgn w < roundTo m p then (intX w (intHigh sgn w), { nv := true })
      else (intX w (roundTo m p), { nx := decide ((roundTo m p : ℚ) ≠ p) }) := by
  obtain ⟨neg, s, e, rfl, rfl⟩ := num_eq_some h
  have hexact : (!decide (scaleNum s e % scaleDen 1 e = 0)) =
      decide ((roundTo m (signed neg s * 2 ^ e) : ℚ) ≠ signed neg s * 2 ^ e) := by
    rw [← decide_not, decide_eq_decide, scale_exact_iff m neg]
  rw [← toIntV_eq_roundTo] at hexact ⊢
  rw [← hexact]
  rfl

/-- A signed word that fits is its own sign extension. -/
theorem signExtend_ofInt_of_fits {i : Int} (hlo : -2 ^ 31 ≤ i) (hhi : i ≤ 2 ^ 31 - 1) : (BitVec.ofInt 32 i).signExtend 64 = wrap64 i := by
  rw [signExtend_eq_wrap32 i _ rfl, wrap32, wrap64, Int.bmod_eq_of_le (by omega) (by omega)]
end

section
variable {s : State} {rd rs1 : Reg} {rm : BitVec 3} {m : RMode} {i : Instr} {sgn : Bool} {w : Nat}

theorem finInt_alone (h : s.alone) :
    s.finInt rd rs1 m sgn w = s.floatResult rd (fcvtInt m sgn w (s.operand rs1)).1 (fcvtInt m sgn w (s.operand rs1)).2 := by
  rw [State.finInt, f_eq_operand, State.accrue, finX_setMe_alone h (by rfl), Slot.accrue, flagBits_eq]
  rfl

theorem withMode_legal (hmode : roundingMode rm s.me.csr.frm = some m) (e : Encoding) (f : RMode → State) : s.withMode rm e f = f m := by
  unfold State.withMode
  rw [rmodeOf_eq, hmode]

/-- A conversion to an integer type whose bounds are lo and hi and whose results in range a register holds as put says. -/
theorem exec_toInt {lo hi : Int} {put : Int → Dword} (halone : s.alone) (hmode : roundingMode rm s.me.csr.frm = some m)
    (hexec : exec i s = .next (s.withMode rm (encode i) fun m => s.finInt rd rs1 m sgn w)) (hlow : intLow sgn w = lo)
    (hhigh : intHigh sgn w = hi) (hle : lo ≤ hi) (hput : ∀ n, lo ≤ n → n ≤ hi → intX w n = put n) (p : ℚ)
    (hp : (s.operand rs1).num = some p) :
    exec i s = .next (if roundTo m p < lo then s.floatResult rd (put lo) { nv := true }
      else if hi < roundTo m p then s.floatResult rd (put hi) { nv := true }
      else s.floatResult rd (put (roundTo m p)) { nx := decide ((roundTo m p : ℚ) ≠ p) }) := by
  rw [hexec, withMode_legal hmode, finInt_alone halone, fcvtInt_of_num hp, hlow, hhigh]
  split
  next => rw [hput lo le_rfl hle]
  next hge =>
    split
    next => rw [hput hi hle le_rfl]
    next hle' => rw [hput _ (not_lt.mp hge) (not_lt.mp hle')]

/-! ## Conversion of an integer -/

theorem fmtSign_f32_toNat (neg : Bool) : fmtSign .f32 neg = neg.toNat * 2 ^ 31 := by cases neg <;> rfl

theorem fdecode_f32_normal {neg : Bool} {field sig : Nat} (hfield : field < 254) (hlow : 2 ^ 23 ≤ sig) (hhigh : sig < 2 ^ 24) :
    fdecode .f32 (fmtSign .f32 neg + (field * 2 ^ 23 + sig)) = .fin neg sig ((field : Int) - 149) := by
  have hneg := neg.toNat_lt
  have hbit : decide (2 ^ 31 ≤ neg.toNat * 2 ^ 31 + (field * 2 ^ 23 + sig)) = neg := by
    cases neg with
    | false => exact decide_eq_false (by rw [Bool.toNat_false]; omega)
    | true => exact decide_eq_true (by rw [Bool.toNat_true]; omega)
  rw [fmtSign_f32_toNat, fdecode_f32, if_neg (by omega), if_neg (by omega), testBit_sign (by omega), hbit]
  congr 1 <;> omega

/-- An integer of at most 24 bits and 2 to the 24 have a normal significand. -/
theorem exists_significand {n : Nat} (hn : n ≠ 0) (hle : n ≤ 2 ^ 24) :
    n.log2 ≤ 24 ∧ ∃ sig, 2 ^ 23 ≤ sig ∧ sig < 2 ^ 24 ∧ scaleNum n (-((n.log2 : Int) - 23)) = sig * scaleDen 1 (-((n.log2 : Int) - 23)) := by
  have hlow := Nat.log2_self_le hn
  rcases Nat.lt_or_ge n (2 ^ 24) with hlt | hge
  · have hlog : n.log2 ≤ 23 := Nat.lt_succ_iff.mp ((Nat.log2_lt hn).mpr hlt)
    obtain ⟨k, hk⟩ := Nat.exists_eq_add_of_le hlog
    have hexp : -((n.log2 : Int) - 23) = k := by omega
    have hpow : 2 ^ n.log2 * 2 ^ k = 2 ^ 23 := by rw [← Nat.pow_add, ← hk]
    have hhigh := Nat.mul_lt_mul_of_pos_right (Nat.lt_log2_self (n := n)) (Nat.two_pow_pos k)
    rw [Nat.pow_succ, Nat.mul_right_comm, hpow] at hhigh
    refine ⟨by omega, n * 2 ^ k, hpow ▸ Nat.mul_le_mul_right _ hlow, hhigh, ?_⟩
    rw [hexp, scaleNum, scaleDen, if_pos (Int.natCast_nonneg k), if_pos (Int.natCast_nonneg k), Int.toNat_natCast, Nat.mul_one]
  · obtain rfl : n = 2 ^ 24 := le_antisymm hle hge
    rw [Nat.log2_two_pow]
    exact ⟨le_rfl, 2 ^ 23, le_rfl, by decide, rfl⟩

/-- What is exact and below infinity is packed with no exception. -/
theorem packRound_f32_exact {q : Int} {sig : Nat} (m : RMode) (neg tiny : Bool) (h : (q + 149).toNat * 2 ^ 23 + sig < 0x7F800000) :
    packRound .f32 m neg q sig .exact tiny = ⟨fmtSign .f32 neg + ((q + 149).toNat * 2 ^ 23 + sig), {}⟩ := by
  unfold packRound
  simp only [roundUp_exact, expField_f32, fmtInf_f32, if_neg h.not_ge]
  rw [show (Rest.exact != .exact) = false from rfl, Bool.and_false]

theorem roundRat_f32_integer {n : Nat} (m : RMode) (neg : Bool) (hn : n ≠ 0) (hle : n ≤ 2 ^ 24) :
    ∃ bits, bits < 2 ^ 32 ∧ roundRat .f32 m neg n 1 = ⟨bits, {}⟩ ∧ (fdecode .f32 bits).num = some (signed neg n : ℚ) := by
  obtain ⟨hlog, sig, hlow, hhigh, hsig⟩ := exists_significand hn hle
  have hd := scaleDen_pos (d := 1) (k := -((n.log2 : Int) - 23)) one_pos
  have hfloor : floorLog2 n 1 = n.log2 := by
    have h := floorLog2_dyadic hn 0
    rwa [add_zero, show scaleNum n 0 = n from Nat.mul_one n] at h
  have hquantum : quantum .f32 (floorLog2 n 1) = (n.log2 : Int) - 23 := by rw [hfloor, quantum_f32]; omega
  obtain ⟨tiny, hround⟩ := roundRat_eq_packRound (mode := m) (neg := neg) hn hquantum
  rw [hsig, Nat.mul_div_cancel _ hd, Nat.mul_mod_left, show restOf 0 _ = .exact from rfl,
    packRound_f32_exact m neg tiny (by omega)] at hround
  have hvalue : (sig : ℚ) * 2 ^ ((n.log2 : Int) - 23) = n := by
    have hratio := scale_ratio n (d := 1) (-((n.log2 : Int) - 23))
    rw [hsig, Nat.cast_mul, mul_div_cancel_right₀ _ (by exact_mod_cast hd.ne'), Nat.cast_one, div_one] at hratio
    rw [hratio, mul_assoc, ← zpow_add₀ two_ne_zero, neg_add_cancel, zpow_zero, mul_one]
  refine ⟨_, ?_, hround, ?_⟩
  · have hneg := neg.toNat_lt
    rw [fmtSign_f32_toNat]
    omega
  · rw [fdecode_f32_normal (by omega) hlow hhigh, num_fin, signed_cast, signed_cast, mul_assoc, show
      (((n.log2 : Int) - 23 + 149).toNat : Int) - 149 = (n.log2 : Int) - 23 by omega, hvalue]

theorem ofIntV_f32_exact (m : RMode) {i : Int} (h : i.natAbs ≤ 2 ^ 24) :
    ∃ bits, bits < 2 ^ 32 ∧ ofIntV .f32 m i = ⟨bits, {}⟩ ∧ (fdecode .f32 bits).num = some (i : ℚ) := by
  by_cases hi : i = 0
  · subst hi
    exact ⟨0, by decide, rfl, by norm_num [fdecode_f32, FVal.num]⟩
  obtain ⟨bits, hlt, hround, hnum⟩ := roundRat_f32_integer m (decide (i < 0)) (Int.natAbs_ne_zero.mpr hi) h
  have hmodel : ofIntV .f32 m i = roundRat .f32 m (decide (i < 0)) i.natAbs 1 := by
    rw [ofIntV, roundDyadic, if_neg hi, show scaleNum i.natAbs 0 = i.natAbs from Nat.mul_one _]
    rfl
  have hsigned : signed (decide (i < 0)) i.natAbs = i := by
    unfold signed
    rcases lt_or_ge i 0 with hneg | hpos
    · rw [if_pos (decide_eq_true hneg)]; omega
    · rw [if_neg (by simpa using hpos)]; omega
  exact ⟨bits, hlt, hmodel.trans hround, hsigned ▸ hnum⟩

theorem exec_ofInt {n n' : Int} (halone : s.alone) (hmode : roundingMode rm s.me.csr.frm = some m)
    (hexec : exec i s = .next (s.withMode rm (encode i) fun m => s.finF rd (ofIntV .f32 m n'))) (hn : n' = n) (hle : n.natAbs ≤ 2 ^ 24) :
    ∃ bits, bits < 2 ^ 32 ∧ exec i s = .next (s.floatResult rd (inX bits) {}) ∧ (fdecode .f32 bits).num = some (n : ℚ) := by
  subst hn
  obtain ⟨bits, hlt, hround, hnum⟩ := ofIntV_f32_exact m hle
  refine ⟨bits, hlt, ?_, hnum⟩
  rw [hexec, withMode_legal hmode, finF_alone halone, hround]
end

/-- Settles O11: the conversions to an integer round the number once, and those of an integer of at most 24 bits are exact. -/
theorem floatConversions : Obligations.FloatConversions := by
  unfold Obligations.FloatConversions
  intro s rd rs1 rm m halone hmode
  exact ⟨exec_toInt (sgn := true) (w := 32) halone hmode rfl rfl rfl (by decide) fun _ hlo hhi => signExtend_ofInt_of_fits hlo hhi,
    exec_toInt (sgn := false) (w := 32) halone hmode rfl rfl rfl (by decide) fun n _ _ => signExtend_eq_wrap32 n _ rfl,
    exec_toInt (sgn := true) (w := 64) halone hmode rfl rfl rfl (by decide) fun _ _ _ => rfl,
    exec_toInt (sgn := false) (w := 64) halone hmode rfl rfl rfl (by decide) fun _ _ _ => rfl,
    exec_ofInt halone hmode rfl (lowW_toInt _), exec_ofInt halone hmode rfl (congrArg Nat.cast (lowW_toNat _)), exec_ofInt halone hmode rfl rfl,
    exec_ofInt halone hmode rfl rfl⟩

end Sys2Proof.Machine
end
